-- ==== Sys2Proof/Word.lean ====
section
/-!
DEFINITION. Words, bytes, sparse maps and the plain records that commands carry: the data types of the model that are not its state.
-/
namespace Sys2Proof

/-- A byte, as the wires and memories of the module hold it (R3). -/
abbrev Byte := BitVec 8
/-- A 64-bit word: a scalar register, a table word, a host register (R211, R417). -/
abbrev Word := BitVec 64
/-- Sparse data by number: strictly rising keys, no entry equal to the value an unlisted key holds. -/
abbrev SMap (α : Type) := List (Nat × α)
/-- A memory: one byte per listed address, strictly rising, no listed byte zero (an unlisted byte reads as zero, log 5). -/
abbrev Mem := List Host.Cell

/-- A packet: the traffic class it travels on (R74), its 32 B header as one bit vector (bit 0 of byte 0 is bit 0) and its payload (R139). -/
structure Packet where
  tc : Nat := 0
  hdr : BitVec 256 := 0
  payload : List Byte := []
  deriving DecidableEq, Repr

/-- Where a Yarpin instruction issues: a tile, a control thread (32 x control core + thread), or Chervil (R222). -/
inductive Site where
  | tile (t : Nat)
  | thread (h : Nat)
  | chervil
  deriving DecidableEq, Repr

/-- What a lane monitor delivers (Table 03-7). -/
structure LaneMon where
  /-- Eye heights in mV: upper, middle, lower. -/
  eyeU : Nat := 0
  eyeM : Nat := 0
  eyeL : Nat := 0
  /-- Width of the middle eye in 1/64 UI. -/
  width : Nat := 0
  /-- Pre-FEC symbol errors, and symbols received, in the interval. -/
  errors : Nat := 0
  symbols : Nat := 0
  /-- Codewords with 0 to 15 corrected symbols, then uncorrectable ones: 17 counts. -/
  hist : List Nat := []
  cdrLock : Bool := false
  amLock : Bool := false
  ctle : Nat := 0
  dfe : List Nat := []
  deriving DecidableEq, Repr

/-- What a host answers to reads the module made: the bytes it returned, and how the reads ended (Table 16-18). -/
inductive HostEnd where
  | ok | unsupported | timeout | poisoned
  deriving DecidableEq, Repr

/-- A host's answer to a run of reads. -/
structure HostAns where
  data : List Byte := []
  fin : HostEnd := .ok
  deriving DecidableEq, Repr

/-- The two moments of a DMA descriptor: a control thread posts it (R258), and the engine of its port carries it out with what the host answers (R444). -/
inductive DmaStep where
  | post (site : Site)
  | move (port : Nat) (ans : HostAns)
  deriving DecidableEq, Repr

/-- What the pool answered to reads that a service or a codec made: final status and the bytes read. -/
structure PoolAns where
  status : Nat := 0
  data : List Byte := []
  deriving DecidableEq, Repr

/-- A link-state record (R530, R544). -/
structure LinkRec where
  node : Nat := 0
  seq : Nat := 0
  /-- Trunk neighbours: endpoint code, neighbour node, usable. -/
  trunks : List (Nat × Nat × Bool) := []
  /-- Edge node IDs bound (R138). -/
  edges : List Nat := []
  discDone : Bool := false
  deriving DecidableEq, Repr

/-- A firmware image as FW_WRITE brings it (R472): its header fields, its body and its two signatures. -/
structure ImageReq where
  image : Nat := 0
  ver : Nat := 0
  svn : Nat := 0
  body : List Byte := []
  ecdsa : List Byte := []
  hss : List Byte := []
  deriving DecidableEq, Repr

/-- A bundle as ADMIT_BUNDLE brings it (R320, R490, R491). -/
structure BundleReq where
  svc : Nat := 0
  bver : Nat := 0
  compat : Nat := 0
  svn : Nat := 0
  signer : Nat := 0
  body : List Byte := []
  ecdsa : List Byte := []
  hss : List Byte := []
  /-- Contexts the request names. -/
  ctxs : List Nat := []
  /-- Tile programs: PROG and VER. -/
  progs : List (Nat × Nat) := []
  /-- Claim: control threads, clusters, Peridot entries, near-tier bytes. -/
  threads : Nat := 0
  clusters : Nat := 0
  peridot : Nat := 0
  near : Nat := 0
  /-- Mailbox thread, mailbox depth exponent, control cores used (Table 11-2). -/
  mbox : Nat := 0
  qlog2 : Nat := 4
  ccmask : Nat := 0
  deriving DecidableEq, Repr

/-- What SET_POLICY sets (R422, R473, R535, R563, R574). -/
inductive Policy where
  | svnFloor (item : Nat) (svn : Nat)
  | ownLease (ms : Nat)
  | power (cap : Nat) (dozeEn : Bool) (dozeV : Nat)
  | sleep
  | run
  | profile (bytes : List Byte)
  deriving DecidableEq, Repr

/-- What a read that is checked meets (R500, R503): an HBM line, or a word of a buffer bank (one no packet holds, or a 32 B word of a cell in use), of the link table, of a queue's pointers, of the home line buffer, of tile scratch, of a descriptor, of a committed table, of the snoop filter, of a Peridot bank, or of a cluster's program store. -/
inductive PatrolAt where
  | hbm (line : Nat)
  | bank (bank : Nat)
  | cell (index : Nat) (word : Nat)
  | link (cell : Nat)
  | queue (key : Nat)
  | lineBuffer (line : Nat)
  | scratch (tile : Nat) (word : Nat)
  | descriptor (slot : Nat)
  | table (id : Nat) (index : Nat)
  | filter (die : Nat) (word : Nat)
  | peridot (bank : Nat)
  | store (cluster : Nat) (word : Nat)
  deriving DecidableEq, Repr

/-- What the read found: nothing, a corrected word, an uncorrectable word. -/
inductive EccSeen where
  | clean | corrected | uncorrectable
  deriving DecidableEq, Repr

end Sys2Proof
end

