-- ==== Sys2Proof/Syntax.lean ====
section
/-!
DEFINITION. The commands: one constructor per row of spec/opcode_table.json, in the order of the table.
A command names the unit that acts, or carries what reaches the module from outside with it; see INVENTORY.md, Instructions.
-/
namespace Sys2Proof

/-- A command of the block. -/
inductive Instr where
  /-- TEMP_SAMPLE (R556). Every 100 us Chervil samples and filters the junction temperature sensors and acts on the filtered values. Operands: readings of the 51 junction sensors in order, 1/16 degrees C; none is no reading. -/
  | tempSample (readings : List (Option Int))
  /-- DELAY_CODE_APPLY (R40). A pending delay code takes effect at a quiet point of its stage, within 500 ns of a bin change. Operands: delay line of State (0-31 clusters, 32-33 crossbar halves, 34-289 tiles, 290-293 lookup pipelines, 294-295 crossbar ports, 296-327 spare tiles). -/
  | delayCodeApply (line : Nat)
  /-- DROOP_DETECT (R46). A droop sensor sees the core rail below the droop threshold, and issue of the governed tiles and lookups falls to 50 % within 4 ns. Operands: droop sensor 0-31 clusters, 32-33 crossbar halves, and the core rail it reads, mV. -/
  | droopDetect (sensor mv : Nat)
  /-- RESTORE_STEP (R47). After one dwell time at or above the restore level, the pacer raises issue by 12.5 %, up to 100 % or the power-cap limit. Operands: droop sensor 0-31 clusters, 32-33 crossbar halves. -/
  | restoreStep (sensor : Nat)
  /-- POWER_CAP_TICK (R49). Every 100 us Chervil compares filtered power with the cap and moves the cap limit of each core die by 1/64. -/
  | powerCapTick
  /-- THERMAL_LIMIT_TICK (R566). Every 100 us Chervil lowers, raises or holds each core die's thermal limit from the hottest of that die and its port dies. -/
  | thermalLimitTick
  /-- THERMAL_PORT_SHED (R566). A port die held at 105 °C or above for 1 s with lookups at 16/64 has a fabric port taken to DOWN every 100 ms until it cools. Operands: port die 0-3. -/
  | thermalPortShed (die : Nat)
  /-- THERMAL_PORT_RESTORE (R566). Once a port die has stayed below 95 °C for 10 s, ports shed for heat train again from TRAIN_R. Operands: port die 0-3. -/
  | thermalPortRestore (die : Nat)
  /-- HBM_TEMP_SAMPLE (R564). Every 1 ms the HBM stack temperature is sampled; at 95 °C the stack's HBM port is limited to 50 % and HBM_HOT is raised, and the limit is released below 90 °C. Operands: readings of M0-M3, 1/16 degrees C. -/
  | hbmTempSample (readings : List (Option Int))
  /-- INPUT_SAMPLE (R571). Every 10 us the input voltage and current are sampled, and INPUT_HIGH, INPUT_LOW or a converter stop follow from the limits. Operands: input voltage in mV and current in 0.1 A, none for no reading. -/
  | inputSample (mv da : Option Int)
  /-- INPUT_RECOVER (R571). Once the input has stayed within 48-66 V for 100 ms, the port and core dies leave reset. -/
  | inputRecover
  /-- PHASE_SAMPLE (R556). Every 10 us the current and temperature of each buck phase and the voltage of each rail are sampled and filtered. Operands: per phase: current in 0.1 A, temperature in degrees C, loss of regulation for 10 us; then the five rail voltages in mV. -/
  | phaseSample (phases : List (Int × Int × Bool)) (rails : List Int)
  /-- HEARTBEAT_CHECK (R560). Every 10 ms Chervil checks the heartbeats of the Carnelian cores and control cores, raises HEARTBEAT and requests a control restart after 100 ms without one. Operands: cores that gave a heartbeat since the last check: 0-7 control cores, 8 and 9 Carnelian-A and -B. -/
  | heartbeatCheck (seen : List Nat)
  /-- LEASE_PROGRESS_CHECK (R560). Every 1 ms Chervil checks lease-scan progress and raises LEASE_STALL at 10 ms without a completed LSCAN. -/
  | leaseProgressCheck
  /-- THERMAL_TRIP (R567). A 115 °C comparator trips; THERMTRIP_L is asserted within 100 us and a core reset without departure starts. Operands: sensor whose comparator tripped. -/
  | thermalTrip (sensor : Nat)
  /-- THERMAL_TRIP_CLEAR (R567). When every sensor of the port and core dies reads below 90 °C and MRESET_L is high, THERMTRIP_L is released and steps 5 and 6 of Table 20-7 run. -/
  | thermalTripClear
  /-- DOZE_ENTER (R572). With DOZE_EN set, every slot FREE and ingress below 10 % for 100 ms, the core rails go to DOZE_V and clusters are power-gated. Operands: time in ns for which ingress has stayed below 10 % of capacity. -/
  | dozeEnter (quietNs : Nat)
  /-- DOZE_WAKE (R573). Ingress above 25 % over 10 us or a slot descriptor write starts the wake from DOZE, with PSTATE waking. Operands: ingress as a percentage of capacity. -/
  | dozeWake (loadPct : Nat)
  /-- WAKE_COMPLETE (R573). Rails reach their set points and clusters are powered; PSTATE becomes RUN and held slot writes are accepted. -/
  | wakeComplete
  /-- SLEEP_ENTER (R574). A SET_POLICY requesting SLEEP makes the module depart, hold the port and core dies unpowered and put HBM into self-refresh. -/
  | sleepEnter
  /-- SLEEP_EXIT (R574). A SET_POLICY requesting RUN or MRESET_L ends SLEEP, and steps 5 and 6 of Table 20-7 run. -/
  | sleepExit
  /-- FOLLOWER_CHECK (R54). Every 1 ms Chervil compares each follower counter with the reference counter. Operands: offset in ns of each of the six followers from the reference counter. -/
  | followerCheck (offsets : List Int)
  /-- HOLDOVER_ENTER (R56). FREFCLK has no edge for 50 ns; module time continues from the free-running oscillator, HOLDOVER is set and a critical record is written. -/
  | holdoverEnter
  /-- HOLDOVER_EXIT (R56). FREFCLK returns and counting resumes from it without a step. -/
  | holdoverExit
  /-- LINK_FRAME_RECEIVE (R72). A link frame is received whole, checked for CRC, sequence, tag and form, and its group is released or discarded with a NAK. Operands: endpoint code of the port; the 256 bytes of the frame. -/
  | linkFrameReceive (port : Nat) (frame : List Byte)
  /-- CONTROL_FRAME_RECEIVE (R69). A control frame is received and its acknowledgement, NAK, credits, lane change, key update and health block are applied. Operands: endpoint code of the port; the 256 bytes of the frame. -/
  | controlFrameReceive (port : Nat) (frame : List Byte)
  /-- CONTROL_FRAME_SEND (R70). The transmitter sends a control frame after 64 data frames, within 1 us while it has something to return, or at once for a NAK or lane change. Operands: endpoint code of the port. -/
  | controlFrameSend (port : Nat)
  /-- ACK_TIMEOUT_REPLAY (R73). ACK_SEQ has not advanced for 4 us and the oldest unacknowledged group is replayed; after eight replays the port goes to TRAIN_F. Operands: endpoint code of the port. -/
  | ackTimeoutReplay (port : Nat)
  /-- KEY_UPDATE_START (R80). Before 2^40 groups or 24 hours under one key, the module announces a key update for its transmit direction. Operands: endpoint code of the port. -/
  | keyUpdateStart (port : Nat)
  /-- SIGNAL_DETECT (R82). A DOWN port with ADMIN_UP 1 finds signal present and starts TRAIN_R. Operands: endpoint code of the port. -/
  | signalDetect (port : Nat)
  /-- TRAIN_R_DONE (R82). Training at 56 Gb/s succeeds and the port enters REDUCED. Operands: endpoint code of the port. -/
  | trainRDone (port : Nat)
  /-- TRAIN_R_TIMEOUT (R82). TRAIN_R has not succeeded in 0.8 s and the port returns to DOWN. Operands: endpoint code of the port. -/
  | trainRTimeout (port : Nat)
  /-- TRAIN_F_START (R84). Full-rate bring-up or a command starts training the first half of a REDUCED port at 224 Gb/s. Operands: endpoint code of the port. -/
  | trainFStart (port : Nat)
  /-- TRAIN_F_HALF_DONE (R84). A half completes full-rate training; traffic moves to it and the other half trains, or the port becomes UP. Operands: endpoint code of the port. -/
  | trainFHalfDone (port : Nat)
  /-- TRAIN_F_TIMEOUT (R83). TRAIN_F has not succeeded in 1.1 s and the port returns to REDUCED, flushing TC1-TC5 and TC7 when entered under R73. Operands: endpoint code of the port. -/
  | trainFTimeout (port : Nat)
  /-- LANE_MONITOR_SAMPLE (R85). Every 1 ms each lane monitor delivers eye, error and FEC figures to Chervil. Operands: global lane; what its monitor delivered. -/
  | laneMonitorSample (lane : Nat) (mon : LaneMon)
  /-- MARGIN_SCAN (R85). Every 10 s the second sampler of a lane sweeps the eye for a full margin scan. Operands: global lane. -/
  | marginScan (lane : Nat)
  /-- LANE_CLASSIFY (R86). Once per millisecond Chervil classes each lane Good, Marginal, Failing or Failed and starts the action of Table 03-8. Operands: global lane. -/
  | laneClassify (lane : Nat)
  /-- LANE_FAILED (R86). Loss of CDR, signal or alignment-marker lock lasts 1 us and the lane is declared Failed. Operands: global lane. -/
  | laneFailed (lane : Nat)
  /-- LANE_SWAP (R88). A hot spare takes the position of a lane at the announced SEQ and the replaced lane is retired. Operands: endpoint code of the port. -/
  | laneSwap (port : Nat)
  /-- LANE_NARROW (R89). A port halves its lanes onto the healthy lanes with the lowest global numbers, or goes DOWN with none. Operands: endpoint code of the port. -/
  | laneNarrow (port : Nat)
  /-- LANE_WIDEN (R89). A narrowed port widens onto a Good hot spare and returns toward UP. Operands: endpoint code of the port. -/
  | laneWiden (port : Nat)
  /-- RETIRED_LANE_RETRAIN (R91). A retired lane that is not Failed is retrained in the background every 10 s, at most three times. Operands: global lane; the retrain succeeded. -/
  | retiredLaneRetrain (lane : Nat) (trained : Bool)
  /-- HOT_SPARE_RESTORE (R91). A retrained lane that has stayed Good for 60 s becomes a hot spare for its port. Operands: global lane. -/
  | hotSpareRestore (lane : Nat)
  /-- PORT_FENCE (R94). A violation threshold is reached with FENCE_EN 1; the port goes FENCED, an event is recorded and a FENCE NBRMSG is sent. Operands: endpoint code of the port; row of Table 03-10 in table order from 0. -/
  | portFence (port : Nat) (row : Nat)
  /-- INGRESS_LOOKUP (R96). A packet is looked up: checks of Table 03-10, epoch, key generation and range, then an egress, group, tile or NAK outcome. Operands: ingress endpoint number; virtual lane, which is the class. -/
  | ingressLookup (ep : Nat) (vl : Nat)
  /-- PARKED_TAKE (R106). An egress queue below its threshold takes parked head packets from ingress ports in round-robin. Operands: endpoint number and class of the queue. -/
  | parkedTake (ep : Nat) (cls : Nat)
  /-- POLICER_RETEST (R117). A red lossless packet parked at its FIFO head is evaluated again when a bucket gains enough tokens. Operands: endpoint number and class of the queue. -/
  | policerRetest (ep : Nat) (cls : Nat)
  /-- INTERNAL_SEND_ADMIT (R109). A stalled send of a tile, control core or internal source is admitted once threshold and pool allow, or from the collective reserve. Operands: endpoint number and class of the queue. -/
  | internalSendAdmit (ep : Nat) (cls : Nat)
  /-- EGRESS_SEND (R121). An egress endpoint picks TC6 or the eligible WFQ queue with the smallest start tag and starts sending its head packet. Operands: endpoint number. -/
  | egressSend (ep : Nat)
  /-- DECODE_TABLE_LOAD (R28). A decode table not cached is loaded into the port die's cache and the waiting block's queue resumes. Operands: port die; table slot. -/
  | decodeTableLoad (die : Nat) (slot : Nat)
  /-- GATE_ENTRY_ADVANCE (R125). Module time reaches the end of a gate list entry or cycle, and the open set of the port's gates changes. Operands: endpoint number. -/
  | gateEntryAdvance (ep : Nat)
  /-- GATE_LIST_SWITCH (R128). A committed gate list change takes effect at the start of the first cycle of the new list after the flip. Operands: endpoint number. -/
  | gateListSwitch (ep : Nat)
  /-- PORT_FLUSH (R129). A port that goes down has its queues unlinked and its packets walked and answered PATH_LOST or discarded. Operands: endpoint number. -/
  | portFlush (ep : Nat)
  /-- TELEMETRY_SAMPLE (R134). At each sample period boundary DEPTH_NOW and DELAY_NOW of sampled queues are refreshed. Operands: core die. -/
  | telemetrySample (die : Nat)
  /-- RD64 (R166). The home applies a one-line read in line order and returns RDRSP from the line buffer or HBM. Operands: core die. -/
  | rd64 (die : Nat)
  /-- RDN (R166). The home applies a read of NL + 1 consecutive lines and returns one RDRSP. Operands: core die. -/
  | rdn (die : Nat)
  /-- WR64 (R167). The home replaces a buffered line with a full-line write and answers WRRSP OK. Operands: core die. -/
  | wr64 (die : Nat)
  /-- WRN (R167). The home writes NL + 1 full lines into the line buffer and answers WRRSP. Operands: core die. -/
  | wrn (die : Nat)
  /-- WRP (R167). The home merges the BMASK bytes into a line, answering POISON for a poisoned line. Operands: core die. -/
  | wrp (die : Nat)
  /-- LINE_WRITEBACK (R167). A buffered line idle for 1 us, or whose entry is needed, is written to HBM. Operands: tier-space line number. -/
  | lineWriteback (line : Nat)
  /-- LEASE_EXPIRE (R154). Module time reaches LEASE_END of an ACTIVE extent and it becomes GRACE. Operands: extent index. -/
  | leaseExpire (ext : Nat)
  /-- LEASE_LAPSE (R156). Module time reaches LEASE_END plus grace; the lease manager stages REVOKING on every holding module and commits. Operands: extent index. -/
  | leaseLapse (ext : Nat)
  /-- DRAIN_COMPLETE (R160). INFLIGHT of a REVOKING extent reaches zero and no page is MIGRATING, so its drain is complete. Operands: extent index. -/
  | drainComplete (ext : Nat)
  /-- DRAIN_FORCED (R160). PATH_BOUND has passed since the REVOKING flip; INFLIGHT is set to zero and the abandoned count recorded. Operands: extent index. -/
  | drainForced (ext : Nat)
  /-- REQUEST_TIMEOUT (R163). A module request has no response within the context timeout; it is retried or its final status is TIMEOUT. Operands: tag of MODULE_NODE. -/
  | requestTimeout (tag : Nat)
  /-- REQUEST_RETRY (R163). After a BUSY_RETRY back-off or PATH_BOUND for an unanswered write, the module sends the retry with a new tag. Operands: tag of MODULE_NODE. -/
  | requestRetry (tag : Nat)
  /-- RDS (R180). The home takes a read-shared request, snoops an E or M holder, and grants S or E. Operands: core die. -/
  | rds (die : Nat)
  /-- RDX (R180). The home takes a read-exclusive or upgrade, invalidates other holders, and grants M by DATA or CMP. Operands: core die. -/
  | rdx (die : Nat)
  /-- WB (R180). The home takes an eviction, writing M data or noting a clean eviction, and answers CMP. Operands: core die. -/
  | wb (die : Nat)
  /-- SNOOP_ANSWER (R180). A DATA or CMP answer to a snoop is received, its data written to the line buffer and the transaction answered once complete. Operands: core die. -/
  | snoopAnswer (die : Nat)
  /-- SNOOP_TIMEOUT (R182). A snoop unanswered for SNOOP_LIMIT makes the agent SUSPECT, answers the requester BUSY_RETRY and closes the transaction. Operands: core die; tier-space line number. -/
  | snoopTimeout (die : Nat) (line : Nat)
  /-- PIN_RETRY (R187). A request blocked by a fully pinned set is retried on each close in the set and at least every 200 ns, and after 32 retries answered BUSY_RETRY. Operands: core die; tier-space line number. -/
  | pinRetry (die : Nat) (line : Nat)
  /-- AGENT_RECLAIM (R189). A DEAD agent's snoops are closed and its filter entries walked, poisoning M lines and clearing S and E records. Operands: agent number. -/
  | agentReclaim (agent : Nat)
  /-- OP_CREATE (R196). A control thread's TWR of a descriptor and record creates an operation if every condition holds, raising START. Operands: issuing site. -/
  | opCreate (site : Site)
  /-- OP_REBIND (R218). A control thread rebinds a LIVE operation to another RESIDENT version meeting COMPAT. Operands: issuing site. -/
  | opRebind (site : Site)
  /-- OPBLK (R199). A payload block reaches a tile's stream unit, is tested against the slot and staged, raising BLOCK and possibly ALL. Operands: logical tile. -/
  | opblk (tile : Nat)
  /-- OPMSG (R199). A message reaches a tile's stream unit, is tested against the slot and staged, raising MSG. Operands: logical tile. -/
  | opmsg (tile : Nat)
  /-- CBLK (R299). A collective block at its module is checked against its spray entry and delivered to a target operation as an OPBLK. -/
  | cblk
  /-- FETCH_RESPONSE (R201). The RDRSP of a FETCH is delivered to its operation as a BLOCK with FETCHED and its status. Operands: logical tile. -/
  | fetchResponse (tile : Nat)
  /-- STORE_RESPONSE (R201). The WRRSP of a STORE lowers OUTSTANDING, raising FAULT STORE if its status is not OK. Operands: logical tile. -/
  | storeResponse (tile : Nat)
  /-- HANDLER_START (R205). The tile scheduler picks the next pending event and starts its handler with s0-s6 loaded and the event word in s7. Operands: logical tile. -/
  | handlerStart (tile : Nat)
  /-- STEP_LIMIT (R206). A 257th instruction would execute; it is not executed and FAULT with cause STEP is raised. Operands: logical tile. -/
  | stepLimit (tile : Nat)
  /-- TIMER_EXPIRE (R208). Module time reaches an operation's DEADLINE; the TIMER event is raised and DEADLINE becomes all ones. Operands: module-wide slot number. -/
  | timerExpire (slot : Nat)
  /-- SLOT_COOLING (R195). An ENDING slot whose requests and sends are complete enters COOLING, releases its window, sends the completion event and raises GEN. Operands: module-wide slot number. -/
  | slotCooling (slot : Nat)
  /-- SLOT_FREE (R194). A slot returns to FREE 100 us after entering COOLING. Operands: module-wide slot number. -/
  | slotFree (slot : Nat)
  /-- PROGRAM_LOAD_DONE (R217). A loaded program version becomes RESIDENT when its words hash to the admitted bundle's digest, or is abandoned to EMPTY. Operands: cluster; entry of its program table. -/
  | programLoadDone (cluster : Nat) (entry : Nat)
  /-- SMOV (R239). Moves a register or immediate into a scalar register. Operands: issuing site; the word at its program counter is executed. -/
  | smov (site : Site)
  /-- SMOVH (R239). Writes IMM into the high 32 bits of a scalar register. Operands: issuing site; the word at its program counter is executed. -/
  | smovh (site : Site)
  /-- SADD (R239). Scalar sum modulo 2^64. Operands: issuing site; the word at its program counter is executed. -/
  | sadd (site : Site)
  /-- SSUB (R239). Scalar difference modulo 2^64. Operands: issuing site; the word at its program counter is executed. -/
  | ssub (site : Site)
  /-- SMUL (R239). Low 64 bits of a scalar product. Operands: issuing site; the word at its program counter is executed. -/
  | smul (site : Site)
  /-- SAND (R239). Scalar bitwise and. Operands: issuing site; the word at its program counter is executed. -/
  | sand (site : Site)
  /-- SOR (R239). Scalar bitwise or. Operands: issuing site; the word at its program counter is executed. -/
  | sor (site : Site)
  /-- SXOR (R239). Scalar bitwise exclusive or. Operands: issuing site; the word at its program counter is executed. -/
  | sxor (site : Site)
  /-- SSHL (R239). Scalar shift left. Operands: issuing site; the word at its program counter is executed. -/
  | sshl (site : Site)
  /-- SSHR (R239). Scalar logical shift right. Operands: issuing site; the word at its program counter is executed. -/
  | sshr (site : Site)
  /-- SSRA (R239). Scalar arithmetic shift right. Operands: issuing site; the word at its program counter is executed. -/
  | ssra (site : Site)
  /-- SMIN (R239). Scalar signed minimum. Operands: issuing site; the word at its program counter is executed. -/
  | smin (site : Site)
  /-- SMAX (R239). Scalar signed maximum. Operands: issuing site; the word at its program counter is executed. -/
  | smax (site : Site)
  /-- SLD (R239). Loads 8 B from scratch or data memory into a scalar register. Operands: issuing site; the word at its program counter is executed. -/
  | sld (site : Site)
  /-- SST (R239). Stores 8 B of a scalar register to scratch or data memory. Operands: issuing site; the word at its program counter is executed. -/
  | sst (site : Site)
  /-- SEXT (R239). Extracts one 64-bit word of a vector register into a scalar register. Operands: issuing site; the word at its program counter is executed. -/
  | sext (site : Site)
  /-- STIME (R239). Reads module time into a scalar register on a control core or Chervil. Operands: issuing site; the word at its program counter is executed. -/
  | stime (site : Site)
  /-- BR (R240). Unconditional branch by a signed word offset. Operands: issuing site; the word at its program counter is executed. -/
  | br (site : Site)
  /-- BR_EQ (R240). Branch when equal. Operands: issuing site; the word at its program counter is executed. -/
  | brEq (site : Site)
  /-- BR_NE (R240). Branch when not equal. Operands: issuing site; the word at its program counter is executed. -/
  | brNe (site : Site)
  /-- BR_LT (R240). Branch when less, signed. Operands: issuing site; the word at its program counter is executed. -/
  | brLt (site : Site)
  /-- BR_GE (R240). Branch when greater or equal, signed. Operands: issuing site; the word at its program counter is executed. -/
  | brGe (site : Site)
  /-- BR_LTU (R240). Branch when less, unsigned. Operands: issuing site; the word at its program counter is executed. -/
  | brLtu (site : Site)
  /-- BR_GEU (R240). Branch when greater or equal, unsigned. Operands: issuing site; the word at its program counter is executed. -/
  | brGeu (site : Site)
  /-- BRP_ANY (R240). Branch when any bit of a predicate is set. Operands: issuing site; the word at its program counter is executed. -/
  | brpAny (site : Site)
  /-- BRP_NONE (R240). Branch when no bit of a predicate is set. Operands: issuing site; the word at its program counter is executed. -/
  | brpNone (site : Site)
  /-- CALL (R240). Pushes the return address and branches. Operands: issuing site; the word at its program counter is executed. -/
  | call (site : Site)
  /-- RET (R240). Pops the return stack, or ends the handler when it is empty. Operands: issuing site; the word at its program counter is executed. -/
  | ret (site : Site)
  /-- VADD (R241). Element-wise vector addition. Operands: issuing site; the word at its program counter is executed. -/
  | vadd (site : Site)
  /-- VSUB (R241). Element-wise vector subtraction. Operands: issuing site; the word at its program counter is executed. -/
  | vsub (site : Site)
  /-- VMUL (R241). Element-wise vector multiplication. Operands: issuing site; the word at its program counter is executed. -/
  | vmul (site : Site)
  /-- VFMA (R241). Fused multiply-add with vD as addend and one rounding. Operands: issuing site; the word at its program counter is executed. -/
  | vfma (site : Site)
  /-- VMAX (R270). Element-wise maximum. Operands: issuing site; the word at its program counter is executed. -/
  | vmax (site : Site)
  /-- VMIN (R270). Element-wise minimum. Operands: issuing site; the word at its program counter is executed. -/
  | vmin (site : Site)
  /-- VCVT (R243). Converts a PART of elements between formats, with scales for MX formats. Operands: issuing site; the word at its program counter is executed. -/
  | vcvt (site : Site)
  /-- VAND (R241). Vector bitwise and. Operands: issuing site; the word at its program counter is executed. -/
  | vand (site : Site)
  /-- VOR (R241). Vector bitwise or. Operands: issuing site; the word at its program counter is executed. -/
  | vor (site : Site)
  /-- VXOR (R241). Vector bitwise exclusive or. Operands: issuing site; the word at its program counter is executed. -/
  | vxor (site : Site)
  /-- VSHL (R241). Vector integer shift left by IMM. Operands: issuing site; the word at its program counter is executed. -/
  | vshl (site : Site)
  /-- VSHR (R241). Vector integer shift right by IMM. Operands: issuing site; the word at its program counter is executed. -/
  | vshr (site : Site)
  /-- VCMP (R242). Sets predicate lanes of elements that satisfy the condition. Operands: issuing site; the word at its program counter is executed. -/
  | vcmp (site : Site)
  /-- VSEL (R238). Selects each lane from vA or vB by a predicate. Operands: issuing site; the word at its program counter is executed. -/
  | vsel (site : Site)
  /-- VBCAST (R241). Broadcasts the low bits of a scalar into every element. Operands: issuing site; the word at its program counter is executed. -/
  | vbcast (site : Site)
  /-- VLD (R241). Loads 128 B of scratch into a vector register. Operands: issuing site; the word at its program counter is executed. -/
  | vld (site : Site)
  /-- VST (R241). Stores 128 B of a vector register to scratch, predicated. Operands: issuing site; the word at its program counter is executed. -/
  | vst (site : Site)
  /-- VLDS (R241). Loads the scale word of a vector register. Operands: issuing site; the word at its program counter is executed. -/
  | vlds (site : Site)
  /-- VSTS (R241). Stores the scale word of a vector register. Operands: issuing site; the word at its program counter is executed. -/
  | vsts (site : Site)
  /-- PLOG (R242). Predicate logic operation. Operands: issuing site; the word at its program counter is executed. -/
  | plog (site : Site)
  /-- VRED (R244). Reduces a vector register into a scratch accumulator element-wise. Operands: issuing site; the word at its program counter is executed. -/
  | vred (site : Site)
  /-- VMAXL (R245). Keeps element maxima and their indices in a scratch accumulator. Operands: issuing site; the word at its program counter is executed. -/
  | vmaxl (site : Site)
  /-- VWSUM (R244). Adds a weighted vector into a scratch accumulator. Operands: issuing site; the word at its program counter is executed. -/
  | vwsum (site : Site)
  /-- VCMPZ (R246). Packs the non-zero elements with their bitmap and count. Operands: issuing site; the word at its program counter is executed. -/
  | vcmpz (site : Site)
  /-- VEXP (R246). Expands packed elements by a bitmap. Operands: issuing site; the word at its program counter is executed. -/
  | vexp (site : Site)
  /-- VTOPK (R247). Selects the k largest elements, giving indices and a bitmap. Operands: issuing site; the word at its program counter is executed. -/
  | vtopk (site : Site)
  /-- SRCH (R248). Sends a key to Peridot and stalls for the result word. Operands: issuing site; the word at its program counter is executed. -/
  | srch (site : Site)
  /-- SRCHNEXT (R248). Searches for the next match after a previous result. Operands: issuing site; the word at its program counter is executed. -/
  | srchnext (site : Site)
  /-- SRCHP (R249). Searches every key slot of a register and sets predicate lanes of hits. Operands: issuing site; the word at its program counter is executed. -/
  | srchp (site : Site)
  /-- PERIDOT_SEARCH (R372). A Peridot port takes a key in round-robin, compares it in the halves holding the table and returns the result word. Operands: core die. -/
  | peridotSearch (die : Nat)
  /-- RECV (R250). Reads one 128 B beat of the event's staged payload. Operands: issuing site; the word at its program counter is executed. -/
  | recv (site : Site)
  /-- SEND (R251). Forms and sends a packet from scratch or data memory, stalling until admitted. Operands: issuing site; the word at its program counter is executed. -/
  | send (site : Site)
  /-- FETCH (R255). Issues RD64 or RDN to the pool for delivery as a BLOCK. Operands: issuing site; the word at its program counter is executed. -/
  | fetch (site : Site)
  /-- STORE (R255). Issues WR64 or WRN of full lines to the pool. Operands: issuing site; the word at its program counter is executed. -/
  | store (site : Site)
  /-- FWD (R251). Sends the event's staged payload unchanged. Operands: issuing site; the word at its program counter is executed. -/
  | fwd (site : Site)
  /-- ARM (R257). Sets expected counts of chunks, optionally clearing validity first. Operands: issuing site; the word at its program counter is executed. -/
  | arm (site : Site)
  /-- DONE (R256). Ends the handler and sends the operation to ENDING with OK. Operands: issuing site; the word at its program counter is executed. -/
  | done (site : Site)
  /-- FAIL (R256). Ends the handler and sends the operation to ENDING with a status. Operands: issuing site; the word at its program counter is executed. -/
  | fail (site : Site)
  /-- YIELD (R207). Ends the handler and queues a RESUME behind pending events. Operands: issuing site; the word at its program counter is executed. -/
  | yield (site : Site)
  /-- TIMER (R208). Sets or cancels the operation's or thread's deadline. Operands: issuing site; the word at its program counter is executed. -/
  | timer (site : Site)
  /-- TRD (R259). Reads one word of a live or shadow table entry. Operands: issuing site. -/
  | trd (site : Site)
  /-- TWR (R259). Writes or stages one entry of a table without a row of its own. Operands: issuing site. -/
  | twr (site : Site)
  /-- TSTAGE (R259). Stages COUNT consecutive entries from data memory. Operands: issuing site. -/
  | tstage (site : Site)
  /-- TCHECK (R406). Checks the thread's commit group and writes the report word. Operands: issuing site. -/
  | tcheck (site : Site)
  /-- TCHECK_EPOCH (R411). Checks the group as an epoch group and sets PENDING on OK. Operands: issuing site. -/
  | tcheckEpoch (site : Site)
  /-- TCOMMIT (R408). Applies the checked group in one flip at one module time. Operands: issuing site. -/
  | tcommit (site : Site)
  /-- TCOMMIT_EPOCH (R411). Commits an epoch group, advancing MSEQ and CUR and making the current bank old. Operands: issuing site. -/
  | tcommitEpoch (site : Site)
  /-- TABORT (R260). Discards the thread's commit group and clears PENDING. Operands: issuing site. -/
  | tabort (site : Site)
  /-- LRENEW (R261). Renews the lease of a LEASED extent as a one-entry commit. Operands: issuing site. -/
  | lrenew (site : Site)
  /-- LSCAN (R261). Finds the next extent whose lease end is at or below a bound. Operands: issuing site. -/
  | lscan (site : Site)
  /-- EVWAIT (R262). Suspends the thread until its next event and writes the descriptor. Operands: issuing site. -/
  | evwait (site : Site)
  /-- THREAD_EVENT_DELIVER (R262). An event raised for a control thread is delivered to its waiting EVWAIT. Operands: thread 32 x control core + thread; 256 Chervil. -/
  | threadEventDeliver (thread : Nat)
  /-- EVPOST (R585). Writes a program event record into the ring of the posting core's die. Operands: issuing site. -/
  | evpost (site : Site)
  /-- FREEZE (R583). Writes a FREEZE record into every ring and stops ring and archive writes. Operands: issuing site. -/
  | freeze (site : Site)
  /-- THAW (R583). Writes THAW and EPOCH records into every ring and resumes recording. Operands: issuing site. -/
  | thaw (site : Site)
  /-- AUTO_THAW (R584). The module thaws on its own 1 s after a freeze or when its holder stops. -/
  | autoThaw
  /-- THREAD_STOP (R263). An instruction that would fault stops its control thread with an event record and discards its commit group. Operands: thread; its memory gave an uncorrectable word. -/
  | threadStop (thread : Nat) (ue : Bool)
  /-- KREQ_ALLOC (R484). Carnelian generates an XTS pair into an EMPTY data slot. Operands: issuing site. -/
  | kreqAlloc (site : Site)
  /-- KREQ_IMPORT (R484). Carnelian loads an uploaded tenant key into a slot. Operands: issuing site. -/
  | kreqImport (site : Site)
  /-- KREQ_SHARE (R484). Carnelian copies a slot to a peer module over a Carnelian session. Operands: issuing site. -/
  | kreqShare (site : Site)
  /-- KREQ_DESTROY (R483). Carnelian destroys a slot's key in the store and every engine. Operands: issuing site. -/
  | kreqDestroy (site : Site)
  /-- KREQ_RETIRE (R480). Every LOADED slot of a context at its current KGEN becomes RETIRED. Operands: issuing site. -/
  | kreqRetire (site : Site)
  /-- KREQ_QUERY (R484). Returns a key slot's status word. Operands: issuing site. -/
  | kreqQuery (site : Site)
  /-- KREQ_REPORT (R497). Builds and signs an attestation report at SNAP into the output area. Operands: issuing site. -/
  | kreqReport (site : Site)
  /-- KREQ_SCRUB (R465). Generates a throwaway XTS pair into a free scrub slot. Operands: issuing site. -/
  | kreqScrub (site : Site)
  /-- KREQ_COMPLETE (R485). A key-slot request completes to its thread as an event of type 0x04. -/
  | kreqComplete
  /-- DMA_READ (R442). Moves host memory into data memory, pool or frame. Operands: posting by a thread, or the move by the engine. -/
  | dmaRead (step : DmaStep)
  /-- DMA_WRITE (R443). Moves module-side data to host memory, main path or fall-back. Operands: posting by a thread, or the move by the engine. -/
  | dmaWrite (step : DmaStep)
  /-- FIFO_PUT (R441). Moves words from data memory into a to-host FIFO. Operands: posting by a thread, or the move by the engine. -/
  | fifoPut (step : DmaStep)
  /-- FIFO_GET (R441). Moves words from a to-module FIFO into data memory. Operands: posting by a thread, or the move by the engine. -/
  | fifoGet (step : DmaStep)
  /-- RESULT (R434). Posts up to 56 B into a result window. Operands: posting by a thread, or the move by the engine. -/
  | result (step : DmaStep)
  /-- DMA_COMPLETE (R445). A DMA descriptor completes to its thread as an event of type 0x03. Operands: host port; engine. -/
  | dmaComplete (port : Nat) (write : Bool)
  /-- COLL_PLAN (R304). The collective service builds trees, spray entries and operations and sends SETUP notices. -/
  | collPlan
  /-- COLL_RUN (R309). The collective service starts a run, checking member legs first. Operands: plan. -/
  | collRun (plan : Nat)
  /-- COLL_FREE (R304). The collective service removes a plan. -/
  | collFree
  /-- COLL_STOP (R310). The root takes the stop on a prune notice of a stopping member or at the deadline. Operands: plan. -/
  | collStop (plan : Nat)
  /-- COLL_COMPLETE (R312). After every root operation's last result SEND, the root sends COMPLETE, writes the masks and delivers the completion record. Operands: plan. -/
  | collComplete (plan : Nat)
  /-- PHASE_STATE_RESUME (R316). The root reads both copies and resumes from the valid one with higher SEQ, or ends STATE_LOST. Operands: plan. -/
  | phaseStateResume (plan : Nat)
  /-- SVCREQ (R325). A service request at its module is refused or copied to the mailbox thread as an event of type 0x01. -/
  | svcreq
  /-- SVCCMP (R326). A service completion reaches the owner of its tag: a control thread or the completion ring. -/
  | svccmp
  /-- SERVICE_SWITCH (R323). Carnelian starts a new bundle version and sets SWITCHING. Operands: admitted bundle number. -/
  | serviceSwitch (bundle : Nat)
  /-- SERVICE_ADOPT (R323). Once the old mailbox is empty, the new version adopts live state and becomes RUNNING. Operands: service number. -/
  | serviceAdopt (svc : Nat)
  /-- WS_OPEN (R330). Opens a weight stream with its group and alias. -/
  | wsOpen
  /-- WS_ADVANCE (R331). A consumer acknowledges consumed order entries. -/
  | wsAdvance
  /-- WS_CLOSE (R338). Closes a weight stream. -/
  | wsClose
  /-- STREAM_FETCH_ISSUE (R331). The stream fetcher issues RDN requests while room allows. Operands: stream. -/
  | streamFetchIssue (stream : Nat)
  /-- STREAM_RESPONSE (R333). A stream-group response is checked against fetcher tags and copied to the legs. -/
  | streamResponse
  /-- WSDATA_DECODE (R334). A leg's egress pipeline decrypts, decodes and CRC-checks a block and sends WSDATA. Operands: stream; consumer index. -/
  | wsdataDecode (stream : Nat) (leg : Nat)
  /-- STREAM_BLOCK_REFETCH (R335). A failed block is fetched again, up to two times, then marked FAILED. Operands: stream. -/
  | streamBlockRefetch (stream : Nat)
  /-- STREAM_END (R338). A stream ends and its completion is sent. Operands: stream. -/
  | streamEnd (stream : Nat)
  /-- EXPERT_PLAN (R339). Builds an expert plan. -/
  | expertPlan
  /-- EXPERT_DISPATCH (R341). Dispatches token vectors to expert holders. -/
  | expertDispatch
  /-- EXPERT_COMBINE (R342). Combines expert outputs at each token's home. -/
  | expertCombine
  /-- EXPERT_FREE (R339). Frees an expert plan. -/
  | expertFree
  /-- KV_ALLOC (R346). Makes a KV page RESIDENT near, evicting a victim if the quota is full. -/
  | kvAlloc
  /-- KV_LOOKUP (R347). Returns a KV page and sets REF. -/
  | kvLookup
  /-- KV_LOOKUP_WAIT_END (R347). A LOOKUP waiting on a MIGRATING page completes when the move ends or after 50 us. -/
  | kvLookupWaitEnd
  /-- KV_UNPIN (R347). Lowers the pin count; FREEING at zero becomes EMPTY. -/
  | kvUnpin
  /-- KV_FREESEQ (R345). Frees every page of a sequence. -/
  | kvFreeseq
  /-- FILTER_RUN (R348). Scores and filters records and returns the best k. -/
  | filterRun
  /-- LEASE_REGISTER (R349). Adds a node and its free pages to the free map. -/
  | leaseRegister
  /-- LEASE_GRANT (R350). Allocates and commits a new ACTIVE extent with range entries. -/
  | leaseGrant
  /-- LEASE_RENEW (R349). Renews named extents. -/
  | leaseRenew
  /-- LEASE_RENEW_ALL (R349). Renews every extent of the holder. -/
  | leaseRenewAll
  /-- LEASE_RELEASE (R349). The holder gives an extent up, staging REVOKING. -/
  | leaseRelease
  /-- LEASE_REVOKE (R349). Stages REVOKING on every holding module and commits. -/
  | leaseRevoke
  /-- LEASE_SCAN (R350). At least once per millisecond the lease manager scans for extents past LEASE_END. -/
  | leaseScan
  /-- SCRUB_START (R351). After the drain on every module, the extent is committed SCRUBBING and its scrub begins. Operands: extent index. -/
  | scrubStart (ext : Nat)
  /-- SCRUB_COMPLETE (R351). At scrub end the extent is committed FREE and its pages returned to the free map. Operands: extent index. -/
  | scrubComplete (ext : Nat)
  /-- CODEC_BUILD (R362). Histograms a scope and installs a new CURRENT table. Operands: port die; job. -/
  | codecBuild (die : Nat) (job : Nat)
  /-- CODEC_ENCODE (R362). Codes raw lines into compressed blocks. Operands: port die; job. -/
  | codecEncode (die : Nat) (job : Nat)
  /-- CODEC_REENCODE (R362). Decodes stored blocks and codes them again. Operands: port die; job. -/
  | codecReencode (die : Nat) (job : Nat)
  /-- CODEC_JOB_CLEAR (R361). A write of OP zero returns a DONE codec job to IDLE. Operands: issuing site. -/
  | codecJobClear (site : Site)
  /-- CODEC_JOB_DONE (R362). A codec job ends and its entry becomes DONE with status and OUT. Operands: port die; job. -/
  | codecJobDone (die : Nat) (job : Nat)
  /-- TABLE_RETIRE (R358). Writing RETIRE makes a CURRENT or PREVIOUS slot RETIRING. Operands: issuing site. -/
  | tableRetire (site : Site)
  /-- PERIDOT_ENTRY_WRITE (R368). A TWR writes an entry image atomically, or refuses it with VIOLATION. Operands: issuing site. -/
  | peridotEntryWrite (site : Site)
  /-- CASCADE_KEY (R377). A cascade module receives a key on CAS_RX, searches, forwards it and sends its match word. Operands: the key as it came on CAS_RX. -/
  | cascadeKey (origin oseq table ctx : Nat) (key : BitVec 640) (after : Option Nat)
  /-- MATCH_WORD (R377). A match word arrives; the winner sends its result once it holds all. Operands: MATCH_IN pin 0-2; the 16-bit match word. -/
  | matchWord (pin : Nat) (word : Nat)
  /-- CASCADE_RESULT (R377). The issuer receives the result word, and SRCH returns. Operands: the result as it came on CAS_RX. -/
  | cascadeResult (origin oseq : Nat) (result : Word)
  /-- CASCADE_TIMEOUT (R379). A cascade search without result in 5 us returns DENIED and the cascade is broken. Operands: own cascade search. -/
  | cascadeTimeout (oseq : Nat)
  /-- PAGE_MOVE_START (R388). The tier engine writes back the page's lines, makes it MIGRATING and starts copying. Operands: tier-space page; destination tier. -/
  | pageMoveStart (page : Nat) (dest : Nat)
  /-- PAGE_MOVE_FLIP (R388). After the copy, the home flips LOC and STATE, serves held requests and frees the source. Operands: tier-space page; its 64 KiB as the host returned them (for a page of the host tier). -/
  | pageMoveFlip (page : Nat) (data : List Byte)
  /-- PAGE_LOST (R390). A move source unreadable after retries leaves the page RESIDENT with poison. Operands: tier-space page. -/
  | pageLost (page : Nat)
  /-- TIER_HOLD_TIMEOUT (R387). A held request waiting longer than TIER_HOLD is answered BUSY_RETRY. Operands: core die. -/
  | tierHoldTimeout (die : Nat)
  /-- TIER_MOVE (R399). A MOVE job moves pages to a tier. Operands: tier job. -/
  | tierMove (job : Nat)
  /-- TIER_PREFETCH (R400). A PREFETCH job keeps pages near ahead of an access order. Operands: tier job. -/
  | tierPrefetch (job : Nat)
  /-- TIER_JOB_ACK (R398). A write that changes only ACK advances a running PREFETCH. Operands: issuing site. -/
  | tierJobAck (site : Site)
  /-- TIER_JOB_STOP (R398). A write of OP zero stops a running job, or returns a DONE job to IDLE. Operands: issuing site. -/
  | tierJobStop (site : Site)
  /-- TIER_JOB_DONE (R399). A tier job ends with its status and MOVED count. Operands: tier job. -/
  | tierJobDone (job : Nat)
  /-- QUOTA_EVICT (R395). After a quota below USED, the engine evicts the context's pages on TC7 until USED meets the quota. Operands: context. -/
  | quotaEvict (ctx : Nat)
  /-- OLD_BANK_RETIRED (R411). 1 ms after an epoch flip, OLD_LIVE is cleared and an event is recorded. -/
  | oldBankRetired
  /-- MAP_STAGED (R413). The coordinator receives a module's STAGED with its TCHECK result. -/
  | mapStaged
  /-- MAP_FLIP (R413). A module commits its epoch group on FLIP and answers FLIPPED. -/
  | mapFlip
  /-- MAP_FLIPPED (R413). The coordinator receives a FLIPPED. -/
  | mapFlipped
  /-- MAP_ABORT (R413). A module aborts its epoch group on ABORT. -/
  | mapAbort
  /-- MAP_RETIRED (R413). The coordinator receives RETIRED; the change completes when all are in. -/
  | mapRetired
  /-- MAP_STAGE_TIMEOUT (R413). A STAGED still missing at 5 ms makes the coordinator send ABORT. -/
  | mapStageTimeout
  /-- MAP_FLIP_REPEAT (R413). Every 10 us the coordinator repeats FLIP to modules that have not answered. -/
  | mapFlipRepeat
  /-- MAP_PEER_MISSING (R413). A module unanswered at 50 us is named and the change completes without it. -/
  | mapPeerMissing
  /-- COMPOSITION_CHANGE_START (R530). The lowest-numbered module starts a composition change once its database is quiet for 1 ms. -/
  | compositionChangeStart
  /-- LINK_STATE_RECORD (R530). A link-state record is received, forwarded and applied to the database. Operands: port it came by; the record. -/
  | linkStateRecord (port : Nat) (rec : LinkRec)
  /-- LINK_STATE_FLOOD (R530). A module floods its record on a trunk or binding change, at most once per ms. -/
  | linkStateFlood
  /-- SQ_DOORBELL (R426). A tail write lets the module fetch descriptors up to that index. Operands: host port, function, ring; index written; the descriptors host memory holds from HEAD on; whether the request carries the T bit. -/
  | sqDoorbell (port func sq : Nat) (tail : Nat) (entries : List (List Byte)) (tb : Bool)
  /-- SQ_PHASE_REPOLL (R426). An entry with the wrong PHASE is read again every 2 us, up to 16 times. Operands: host port, function, ring; the descriptor read again. -/
  | sqPhaseRepoll (port func sq : Nat) (entry : List Byte)
  /-- NOP (R427). A NOP descriptor completes OK. Operands: host port, function, ring. -/
  | nop (port func sq : Nat)
  /-- SVC (R427). An SVC descriptor sends an SVCREQ. Operands: host port, function, ring; the indirect payload as the host returned it. -/
  | svc (port func sq : Nat) (payload : HostAns)
  /-- FENCE (R427). A FENCE descriptor completes when every earlier descriptor has. Operands: host port, function, ring. -/
  | fence (port func sq : Nat)
  /-- SQ_ABANDON (R428). A request outstanding for ABANDON ms completes TIMEOUT. Operands: host port, function, ring; sequence of the request. -/
  | sqAbandon (port func sq : Nat) (seq : Nat)
  /-- CQ_DOORBELL (R430). A head write returns CQ entries and releases held completions. Operands: host port, function, ring; index written; whether the request carries the T bit. -/
  | cqDoorbell (port func cq : Nat) (head : Nat) (tb : Bool)
  /-- CQ_COALESCE_TIMEOUT (R431). The oldest unsignalled entry has waited COAL_US and the vector is sent. Operands: host port, function, ring. -/
  | cqCoalesceTimeout (port func cq : Nat)
  /-- RING_CONFIG_WRITE (R424). A ring register write enables, disables or configures a ring. Operands: host port, function; BAR0 offset, size in bytes, value; whether the request carries the T bit. -/
  | ringConfigWrite (port func : Nat) (off : Nat) (size : Nat) (value : Word) (tb : Bool)
  /-- MOWN_REQUEST (R422). A port requests ownership or is held WAITING. Operands: host port. -/
  | mownRequest (port : Nat)
  /-- MOWN_RENEW (R422). The owner restarts the lease. Operands: host port. -/
  | mownRenew (port : Nat)
  /-- MOWN_RELEASE (R422). The owner ends the lease at once. Operands: host port. -/
  | mownRelease (port : Nat)
  /-- OWN_LEASE_LAPSE (R423). The ownership lease lapses and a WAITING port becomes owner or none is. -/
  | ownLeaseLapse
  /-- RESULT_WINDOW_READ (R433). A header read of a READY window raises RCOUNT. Operands: host port, function, window; offset in the window and size in bytes; whether the request carries the T bit. -/
  | resultWindowRead (port func win : Nat) (off size : Nat) (tb : Bool)
  /-- RESULT_WINDOW_CONSUME (R434). A header write with the window's SEQ makes it EMPTY. Operands: host port, function, window; header value written; whether the request carries the T bit. -/
  | resultWindowConsume (port func win : Nat) (value : Word) (tb : Bool)
  /-- FIFO_CONFIG_WRITE (R435). The owner configures, enables or flushes a FIFO. Operands: host port whose PF writes; FIFO; half 0 or 1 of the entry; value. -/
  | fifoConfigWrite (port fifo : Nat) (half : Nat) (value : Word)
  /-- FIFO_POP (R437). A DATA read of a to-host FIFO pops a word. Operands: host port, function, FIFO; size in bytes; whether the request carries the T bit. -/
  | fifoPop (port func fifo : Nat) (size : Nat) (seen : EccSeen) (tb : Bool)
  /-- FIFO_PUSH (R437). A DATA write of a to-module FIFO pushes a word. Operands: host port, function, FIFO; size in bytes; value; whether the request carries the T bit. -/
  | fifoPush (port func fifo : Nat) (size : Nat) (value : Word) (tb : Bool)
  /-- FSTAT_READ (R436). A FSTAT read returns status and clears CORR. Operands: host port, function, FIFO, offset within FSTAT 0-7 and size in bytes; whether the request carries the T bit. -/
  | fstatRead (port func fifo : Nat) (off size : Nat) (tb : Bool)
  /-- REGISTER_WRITE (R417). A write to a register without a row of its own. Operands: host port, function; BAR0 offset, size in bytes, value; whether the request carries the T bit. -/
  | registerWrite (port func : Nat) (off : Nat) (size : Nat) (value : Word) (tb : Bool)
  /-- FLIP_REPORT (R460). A peer's or the anchor's flip report arrives and T_R is reached. Operands: context; reporting or missing module. -/
  | flipReport (ctx node : Nat)
  /-- CONTEXT_SCRUB_START (R462). When its conditions hold, a CLOSING context becomes SCRUBBING. Operands: context. -/
  | contextScrubStart (ctx : Nat)
  /-- PEER_UNREACHABLE (R462). A peer unreachable for 10 ms is named and the anchor continues without it. Operands: context; reporting or missing module. -/
  | peerUnreachable (ctx node : Nat)
  /-- SCRUB_SLOT_RETRY (R465). Every 10 ms the lease manager repeats SCRUB when no slot was free. Operands: context. -/
  | scrubSlotRetry (ctx : Nat)
  /-- LOCK_INTERFACE_REQUEST (R451). TDISP lock of a VF bound to an OPEN context. Operands: host port; VF 1-127. -/
  | lockInterfaceRequest (port vf : Nat)
  /-- START_INTERFACE_REQUEST (R451). TDISP moves a TDI to RUN. Operands: host port; VF 1-127. -/
  | startInterfaceRequest (port vf : Nat)
  /-- STOP_INTERFACE_REQUEST (R451). TDISP stops a TDI. Operands: host port; VF 1-127. -/
  | stopInterfaceRequest (port vf : Nat)
  /-- GET_TDISP_VERSION (R496). Returns the TDISP version. Operands: host port; VF 1-127. -/
  | getTdispVersion (port vf : Nat)
  /-- GET_TDISP_CAPABILITIES (R496). Returns TDISP capabilities. Operands: host port; VF 1-127. -/
  | getTdispCapabilities (port vf : Nat)
  /-- GET_DEVICE_INTERFACE_REPORT (R496). Returns the device interface report. Operands: host port; VF 1-127. -/
  | getDeviceInterfaceReport (port vf : Nat)
  /-- GET_DEVICE_INTERFACE_STATE (R496). Returns the TDI state. Operands: host port; VF 1-127. -/
  | getDeviceInterfaceState (port vf : Nat)
  /-- TDI_ERROR (R451). A TDI enters ERROR and its context closes with CAUSE 0x5. Operands: host port; VF 1-127. -/
  | tdiError (port vf : Nat)
  /-- GET_VERSION (R494). SPDM version request. Operands: interface: 0, 1 management endpoints of HP0, HP1; 2 I3C; 3 CRMSG. -/
  | getVersion (iface : Nat)
  /-- GET_CAPABILITIES (R494). SPDM capabilities request. Operands: interface: 0, 1 management endpoints of HP0, HP1; 2 I3C; 3 CRMSG. -/
  | getCapabilities (iface : Nat)
  /-- NEGOTIATE_ALGORITHMS (R494). SPDM algorithm negotiation. Operands: interface; the requester offers every algorithm of Table 18-9. -/
  | negotiateAlgorithms (iface : Nat) (offered : Bool)
  /-- GET_DIGESTS (R494). SPDM certificate digests. Operands: interface: 0, 1 management endpoints of HP0, HP1; 2 I3C; 3 CRMSG. -/
  | getDigests (iface : Nat)
  /-- GET_CERTIFICATE (R494). SPDM certificate chain. Operands: interface; certificate slot, offset, length. -/
  | getCertificate (iface slot off len : Nat)
  /-- CHALLENGE (R494). SPDM challenge signed by the Alias key. Operands: interface; certificate slot; nonce. -/
  | challenge (iface slot : Nat) (nonce : List Byte)
  /-- GET_MEASUREMENTS (R495). Returns the measurement blocks. Operands: interface; block index, 255 all. -/
  | getMeasurements (iface index : Nat)
  /-- KEY_EXCHANGE (R494). SPDM session key exchange. Operands: interface; certificate slot. -/
  | keyExchange (iface slot : Nat)
  /-- FINISH (R494). Completes an SPDM session handshake. Operands: interface; session; the verify data are those of the session. -/
  | finish (iface sess : Nat) (verify : Bool)
  /-- HEARTBEAT (R494). SPDM session heartbeat. Operands: interface; session. -/
  | heartbeat (iface sess : Nat)
  /-- KEY_UPDATE (R494). SPDM session key update. Operands: interface; session; operation 1 to 3. -/
  | keyUpdate (iface sess op : Nat)
  /-- END_SESSION (R494). Ends an SPDM session. Operands: interface; session. -/
  | endSession (iface sess : Nat)
  /-- RESPOND_IF_READY (R494). SPDM deferred response request. Operands: interface: 0, 1 management endpoints of HP0, HP1; 2 I3C; 3 CRMSG. -/
  | respondIfReady (iface : Nat)
  /-- CHUNK_SEND (R493). Carries a chunk of a large request. Operands: interface; chunk number; last chunk; its bytes. -/
  | chunkSend (iface seq : Nat) (last : Bool) (chunk : List Byte)
  /-- CHUNK_GET (R493). Returns a chunk of a large response. Operands: interface; chunk number. -/
  | chunkGet (iface seq : Nat)
  /-- GET_REPORT (R493). Returns the attestation report of a context. Operands: interface; session, 0 none; context; nonce; VF of the TDI whose host TSM asks, 0 none. -/
  | getReport (iface sess : Nat) (ctx : Nat) (nonce : List Byte) (vf : Nat)
  /-- ADMIT_BUNDLE (R490). Carnelian verifies and admits a bundle. Operands: interface; session; the bundle. -/
  | admitBundle (iface sess : Nat) (req : BundleReq)
  /-- RETIRE_BUNDLE (R492). Retires a bundle's programs and control program. Operands: interface; session; service number of the bundle. -/
  | retireBundle (iface sess svc : Nat)
  /-- ENROL (R489). Enrols a signer or partner root. Operands: interface; session; partner root or signer; entry; key number. -/
  | enrol (iface sess : Nat) (root : Bool) (entry key : Nat)
  /-- UNENROL (R489). Removes a signer or partner root. Operands: interface; session; partner root or signer; entry. -/
  | unenrol (iface sess : Nat) (root : Bool) (entry : Nat)
  /-- FW_WRITE (R473). Writes and verifies an image in the unused slot. Operands: interface; session; the image. -/
  | fwWrite (iface sess : Nat) (req : ImageReq)
  /-- FW_ACTIVATE (R531). Activates a written image. Operands: interface; session; image. -/
  | fwActivate (iface sess image : Nat)
  /-- FW_HEALTH_TIMEOUT (R531). A new image not healthy in 10 s is reverted to the previous slot. Operands: image: 0 Carnelian, 1 Chervil, 2 control program. -/
  | fwHealthTimeout (image : Nat)
  /-- FW_PREFER (R531). After 60 s healthy the new slot becomes preferred. Operands: image: 0 Carnelian, 1 Chervil, 2 control program. -/
  | fwPrefer (image : Nat)
  /-- SET_POLICY (R563). The owner sets SVN floors, OWN_LEASE, power policy or board profile. Operands: interface; session; what is set. -/
  | setPolicy (iface sess : Nat) (policy : Policy)
  /-- KEY_UPLOAD (R493). A host TSM uploads a tenant key and receives a 10 s import handle. Operands: interface; session; context; the XTS pair; VF of the TDI whose host TSM asks. -/
  | keyUpload (iface sess ctx : Nat) (k1 k2 : Nat) (vf : Nat)
  /-- CONTROL_RESTART (R549). Every control thread restarts onto the control program in use or activated. Operands: interface; session; KIND byte of RESET_REQ. -/
  | controlRestart (iface sess : Nat) (kind : Nat)
  /-- CONTROL_RESTART_DONE (R533). Control threads are running again within 300 ms and services start. -/
  | controlRestartDone
  /-- CORE_RESET (R550). RESET_REQ 0x2 starts a core reset with departure. Operands: interface; session; KIND byte of RESET_REQ. -/
  | coreReset (iface sess : Nat) (kind : Nat)
  /-- IDE_KM_QUERY (R496). IDE key management query. Operands: host port. -/
  | ideKmQuery (port : Nat)
  /-- KEY_PROG (R496). Programs an IDE key. Operands: host port; stream 0 link, 1-8 selective; direction; key set; key number. -/
  | keyProg (port stream dir set key : Nat)
  /-- K_SET_GO (R496). Starts an IDE key set. Operands: host port; stream; direction; key set. -/
  | kSetGo (port stream dir set : Nat)
  /-- K_SET_STOP (R496). Stops an IDE key set. Operands: host port; stream; direction; key set. -/
  | kSetStop (port stream dir set : Nat)
  /-- CRMSG (R488). A Carnelian-to-Carnelian SPDM message is delivered to Carnelian. -/
  | crmsg
  /-- CARNELIAN_WATCHDOG (R470). The active Carnelian core has not reported for 100 ms and the standby takes over. -/
  | carnelianWatchdog
  /-- HANDOVER_DONE (R470). The incoming core takes the token and serves requests. -/
  | handoverDone
  /-- PREF_UPDATE (R471). After 60 s of service the incoming core writes its identity into PREF. -/
  | prefUpdate
  /-- BOOT_CORE_TIMEOUT (R471). The PREF core fails to reach step 2 in 150 ms and the boot ROM runs on the other core. -/
  | bootCoreTimeout
  /-- LMS_TREE_GENERATE (R477). Once half the leaves are used, the next bottom tree is generated in the background. -/
  | lmsTreeGenerate
  /-- PATROL_READ (R503). Patrol reads correct, rewrite and count words. Operands: the word read; what the read found. -/
  | patrolRead (place : PatrolAt) (seen : EccSeen)
  /-- ROW_REPAIR (R507). A macro copies a failing row to a spare in a 200 ns pause. Operands: macro: 0-1023 buffer (bank x 8), then tile scratch. -/
  | rowRepair (macro_ : Nat)
  /-- BANK_SPARE (R508). A failing buffer bank stops allocation; when empty or at 10 ms, the spare bank takes its number. Operands: logical bank. -/
  | bankSpare (bank : Nat)
  /-- FRAME_REPLACE (R509). A failing HBM frame is copied to a remap frame or retired. Operands: stack; frame. -/
  | frameReplace (stack frame : Nat)
  /-- TILE_SPARE (R510). A faulty tile's state is copied to the spare, which takes its logical number. Operands: logical tile. -/
  | tileSpare (tile : Nat)
  /-- TILE_POWER_OFF (R511). A working retired tile is powered off once every slot is FREE. Operands: logical tile. -/
  | tilePowerOff (tile : Nat)
  /-- HBM_STACK_FAIL (R512). A stack that fails training or returns too many uncorrectable words is failed. Operands: stack. -/
  | hbmStackFail (stack : Nat)
  /-- PORT_DIE_FAIL (R512). A failed port die takes its ports down. Operands: port die 0-3. -/
  | portDieFail (die : Nat)
  /-- CORE_DIE_FAIL (R512). A failed core die stops the module with a core reset. Operands: core die 0, 1. -/
  | coreDieFail (die : Nat)
  /-- CONTROL_CORE_DISABLE (R514). A control core with two uncorrectable stops in an hour is disabled. Operands: control core. -/
  | controlCoreDisable (core : Nat)
  /-- REPLICA_MARGIN_SAMPLE (R515). Every 1 ms Chervil reads replica margins and raises offsets, shadow rates, pacing or the rail. Operands: block 0-33; least margin read, 0-15. -/
  | replicaMarginSample (block : Nat) (margin : Nat)
  /-- SHADOW_RUN (R518). The spare re-runs a shadow record and compares its outputs. Operands: cluster; the spare agrees with the primary; the two runs of the spare agree. -/
  | shadowRun (cluster : Nat) (match1 match2 : Bool)
  /-- QUARANTINE_END (R519). After 10 ms the quarantined tile's RATE returns. Operands: logical tile. -/
  | quarantineEnd (tile : Nat)
  /-- HEALTH_EVALUATE (R522). Every 1 ms Chervil computes link, neighbour and module scores. -/
  | healthEvaluate
  /-- HVOTE_EXPEL (R526). An EXPEL vote is received and a quorum counted. -/
  | hvoteExpel
  /-- HVOTE_WITHDRAW (R524). A vote is withdrawn. -/
  | hvoteWithdraw
  /-- HVOTE_EXPELLED (R526). EXPELLED fences every port to the suspect. -/
  | hvoteExpelled
  /-- VOTE_RENEW (R525). Every 500 ms a voter renews its vote. Operands: suspect node. -/
  | voteRenew (suspect : Nat)
  /-- VOTE_EXPIRE (R525). A vote not renewed stands no longer after 1 s. -/
  | voteExpire
  /-- VOTE_GAP_END (R527). The 50 ms gap ends and a waiting doubtful neighbour is voted on. -/
  | voteGapEnd
  /-- CHERVIL_RESTART (R532). Chervil firmware restarts within 100 ms and resumes evaluation. -/
  | chervilRestart
  /-- POWER_ON (R536). PWRGD rises and the measured boot begins. -/
  | powerOn
  /-- BOOT_COMPLETE (R471). Boot step 5 ends with the dies out of reset and CORE_UP set. Operands: macros whose columns the built-in test found failing, and how many (Table 19-3). -/
  | bootComplete (cols : List (Nat × Nat))
  /-- POWER_ON_RESET (R538). PWRGD low for 10 us holds every die in reset. -/
  | powerOnReset
  /-- STAGE_END (R539). A bring-up stage ends when its condition holds and the next starts. -/
  | stageEnd
  /-- STAGE_BOUND_EXPIRE (R539). A stage reaches its bound and ends with late ports recorded. -/
  | stageBoundExpire
  /-- BU3_GATE (R545). BU3 begins once every module in the database has ended BU2. -/
  | bu3Gate
  /-- HELLO (R542). A HELLO is received and discovery proceeds. Operands: endpoint code of the port. -/
  | hello (port : Nat)
  /-- HELLO_RESEND (R542). A HELLO unanswered in 10 ms is sent again. Operands: endpoint code of the port. -/
  | helloResend (port : Nat)
  /-- CERT (R542). A certificate chunk is received. Operands: endpoint code of the port. -/
  | cert (port : Nat)
  /-- PROOF (R487). A PROOF verifies; link keys are derived and edge nodes bound. Operands: endpoint code of the port. -/
  | proof (port : Nat)
  /-- NBRMSG_STAGE (R546). A neighbour announces its stage. Operands: endpoint code of the port. -/
  | nbrmsgStage (port : Nat)
  /-- NBRMSG_FENCE (R94). A partner's fence notice is received. Operands: endpoint code of the port. -/
  | nbrmsgFence (port : Nat)
  /-- DISCOVERY_ABANDON (R542). Discovery not done in 0.2 s abandons the port. Operands: endpoint code of the port. -/
  | discoveryAbandon (port : Nat)
  /-- DISCOVERY_RETRY (R542). An abandoned port retries discovery every 1 s. Operands: endpoint code of the port. -/
  | discoveryRetry (port : Nat)
  /-- MRESET (R550). MRESET_L low for 1 us starts a core reset with departure. -/
  | mreset
  /-- MRESET_RELEASE (R604). MRESET_L going high lets step 5 begin. -/
  | mresetRelease
  /-- DEPARTURE_QUIET (R550). Trunk ports quiet for 10 us end departure step 2. -/
  | departureQuiet
  /-- DEPARTURE_DRAINED (R550). Empty queues end step 3 and the dies are held in reset. -/
  | departureDrained
  /-- CORE_REINIT_DONE (R552). Step 5 ends with tables checked and key slots reloaded. Operands: committed entries found with an uncorrectable word: table and index (R552). -/
  | coreReinitDone (bad : List (Nat × Nat))
  /-- PERST (R553). PERSTn_L resets one host port. Operands: host port. -/
  | perst (port : Nat)
  /-- HOT_RESET (R553). A hot reset resets one host port. Operands: host port. -/
  | hotReset (port : Nat)
  /-- VF_ENABLE_CLEAR (R553). The host clears VF Enable and bound contexts close. Operands: host port. -/
  | vfEnableClear (port : Nat)
  /-- FLR (R554). A function level reset resets one function. Operands: host port; function. -/
  | flr (port func : Nat)
  /-- FLR_COMPLETE (R554). The module finishes an FLR within 10 ms. Operands: host port; function. -/
  | flrComplete (port func : Nat)
  /-- HOST_LINK_DOWN (R599). A host link goes down without PERST and DMA completes PATH_LOST. Operands: host port. -/
  | hostLinkDown (port : Nat)
  /-- HOST_LINK_UP (R459). The host link returns and rings resume. Operands: host port. -/
  | hostLinkUp (port : Nat)
  /-- ARCHIVE_COPY (R580). Stored records are copied to the HBM archive within 1 ms. Operands: die 0-6. -/
  | archiveCopy (die : Nat)
  /-- CRITICAL_ARCHIVE_WRITE (R581). A critical record is written to the non-volatile archive within 10 ms. -/
  | criticalArchiveWrite
  /-- EPOCH (R586). Module time reaches a multiple of 2^36 ns and each die writes an EPOCH record. -/
  | epoch
  /-- THREAD_DEADLINE (R256). Module time reaches the single deadline that TIMER set for a control thread or Chervil, and a TIMER event of type 0x05 is raised for that thread. Operands: thread 32 x control core + thread; 256 Chervil. -/
  | threadDeadline (thread : Nat)
  /-- PERST_DEASSERT (R537). PERSTn_L is deasserted and the host port begins PCIe link training, if step 5 of Table 20-2 has been reached. Operands: host port. -/
  | perstDeassert (port : Nat)
  /-- ENTDAA (R602). The I3C target takes a dynamic address assigned by the ENTDAA procedure. Operands: dynamic address assigned. -/
  | entdaa (addr : Nat)
  /-- SETDASA (R602). The I3C target takes a dynamic address from its static address by SETDASA. Operands: static address named; dynamic address assigned. -/
  | setdasa (static addr : Nat)
  /-- BOARD_PROFILE_WRITE (R535). The board profile is written into the non-volatile store over I3C when the board is built, and takes effect at the next core reset or power-on reset. Operands: the profile. -/
  | boardProfileWrite (profile : List Byte)
  /-- BACKING_LEASE_RENEW (R392). The module, as holder, renews the leases of its own backing extents before LEASE / 4 has passed since the last renewal. -/
  | backingLeaseRenew
  deriving DecidableEq, Repr

end Sys2Proof
end

