-- ==== Sys2Proof/Decode.lean ====
section
/-!
DEFINITION. The decoder of table words. No row of spec/opcode_table.json gives bits: the block takes commands and has no instruction words of its own (Yarpin words are decoded where they run, Machine/Yarpin.lean).
-/
namespace Sys2Proof

/-- The command a table word spells: none, since no row has bits. -/
def decodeTableWord (_nbits _w : Nat) : Option Instr := none

end Sys2Proof
end

