-- ==== Sys2Proof/Config.lean ====
section
/-!
DEFINITION. What the spec names by a standard or leaves open: constants with no body, so that no proof can see a value of them.
-/
namespace Sys2Proof

/-- A free value: what the spec leaves open at this draw (log 8). -/
opaque Config.fresh : Nat → Nat
/-- A free yes or no: a random draw whose probability is neither 0 nor 1 (R119; log 8). -/
opaque Config.coin : Nat → Bool
/-- The hash of R97 over source, destination, context and class (log 8). -/
opaque Config.pathHash : Nat → Nat → Nat → Nat → Nat
/-- Chervil's code table: delay code of a stage type in a temperature bin; types 0 cluster, 1 crossbar half, 2 tile, 3 lookup pipeline, 4 crossbar port (R34, R35, R38; log 8). -/
opaque Config.delayCode : (type bin : Nat) → Nat
/-- A reading lies within the physical range of its sensor (R557; log 8). -/
opaque Config.inRange : Nat → Int → Bool
/-- A choice of code lengths for a histogram; used only where it is one of the shortest sets (R356; log 8). -/
opaque Config.codeLengths : List Nat → List Nat
/-- The bits an element gets when it is quantised under an existing scale byte of 0xFF, which stands for no power of two (R276, R612; log 8). -/
opaque Config.underNanScale : (format value : Nat) → Nat
/-- SHA-384 of a byte string (log 7). -/
opaque Config.sha384 : List Byte → BitVec 384
/-- AES-256-XTS of a data unit under a key, encrypting or decrypting, with its tweak (R151; log 7). -/
opaque Config.xts : (enc : Bool) → (key : Nat) → (tweak : BitVec 128) → List Byte → List Byte
/-- AES-256-GCM text of a group under a key and group counter (R78; log 7). -/
opaque Config.gcmText : (key ctr : Nat) → List Byte → List Byte
/-- AES-256-GCM tag over additional data and ciphertext (R78; log 7). -/
opaque Config.gcmTag : (key ctr : Nat) → List Byte → List Byte → BitVec 128
/-- ECDSA P-384 verification under a public key (log 7). -/
opaque Config.ecdsaOk : (key : Nat) → BitVec 384 → List Byte → Bool
/-- LMS/HSS verification under a public key (log 7). -/
opaque Config.hssOk : (key : Nat) → BitVec 384 → List Byte → Bool
/-- ECDSA P-384 signature by the Alias key (log 7). -/
opaque Config.ecdsaSign : BitVec 384 → List Byte
/-- HSS signature made with a value of the state counter (log 7). -/
opaque Config.hssSign : (ctr : Nat) → BitVec 384 → List Byte
/-- The certificates of the module above its Alias certificate (Table 18-9, slot 0), and a partner chain's acceptance with its public key (R487; log 7). -/
opaque Config.certChain : List Byte
opaque Config.chainKey : List Byte → Option Nat
/-- The link key of R487 for a transcript, a direction and a number of updates (log 7). -/
opaque Config.linkKey : BitVec 384 → Nat → Nat → Nat
/-- The ephemeral public key and certificate data the module puts into a message (log 7). -/
opaque Config.ephemeral : Nat → List Byte
/-- The serial number, HSS public key and other identity bytes of a report (log 7). -/
opaque Config.identity : List Byte
/-- Digest, security version and version of the boot ROM: 56 bytes (Table 18-12; log 7). -/
opaque Config.bootRom : List Byte
/-- The Alias certificate of a Carnelian image digest (Table 18-2; log 7). -/
opaque Config.aliasCert : Nat → List Byte
/-- The payload of an SPDM answer that its standard defines, by request code and draw (log 7). -/
opaque Config.spdmAnswer : Nat → Nat → List Byte
/-- Largest sizes that a host set for a port: Max Payload Size (false) or Max Read Request Size (true) as 128 x 2^n (R414, R442; log 54). -/
opaque Config.pcieSize : (read : Bool) → Nat → Nat
/-- Most bytes of an answer in one management message; a longer one goes in chunks (R493; log 52). -/
opaque Config.messageMax : Nat
/-- The key that a secured CRMSG shares, none for every other message: slot, context, generation, imported, key (R484, R488; log 7). -/
opaque Config.sharedKey : List Byte → Option (Nat × Nat × Nat × Bool × Nat)
/-- The message of a Carnelian that answers a SHARE with a status, and the status that such a message of a peer holds: its form is not given (R488; log 50). -/
opaque Config.shareReply : Nat → List Byte
opaque Config.shareAnswer : List Byte → Option Nat
/-- The Tierarel bundles that a control program image carries, by its digest (R471; log 53). -/
opaque Config.tierarelBundles : Nat → List BundleReq
/-- Words of the program that a control program image, a Chervil image or a bundle of that digest carries, from its first header word on: their layout is not given (R215, R320, R471; log 4). -/
opaque Config.programWords : Nat → List (BitVec 64)
/-- What a read of a position of an archive area on a failed stack gives (R581; log 62). -/
opaque Config.archiveWord : Nat → Nat → Nat
/-- Public keys of the Tierarel signer (signer entry 0; R489). -/
opaque Config.tierarelKey : Nat

end Sys2Proof
end

