-- ==== Sys2Proof/Machine/Bits.lean ====
section
/-!
DEFINITION. Fields of words held as natural numbers, bytes in little-endian order (R3, R4), and small arithmetic helpers.
-/
namespace Sys2Proof.Machine

/-- Bits [lo+len-1:lo] of a word. -/
def fld (w lo len : Nat) : Nat := (w >>> lo) % 2 ^ len
/-- The word with bits [lo+len-1:lo] replaced by the low bits of v. -/
def setFld (w lo len v : Nat) : Nat :=
  ((w >>> (lo + len)) <<< (lo + len)) + ((v % 2 ^ len) <<< lo) + w % 2 ^ lo
/-- One bit of a word. -/
def bit (w i : Nat) : Bool := fld w i 1 == 1
/-- 0 or 1. -/
def b2n (b : Bool) : Nat := if b then 1 else 0
/-- A sum that stays at the largest value of its width. -/
def satAdd (bits a b : Nat) : Nat := min (a + b) (2 ^ bits - 1)
/-- A sum modulo its width. -/
def wrapAdd (bits a b : Nat) : Nat := (a + b) % 2 ^ bits
/-- A two's complement number of the width. -/
def sextN (bits w : Nat) : Int :=
  if w % 2 ^ bits < 2 ^ (bits - 1) then (w % 2 ^ bits : Nat) else ((w % 2 ^ bits : Nat) : Int) - (2 ^ bits : Nat)
/-- A signed number as the width's bits. -/
def intBits (bits : Nat) (x : Int) : Nat := (x % ((2 ^ bits : Nat) : Int)).toNat
/-- A number lies between two bounds, both counted in. -/
def inRange (lo hi x : Nat) : Bool := decide (lo ≤ x ∧ x ≤ hi)
/-- Quotient rounded up. -/
def ceilDiv (a b : Nat) : Nat := (a + b - 1) / b
/-- Number of set bits among the low n bits. -/
def popCount : Nat → Nat → Nat
  | 0, _ => 0
  | n + 1, w => w % 2 + popCount n (w / 2)
/-- Positions of the set bits among the low n bits, rising. -/
def bitList (n w : Nat) : List Nat := (List.range n).filter (fun i => bit w i)
/-- Word whose set bits are listed. -/
def ofBitList (l : List Nat) : Nat := l.foldl (fun a i => if bit a i then a else a + 2 ^ i) 0
/-- Bytes as a number, byte 0 least significant (R3). -/
def bytesNat : List Byte → Nat
  | [] => 0
  | b :: t => b.toNat + 256 * bytesNat t
/-- The low n bytes of a number, least significant first (R3). -/
def natBytes : Nat → Nat → List Byte
  | 0, _ => []
  | n + 1, w => BitVec.ofNat 8 w :: natBytes n (w / 256)
/-- n bytes of a byte string from a position, zeros beyond its end. -/
def byteAt (l : List Byte) (i n : Nat) : Nat := bytesNat ((l.drop i).take n)
/-- A byte string cut or filled with zeros to a length. -/
def padTo (n : Nat) (l : List Byte) : List Byte := (l ++ List.replicate (n - l.length) 0).take n
/-- A byte string with bytes replaced from a position; it keeps its length. -/
def splice (l : List Byte) (i : Nat) (new : List Byte) : List Byte :=
  (l.take i ++ new ++ l.drop (i + new.length)).take l.length
/-- A list cut into pieces of n elements, for at most k pieces. -/
def chunksOf {α : Type} (n : Nat) : Nat → List α → List (List α)
  | 0, _ => []
  | k + 1, l => match l with
    | [] => []
    | x :: t => ((x :: t).take n) :: chunksOf n k ((x :: t).drop n)
/-- The list with position i replaced. -/
def setNth {α : Type} (l : List α) (i : Nat) (x : α) : List α := l.set i x
/-- A list without its first element that satisfies p, and that element. -/
def popFirst {α : Type} (p : α → Bool) : List α → Option (α × List α)
  | [] => none
  | x :: t => if p x then some (x, t) else (popFirst p t).map (fun r => (r.1, x :: r.2))
/-- Members of a set kept as a rising list. -/
def insertSet (x : Nat) : List Nat → List Nat
  | [] => [x]
  | y :: t => if x < y then x :: y :: t else if x = y then y :: t else y :: insertSet x t
/-- Removal from a set kept as a list. -/
def eraseSet (x : Nat) (l : List Nat) : List Nat := l.filter (· != x)
/-- Values without repeats, in rising order. -/
def distinct (l : List Nat) : List Nat := l.foldl (fun a x => insertSet x a) []
/-- Least n below the bound that satisfies p. -/
def leastBelow (bound : Nat) (p : Nat → Bool) : Option Nat := (List.range bound).find? p
/-- The middle of a list in order of value; of an even number the lower of the two (R556; log 12). -/
def medianOf (l : List Int) : Int :=
  (l.find? (fun x => decide ((l.filter (· < x)).length ≤ (l.length - 1) / 2 ∧ (l.length - 1) / 2 < (l.filter (· ≤ x)).length))).getD 0
/-- The same of natural numbers. -/
def medianNat (l : List Nat) : Nat := (medianOf (l.map Int.ofNat)).toNat
/-- Exact integer logarithm: the largest k with 2^k at most n, among the low bits; 0 for 0. -/
def log2Floor (n : Nat) : Nat := Nat.log2 n

end Sys2Proof.Machine
end

