-- ==== Sys2Proof/Machine/Maps.lean ====
section
/-!
DEFINITION. Sparse maps and memories in canonical form: strictly rising keys, and no entry equal to what an unlisted key reads as.
-/
namespace Sys2Proof.Machine

/-- What a key holds, if it is listed. -/
def mfind? {α : Type} (k : Nat) : SMap α → Option α
  | [] => none
  | (j, x) :: t => if j = k then some x else mfind? k t
/-- What a key holds; an unlisted key holds d. -/
def mget {α : Type} (d : α) (k : Nat) (m : SMap α) : α := (mfind? k m).getD d
/-- The map without a key. -/
def mdel {α : Type} (k : Nat) : SMap α → SMap α
  | [] => []
  | (j, x) :: t => if j = k then mdel k t else (j, x) :: mdel k t
/-- The map with a key listed at its place. -/
def mput {α : Type} (k : Nat) (x : α) : SMap α → SMap α
  | [] => [(k, x)]
  | (j, y) :: t =>
    if k < j then (k, x) :: (j, y) :: t
    else if k = j then (k, x) :: t
    else (j, y) :: mput k x t
/-- The map with a key set; a key at the unlisted value is not listed. -/
def mset {α : Type} [DecidableEq α] (d : α) (k : Nat) (x : α) (m : SMap α) : SMap α :=
  if x = d then mdel k m else mput k x m
/-- The map with one key's value changed by a function. -/
def mmod {α : Type} [DecidableEq α] (d : α) (k : Nat) (f : α → α) (m : SMap α) : SMap α :=
  mset d k (f (mget d k m)) m
/-- Every value changed by a function of its key and itself; what comes out as the unlisted value is not listed. -/
def mmap {α : Type} [DecidableEq α] (d : α) (f : Nat → α → α) (m : SMap α) : SMap α :=
  (m.map (fun e => (e.1, f e.1 e.2))).filter (fun e => decide (e.2 ≠ d))
/-- A key is listed. -/
def mhas {α : Type} (k : Nat) (m : SMap α) : Bool := (mfind? k m).isSome
/-- Listed keys. -/
def mkeys {α : Type} (m : SMap α) : List Nat := m.map (·.1)

/-- Keys rise strictly from a lower bound. -/
def keysFrom {α : Type} : Nat → SMap α → Bool
  | _, [] => true
  | lo, (j, _) :: t => decide (lo ≤ j) && keysFrom (j + 1) t

/-- The canonical form of a map whose unlisted keys hold d. -/
def mapWf {α : Type} [DecidableEq α] (d : α) (m : SMap α) : Bool :=
  keysFrom 0 m && m.all (fun e => decide (e.2 ≠ d))

/-- A byte of a memory; an unlisted byte reads as zero (log 5). -/
def memByte (m : Mem) (a : Nat) : Byte := mget 0 a m
/-- A byte written; a zero is not listed. -/
def memSet (m : Mem) (a : Nat) (b : Byte) : Mem := mset 0 a b m
/-- Bytes from an address on. -/
def memRead (m : Mem) (a n : Nat) : List Byte := (List.range n).map (fun i => memByte m (a + i))
/-- Bytes written from an address on. -/
def memWrite (m : Mem) (a : Nat) : List Byte → Mem
  | [] => m
  | b :: t => memWrite (memSet m a b) (a + 1) t
/-- Bytes written where their mask bit is set. -/
def memMerge (m : Mem) (a : Nat) (mask : Nat → Bool) (l : List Byte) : Mem :=
  memWrite m a ((List.range l.length).map (fun i => if mask i then l.getD i 0 else memByte m (a + i)))
/-- The canonical form of a memory. -/
def Memory.wf (m : Mem) : Bool := mapWf (0 : Byte) m

end Sys2Proof.Machine
end

