-- ==== Sys2Proof/Machine/State.lean ====
section
/-!
DEFINITION. The state of the block: every register, table, queue, buffer, counter, mode and pin the spec gives it, the queue of waiting commands, and the model's own counter of free values.
A group "SMap X" holds one X per key; a key that is not listed holds X at its reset values.
Docstrings name the rule and the file of spec/, and the reset value; (log n) is notes/assumptions/<n>.md.
-/
namespace Sys2Proof.Machine


/-! ### Module time (chapters 02, 20) -/

/-- Module time and its followers. -/
structure Clock where
  /-- FREFCLK (or holdover oscillator) cycles counted since the service die powered on; module time is this count times 6.4, rounded down, modulo 2^64. R52, R53, R56 (02_handshake_timing.md). Reset 0 (R53). -/
  cycles : Nat := 0
  /-- The reference counter runs from the free oscillator; MODSTAT HOLDOVER. R56 (02_handshake_timing.md). Reset false (R417 Table 16-6: 0). -/
  holdover : Bool := false
  /-- Signed offset in ns of the follower of each die 0-5 (P0-P3, C0, C1) from the reference counter. R54 (02_handshake_timing.md). Reset 0 (aligned when the die leaves reset, R54). -/
  offs : SMap Int := []
  /-- Followers that were ahead and have stopped counting until the reference counter reaches them. R54 (02_handshake_timing.md). Reset none (R54). -/
  held : List Nat := []
  deriving DecidableEq, Repr

/-! ### Event recorder (chapter 22) -/

/-- An event record of Table 22-1 without its valid mark (R576). -/
structure Record where
  sev : Nat := 0
  die : Nat := 0
  code : Nat := 0
  time : Nat := 0
  seq : Nat := 0
  p0 : Nat := 0
  p1 : Nat := 0
  p2 : Nat := 0
  p3 : Nat := 0
  deriving DecidableEq, Repr

/-- A ring or archive position: byte 0 and the record behind it (R576, R577). -/
structure Stored where
  /-- 0x00 never written, 0x5A even lap, 0xA5 odd lap. -/
  mark : Nat := 0
  r : Record := {}
  deriving DecidableEq, Repr

/-- The recorder status of one die, Table 22-3. -/
structure RecDie where
  /-- NEXTSEQ, 16 bits. R578, R582 (22_event_recorder.md). Reset 0 (Table 22-3). -/
  nextSeq : Nat := 0
  /-- WPOS, 16 bits. R582 (22_event_recorder.md). Reset 0 (Table 22-3). -/
  wpos : Nat := 0
  /-- LAP, parity of the ring's lap. R580, R582 (22_event_recorder.md). Reset 0 (Table 22-3). -/
  lap : Bool := false
  /-- LOST, 30 bits, saturating, cleared by a read. R579, R582 (22_event_recorder.md). Reset 0 (Table 22-3). -/
  lost : Nat := 0
  /-- Records lost since the freeze began, the P0 of the THAW record. R583 (22_event_recorder.md). Reset 0 (no freeze, R583). -/
  lostFrz : Nat := 0
  /-- APOS, 23 bits: next archive position. R580, R582 (22_event_recorder.md). Reset 0 (Table 22-3). -/
  apos : Nat := 0
  /-- ALAP, parity of the archive lap. R582 (22_event_recorder.md). Reset 0 (Table 22-3). -/
  alap : Bool := false
  /-- AFAIL, the die's archive area is unreadable. R581, R582 (22_event_recorder.md). Reset 0 (Table 22-3). -/
  afail : Bool := false
  /-- Stored records not yet copied to the archive. R580 (22_event_recorder.md). Reset 0 (rings empty). -/
  uncopied : Nat := 0
  /-- Module time at which the records in the queue will all have been taken, one per 20 ns. R579 (22_event_recorder.md). Reset 0 (queue empty). -/
  busyTo : Nat := 0
  deriving DecidableEq, Repr

/-- The event recorder. -/
structure Recorder where
  /-- Status of the recorders of dies 0-6. R582 (22_event_recorder.md). Reset as Table 22-3. -/
  dies : SMap RecDie := []
  /-- Rings in SRAM, 65,536 positions of 32 B per die, key 65,536 x die + position. R580 (22_event_recorder.md). Reset never written (R576). -/
  rings : SMap Stored := []
  /-- HBM archive areas 0-7, key 8,388,608 x area + position. R580 (22_event_recorder.md). Reset never written (R576). -/
  arch : SMap Stored := []
  /-- Critical archive in the non-volatile store, 4,096 positions. R581 (22_event_recorder.md). Reset never written (R576). -/
  crit : SMap Stored := []
  /-- WPOS of entry 7, 12 bits. R582 (22_event_recorder.md). Reset 0 (Table 22-3). -/
  critPos : Nat := 0
  /-- LAP of entry 7. R582 (22_event_recorder.md). Reset 0 (Table 22-3). -/
  critLap : Bool := false
  /-- NV_LOST, 30 bits saturating. R581, R582 (22_event_recorder.md). Reset 0 (Table 22-3). -/
  nvLost : Nat := 0
  /-- Critical records waiting for the write within 10 ms, oldest first. R581 (22_event_recorder.md). Reset none. -/
  critPend : List Record := []
  /-- Module times of the critical-archive writes of the last second (at most 100 per second). R581 (22_event_recorder.md). Reset none. -/
  critTimes : List Nat := []
  /-- Whole multiples of 2^36 ns whose EPOCH records have been written. R586 (22_event_recorder.md). Reset 0 (module time starts at zero). -/
  epochs : Nat := 0
  /-- FROZEN. R583 (22_event_recorder.md). Reset 0 (Table 22-3). -/
  frozen : Bool := false
  /-- The thread that posted FREEZE, 32 x control core + thread. R584 (22_event_recorder.md). Reset none (not frozen). -/
  holder : Nat := 0
  /-- Module time of the first FREEZE; the automatic thaw is due 1 s later. R584 (22_event_recorder.md). Reset none (not frozen). -/
  frozenAt : Nat := 0
  deriving DecidableEq, Repr

/-! ### Chervil: sensors, limits, power states (chapters 02, 19, 21) -/

/-- A sampled quantity: its last five raw values and the filter output (R556). -/
structure Sensor where
  /-- Last raw samples, newest first, at most five. R556 (21_sentinel_power_thermal.md). Reset none. -/
  hist : List Int := []
  /-- IIR output with 16 fraction bits. R556 (21_sentinel_power_thermal.md). Reset 0 (DESIGN CHOICE 0, log 12). -/
  y : Int := 0
  /-- Highest filtered value since read (RC), none until a sample after it. R559 Table 21-3 (21_sentinel_power_thermal.md). Reset none. -/
  peak : Option Int := none
  /-- Marked failed. R557 (21_sentinel_power_thermal.md). Reset 0 (DESIGN CHOICE 0, log 12). -/
  failed : Bool := false
  /-- Module time of the last reading. R557 (21_sentinel_power_thermal.md). Reset 0 (DESIGN CHOICE 0, log 12). -/
  lastAt : Nat := 0
  deriving DecidableEq, Repr

/-- A buck phase, Table 21-3 entry 0x0202 (R569). -/
structure Phase where
  /-- Filtered current, 0.1 A, with its sample history. R556, R569 (21_sentinel_power_thermal.md). Reset 0 (DESIGN CHOICE 0, log 12). -/
  cur : Sensor := {}
  /-- Filtered temperature, degrees C. R556, R569 (21_sentinel_power_thermal.md). Reset 0 (DESIGN CHOICE 0, log 12). -/
  tmp : Sensor := {}
  /-- Rail 0-4 in the order of Table 21-6 that a spare phase was connected to, 5 none; a non-spare phase keeps the rail of its number. R569 (21_sentinel_power_thermal.md). Reset 5. -/
  rail : Nat := 5
  /-- Marked failed (0b10). R569 (21_sentinel_power_thermal.md). Reset working (Table 21-4 PHASES 48). -/
  failed : Bool := false
  deriving DecidableEq, Repr

/-- Issue limits of one core die: the cap demand and the thermal demand, 64ths (R562). -/
structure Limits where
  /-- Cap limit, tiles. R49, R562 (02, 21). Reset 64 (Table 02-4). -/
  capT : Nat := 64
  /-- Cap limit, lookups. R49, R562 (02, 21). Reset 64 (Table 21-4 LIL). -/
  capL : Nat := 64
  /-- Thermal limit, tiles. R562, R566 (21_sentinel_power_thermal.md). Reset 64 (Table 21-4). -/
  thT : Nat := 64
  /-- Thermal limit, lookups. R562, R566 (21_sentinel_power_thermal.md). Reset 64 (Table 21-4). -/
  thL : Nat := 64
  /-- Core rail set point, mV (VCORE0/1). Table 21-4, R570 (21_sentinel_power_thermal.md). Reset 800 (Table 21-4). -/
  vcore : Nat := 800
  /-- Droop threshold below the set point, mV. R51, R561 (02, 21). Reset 30 (Table 02-4). -/
  droopMv : Nat := 30
  /-- Restore level above the droop threshold, mV. R51 (02_handshake_timing.md). Reset 10 (Table 02-4). -/
  restoreMv : Nat := 10
  /-- Dwell time of a restore, ns. R51 (02_handshake_timing.md). Reset 64 (Table 02-4). -/
  dwell : Nat := 64
  deriving DecidableEq, Repr

/-- Droop pacing of one sensor (32 clusters, then 2 crossbar halves). -/
structure Droop where
  /-- Issue of the tiles it governs, 64ths, 32 (50 %) to 64 (100 %). R46, R47 (02_handshake_timing.md). Reset 64 (100 %). -/
  paceT : Nat := 64
  /-- Issue of the lookup pipelines it governs, 64ths (crossbar halves). R46, R47 (02_handshake_timing.md). Reset 64 (100 %). -/
  paceL : Nat := 64
  /-- Since when the rail has stayed at or above the restore level, or the last restore step; none while it is below. R46, R47 (02_handshake_timing.md). Reset 0 (power-on). -/
  since : Option Nat := some 0
  /-- Droop events counted (Table 21-1). R556 (21_sentinel_power_thermal.md). Reset 0 (DESIGN CHOICE 0, log 12). -/
  events : Nat := 0
  deriving DecidableEq, Repr

/-- A matched delay line and the codes it holds. -/
structure DelayLine where
  /-- Delay code in use, 6 bits. R35, R40 (02_handshake_timing.md). Reset 0 (DESIGN CHOICE, log 12). -/
  code : Nat := 0
  /-- Pending delay code, none when the line holds one code. R40 (02_handshake_timing.md). Reset none. -/
  pend : Option Nat := none
  deriving DecidableEq, Repr

/-- Temperature bin and margin of one block (0-31 clusters, 32-33 crossbar halves). -/
structure Block where
  /-- Temperature bin 0-7. R38, R39 (02_handshake_timing.md). Reset 0 (DESIGN CHOICE: the initial filtered value 0 lies in bin 0, log 12). -/
  bin : Nat := 0
  /-- Filtered replica margin, code steps. R515 (19_reliability.md). Reset 0 (DESIGN CHOICE, log 12). -/
  margin : Int := 0
  /-- Last readings of the replica margin, newest first, at most five. R515 (19_reliability.md). Reset none. -/
  margins : List Int := []
  /-- The filtered margin is 1 or 0: issue of the block stays at 50 %. R515 (19_reliability.md). Reset false. -/
  low : Bool := false
  /-- The tiles of the cluster are shadowed at 1/64 until this module time. R515 (19_reliability.md). Reset none. -/
  boostUntil : Option Nat := none
  deriving DecidableEq, Repr

/-- Thermal shedding state of a port die (R566). -/
structure ShedDie where
  /-- Since when the die has stayed at 105 degrees C or above with lookups at 16/64. R566 (21_sentinel_power_thermal.md). Reset none. -/
  hotSince : Option Nat := none
  /-- Since when it has stayed below 95 degrees C. R566 (21_sentinel_power_thermal.md). Reset none. -/
  coolSince : Option Nat := none
  /-- Time of the last port taken down. R566 (21_sentinel_power_thermal.md). Reset 0 (none). -/
  lastShed : Nat := 0
  /-- Shedding is under way: it goes on until the die is below 100 degrees C. R566 (21_sentinel_power_thermal.md). Reset false. -/
  active : Bool := false
  /-- Fabric ports taken down for heat. R566 (21_sentinel_power_thermal.md). Reset none. -/
  ports : List Nat := []
  deriving DecidableEq, Repr

/-- PSTATE of Table 21-4, and SLEEP (R574). -/
inductive PState where
  | run | doze | waking | sleep
  deriving DecidableEq, Repr

/-- The always-on sentinel. -/
structure Chervil where
  /-- Sensors of Table 21-1: 0-31 clusters, 32-33 crossbar halves, 34-49 port dies (4 each), 50 S, 51-54 HBM stacks, 55 input voltage, 56 input current. R556, R559 (21_sentinel_power_thermal.md). Reset 0 (DESIGN CHOICE, log 12). -/
  sensors : SMap Sensor := []
  /-- Phases 0-47 and rails 48-52. R559, R569 (21_sentinel_power_thermal.md). Reset working, 0 readings (log 12). -/
  phases : SMap Phase := []
  /-- Bin and margin of each block. R38, R39, R515 (02, 19). Reset see fields. -/
  blocks : SMap Block := []
  /-- Delay lines: 0-31 the cluster's own stages, 32-33 the crossbar halves' own stages, 34-289 tiles, 290-293 lookup pipelines of P0-P3, 294-295 crossbar port stages of the halves, 296-327 spare tiles. R35, R40 (02_handshake_timing.md). Reset see fields. -/
  lines : SMap DelayLine := []
  /-- Code offsets 0-8, key 8 x block + bin, blocks 0-33 and tiles at 34-289; non-volatile. R41, R559 (02, 21). Reset 0 (R41: raised from 0). -/
  offsets : SMap Nat := []
  /-- Droop pacing per sensor. R45-R47 (02_handshake_timing.md). Reset 100 %. -/
  droop : SMap Droop := []
  /-- Limits per core die 0, 1. R49, R562, R566 (02, 21). Reset 64/64. -/
  limits : SMap Limits := []
  /-- CAP of the power policy, W; non-volatile. R563 (21_sentinel_power_thermal.md). Reset 1500. -/
  cap : Nat := 1500
  /-- CAP_MAX, W. R513, Table 21-4 (19, 21). Reset 1500. -/
  capMax : Nat := 1500
  /-- DOZE_EN of the power policy; non-volatile. R563 (21_sentinel_power_thermal.md). Reset 0. -/
  dozeEn : Bool := false
  /-- DOZE_V, mV; non-volatile. R563 (21_sentinel_power_thermal.md). Reset 650. -/
  dozeV : Nat := 650
  /-- PSTATE. R572-R574 (21_sentinel_power_thermal.md). Reset RUN (Table 21-4 0b00). -/
  pstate : PState := .run
  /-- CAP_LIMITED. R562 (21_sentinel_power_thermal.md). Reset 0. -/
  capLimited : Bool := false
  /-- ENERGY, mJ since power-on, with nanojoule remainder. Table 21-4 (21_sentinel_power_thermal.md). Reset 0. -/
  energyNj : Nat := 0
  /-- Peridot level of each half 0, 1. Table 13-4, Table 21-4 (13, 21). Reset 0. -/
  plvl : SMap Nat := []
  /-- HBM stacks whose port admission is limited to 50 %. R564 (21_sentinel_power_thermal.md). Reset none. -/
  hbmHot : List Nat := []
  /-- INPUT_HIGH in force. R568, R571 (21_sentinel_power_thermal.md). Reset false. -/
  inputHigh : Bool := false
  /-- INPUT_LOW in force. R568, R571 (21_sentinel_power_thermal.md). Reset false. -/
  inputLow : Bool := false
  /-- Since when the input has been above 66 V. R571 (21_sentinel_power_thermal.md). Reset none. -/
  over66 : Option Nat := none
  /-- Since when the input has been below 48 V. R571 (21_sentinel_power_thermal.md). Reset none. -/
  under48 : Option Nat := none
  /-- Since when the input has stayed within 48-66 V. R571 (21_sentinel_power_thermal.md). Reset none. -/
  inRange : Option Nat := none
  /-- The converter is stopped for the input (dies held in reset). R571 (21_sentinel_power_thermal.md). Reset false. -/
  convStop : Bool := false
  /-- Last heartbeat of Carnelian-A, -B (8, 9) and of CC0-CC7 (0-7). R556, R560 (21_sentinel_power_thermal.md). Reset 0 (power-on). -/
  beats : SMap Nat := []
  /-- Module time of the last LSCAN that completed. R560 (21_sentinel_power_thermal.md). Reset 0 (power-on). -/
  lscanAt : Nat := 0
  /-- The LEASE_STALL alert has been raised for the present stall. R560 (21_sentinel_power_thermal.md). Reset false. -/
  stallRaised : Bool := false
  /-- Control cores whose HEARTBEAT alert stands for the present miss. R560 (21_sentinel_power_thermal.md). Reset none. -/
  beatRaised : List Nat := []
  /-- THERMTRIP_L is low. R567 (21_sentinel_power_thermal.md). Reset high (not asserted). -/
  trip : Bool := false
  /-- Thermal shedding of each port die. R566 (21_sentinel_power_thermal.md). Reset none. -/
  shed : SMap ShedDie := []
  /-- A SET_POLICY has requested SLEEP. R574 (21_sentinel_power_thermal.md). Reset false. -/
  sleepReq : Bool := false
  /-- Shadow check rate of each tile: checks per handler as n in 1/n. R515, R519 (19_reliability.md). Reset see chapter 19 (the field's 0 stands for the default rate). -/
  shadowRate : SMap Nat := []
  /-- Time Chervil's firmware restart began, when one is under way. R532 (19_reliability.md). Reset none. -/
  restarting : Option Nat := none
  deriving DecidableEq, Repr

/-! ### Fabric links (chapter 03) -/

/-- Port link states in the order of Table 03-6. -/
inductive LinkState where
  | down | trainR | reduced | trainF | up | narrowed | fenced
  deriving DecidableEq, Repr

/-- Discovery state of a port (chapter 20, R541, R542). -/
inductive DiscState where
  | idle | helloSent | certs | proofSent | done | abandoned
  deriving DecidableEq, Repr

/-- A link frame kept for replay: its sequence number, whether it closes its group, and its 256 bytes. -/
structure TxFrame where
  seq : Nat := 0
  close : Bool := false
  bytes : List Byte := []
  deriving DecidableEq, Repr

/-- A lane change announced by the partner or the module (R88, R89, Table 03-5 bytes 36-39). -/
structure LaneChange where
  /-- 1 narrow, 2 widen, 3 swap. -/
  op : Nat := 0
  mask : Nat := 0
  seq : Nat := 0
  deriving DecidableEq, Repr

/-- One fabric port or half-port, numbered by its endpoint code 0-383 (R137). -/
structure Port where
  /-- State of Table 03-6. R82 (03_fabric_links.md). Reset DOWN (Table 20-2, before bring-up). -/
  st : LinkState := .down
  /-- Module time of entry into the state. R82, R83 (03_fabric_links.md). Reset 0. -/
  since : Nat := 0
  /-- TRAIN_F was entered under R73. R83 (03_fabric_links.md). Reset false. -/
  fromUp : Bool := false
  /-- The port has returned to REDUCED from a TRAIN_F that failed, and not begun another. R83, R539 (03, 20). Reset false. -/
  fullFailed : Bool := false
  /-- Half in full-rate training: 0 first, 1 second. R84 (03_fabric_links.md). Reset 0. -/
  half : Nat := 0
  /-- Place in `lanes` of the lane that the next frame is given to. R60 (03_fabric_links.md). Reset 0 (DESIGN CHOICE: the first position, log 13). -/
  nextLane : Nat := 0
  /-- Module time the transmission in progress ends, and its class. R121, R126, R129 (04_switch_core.md). Reset 0 (none in progress). -/
  txEnd : Nat := 0
  txCls : Nat := 0
  /-- Active lanes, global numbers in order of position. R60, R88 (03_fabric_links.md). Reset none trained. -/
  lanes : List Nat := []
  /-- Lanes that hold the port's positions, active or not, in order of position. R60, R88, R89 (03_fabric_links.md). Reset none trained. -/
  pos : List Nat := []
  /-- SEQ expected of the next received frame, modulo 4,096. R64, R72 (03_fabric_links.md). Reset 0. -/
  rxSeq : Nat := 0
  /-- Frames received in the open group: their 256 bytes, oldest first. R78, R79 (03_fabric_links.md). Reset none. -/
  rxGroup : List (List Byte) := []
  /-- First SEQ of a discarded group whose violation has been counted. R93 (03_fabric_links.md). Reset none. -/
  counted : Option Nat := none
  /-- Received groups under the present receive key. R78 (03_fabric_links.md). Reset 0. -/
  rxCtr : Nat := 0
  /-- A NAK was sent and the replay of this SEQ is awaited. R72 (03_fabric_links.md). Reset none. -/
  nakWait : Option Nat := none
  /-- A NAK still to be sent: its NAK_SEQ and reason. R69, R72 (03_fabric_links.md). Reset none. -/
  nakDue : Option (Nat × Nat) := none
  /-- Byte stream of each VL received and not yet a whole packet. R65 (03_fabric_links.md). Reset empty. -/
  rxStream : SMap (List Byte) := []
  /-- VLs whose stream is discarded up to the next frame with START. R92 (03_fabric_links.md). Reset none. -/
  skip : List Nat := []
  /-- SEQ of the next transmitted frame. R64 (03_fabric_links.md). Reset 0. -/
  txSeq : Nat := 0
  /-- Last SEQ the partner acknowledged plus one. R69, R73 (03_fabric_links.md). Reset 0. -/
  ackSeq : Nat := 0
  /-- Module time ACK_SEQ last advanced. R73 (03_fabric_links.md). Reset 0. -/
  ackAt : Nat := 0
  /-- Replay buffer, oldest first. R71, R72 (03_fabric_links.md). Reset empty. -/
  replay : List TxFrame := []
  /-- Replays of the oldest group without progress. R73 (03_fabric_links.md). Reset 0. -/
  replays : Nat := 0
  /-- Transmitted groups under the present transmit key. R78, R80 (03_fabric_links.md). Reset 0. -/
  txCtr : Nat := 0
  /-- Frames of the open transmit group, header and plaintext body (252 bytes each), oldest first. R78 (03_fabric_links.md). Reset none. -/
  txGroup : List (List Byte) := []
  /-- Data frames since the last control frame. R70 (03_fabric_links.md). Reset 0. -/
  sinceCtl : Nat := 0
  /-- An acknowledgement or credit is waiting to be returned. R70 (03_fabric_links.md). Reset false. -/
  ackDue : Bool := false
  /-- Credits granted by the partner, cumulative per VL. R75 (03_fabric_links.md). Reset 0. -/
  crGot : SMap Nat := []
  /-- Credits spent toward the partner per VL. R75 (03_fabric_links.md). Reset 0. -/
  crSpent : SMap Nat := []
  /-- Credits granted to the partner, cumulative per VL. R75, R76 (03_fabric_links.md). Reset 0. -/
  crGiven : SMap Nat := []
  /-- Credits the partner has used per VL, as packets arrived. R75, R92 (03_fabric_links.md). Reset 0. -/
  crUsed : SMap Nat := []
  /-- Credits to return per VL that are withheld, or that a reduced headroom keeps back. R43, R112 (02, 04). Reset 0. -/
  crHeld : SMap Nat := []
  /-- Credits per VL that a reduced headroom still keeps back as packets leave. R112 (04_switch_core.md). Reset 0. -/
  crDebt : SMap Nat := []
  /-- Credit returns withheld because the receive FIFO is full. R43 (02_handshake_timing.md). Reset false. -/
  withhold : Bool := false
  /-- Words in the receive boundary FIFO, 0-32; further words wait behind it in the link layer. R42, R43 (02_handshake_timing.md). Reset 0. -/
  rxFill : Nat := 0
  /-- The port has link keys. R81 (03_fabric_links.md). Reset false (R604, keys do not survive). -/
  keyed : Bool := false
  /-- Receive key, transmit key: numbers that stand for the derived keys and salts. R78, R80, R487 (03, 18). Reset 0 (none). -/
  rxKey : Nat := 0
  txKey : Nat := 0
  /-- Discovery transcript TH, the direction byte of the module's own frames, and key updates made in each direction. R80, R487 (03, 18). Reset 0. -/
  th : BitVec 384 := 0
  dir : Nat := 0
  txU : Nat := 0
  rxU : Nat := 0
  /-- Receive key of the other phase while both are held. R80 (03_fabric_links.md). Reset none. -/
  rxKeyNext : Option Nat := none
  /-- Old transmit key, and the first SEQ under the new one, until the partner acknowledges it. R80 (03_fabric_links.md). Reset none. -/
  txOld : Option (Nat × Nat) := none
  /-- KPHASE received and sent. R80 (03_fabric_links.md). Reset 0. -/
  rxPhase : Bool := false
  txPhase : Bool := false
  /-- First SEQ of an announced transmit key update. R80 (03_fabric_links.md). Reset none. -/
  txUpdate : Option Nat := none
  /-- First SEQ of the update the partner announced. R80 (03_fabric_links.md). Reset none. -/
  rxUpdate : Option Nat := none
  /-- Key update word announced in bytes 44-47 until it is acknowledged, and the partner's last one, acknowledged in bytes 48-51. R69, R80 (03_fabric_links.md). Reset 0 (none). -/
  keyWord : Nat := 0
  partnerKey : Nat := 0
  /-- Module time the transmit key was loaded. R80 (03_fabric_links.md). Reset 0. -/
  keyAt : Nat := 0
  /-- Violation counters, key = row of Table 03-10 (0-8), 32 bits saturating. R92, R93 (03_fabric_links.md). Reset 0. -/
  viol : SMap Nat := []
  /-- Module times of violations inside the sliding window, per row. R92 (03_fabric_links.md). Reset none. -/
  violAt : SMap (List Nat) := []
  /-- Node ID bound at discovery (edge port) or of the peer module (trunk). R138, R541 (05, 20). Reset none. -/
  bound : Option Nat := none
  /-- Lane events waiting in order of detection: lane and class. R90 (03_fabric_links.md). Reset none. -/
  laneQ : List (Nat × Nat) := []
  /-- Own lane change announced in bytes 36-39 until it is acknowledged. R69, R88-R90 (03_fabric_links.md). Reset none. -/
  change : Option LaneChange := none
  /-- The partner's last lane change, acknowledged in bytes 40-43, and the one that waits for its SEQ. R69, R88-R90 (03_fabric_links.md). Reset none. -/
  partnerChange : Option LaneChange := none
  partnerDue : Option LaneChange := none
  /-- NBRMSGs that wait for credits or replay room: MTYPE, chunk and payload, oldest first. R71, R75, R94 (03_fabric_links.md). Reset none. -/
  nbrDue : List (Nat × Nat × List Byte) := []
  /-- Discovery progress. R541, R542 (20_bringup_reset.md). Reset idle. -/
  disc : DiscState := .idle
  /-- Module time discovery last started, and of the last HELLO. R542 (20_bringup_reset.md). Reset 0. -/
  discAt : Nat := 0
  helloAt : Nat := 0
  /-- The module's HELLO: its payload bytes, kept for the transcript. R542 (20_bringup_reset.md). Reset none. -/
  ownHello : List Byte := []
  /-- Partner's HELLO: its payload bytes, kept for the proof. R542 (20_bringup_reset.md). Reset none. -/
  peerHello : List Byte := []
  /-- Certificate chunks received so far. R542 (20_bringup_reset.md). Reset none. -/
  peerCert : List Byte := []
  /-- Stage last announced by the partner (NBRMSG STAGE). R546 (20_bringup_reset.md). Reset 0. -/
  peerStage : Nat := 0
  /-- MSEQ that the partner announced with it. R541 (20_bringup_reset.md). Reset 0. -/
  peerMseq : Nat := 0
  /-- Cause of the last DISC_ABANDONED record of the present series: none, or 0 timeout, 1 KIND, 2 claim, 4 duplicate node. R542-R544 (20_bringup_reset.md). Reset none. -/
  discCause : Option Nat := none
  /-- Queues to be flushed: 0 none, 1 all eight, 2 those of TC1-TC5 and TC7. R83, R129 (03, 04). Reset 0. -/
  flushDue : Nat := 0
  deriving DecidableEq, Repr

/-- One physical lane 0-799. -/
structure Lane where
  /-- Class of Table 03-8: 0 Good, 1 Marginal, 2 Failing, 3 Failed. R86 (03_fabric_links.md). Reset Good (DESIGN CHOICE 0, log 13). -/
  cls : Nat := 0
  /-- Marked retired. R88 (03_fabric_links.md). Reset false. -/
  retired : Bool := false
  /-- Held as a hot spare. R87 (03_fabric_links.md). Reset false. -/
  hot : Bool := false
  /-- Background retrains made. R91 (03_fabric_links.md). Reset 0. -/
  retrains : Nat := 0
  /-- Module time of the last retrain. R91 (03_fabric_links.md). Reset 0. -/
  retrainAt : Nat := 0
  /-- Since when the retrained lane has stayed Good. R91 (03_fabric_links.md). Reset none. -/
  goodSince : Option Nat := none
  /-- Port that the lane last served. R91 (03_fabric_links.md). Reset none. -/
  port : Option Nat := none
  /-- Monitor words of Table 03-7, last sample. R85 (03_fabric_links.md). Reset 0 (DESIGN CHOICE, log 13). -/
  mon : LaneMon := {}
  /-- The last five raw samples, newest first. R556 (21_sentinel_power_thermal.md). Reset none. -/
  raw : List LaneMon := []
  /-- Filtered samples of the last second, newest first. R86, R556 (03, 21). Reset none. -/
  errs : List LaneMon := []
  /-- Module time of the last full margin scan, and its count of scans. R85 (03_fabric_links.md). Reset 0. -/
  scanAt : Nat := 0
  scans : Nat := 0
  deriving DecidableEq, Repr

/-! ### Switch core (chapter 04) -/

/-- A packet held in buffer cells. -/
structure QPkt where
  pkt : Packet := {}
  /-- Endpoint the packet entered on. -/
  src : Nat := 0
  /-- Bits [31:0] of the module time it was taken (R133). -/
  takeAt : Nat := 0
  /-- Module time its first cell was written on the die (R158). -/
  wroteAt : Nat := 0
  /-- Policer colour: 0 green, 1 yellow, 2 red (R115). -/
  colour : Nat := 0
  /-- Multicast copy number, 0 for a packet of one leg (R101). -/
  copy : Nat := 0
  /-- Leg of a multicast copy (R289): leg index plus one, and the leg entry above bit 17; 0 for a packet of one leg. -/
  leg : Nat := 0
  /-- Cells come from the collective reserve (R109). -/
  reserve : Bool := false
  /-- Cell indices of its cells in chain order: each one's next-cell pointer in the link table names the one behind it (R17, R99). -/
  cells : List Nat := []
  /-- On a core-link queue: the legs of the packet on the far die, endpoint and leg (R16, R108). -/
  far : List (Nat × Nat) := []
  /-- A stream's response: order entry, block, and its line within the entry (R334). -/
  blk : Option (Nat × Nat × Nat) := none
  /-- The table slot, plus one, on which its leg's decoder counts the block whose header it carries (R359). -/
  slot : Nat := 0
  /-- Raw data that a leg's egress pipeline holds behind its decoder: it takes no cells (R334). -/
  piped : Bool := false
  deriving DecidableEq, Repr

/-- One egress queue, numbered 8 x endpoint + class (R103, R402). -/
structure EQueue where
  /-- Packets, head first. R99 (04_switch_core.md). Reset empty. -/
  pkts : List QPkt := []
  /-- RED average depth with 16 fraction bits. R119 (04_switch_core.md). Reset 0 (DESIGN CHOICE, log 14). -/
  avg : Nat := 0
  /-- last_finish in 1/tagUnit. R122 (04_switch_core.md). Reset 0 (DESIGN CHOICE, log 14). -/
  lastFin : Nat := 0
  /-- woke. R122 (04_switch_core.md). Reset true (an empty queue wakes when it becomes non-empty). -/
  woke : Bool := true
  /-- Start and finish tag of the head packet in 1/tagUnit. R122 (04_switch_core.md). Reset none. -/
  tag : Option (Nat × Nat) := none
  /-- Shaper bucket in 1/8000 byte, and the time it was last filled. R121, R123 (04_switch_core.md). Reset 0 (DESIGN CHOICE, log 14). -/
  bucket : Int := 0
  bucketAt : Nat := 0
  /-- ENQ_PKTS, ENQ_BYTES, DEQ_PKTS, DEQ_BYTES, DROP_POLICE, DROP_RED, DROP_THRESH, DROP_POOL, FLUSHED, STALL_NS, GATE_NS, DEPTH_NOW, DEPTH_MAX, DELAY_NOW, DELAY_MAX of Table 04-13, keys 0-14, 64 bits wrapping. R132, R134 (04_switch_core.md). Reset 0. -/
  ctr : SMap Nat := []
  /-- Next bank, 0-47, of the rotation of its cells. R100 (04_switch_core.md). Reset 0 (DESIGN CHOICE, log 14). -/
  bankNext : Nat := 0
  /-- The head was ineligible when last looked at. R122 (04_switch_core.md). Reset false. -/
  blocked : Bool := false
  /-- Since when the head waits for credits, and for its gate. R132 (04_switch_core.md). Reset none. -/
  stallSince : Option Nat := none
  gateSince : Option Nat := none
  deriving DecidableEq, Repr

/-- A parked packet and the outcome its lookup settled. -/
structure Parked where
  pkt : Packet := {}
  /-- Egress endpoints with the leg they are, 0 for a unicast packet: leg index plus one, and the leg entry above bit 17. -/
  legs : List (Nat × Nat) := []
  /-- Module time its first cell was written. -/
  wroteAt : Nat := 0
  /-- Held red by its policer (R117). -/
  red : Bool := false
  /-- Endpoint the packet entered on. -/
  src : Nat := 0
  /-- Headroom cells it still occupies (R105); none for a packet the module made itself (R611). -/
  head : Nat := 0
  /-- Policer colour it got where it entered, none before (R108, R116). -/
  colour : Option Nat := none
  /-- Cell indices of its cells, in chain order (R17, R99). -/
  cells : List Nat := []
  /-- The Yarpin site that waits in a SEND or FWD until the packet is admitted: 0 none, 1 + tile, 257 + thread (R253). -/
  owner : Nat := 0
  /-- A stream's response: order entry, block, and its line within the entry (R334). -/
  blk : Option (Nat × Nat × Nat) := none
  deriving DecidableEq, Repr

/-- Parked FIFO of one ingress port position (or internal ingress) and class. -/
structure ParkQ where
  /-- Parked packets, head first. R106 (04_switch_core.md). Reset empty. -/
  pkts : List Parked := []
  /-- PARK_NS, PARK_MAX, HOLD_POLICE. R132 (04_switch_core.md). Reset 0. -/
  parkNs : Nat := 0
  parkMax : Nat := 0
  holdPolice : Nat := 0
  /-- Since when at least one packet is parked. R132 (04_switch_core.md). Reset none. -/
  since : Option Nat := none
  deriving DecidableEq, Repr

/-- Buffer accounting of one core die. -/
structure BufDie where
  /-- Cells of the shared pool in use. R102, R104 (04_switch_core.md). Reset 0. -/
  used : Nat := 0
  /-- Cells of the collective reserve in use, and its size after R102. R109, R113 (04_switch_core.md). Reset 0, 65,536. -/
  resUsed : Nat := 0
  resSize : Nat := 65536
  /-- Port headroom taken off TC0, TC2 and TC3 per position under R102, in cells. R102 (04_switch_core.md). Reset 0. -/
  hrCut : Nat := 0
  /-- POOL_MIN and RESERVE_MIN: least free cells since they were last read, none until an admission (log 41). R132 (04_switch_core.md). Reset none. -/
  poolMin : Option Nat := none
  resMin : Option Nat := none
  /-- Cells in use of each bank 0-47 of the die: bit n set, cell n of the bank is in use. R17, R100, R508 (01, 04, 19). Reset 0. -/
  inUse : SMap Nat := []
  /-- Banks that no longer allocate and wait for a spare, with the time of the trigger, and retired banks. R508 (19_reliability.md). Reset none. -/
  bankStop : SMap Nat := []
  bankRetired : List Nat := []
  /-- Spare banks left. R508 (19_reliability.md). Reset 2 (Table 01-1). -/
  bankSpares : Nat := 2
  /-- Module time of the last telemetry sample. R134 (04_switch_core.md). Reset 0. -/
  sampleAt : Nat := 0
  /-- Counters of R318, keys 0-.. in table order. R318 (10_collectives.md). Reset 0. -/
  lookup : SMap Nat := []
  deriving DecidableEq, Repr

/-- Token buckets of one policer in 1/8000 byte (R116). -/
structure Buckets where
  c : Nat := 0
  p : Nat := 0
  /-- Module time of the last fill. -/
  at_ : Nat := 0
  deriving DecidableEq, Repr

/-- Running gate list of one endpoint: header image and entry images in force, and the flip waiting. -/
structure Gate where
  /-- Running list header (Table 04-10) and entries. R125, R128 (04_switch_core.md). Reset none (GATE_EN 0). -/
  hdr : Nat := 0
  ents : List Nat := []
  /-- Committed list waiting for its first cycle: header, entries, flip time. R128 (04_switch_core.md). Reset none. -/
  next : Option (Nat × List Nat × Nat) := none
  /-- Module time the old list's current cycle ends while a list waits. R128 (04_switch_core.md). Reset 0. -/
  oldEnd : Nat := 0
  deriving DecidableEq, Repr

/-- Switch core state. -/
structure Switch where
  /-- Packets that have arrived and wait for their lookup, key 8 x endpoint + VL, oldest first, with arrival time. R65, R96 (03, 04). Reset empty. -/
  ingress : SMap (List (Packet × Nat)) := []
  /-- Egress queues, key 8 x endpoint + class. R103 (04_switch_core.md). Reset empty. -/
  queues : SMap EQueue := []
  /-- WFQ virtual time V per endpoint in 1/tagUnit. R122 (04_switch_core.md). Reset 0 (DESIGN CHOICE, log 14). -/
  vtime : SMap Nat := []
  /-- Parked FIFOs, key 8 x ingress endpoint + class (core links and host channels included). R105, R106 (04_switch_core.md). Reset empty. -/
  parked : SMap ParkQ := []
  /-- Next ingress of the round-robin take, per egress queue. R106 (04_switch_core.md). Reset 0 (DESIGN CHOICE, log 14). -/
  rr : SMap Nat := []
  /-- Stalled sends of internal sources, key 8 x internal endpoint + class. R109 (04_switch_core.md). Reset none. -/
  stalled : SMap (List Parked) := []
  /-- Reference counts of multicast copies: legs left, cells, core die. R101 (04_switch_core.md). Reset none. -/
  copies : SMap (Nat × Nat × Nat) := []
  /-- Next copy number. R101 (04_switch_core.md). Reset 1. -/
  nextCopy : Nat := 1
  /-- Buffer of core die 0 and 1. R102 (04_switch_core.md). Reset see fields. -/
  buf : SMap BufDie := []
  /-- Token buckets, key 4,096 x die + policer. R115, R116 (04_switch_core.md). Reset 0. -/
  buckets : SMap Buckets := []
  /-- Gate lists per endpoint. R125-R128 (04_switch_core.md). Reset GATE_EN 0. -/
  gates : SMap Gate := []
  /-- Headroom cells in use, key 8 x ingress endpoint + class. R105 (04_switch_core.md). Reset 0. -/
  hrUsed : SMap Nat := []
  deriving DecidableEq, Repr

/-! ### Memory-semantic fabric (chapter 05) -/

/-- An open request record of R148. -/
structure OpenReq where
  ctx : Nat := 0
  src : Nat := 0
  tag : Nat := 0
  ext : Nat := 0
  deriving DecidableEq, Repr

/-- A request of the module itself that is outstanding (R161, R163). -/
structure OwnReq where
  pkt : Packet := {}
  /-- Who gets the outcome: kind of user, then its number and chunk. -/
  user : Nat := 0
  unit : Nat := 0
  arg : Nat := 0
  gen : Nat := 0
  /-- Module time it was sent. -/
  at_ : Nat := 0
  /-- Retries made so far. -/
  tries : Nat := 0
  /-- Last status received, none if no attempt was answered. -/
  last : Option Nat := none
  /-- Module time at which the retry is due; none while a response is awaited. -/
  retryAt : Option Nat := none
  /-- Some attempt went unanswered. -/
  lost : Bool := false
  /-- The attempt under this tag has gone unanswered beyond the timeout. -/
  silent : Bool := false
  deriving DecidableEq, Repr

/-- A buffered line of a home (R167). -/
structure BufLine where
  data : List Byte := []
  poison : Bool := false
  /-- Module time of the last write. -/
  at_ : Nat := 0
  deriving DecidableEq, Repr

/-- Memory fabric and home state. -/
structure MemFabric where
  /-- Open request records of the edge. R148 (05_memory_fabric.md). Reset none. -/
  open_ : List OpenReq := []
  /-- Start of the drain of each REVOKING extent (module time of the flip). R160 (05_memory_fabric.md). Reset none. -/
  drainAt : SMap Nat := []
  /-- Extents whose drain is complete here. R160 (05_memory_fabric.md). Reset none. -/
  drained : List Nat := []
  /-- Outstanding requests of MODULE_NODE, key tag. R161, R163 (05_memory_fabric.md). Reset none. -/
  own : SMap OwnReq := []
  /-- Tags of unanswered requests held until PATH_BOUND after the timeout: release time. R161 (05_memory_fabric.md). Reset none. -/
  tagHold : SMap Nat := []
  /-- Next tag to use. R161 (05_memory_fabric.md). Reset 0 (DESIGN CHOICE, log 15). -/
  nextTag : Nat := 0
  /-- Line buffers, key = line address in tier space. R167 (05_memory_fabric.md). Reset empty. -/
  lines : SMap BufLine := []
  /-- HBM contents of the near tier, one byte per address 65,536 x (1,048,576 x stack + frame) + offset. R167, R380 (05, 14). Reset 0 in every byte (DESIGN CHOICE, log 5). -/
  hbm : Mem := []
  /-- Poisoned HBM lines, HBM address / 64. R167 (05_memory_fabric.md). Reset none. -/
  poison : List Nat := []
  /-- Packets delivered to the home of core die 0, 1, head first. R166 (05_memory_fabric.md). Reset empty. -/
  homeIn : SMap (List Packet) := []
  /-- Packets the module received for itself and has not handled: SVCREQ, MAPMSG, NBRMSG, HVOTE, CRMSG, CBLK and others, with their ingress endpoint. R412, R325 (15, 11). Reset empty. -/
  modIn : List (Packet × Nat) := []
  /-- Responses to streams of this module that have not been checked against their fetcher's tags, with their ingress endpoint and the headroom cells they stand in. R16, R333 (01, 11). Reset empty. -/
  streamIn : List (Packet × Nat × Nat) := []
  /-- Responses discarded and counted because their TAG was not outstanding. R161 (05_memory_fabric.md). Reset 0. -/
  strayTags : Nat := 0
  /-- Responses discarded for residence. R158 (05_memory_fabric.md). Reset 0. -/
  oldResp : Nat := 0
  deriving DecidableEq, Repr

/-! ### Coherence domain (chapter 06) -/

/-- A snoop outstanding to an agent. -/
structure Snoop where
  agent : Nat := 0
  /-- INV KEEP. -/
  keep : Bool := false
  tag : Nat := 0
  /-- Module time it was sent. -/
  at_ : Nat := 0
  /-- Line the snoop names (the victim's for a back-invalidation). -/
  line : Nat := 0
  deriving DecidableEq, Repr

/-- An open transaction of a home (R177, R178). -/
structure Txn where
  line : Nat := 0
  /-- The request being served. -/
  pkt : Packet := {}
  /-- The access of several lines that it is one line of, 0 none (R188). -/
  job : Nat := 0
  /-- Agent number of a coherent requester, 64 for an uncached access. -/
  agent : Nat := 64
  /-- Snoops awaiting their answers. -/
  snoops : List Snoop := []
  /-- A victim's back-invalidation is awaited before the transaction starts (R186). -/
  victim : Option Snoop := none
  /-- Retries under R187, and time of the last. -/
  pins : Nat := 0
  pinAt : Nat := 0
  /-- Waiting for a free way (R187). -/
  blocked : Bool := false
  deriving DecidableEq, Repr

/-- A request that a home has taken: of one line, or one line of an uncached access of several (R177, R188). -/
structure HomeReq where
  pkt : Packet := {}
  job : Nat := 0
  deriving DecidableEq, Repr

/-- An uncached access of several coherent lines, answered once every line has completed (R188). -/
structure LineJob where
  pkt : Packet := {}
  /-- Lines that have not completed. -/
  left : Nat := 0
  status : Nat := 0
  /-- Lines read, by their place in the request, and whether they are poisoned. -/
  lines : SMap (List Byte × Bool) := []
  deriving DecidableEq, Repr

/-- Coherence state. -/
structure Coherence where
  /-- Snoop filter entry images of Table 06-6, key 1,048,576 x core die + 16,384 x agent + 16 x set + way. R183 (06_coherence.md). Reset 0, I (Table 06-6). -/
  filter : SMap Nat := []
  /-- Use stamp of each filter entry, for the least recently used way. R186 (06_coherence.md). Reset 0 (DESIGN CHOICE, log 16). -/
  lru : SMap Nat := []
  stamp : Nat := 1
  /-- Open transactions of core die 0, 1, oldest first, at most 4,096 each. R177 (06_coherence.md). Reset none. -/
  txns : SMap (List Txn) := []
  /-- Wait lists of core die 0, 1 in order of taking, at most 16,384 each. R177 (06_coherence.md). Reset none. -/
  waits : SMap (List HomeReq) := []
  /-- Uncached accesses of several lines under way, and the number of the next. R188 (06_coherence.md). Reset none, 1. -/
  jobs : SMap LineJob := []
  jobNext : Nat := 1
  /-- Closed snoops whose late answer is still to be applied. R182 (06_coherence.md). Reset none. -/
  closed : SMap (List Snoop) := []
  /-- Back-invalidations counted etc.: TXN_MAX, WAIT_MAX, BACK_INV, PIN_RETRY, PIN_BUSY, SNOOP_TMO, POISON_SET at 8 x die + row, 64 bits. R190 (06_coherence.md). Reset 0 (log 12). -/
  ctr : SMap Nat := []
  /-- Agents whose reclaim is under way. R189 (06_coherence.md). Reset none. -/
  reclaim : List Nat := []
  /-- Lines of a DEAD agent poisoned and released before its walk ends, key 64 x core die + agent. R189 (06_coherence.md). Reset none. -/
  deadLines : SMap (Nat × Nat) := []
  /-- Directory backing of the filter words in reserved HBM, 64-bit words, key 524,288 x core die + word. R184, R401 (06, 14). Reset 0 (DESIGN CHOICE, log 5). -/
  backing : SMap Nat := []
  /-- Next tag of a home's snoops. R161 (05_memory_fabric.md). Reset 0 (DESIGN CHOICE, log 15). -/
  snoopTag : Nat := 0
  deriving DecidableEq, Repr

/-! ### Yarpin machine (chapters 07, 08, 09) -/

/-- States of an operation slot, Table 07-3. -/
inductive SlotState where
  | free | live | ending | cooling
  deriving DecidableEq, Repr

/-- A pending event of an operation (R204). -/
structure OpEvent where
  /-- EVENT code of Table 07-6. -/
  ev : Nat := 0
  status : Nat := 0
  fetched : Bool := false
  code : Nat := 0
  chunk : Nat := 0
  len : Nat := 0
  boff : Nat := 0
  src : Nat := 0
  /-- Staged payload, and PMASK of the response it came in. -/
  data : List Byte := []
  pmask : Nat := 0
  hasData : Bool := false
  /-- Raise stamp, for the order of R205. -/
  stamp : Nat := 0
  /-- Of a RESUME: the address of the instruction after its YIELD (R207). -/
  pc : Nat := 0
  deriving DecidableEq, Repr

/-- An operation slot: descriptor of Table 07-2 and operation record (R192, R193). -/
structure Slot where
  /-- STATE. R193, R194 (07_yarpin_model.md). Reset FREE (Table 07-2). -/
  st : SlotState := .free
  /-- CTX, 10 bits. R193 (07_yarpin_model.md). Reset 0 (Table 07-2). -/
  ctx : Nat := 0
  /-- GEN, 12 bits. R193 (07_yarpin_model.md). Reset 0 (Table 07-2). -/
  gen : Nat := 0
  /-- PROG, VER, 16 bits each. R193 (07_yarpin_model.md). Reset 0 (Table 07-2). -/
  prog : Nat := 0
  ver : Nat := 0
  /-- WBASE, WSIZE. R193 (07_yarpin_model.md). Reset 0 (Table 07-2). -/
  wbase : Nat := 0
  wsize : Nat := 0
  /-- CBASE, CCOUNT. R193 (07_yarpin_model.md). Reset 0 (Table 07-2). -/
  cbase : Nat := 0
  ccount : Nat := 0
  /-- CREATOR, 8 bits. R193 (07_yarpin_model.md). Reset 0 (Table 07-2). -/
  creator : Nat := 0
  /-- OUTSTANDING, 12 bits. R193 (07_yarpin_model.md). Reset 0 (Table 07-2). -/
  outst : Nat := 0
  /-- SEED, 32 bits. R193 (07_yarpin_model.md). Reset 0 (Table 07-2). -/
  seed : Nat := 0
  /-- HSEQ, 32 bits. R193 (07_yarpin_model.md). Reset 0 (Table 07-2). -/
  hseq : Nat := 0
  /-- DEADLINE, 64 bits. R193, R208 (07_yarpin_model.md). Reset all ones (Table 07-2). -/
  deadline : Nat := 18446744073709551615
  /-- Operation record: s0-s7, 64 bits each. R192, R211 (07_yarpin_model.md). Reset 0 (DESIGN CHOICE, log 4). -/
  regs : SMap (BitVec 64) := []
  /-- Pending events, oldest first; a FAULT stands first. R204, R205 (07_yarpin_model.md). Reset none. -/
  events : List OpEvent := []
  /-- Module time of entry into COOLING. R194 (07_yarpin_model.md). Reset 0 (not cooling). -/
  coolAt : Nat := 0
  /-- Final status and fault cause to send. R195, R209 (07_yarpin_model.md). Reset 0. -/
  fstatus : Nat := 0
  fcause : Nat := 0
  /-- A CLOSING fault has been raised. R210 (07_yarpin_model.md). Reset false. -/
  closing : Bool := false
  deriving DecidableEq, Repr

/-- The handler running on a tile. -/
structure Handler where
  /-- Slot index 0-4095. -/
  slot : Nat := 0
  ev : OpEvent := {}
  /-- Next word, counted from the first word of the program. -/
  pc : Nat := 0
  /-- Instructions executed (R206). -/
  count : Nat := 0
  /-- Return stack, at most eight (R240). -/
  stack : List Nat := []
  /-- SEND and FWD executed in a handler of cause CLOSING (R210). -/
  sends : Nat := 0
  /-- s0-s7 while the handler runs (R204). -/
  s : SMap (BitVec 64) := []
  /-- v0-v15; a register is valid when it is listed (R212). -/
  v : SMap (BitVec 1024) := []
  /-- Scale words; valid when listed (R230). -/
  scale : SMap (BitVec 64) := []
  /-- p0-p3; valid when listed (R212). -/
  p : SMap (BitVec 128) := []
  /-- Random source x, y, z, w (R282). -/
  rx : BitVec 32 := 0
  ry : BitVec 32 := 0
  rz : BitVec 32 := 0
  rw : BitVec 32 := 0
  /-- Version in force for this handler (R218). -/
  ver : Nat := 0
  deriving DecidableEq, Repr

/-- What a shadow record holds of a handler's run, in order: scratch read as read, the result of a SRCH, SRCHNEXT, SRCHP or SEXT, a scratch write with its predicate, a packet formed, and an ARM, TIMER, DONE, FAIL or YIELD with the registers that its word names (R517). -/
inductive Traced where
  | read (addr : Nat) (data : List Byte)
  | result (value : Nat)
  | write (addr : Nat) (data : List Byte) (pred : Option Nat)
  | packet (p : Packet)
  | effect (word d a b : Nat)
  deriving DecidableEq, Repr

/-- A shadow record (R517): the handler's slot, its inputs at entry, what it read and did, and s0-s7 at exit. -/
structure Shadow where
  tile : Nat := 0
  slot : Nat := 0
  gen : Nat := 0
  hseq : Nat := 0
  prog : Nat := 0
  ver : Nat := 0
  bin : Nat := 0
  /-- Load signature: class of issue density + 4 x class of toggle. R520 (19_reliability.md). -/
  sigClass : Nat := 0
  /-- The event with its staged payload, and s0-s7 at entry. -/
  ev : OpEvent := {}
  entry : SMap (BitVec 64) := []
  items : List Traced := []
  exit : SMap (BitVec 64) := []
  deriving DecidableEq, Repr

/-- One logical tile 0-255. -/
structure Tile where
  /-- Handler in progress. R205 (07_yarpin_model.md). Reset none. -/
  run : Option Handler := none
  /-- Program scratch, 704 KiB, offset from 0x5_0000. R192, R213 (07_yarpin_model.md). Reset 0 bytes (an unwritten line reads as zeros, R213). -/
  scratch : Mem := []
  /-- Validity bits: 128 B lines of program scratch that are written. R213 (07_yarpin_model.md). Reset all clear (DESIGN CHOICE, log 4). -/
  valid : List Nat := []
  /-- 256-bit words of program scratch that hold the poison syndrome. R237, R500, R501 (08, 19). Reset none. -/
  poison : List Nat := []
  /-- Arrival counts of the chunk counters, 16 bits. R202 (07_yarpin_model.md). Reset 0 (zeroed at creation, R197). -/
  arrived : SMap Nat := []
  /-- Expected counts, 16 bits; 0 disarmed. R203 (07_yarpin_model.md). Reset 0 (R197). -/
  expected : SMap Nat := []
  /-- Staging units in use, of 1,024. R192, R200 (07_yarpin_model.md). Reset 0. -/
  staged : Nat := 0
  /-- Event-queue entries in use, of 8,192. R224 (07_yarpin_model.md). Reset 0. -/
  evq : Nat := 0
  /-- Counters of Table 07-12, keys 0-9 in table order, 64 bits. R223 (07_yarpin_model.md). Reset 0 (log 12). -/
  ctr : SMap Nat := []
  /-- Since when block staging has been full. R223 (07_yarpin_model.md). Reset none. -/
  fullSince : Option Nat := none
  /-- Packets that the stream unit of this tile has taken from its cluster-port queue and not handled: at most one block or message and one RDRSP, and WRRSPs. R199, R200 (07_yarpin_model.md). Reset none. -/
  inq : List Packet := []
  /-- Number of draws of the tile's SEND, FETCH and STORE tags so far. R201 (07_yarpin_model.md). Reset 0. -/
  tagNext : Nat := 0
  /-- The logical tile is held by its cluster's spare. R21, R510 (01, 19). Reset false. -/
  onSpare : Bool := false
  /-- Quarantined until this module time. R519 (19_reliability.md). Reset none. -/
  quarUntil : Option Nat := none
  /-- Retired and powered off. R511 (19_reliability.md). Reset false. -/
  off : Bool := false
  retired : Bool := false
  deriving DecidableEq, Repr

/-- An event waiting for a control thread (Table 08-20): its type and 64-byte descriptor. -/
structure ThreadEvent where
  kind : Nat := 0
  desc : List Byte := []
  deriving DecidableEq, Repr

/-- Outcome of a thread's last TCHECK. -/
structure LastCheck where
  ok : Bool := false
  epoch : Bool := false
  /-- Number of commits made on the module when it ran (R408). -/
  commits : Nat := 0
  deriving DecidableEq, Repr

/-- A control thread, numbered 32 x control core + thread; Chervil is thread 256. -/
structure Thread where
  /-- The thread runs. R263, R533 (08, 19). Reset stopped (the control program starts it). -/
  running : Bool := false
  /-- Context of the thread. R220 (07_yarpin_model.md). Reset 0 (DESIGN CHOICE, log 4). -/
  ctx : Nat := 0
  /-- SVC of the bundle it serves, 0 none. R323 (11_services.md). Reset 0. -/
  svc : Nat := 0
  /-- s0-s7. R222 (07_yarpin_model.md). Reset 0 (DESIGN CHOICE, log 4). -/
  s : SMap (BitVec 64) := []
  /-- Word address in program memory. R263 (08_yarpin_reference.md). Reset 0 (DESIGN CHOICE, log 4). -/
  pc : Nat := 0
  /-- Instruction range of its program. R240 (08_yarpin_reference.md). Reset 0, 0 (none). -/
  lo : Nat := 0
  hi : Nat := 0
  /-- Return stack. R240 (08_yarpin_reference.md). Reset empty. -/
  stack : List Nat := []
  /-- Single deadline. R256 (08_yarpin_reference.md). Reset all ones (none). -/
  deadline : Nat := 18446744073709551615
  /-- Events waiting, oldest first. R262 (08_yarpin_reference.md). Reset none. -/
  events : List ThreadEvent := []
  /-- Suspended in an EVWAIT. R262 (08_yarpin_reference.md). Reset false. -/
  waiting : Bool := false
  /-- Staged entries of the open commit group, key table x 2^24 + index. R260, R405 (08, 15). Reset none. -/
  group : SMap Nat := []
  groupOpen : Bool := false
  /-- Last TCHECK. R260, R408 (08, 15). Reset none. -/
  check : Option LastCheck := none
  /-- Next ticket. R258 (08_yarpin_reference.md). Reset 0 (DESIGN CHOICE, log 4). -/
  ticket : Nat := 0
  /-- Next tag of the thread. R326 (11_services.md). Reset 0. -/
  tagNext : Nat := 0
  /-- Owner of the outstanding tags of service requests. R326 (11_services.md). Reset none. -/
  tags : List Nat := []
  deriving DecidableEq, Repr

/-- Control cores and program memories. -/
structure Control where
  /-- Threads 0-255, and Chervil's at 256. R222 (07_yarpin_model.md). Reset stopped. -/
  threads : SMap Thread := []
  /-- Data memory, key core x 4 MiB + byte. R222 (07_yarpin_model.md). Reset 0 (DESIGN CHOICE, log 4). -/
  data : Mem := []
  /-- Words of control-core program memory, key core x 65,536 + word (core 8: Chervil's store), 64 bits. R222 (07_yarpin_model.md). Reset 0, unassigned words (DESIGN CHOICE, log 4). -/
  prog : SMap (BitVec 64) := []
  /-- Program store of the clusters, key 8,192 x cluster + word. R215 (07_yarpin_model.md). Reset 0 (DESIGN CHOICE, log 4). -/
  store : SMap (BitVec 64) := []
  /-- Words of the program store found uncorrectable, until they are written again. R500 (19_reliability.md). Reset none. -/
  storeBad : List Nat := []
  /-- Program table of Table 07-10, 128-bit images, key 64 x cluster + entry. R216 (07_yarpin_model.md). Reset 0 (Table 07-10). -/
  ptab : SMap Nat := []
  /-- Thread of each control core that had the last turn, 0-31. R222 (07_yarpin_model.md). Reset 31, so thread 0 goes first (DESIGN CHOICE, log 72). -/
  turn : SMap Nat := []
  /-- Shadow record in the making of each tile whose running handler was chosen for a check. R517 (19_reliability.md). Reset none. -/
  tracing : SMap Shadow := []
  /-- Stamp of the next raised event (order of R205). R205 (07_yarpin_model.md). Reset 1. -/
  stamp : Nat := 1
  /-- Slots 0-1,048,575. R22, R193 (01, 07). Reset FREE (Table 07-2). -/
  slots : SMap Slot := []
  /-- Tiles 0-255. R191 (07_yarpin_model.md). Reset idle. -/
  tiles : SMap Tile := []
  /-- Uncorrectable stops per control core: module times of the last hour. R514 (19_reliability.md). Reset none. -/
  coreStops : SMap (List Nat) := []
  /-- Control cores disabled. R514 (19_reliability.md). Reset none. -/
  coreOff : List Nat := []
  /-- A control restart is under way since. R549, R533 (19, 20). Reset none. -/
  restartAt : Option Nat := none
  deriving DecidableEq, Repr

/-! ### Tables, commits and epochs (chapter 15) -/

/-- The committed and direct tables of Table 15-1 that are held as entry images. -/
structure Tables where
  /-- Live entries, key table ID x 2^24 + index; an entry not listed has its table's reset image. R402 (15_staged_commit.md). Reset as each table's reset column. -/
  live : SMap Nat := []
  /-- Entries of the fabric map whose image in the old bank differs from the current bank's by the last epoch flip. R410, R411 (15_staged_commit.md). Reset none. -/
  old : SMap Nat := []
  /-- Entries of the pending bank that replace the current bank's. R411 (15_staged_commit.md). Reset none. -/
  pend : SMap Nat := []
  /-- Thread whose epoch group is pending, or was committed last. R411 (15_staged_commit.md). Reset 0 (none). -/
  pendThread : Nat := 0
  /-- CUR, OLD_LIVE, PENDING, MSEQ, EFLIPT of Table 15-3. R409 (15_staged_commit.md). Reset 0 (Table 15-3). -/
  cur : Nat := 0
  oldLive : Bool := false
  pending : Bool := false
  mseq : Nat := 0
  eflipt : Nat := 0
  /-- Commits made on the module. R408 (15_staged_commit.md). Reset 0. -/
  commits : Nat := 0
  /-- The module has committed tables since bring-up (boot tables give the reduced service). R30 (01_architecture.md). Reset false. -/
  committed : Bool := false
  deriving DecidableEq, Repr

/-! ### Collectives and services (chapters 10, 11) -/

/-- A request accepted into a service mailbox (R325, Table 11-4). -/
structure Mail where
  svc : Nat := 0
  nocmp : Bool := false
  /-- 0 fabric, 1 control thread, 2 submission ring. -/
  origin : Nat := 0
  ctx : Nat := 0
  src : Nat := 0
  tag : Nat := 0
  tc : Nat := 0
  data : List Byte := []
  at_ : Nat := 0
  deriving DecidableEq, Repr

/-- A read of the pool that a service makes: the pieces that have come back, and the first status that was not OK (R327). -/
structure PoolRead where
  got : SMap (List Byte) := []
  status : Nat := 0
  deriving DecidableEq, Repr

/-- A collective plan (R304-R317). -/
structure Plan where
  /-- The plan exists. R304 (10_collectives.md). Reset false. -/
  used : Bool := false
  ctx : Nat := 0
  kind : Nat := 0
  rop : Nat := 0
  sparse : Nat := 0
  w : Bool := false
  staged : Bool := false
  fmt : Nat := 0
  n : Nat := 0
  chunks : Nat := 0
  root : Nat := 0
  rootMod : Nat := 0
  /-- Pool address words of STATE and MASK. R304 (10_collectives.md). Reset 0. -/
  state : Nat := 0
  mask : Nat := 0
  cookie : Nat := 0
  /-- Member node IDs in order of index. R304 (10_collectives.md). Reset none. -/
  members : List Nat := []
  /-- Operations: slot numbers with GEN. R307 (10_collectives.md). Reset none. -/
  ops : List (Nat × Nat) := []
  /-- Group, alias node and spray entry of the plan. R294, R298 (10_collectives.md). Reset 0. -/
  group : Nat := 0
  alias_ : Nat := 0
  spray : Nat := 0
  /-- A run is in progress. R306 (10_collectives.md). Reset false. -/
  running : Bool := false
  /-- RUN number of the run, 8 bits. R298 (10_collectives.md). Reset 0. -/
  run : Nat := 0
  /-- Mail to complete. R312 (10_collectives.md). Reset none. -/
  req : Option Mail := none
  /-- DEADLINE of the run in ns, whether a RUN notice has left, and the deadline that the last of them started. R308, R310 (10_collectives.md). Reset 0. -/
  span : Nat := 0
  armed : Bool := false
  deadline : Nat := 0
  startAt : Nat := 0
  /-- The root has taken the stop; by the deadline. R310 (10_collectives.md). Reset false. -/
  stopped : Bool := false
  byDeadline : Bool := false
  /-- Members pruned in order of notice. R311 (10_collectives.md). Reset none. -/
  pruned : List Nat := []
  /-- Members whose prune notice has reached the watcher, by node. R310, R311 (10_collectives.md). Reset none. -/
  told : List Nat := []
  /-- Chunks delivered, and chunks whose staging lines read as poisoned. R309, R312, R317 (10_collectives.md). Reset none. -/
  done : List Nat := []
  bad : List Nat := []
  /-- Phase 0-3 of staged mode, record SEQ, primary lost, degraded. R315-R317 (10_collectives.md). Reset 0. -/
  phase : Nat := 0
  seq : Nat := 0
  primaryLost : Bool := false
  degraded : Bool := false
  /-- The next phase is to begin: the run has started, or a phase has ended. R315, R316 (10_collectives.md). Reset false. -/
  due : Bool := false
  /-- Operations must be recreated before the next run. R313 (10_collectives.md). Reset false. -/
  recreate : Bool := false
  /-- Collective staging is reserved on the root. R317, R394 (10, 14). Reset false. -/
  stagingHeld : Bool := false
  /-- Near frames of the staging, 1,048,576 x stack + frame. R396 (14_memory_tiers.md). Reset none. -/
  frames : List Nat := []
  deriving DecidableEq, Repr

/-- An access-order entry as the fetcher read it (Table 11-5). -/
structure OrderEnt where
  comp : Bool := false
  ext : Nat := 0
  first : Nat := 0
  lines : Nat := 0
  raw : Nat := 0
  /-- The last entry of a layer, and the layer's number. -/
  layerEnd : Bool := false
  layer : Nat := 0
  deriving DecidableEq, Repr

/-- An outstanding request of a stream fetcher (R331). -/
structure Fetch where
  tag : Nat := 0
  node : Nat := 0
  laddr : Nat := 0
  lines : Nat := 0
  /-- Module time it was sent. -/
  at_ : Nat := 0
  /-- Order entry, block within it, and the entry's line it begins at. -/
  ent : Nat := 0
  bidx : Nat := 0
  line : Nat := 0
  deriving DecidableEq, Repr

/-- A block that a fetcher has begun: where it begins, its stored lines, and how many of them it has asked for. -/
structure StreamBlk where
  node : Nat := 0
  laddr : Nat := 0
  line : Nat := 0
  len : Nat := 0
  lines : Nat := 0
  /-- Failures so far. -/
  tries : Nat := 0
  deriving DecidableEq, Repr

/-- A block at a leg: its bytes so far, the bytes that make it whole, the table slot it is counted on plus one, and whether it ends its entry. -/
structure LegBlock where
  ent : Nat := 0
  bidx : Nat := 0
  data : List Byte := []
  size : Nat := 0
  slot : Nat := 0
  last : Bool := false
  deriving DecidableEq, Repr

/-- A digest in progress: the leg that computes it, the extent, lines so far and their bytes (R337). -/
structure Digest where
  leg : Nat := 0
  ext : Nat := 0
  lines : Nat := 0
  bytes : List Byte := []
  deriving DecidableEq, Repr

/-- A weight stream (R328-R338), numbered 16 x control core + index. -/
structure WStream where
  /-- The stream is open. R330 (11_services.md). Reset false. -/
  used : Bool := false
  ctx : Nat := 0
  verify : Bool := false
  decode : Bool := false
  depth : Nat := 0
  entries : Nat := 0
  order : Nat := 0
  consumers : List Nat := []
  cookie : Nat := 0
  req : Option Mail := none
  group : Nat := 0
  alias_ : Nat := 0
  /-- Last order entry acknowledged by each consumer, plus one. R331 (11_services.md). Reset 0. -/
  acked : SMap Nat := []
  /-- Order entries read so far. R328 (11_services.md). Reset none. -/
  ents : SMap OrderEnt := []
  /-- Order entry, line within it and block that the fetcher stands at. R331 (11_services.md). Reset 0. -/
  ent : Nat := 0
  line : Nat := 0
  bidx : Nat := 0
  /-- Sequence of the next request, 9 bits; requests outstanding. R331 (11_services.md). Reset 0. -/
  seq : Nat := 0
  out : List Fetch := []
  /-- Blocks issued, key 2^20 x order entry + block; blocks to fetch again. R335 (11_services.md). Reset none. -/
  blks : SMap StreamBlk := []
  redo : List Nat := []
  /-- Expected sequence at each leg, and the leg discards up to the next BSTART. R335 (11_services.md). Reset 0. -/
  legSeq : SMap Nat := []
  legSkip : List Nat := []
  /-- Blocks at each leg, oldest first. R334, R359 (11, 12). Reset none. -/
  legData : SMap (List LegBlock) := []
  /-- Consumers whose leg has gone down. R336 (11_services.md). Reset none. -/
  lost : List Nat := []
  /-- Blocks FAILED, order entry of the first, consumers with a decode failure. R335, Table 11-8 (11_services.md). Reset 0. -/
  failed : Nat := 0
  firstFailed : Option Nat := none
  decodeFail : List Nat := []
  /-- Extents digested or verified, the digest in progress, and a mismatch. R337 (11_services.md). Reset 0. -/
  digests : Nat := 0
  dig : Option Digest := none
  mismatch : Bool := false
  /-- What ends the stream early: an order entry that could not be read, or one out of range. R328, R352 (11_services.md). Reset none. -/
  stop : Option Nat := none
  deriving DecidableEq, Repr

/-- A weight manifest entry (Table 11-8a). -/
structure Manifest where
  digest : Nat := 0
  ext : Nat := 0
  node : Nat := 0
  base : Nat := 0
  size : Nat := 0
  /-- 1 RECORDED, 2 MISMATCH. -/
  st : Nat := 0
  recAt : Nat := 0
  verAt : Nat := 0
  deriving DecidableEq, Repr

/-- A holder of an expert plan: node, receive and output base offsets, capacity in slots (R340). -/
structure Holder where
  node : Nat := 0
  recv : Nat := 0
  out : Nat := 0
  cap : Nat := 0
  deriving DecidableEq, Repr

/-- A DISPATCH or COMBINE in progress: its request (R341, R342). -/
structure Batch where
  req : Mail := {}
  combine : Bool := false
  deriving DecidableEq, Repr

/-- A RUN of the filter service in progress: its request and its operations, the last of them the merge (R348). -/
structure FilterJob where
  req : Mail := {}
  ops : List (Nat × Nat) := []
  deriving DecidableEq, Repr

/-- An expert plan (R339-R343). It is busy with a batch in progress, or with writes of one still open (R343). -/
structure Expert where
  /-- The plan exists. R339 (11_services.md). Reset false. -/
  used : Bool := false
  ctx : Nat := 0
  fmt : Nat := 0
  table : Nat := 0
  /-- H, token bytes. R339 (11_services.md). Reset 0. -/
  h : Nat := 0
  /-- Holder table as it was read. R340 (11_services.md). Reset none. -/
  holders : List Holder := []
  /-- The J operations: slot numbers with GEN. R339, R341 (11_services.md). Reset none. -/
  ops : List (Nat × Nat) := []
  /-- Dispatched batch: T, pool address word of the status array, and tokens that DISPATCH gave VIOLATION or BUSY_RETRY. R341, R343 (11_services.md). Reset 0, none. -/
  t : Nat := 0
  stat : Nat := 0
  /-- Its token records, as the operations hold them. R339, R342 (11_services.md). Reset none. -/
  recs : List Byte := []
  tok : SMap Nat := []
  /-- A DISPATCH has completed. R342 (11_services.md). Reset false. -/
  dispatched : Bool := false
  /-- The DISPATCH or COMBINE in progress. R343 (11_services.md). Reset none. -/
  batch : Option Batch := none
  /-- Placed pairs: key 8 x token + expert, value holder and slot. R341 (11_services.md). Reset none. -/
  placed : SMap (Nat × Nat) := []
  deriving DecidableEq, Repr

/-- What the lease manager keeps of an extent that other modules hold too (R156, R349, R351). -/
structure LeaseHold where
  /-- The other modules, from GRANT's module list. -/
  mods : List Nat := []
  /-- Those that have not reported the extent installed, and those that have not reported its drain. -/
  uninstalled : List Nat := []
  undrained : List Nat := []
  /-- The GRANT that waits for the reports, NODE and BASE of its run, and the first status that was not OK. -/
  grant : Option Mail := none
  node : Nat := 0
  base : Nat := 0
  status : Nat := 0
  deriving DecidableEq, Repr

/-- Services state. -/
structure Services where
  /-- Service table images of Table 11-2, key SVC. R321 (11_services.md). Reset 0, ABSENT (Table 11-2). -/
  table : SMap Nat := []
  /-- Mailbox contents per SVC, oldest first. R325 (11_services.md). Reset empty. -/
  mail : SMap (List Mail) := []
  /-- Old version's mailbox while SWITCHING. R323 (11_services.md). Reset empty. -/
  oldMail : SMap (List Mail) := []
  /-- Bundle in service per SVC: bundle number in Carnelian's list. R320 (11_services.md). Reset none. -/
  bundle : SMap Nat := []
  /-- Status of the last switch of each service: 0 done, 1 refused with VIOLATION. R323 (11_services.md). Reset none. -/
  switched : SMap Nat := []
  /-- Pool reads of the services: what has come back, by its job. R327 (11_services.md). Reset none. -/
  reads : SMap PoolRead := []
  /-- Pieces of vectors, outputs and records that have been answered, by job and piece: status and bytes. R341, R342, R348 (11_services.md). Reset none. -/
  pieces : SMap (Nat × List Byte) := []
  /-- Collective plans 0-4,095. R306 (10_collectives.md). Reset none. -/
  plans : SMap Plan := []
  /-- Weight streams 0-127. R330 (11_services.md). Reset none. -/
  streams : SMap WStream := []
  /-- ADVANCEs discarded because their SRC is no consumer. R330 (11_services.md). Reset 0. -/
  advDropped : Nat := 0
  /-- Weight manifests, key 4,096 x context + entry. R337 (11_services.md). Reset none. -/
  manifest : SMap Manifest := []
  /-- Expert plans. R339 (11_services.md). Reset none. -/
  experts : SMap Expert := []
  /-- RUNs of the filter service in progress. R348, R352 (11_services.md). Reset none. -/
  filters : SMap FilterJob := []
  /-- KV page words of Table 11-10, key 64 x group row + BLOCK[5:0]. R344 (11_services.md). Reset 0, EMPTY (Table 11-10). -/
  kv : SMap Nat := []
  /-- Context, SEQ of each group row, for FREESEQ. R344 (11_services.md). Reset none. -/
  kvRow : SMap (Nat × Nat × Nat) := []
  /-- Second-chance hand of each context's KV sweep. R346 (11_services.md). Reset 0. -/
  kvHand : SMap Nat := []
  /-- LOOKUPs waiting for a MIGRATING page: mail, page word key, start. R347 (11_services.md). Reset none. -/
  kvWait : List (Mail × Nat × Nat) := []
  /-- Requests of services that wait for a free tag of their owner: its first tag, and the request. R161, R326 (05, 11). Reset none. -/
  backlog : List (Nat × OwnReq) := []
  /-- Free map of the lease manager: node, first page, pages, in ascending order. R349 (11_services.md). Reset none. -/
  freeMap : List (Nat × Nat × Nat) := []
  /-- Extents of the lease manager that other modules hold, key extent. R156, R349, R351 (05, 11). Reset none. -/
  holds : SMap LeaseHold := []
  /-- REVOKEs of a peer's lease manager that wait for the drain here: extent and request. R351 (11_services.md). Reset none. -/
  drainWait : List (Nat × Mail) := []
  /-- Scrubs under way, key extent: scrub slot plus one, and writes that failed above bit 12. R351, R464, R465 (11, 17). Reset none. -/
  scrubs : SMap Nat := []
  /-- Phase-state shadows of the reserved HBM, bytes at plan x 16 KiB. R315, R401 (10, 14). Reset 0 (DESIGN CHOICE, log 5). -/
  shadows : Mem := []
  deriving DecidableEq, Repr

/-! ### Exponent compression (chapter 12) -/

/-- A codec job running (R361, R362). -/
structure CodecRun where
  ctx : Nat := 0
  /-- Progress: source lines read, output lines issued, output lines written. -/
  read : Nat := 0
  sent : Nat := 0
  wrote : Nat := 0
  /-- Source lines of the present step: how many are asked for, and those that have come, by their first line; the exponents counted so far; the table slot, plus one, of the block being decoded (R359, R362). -/
  asked : Nat := 0
  buf : SMap (List Byte) := []
  hist : List Nat := []
  slot : Nat := 0
  /-- Its reads and writes outstanding; the first line of a read. -/
  out : List OwnReq := []
  /-- The job is over with this status; its entry becomes DONE when no request is outstanding. -/
  fin : Option Nat := none
  deriving DecidableEq, Repr

/-- Codec and table store. -/
structure Codec where
  /-- Table slot entries, Table 12-2 images. R357 (12_compression.md). Reset 0, FREE (Table 12-2). -/
  slots : SMap Nat := []
  /-- Code lengths of each slot, value by value. R357 (12_compression.md). Reset none. -/
  lens : SMap (List Nat) := []
  /-- GEN last issued per TID, plus one. R358 (12_compression.md). Reset 0 (not built). -/
  lastGen : SMap Nat := []
  /-- Job entries, Table 12-3 images, key 8 x port die + job. R361 (12_compression.md). Reset 0, IDLE (Table 12-3). -/
  jobs : SMap Nat := []
  /-- Running jobs. R361 (12_compression.md). Reset none. -/
  runs : SMap CodecRun := []
  /-- Slots cached by each port die, at most 64, most recent first. R28 (01_architecture.md). Reset empty. -/
  cache : SMap (List Nat) := []
  /-- Egress queues waiting for a table: queue key, port die, slot. R28 (01_architecture.md). Reset none. -/
  waits : List (Nat × Nat × Nat) := []
  /-- Next tag of each port die's codec, and tags held for a late response with their release time, both keyed 2^20 x port die + tag. R161, R361 (05, 12). Reset 0 (DESIGN CHOICE, log 15), none. -/
  nextTag : SMap Nat := []
  tagHold : SMap Nat := []
  deriving DecidableEq, Repr

/-! ### Peridot (chapter 13) -/

/-- A search key waiting at a Peridot port (R372). -/
structure PKey where
  /-- Tile whose handler waits for the answer. -/
  src : Nat := 0
  table : Nat := 0
  ctx : Nat := 0
  key : BitVec 640 := 0
  /-- INDEX that the result of a SRCHNEXT must lie above. -/
  after : Option Nat := none
  /-- Key slot of a SRCHP (R249). -/
  slot : Nat := 0
  deriving DecidableEq, Repr

/-- A cascade search outstanding (R377, R378). -/
structure CasSearch where
  origin : Nat := 0
  oseq : Nat := 0
  table : Nat := 0
  key : BitVec 640 := 0
  ctx : Nat := 0
  after : Option Nat := none
  /-- Tile that waits at the issuer, 256 none, and its key slot. -/
  src : Nat := 256
  slot : Nat := 0
  at_ : Nat := 0
  /-- The key has reached this module and its rows are compared. -/
  searched : Bool := false
  /-- Own result: row, multi, result field. -/
  own : Option (Nat × Bool × Nat) := none
  /-- Match words received: position, hit, multi. -/
  words : List (Nat × Bool × Bool) := []
  sent : Bool := false
  deriving DecidableEq, Repr

/-- Peridot state. -/
structure Peridot where
  /-- Entry images of Table 13-2, key first row. R364, R367 (13_associative_search.md). Reset 0, not VALID (Table 13-2). -/
  rows : SMap Nat := []
  /-- Keys waiting at the port of a core die, one list a source: key 32 x core die + source, 0-15 its cluster ports, 16 the other die's port. R372 (13_associative_search.md). Reset none. -/
  queue : SMap (List PKey) := []
  /-- Source that each core die's port served last. R372 (13_associative_search.md). Reset 16, so cluster port 0 goes first (DESIGN CHOICE, log 17). -/
  turn : SMap Nat := []
  /-- Answers waiting for their source: tile, key slot and result word. R249, R372 (08, 13). Reset none. -/
  answers : List (Nat × Nat × BitVec 64) := []
  /-- Counters SEARCHES, HITS, DENIED, THROTTLE_NS, QUEUE_MAX, CAS_TMO, key 8 x half + row. R380 (13_associative_search.md). Reset 0 (log 12). -/
  ctr : SMap Nat := []
  /-- Since when a half has been at level 1 or 2. R380 (13_associative_search.md). Reset none. -/
  throttleSince : SMap Nat := []
  /-- Cascade searches known here, oldest first. R377, R378 (13_associative_search.md). Reset none. -/
  cas : List CasSearch := []
  /-- Next OSEQ, 8 bits. R376 (13_associative_search.md). Reset 0 (DESIGN CHOICE, log 17). -/
  oseq : Nat := 0
  /-- The cascade is broken. R379 (13_associative_search.md). Reset false. -/
  broken : Bool := false
  deriving DecidableEq, Repr

/-! ### Memory tiers (chapter 14) -/

/-- A page move in progress (R388). -/
structure Move where
  page : Nat := 0
  /-- Destination frame, or pool or host location. -/
  loc : Nat := 0
  dest : Nat := 0
  src : Nat := 0
  /-- 4 demand or job, 7 quota or retired frame. -/
  tc : Nat := 4
  job : Option Nat := none
  /-- The copy to its destination has been issued, and the first status of it that was not OK. -/
  asked : Bool := false
  failed : Option Nat := none
  /-- Its source in the pool or behind a host port is being read. -/
  reading : Bool := false
  deriving DecidableEq, Repr

/-- A request held by the home for a page (R387). -/
structure Held where
  pkt : Packet := {}
  page : Nat := 0
  at_ : Nat := 0
  deriving DecidableEq, Repr

/-- Progress of a tier job (R398-R400). -/
structure TierRun where
  /-- MOVE: pages of the job that are behind. -/
  at_ : Nat := 0
  /-- PREFETCH: order entries read. -/
  ents : SMap OrderEnt := []
  /-- The job is over with this status. -/
  fin : Option Nat := none
  deriving DecidableEq, Repr

/-- Tier state. -/
structure Tiers where
  /-- Page map, Table 14-1 images. R384 (14_memory_tiers.md). Reset 0, FREE (Table 14-1). -/
  pages : SMap Nat := []
  /-- Moves in progress. R388 (14_memory_tiers.md). Reset none. -/
  moves : List Move := []
  /-- Tier wait lists of core die 0, 1. R387 (14_memory_tiers.md). Reset none. -/
  held : SMap (List Held) := []
  /-- Frames in use, key 1,048,576 x stack + frame. R382 (14_memory_tiers.md). Reset none. -/
  frames : List Nat := []
  /-- Remapped frames: frame to remap frame; retired frames. R391, R509 (14, 19). Reset none. -/
  remap : SMap Nat := []
  retired : List Nat := []
  /-- Remap frames used per stack, and repaired frames that are remap frames again. R509 (19_reliability.md). Reset 0, none. -/
  remapUsed : SMap Nat := []
  remapFree : List Nat := []
  /-- Second-chance hand per context. R396 (14_memory_tiers.md). Reset 0. -/
  hand : SMap Nat := []
  /-- Pool pages in use: backing extent x 2^32 + page; host pages: port x 2^32 + window page. R384, R392 (14_memory_tiers.md). Reset none. -/
  poolUsed : List Nat := []
  hostUsed : List Nat := []
  /-- Tier job entries, Table 14-6 images. R398 (14_memory_tiers.md). Reset 0, IDLE (Table 14-6). -/
  jobs : SMap Nat := []
  /-- Progress of running tier jobs. R399, R400 (14_memory_tiers.md). Reset none. -/
  runs : SMap TierRun := []
  /-- HBM stacks failed. R512 (19_reliability.md). Reset none. -/
  stacksFailed : List Nat := []
  /-- Failed stacks whose pages use the other stack since the core reset that followed. R382, R512 (14, 19). Reset none. -/
  stacksMoved : List Nat := []
  deriving DecidableEq, Repr

/-! ### Host ports (chapter 16) -/

/-- A request of a submission ring that is outstanding: sequence, descriptor index, cookie, RESADDR, module time of sending, NOCMP. -/
structure SqReq where
  seq : Nat := 0
  index : Nat := 0
  cookie : Nat := 0
  resaddr : Nat := 0
  /-- HEAD behind its descriptor. R429 (16_host_interface.md). Reset 0. -/
  head : Nat := 0
  at_ : Nat := 0
  nocmp : Bool := false
  deriving DecidableEq, Repr

/-- Submission ring registers, Table 16-9. -/
structure SQ where
  /-- BASE. R424 (16_host_interface.md). Reset 0 (Table 16-9). -/
  base : Nat := 0
  /-- EN, LOG2, CQ, ABANDON, ERR. R424 (16_host_interface.md). Reset 0 (Table 16-9). -/
  en : Bool := false
  log2 : Nat := 0
  cq : Nat := 0
  abandon : Nat := 0
  err : Bool := false
  /-- HEAD. R424 (16_host_interface.md). Reset 0 (Table 16-9). -/
  head : Nat := 0
  /-- Tail index last written by a doorbell. R426 (16_host_interface.md). Reset 0. -/
  tail : Nat := 0
  /-- Expected phase. R424, R425 (16_host_interface.md). Reset 1 (R424). -/
  phase : Bool := true
  /-- Requests outstanding; their number is OUT. R428 (16_host_interface.md). Reset none. -/
  out : List SqReq := []
  /-- Next sequence, 7 bits. R428 (16_host_interface.md). Reset 0 (DESIGN CHOICE, log 18). -/
  seq : Nat := 0
  /-- Sequences held after an abandon: sequence and release time. R428 (16_host_interface.md). Reset none. -/
  heldSeq : List (Nat × Nat) := []
  /-- Descriptors fetched and waiting: 64 bytes each with their index. R426 (16_host_interface.md). Reset none. -/
  fetched : List (Nat × List Byte) := []
  /-- Re-reads of an entry of wrong phase, and the time of the last. R426 (16_host_interface.md). Reset 0. -/
  repoll : Nat := 0
  repollAt : Nat := 0
  deriving DecidableEq, Repr

/-- A completion entry of Table 16-11 due on a completion ring, with its RESADDR write. -/
structure CEntry where
  payload : List Byte := []
  cookie : Nat := 0
  index : Nat := 0
  sq : Nat := 0
  resaddr : Nat := 0
  head : Nat := 0
  deriving DecidableEq, Repr

/-- Completion ring registers, Table 16-9. -/
structure CQ where
  /-- BASE, EN, LOG2, VECTOR, COAL_CNT, COAL_US. R424 (16_host_interface.md). Reset 0 (Table 16-9). -/
  base : Nat := 0
  en : Bool := false
  log2 : Nat := 0
  vector : Nat := 0
  coalCnt : Nat := 0
  coalUs : Nat := 0
  /-- ERR of a completion ring whose field was out of range. R424 (16_host_interface.md). Reset 0. -/
  err : Bool := false
  /-- TAIL and PHASE. R424 (16_host_interface.md). Reset 0, 1 (Table 16-9). -/
  tail : Nat := 0
  phase : Bool := true
  /-- Head index last written by software. R430 (16_host_interface.md). Reset 0. -/
  head : Nat := 0
  /-- Completions held because the ring is full. R430 (16_host_interface.md). Reset none. -/
  held : List CEntry := []
  /-- Unsignalled entries and the time of the oldest. R431 (16_host_interface.md). Reset 0. -/
  unsig : Nat := 0
  unsigAt : Nat := 0
  deriving DecidableEq, Repr

/-- A result window (Table 16-12). -/
structure Window where
  /-- READY. R432 (16_host_interface.md). Reset EMPTY (NOT_READY). -/
  ready : Bool := false
  /-- SEQ, RCOUNT, LEN and data. R432 (16_host_interface.md). Reset 0. -/
  seq : Nat := 0
  rcount : Nat := 0
  len : Nat := 0
  data : List Byte := []
  deriving DecidableEq, Repr

/-- TDISP states (R451). -/
inductive TdiState where
  | unlocked | locked | run | error
  deriving DecidableEq, Repr

/-- One function, numbered 128 x port + function index (R415). -/
structure Func where
  /-- Submission and completion rings 0-7. R424 (16_host_interface.md). Reset disabled (Table 16-9). -/
  sqs : SMap SQ := []
  cqs : SMap CQ := []
  /-- Result windows. R432 (16_host_interface.md). Reset EMPTY. -/
  wins : SMap Window := []
  /-- MSI-X table entries, 128 bits: address, data, mask bit at [96]. R416, R431 (16_host_interface.md). Reset masked, zero (PRESUMED PCIe, log 19). -/
  msix : SMap Nat := []
  /-- Pending bits set. R431, R457 (16, 17). Reset none. -/
  pba : List Nat := []
  /-- TDISP state. R451 (17_contexts_isolation.md). Reset CONFIG_UNLOCKED. -/
  tdi : TdiState := .unlocked
  /-- In D3hot. R457 (17_contexts_isolation.md). Reset D0 (PRESUMED PCIe, log 19). -/
  d3 : Bool := false
  /-- An FLR is under way since. R554 (20_bringup_reset.md). Reset none. -/
  flrAt : Option Nat := none
  /-- Tags of discarded service requests: sequence key and release time. R554 (20_bringup_reset.md). Reset none. -/
  heldTags : List (Nat × Nat) := []
  deriving DecidableEq, Repr

/-- A message FIFO (R435-R438). -/
structure Fifo where
  /-- Configuration entry, Table 16-14 image, 128 bits. R435 (16_host_interface.md). Reset 0 (Table 16-14). -/
  cfg : Nat := 0
  /-- Words held, oldest first. R436 (16_host_interface.md). Reset empty. -/
  words : List (BitVec 64) := []
  /-- ABOVE, UNDERRUN, OVERFLOW, DATAERR, CORR. R436 (16_host_interface.md). Reset 0 (Table 16-15). -/
  above : Bool := false
  underrun : Bool := false
  overflow : Bool := false
  dataerr : Bool := false
  corr : Nat := 0
  /-- Last word popped. R437 (16_host_interface.md). Reset 0 (R437). -/
  last : BitVec 64 := 0
  deriving DecidableEq, Repr

/-- A DMA descriptor posted and not yet complete (R444). -/
structure Dma where
  /-- Posting thread and ticket. -/
  thread : Nat := 0
  ticket : Nat := 0
  ctx : Nat := 0
  /-- The 64 bytes of Table 16-16. -/
  desc : List Byte := []
  /-- Its thread has stopped: it completes to nobody (R263). -/
  orphan : Bool := false
  /-- Its first host request has been sent (R461). -/
  moving : Bool := false
  /-- Its pool requests have been issued; the lines that came back, by number; the first status that was not OK (R440, R445). -/
  asked : Bool := false
  lines : SMap (List Byte) := []
  fail : Option Nat := none
  /-- Bytes or words moved. -/
  moved : Nat := 0
  /-- Transfer is over with this status, waiting for its completion in order. -/
  status : Option Nat := none
  deriving DecidableEq, Repr

/-- One host port. -/
structure HostPort where
  /-- The link is up. R459, R599 (17, 23). Reset down. -/
  linkUp : Bool := false
  /-- PERSTn_L is asserted. R537, R553 (20_bringup_reset.md). Reset asserted (true; PRESUMED PCIe, log 19). -/
  perst : Bool := true
  /-- VF Enable and NumVFs. R415, R447 (16, 17). Reset 0 (PRESUMED PCIe, log 19). -/
  vfEn : Bool := false
  numVfs : Nat := 0
  /-- DMA descriptors in order of posting: read engine, then write engine. R444 (16_host_interface.md). Reset none. -/
  rdq : List Dma := []
  wrq : List Dma := []
  /-- IDE keys and the key sets that run, both numbered 8 x stream + 4 x direction + key set. R496, R553 (18, 20). Reset none. -/
  ideKeys : SMap Nat := []
  ideGo : List Nat := []
  /-- Stream bound to each TDI. R451 (17_contexts_isolation.md). Reset none. -/
  ideTdi : SMap Nat := []
  deriving DecidableEq, Repr

/-- Host interface state. -/
structure HostIf where
  /-- Host ports 0, 1. R414 (16_host_interface.md). Reset see fields. -/
  ports : SMap HostPort := []
  /-- Functions, key 128 x port + index. R415 (16_host_interface.md). Reset see fields. -/
  funcs : SMap Func := []
  /-- Message FIFOs 0-255. R435 (16_host_interface.md). Reset disabled. -/
  fifos : SMap Fifo := []
  /-- FIFO_ERR: corrected, uncorrectable words, CFG_REFUSED. R419 (16_host_interface.md). Reset 0. -/
  fifoCorr : Nat := 0
  fifoUnc : Nat := 0
  cfgRefused : Bool := false
  /-- MOWN: owner 0 none, 1 HP0, 2 HP1; waiting; refused; lease end. R422, Table 16-8 (16_host_interface.md). Reset 0. -/
  owner : Nat := 0
  waiting : Bool := false
  refused : Nat := 0
  ownEnd : Nat := 0
  /-- OWN_LEASE policy, ms; non-volatile. R422, R493 (16, 18). Reset 1000. -/
  ownLease : Nat := 1000
  /-- MODSTAT W1C bits CAPACITY, CRITICAL, OWNER_CHG of each port, key 16 x port + bit. R419 (16_host_interface.md). Reset 0. -/
  modstat : List Nat := []
  /-- MODSTAT_IE of each port, bits 0-8. R419 (16_host_interface.md). Reset 0 (DESIGN CHOICE, log 18). -/
  modIe : SMap Nat := []
  /-- FCOSEL and FCOEN. R419 (16_host_interface.md). Reset 0 (DESIGN CHOICE, log 18). -/
  fcosel : Nat := 0
  fcoen : Nat := 0
  /-- I3C dynamic address, and static address. R602 (23_electrical_mechanical.md). Reset none; static 0x30, straps open (Table 23-2). -/
  i3cAddr : Option Nat := none
  i3cStatic : Nat := 48
  deriving DecidableEq, Repr

/-! ### Context lifecycle (chapter 17) -/

/-- Removal of one context on this module (R460-R467). -/
structure Removal where
  /-- Module time of the CLOSING entry. R460 (17_contexts_isolation.md). Reset none. -/
  at_ : Nat := 0
  /-- Own closing group flipped. R460 (17_contexts_isolation.md). Reset false. -/
  flipped : Bool := false
  /-- Flip reports received: peers (on the anchor), or the anchor's report. R460 (17_contexts_isolation.md). Reset none. -/
  reports : List Nat := []
  /-- T_R. R460 (17_contexts_isolation.md). Reset none. -/
  tr : Option Nat := none
  /-- Peers given up as unreachable. R462 (17_contexts_isolation.md). Reset none. -/
  excluded : List Nat := []
  /-- Scrub slot, and last attempt to get one. R465 (17_contexts_isolation.md). Reset none. -/
  slot : Option Nat := none
  slotTry : Nat := 0
  /-- Pages scrubbed here. R467 (17_contexts_isolation.md). Reset 0. -/
  pages : Nat := 0
  deriving DecidableEq, Repr

/-- A closure entry, Table 18-14. -/
structure Closure where
  ctx : Nat := 0
  kgen : Nat := 0
  time : Nat := 0
  /-- Module entries: node, unscrubbed, pages. -/
  mods : List (Nat × Bool × Nat) := []
  deriving DecidableEq, Repr

/-- Context state beside the context entries of table 0x0030. -/
structure Contexts where
  /-- Removals under way. R460 (17_contexts_isolation.md). Reset none. -/
  removals : SMap Removal := []
  /-- KGEN of each context in the non-volatile store; the generation retired last plus one. R463, R479 (17, 18). Reset 0 (R463). -/
  kgen : SMap Nat := []
  /-- Contexts whose last generation is retired; contexts OPEN here since power-on. R480 (18_security.md). Reset none. -/
  retired : List Nat := []
  opened : List Nat := []
  /-- FREE contexts whose reservations are released at the next commit. R458 (17_contexts_isolation.md). Reset none. -/
  release : List Nat := []
  /-- Closure entries, most recent first, 64 kept; non-volatile. R467, R498 (17, 18). Reset none. -/
  closures : List Closure := []
  deriving DecidableEq, Repr

/-! ### Root of trust (chapter 18) -/

/-- A firmware image slot (R472): valid signatures are recorded when it is written and verified. -/
structure Image where
  present : Bool := false
  ver : Nat := 0
  svn : Nat := 0
  ecdsaOk : Bool := false
  hssOk : Bool := false
  digest : Nat := 0
  deriving DecidableEq, Repr

/-- An admitted bundle (R490, R491). -/
structure Bundle where
  svc : Nat := 0
  bver : Nat := 0
  compat : Nat := 0
  signer : Nat := 0
  svn : Nat := 0
  digest : Nat := 0
  /-- Contexts it is admitted for; empty for a Tierarel bundle (every context). -/
  ctxs : List Nat := []
  /-- Tile programs: PROG, VER. -/
  progs : List (Nat × Nat) := []
  /-- First word of its control program in the memories of its control cores. -/
  base : Nat := 0
  /-- Mailbox thread, mailbox depth exponent, control cores used (Table 11-2). -/
  mbox : Nat := 0
  qlog2 : Nat := 4
  ccmask : Nat := 0
  /-- Claim: control threads, clusters, Peridot entries, near-tier bytes (R320). -/
  threads : Nat := 0
  clusters : Nat := 0
  peridot : Nat := 0
  near : Nat := 0
  retired : Bool := false
  deriving DecidableEq, Repr

/-- A copy of the LMS state counter (R474-R476). -/
structure LmsCopy where
  val : Nat := 0
  seq : Nat := 0
  valid : Bool := true
  deriving DecidableEq, Repr

/-- A message to Carnelian: the requests of Table 18-9, of IDE_KM, of TDISP and of Table 18-8, with their operands (R493-R496). -/
inductive Message where
  | getVersion (iface : Nat)
  | getCapabilities (iface : Nat)
  | negotiateAlgorithms (iface : Nat) (offered : Bool)
  | getDigests (iface : Nat)
  | getCertificate (iface slot off len : Nat)
  | challenge (iface slot : Nat) (nonce : List Byte)
  | getMeasurements (iface index : Nat)
  | keyExchange (iface slot : Nat)
  | finish (iface sess : Nat) (verify : Bool)
  | heartbeat (iface sess : Nat)
  | keyUpdate (iface sess op : Nat)
  | endSession (iface sess : Nat)
  | respondIfReady (iface : Nat)
  | chunkSend (iface seq : Nat) (last : Bool) (chunk : List Byte)
  | chunkGet (iface seq : Nat)
  | lockInterfaceRequest (port vf : Nat)
  | startInterfaceRequest (port vf : Nat)
  | stopInterfaceRequest (port vf : Nat)
  | getTdispVersion (port vf : Nat)
  | getTdispCapabilities (port vf : Nat)
  | getDeviceInterfaceReport (port vf : Nat)
  | getDeviceInterfaceState (port vf : Nat)
  | getReport (iface sess : Nat) (ctx : Nat) (nonce : List Byte) (vf : Nat)
  | keyUpload (iface sess ctx : Nat) (k1 k2 : Nat) (vf : Nat)
  | admitBundle (iface sess : Nat) (req : BundleReq)
  | retireBundle (iface sess svc : Nat)
  | enrol (iface sess : Nat) (root : Bool) (entry key : Nat)
  | unenrol (iface sess : Nat) (root : Bool) (entry : Nat)
  | fwWrite (iface sess : Nat) (req : ImageReq)
  | fwActivate (iface sess image : Nat)
  | setPolicy (iface sess : Nat) (policy : Policy)
  | controlRestart (iface sess : Nat) (kind : Nat)
  | coreReset (iface sess : Nat) (kind : Nat)
  | ideKmQuery (port : Nat)
  | keyProg (port stream dir set key : Nat)
  | kSetGo (port stream dir set : Nat)
  | kSetStop (port stream dir set : Nat)
  deriving DecidableEq, Repr

/-- A KREQ posted or in progress (R484). -/
structure KReq where
  /-- Its thread has stopped: it completes to nobody (R263). -/
  orphan : Bool := false
  thread : Nat := 0
  ticket : Nat := 0
  req : List Byte := []
  /-- A SHARE whose key has gone to the peer awaits its answer since this module time (R484). -/
  sent : Option Nat := none
  /-- Completion ready to deliver: Table 18-6 descriptor. -/
  done : Option (List Byte) := none
  deriving DecidableEq, Repr

/-- An SPDM session or connection of an interface (0 HP0, 1 HP1, 2 I3C, 3 CRMSG). -/
structure Spdm where
  /-- Connection progress: 0 none, 1 version, 2 capabilities, 3 algorithms. -/
  conn : Nat := 0
  /-- Sessions: id, established. -/
  sessions : List (Nat × Bool) := []
  /-- Key updates made per session, and last heartbeat. -/
  updates : SMap Nat := []
  beat : SMap Nat := []
  /-- A large request being gathered, a large response being given out. -/
  gather : List Byte := []
  gatherSeq : Nat := 0
  give : List Byte := []
  /-- Kinds of requests in progress. -/
  busy : List Nat := []
  /-- Modules whose CRMSG Carnelian has taken and not answered, oldest first (interface 3). R488 (18_security.md). Reset none. -/
  peers : List Nat := []
  /-- The module at the other end of each session (interface 3). R488 (18_security.md). Reset none. -/
  who : SMap Nat := []
  /-- An answer not ready when it was asked for: the code of its request and its bytes, given out by RESPOND_IF_READY. R494 (18_security.md). Reset none. -/
  later : Option (Nat × List Byte) := none
  deriving DecidableEq, Repr

/-- Carnelian. -/
structure Security where
  /-- Active core, 0 A, 1 B; holder of the signing token. R468, R469 (18_security.md). Reset 0 (PREF, R471). -/
  active : Nat := 0
  token : Nat := 0
  /-- PREF; non-volatile. R471 (18_security.md). Reset 0 (R471). -/
  pref : Nat := 0
  /-- A handover under way since, and the time the incoming core began serving. R470, R471 (18_security.md). Reset none. -/
  handover : Option Nat := none
  servingAt : Nat := 0
  /-- Images, key 2 x image + slot: 0 Carnelian, 1 Chervil, 2 control program; non-volatile. R472 (18_security.md). Reset present, version 0 in slot A (DESIGN CHOICE, log 20). -/
  images : SMap Image := [(0, { present := true, ecdsaOk := true, hssOk := true }), (2, { present := true, ecdsaOk := true, hssOk := true }),
    (4, { present := true, ecdsaOk := true, hssOk := true })]
  /-- Slot in use of each image, and preferred slot after 60 s. R472, R531 (18, 19). Reset A (0). -/
  inUse : SMap Nat := []
  preferred : SMap Nat := []
  /-- Activation waiting for health: image and time. R531 (19_reliability.md). Reset none. -/
  activating : List (Nat × Nat) := []
  /-- SVN floors: images 0-2, then 256 + SVC; non-volatile. R472, R490 (18_security.md). Reset 0 (DESIGN CHOICE, log 20). -/
  floors : SMap Nat := []
  /-- In recovery. R472 (18_security.md). Reset false. -/
  recovery : Bool := false
  /-- LMS counter copies; non-volatile. R474 (18_security.md). Reset 0 (R474: generated at manufacture). -/
  lms0 : LmsCopy := {}
  lms1 : LmsCopy := {}
  /-- Neither copy valid: no HSS signature ever again. R476 (18_security.md). Reset false. -/
  lmsLost : Bool := false
  /-- Top leaf whose bottom tree has been generated ahead. R477 (18_security.md). Reset 0 (none ahead). -/
  nextTree : Nat := 0
  /-- Key slot status words of Table 18-3 (without EXTREFS, which is counted from the extents). R478 (18_security.md). Reset EMPTY (Table 18-3). -/
  slots : SMap Nat := []
  /-- Key material of a loaded slot: a number that stands for the pair. R483 (18_security.md). Reset none. -/
  keys : SMap Nat := []
  /-- Signer table entries enrolled: key number; partner roots; non-volatile. R489 (18_security.md). Reset none beside entry 0. -/
  signers : SMap Nat := []
  roots : SMap Nat := []
  /-- Admitted bundles. R490 (18_security.md). Reset none (R555: Tierarel bundles at BU0). -/
  bundles : SMap Bundle := []
  /-- Requests from threads in order. R484 (18_security.md). Reset none. -/
  kreqs : List KReq := []
  /-- Import handles: handle, context, key, expiry. R493 (18_security.md). Reset none. -/
  imports : List (Nat × Nat × Nat × Nat) := []
  nextHandle : Nat := 0
  /-- Attestation report sequence. R497 (18_security.md). Reset 0 (DESIGN CHOICE, log 20). -/
  reportSeq : Nat := 0
  /-- SPDM state per interface. R494 (18_security.md). Reset no connection. -/
  spdm : SMap Spdm := []
  /-- Messages that reached Carnelian during a handover and wait for the incoming core, oldest first. R470 (18_security.md). Reset none. -/
  waiting : List Message := []
  deriving DecidableEq, Repr

/-! ### Reliability and health (chapter 19) -/

/-- A neighbour module (R522-R528). -/
structure Nbr where
  /-- Neighbour score, 0-1000. R522 (19_reliability.md). Reset 0 (DESIGN CHOICE, log 21). -/
  score : Nat := 0
  /-- Evaluations in a row below DOUBT; doubtful. R524 (19_reliability.md). Reset 0, false. -/
  low : Nat := 0
  doubtful : Bool := false
  /-- Since when the score has been at DOUBT + 200 or above. R524 (19_reliability.md). Reset none. -/
  okSince : Option Nat := none
  /-- Own standing vote: time of the last sending. R525 (19_reliability.md). Reset none. -/
  voted : Option Nat := none
  /-- Last control frame received from it. R522 (19_reliability.md). Reset 0. -/
  heard : Nat := 0
  /-- Gossiped list of its neighbours and NBRS. R523, R525 (19_reliability.md). Reset none. -/
  list : List Nat := []
  nbrs : Nat := 0
  departing : Bool := false
  hold : Bool := false
  /-- A first vote waits for the 50 ms gap. R527 (19_reliability.md). Reset false. -/
  waiting : Bool := false
  deriving DecidableEq, Repr

/-- A standing EXPEL vote of another module. -/
structure Vote where
  suspect : Nat := 0
  voter : Nat := 0
  at_ : Nat := 0
  deriving DecidableEq, Repr

/-- Reliability state. -/
structure Reliability where
  /-- Correction and sparing counters of Table 19-2, key as the entry index of table 0x0204, 64 bits. R504 (19_reliability.md). Reset 0 (log 12; REMAP_LEFT and ROWS_LEFT are computed). -/
  ctr : SMap Nat := []
  /-- Spare rows used per macro. R507 (19_reliability.md). Reset 0. -/
  rows : SMap Nat := []
  /-- Spare columns used per macro, as the built-in test at power-on found them, 0-2. R8, R505 (01, 19). Reset 0. -/
  cols : SMap Nat := []
  /-- Clusters whose spare tile is in use, or withdrawn. R510, R519 (19_reliability.md). Reset none. -/
  spareUsed : List Nat := []
  spareGone : List Nat := []
  /-- Blames of spares: cluster and time. R519 (19_reliability.md). Reset none. -/
  spareBlame : List (Nat × Nat) := []
  /-- Blamed mismatches: tile, bin, signature, time. R519, R520 (19_reliability.md). Reset none. -/
  blames : List (Nat × Nat × Nat × Nat) := []
  /-- Rates of 16 set per tile, bin and signature; non-volatile. R520 (19_reliability.md). Reset none. -/
  cellRate : List Nat := []
  /-- Shadow queues per cluster, 16 records. R517 (19_reliability.md). Reset none. -/
  shadows : SMap (List Shadow) := []
  /-- Port dies failed; core dies failed. R512 (19_reliability.md). Reset none. -/
  dieFailed : List Nat := []
  /-- Peridot banks invalid. R505 (19_reliability.md). Reset none. -/
  peridotGone : List Nat := []
  /-- HBM frames marked PPR_PENDING, key 1,048,576 x stack + frame. R509 (19_reliability.md). Reset none. -/
  ppr : List Nat := []
  /-- Link score of each port. R522 (19_reliability.md). Reset 0 (ports DOWN score 0). -/
  linkScore : SMap Nat := []
  /-- Module score. R522 (19_reliability.md). Reset 1000 (no spare missing). -/
  modScore : Nat := 1000
  /-- Replays and tag failures of each port in the last second: times. R522 (19_reliability.md). Reset none. -/
  replaysAt : SMap (List Nat) := []
  tagsAt : SMap (List Nat) := []
  /-- Neighbours by node ID. R522 (19_reliability.md). Reset none. -/
  nbrs : SMap Nbr := []
  /-- DOUBT. R524 (19_reliability.md). Reset 300. -/
  doubt : Nat := 300
  /-- GSEQ. R523 (19_reliability.md). Reset 0 (DESIGN CHOICE, log 21). -/
  gseq : Nat := 0
  /-- Next gossip entry per port. R523 (19_reliability.md). Reset 0. -/
  gossip : SMap Nat := []
  /-- Standing votes received. R525 (19_reliability.md). Reset none. -/
  votes : List Vote := []
  /-- Times of the module's first votes in the last 10 s. R527 (19_reliability.md). Reset none. -/
  firstVotes : List Nat := []
  /-- The module is in hold. R527 (19_reliability.md). Reset false. -/
  hold : Bool := false
  deriving DecidableEq, Repr

/-! ### Map protocol and bring-up (chapters 15, 19, 20) -/


/-- A composition change this module coordinates (R413). -/
structure Change where
  mseq : Nat := 0
  startAt : Nat := 0
  /-- 1 staging, 2 flipping, 3 retiring. -/
  step : Nat := 1
  mods : List Nat := []
  staged : List Nat := []
  flipped : List Nat := []
  retired : List Nat := []
  flipAt : Nat := 0
  repeatAt : Nat := 0
  missing : List Nat := []
  deriving DecidableEq, Repr

/-- Map protocol state. -/
structure MapProto where
  /-- Change in progress at this coordinator. R413 (15_staged_commit.md). Reset none. -/
  change : Option Change := none
  /-- Link-state database, by node. R530 (19_reliability.md). Reset none. -/
  db : SMap LinkRec := []
  /-- Module time the database last changed. R530 (19_reliability.md). Reset 0. -/
  dbAt : Nat := 0
  /-- Module time of the own record's last flood, own record sequence, and a flood is due. R530 (19_reliability.md). Reset 0. -/
  floodAt : Nat := 0
  seq : Nat := 0
  /-- Time of the last abort (retried 10 ms later). R530 (19_reliability.md). Reset none. -/
  abortAt : Option Nat := none
  /-- Coordinator to answer with RETIRED: node and MSEQ. R413 (15_staged_commit.md). Reset none. -/
  retireTo : Option (Nat × Nat) := none
  deriving DecidableEq, Repr

/-- Bring-up and reset state. -/
structure Boot where
  /-- The service die has power and PWRGD (module time runs). R536, R538 (20_bringup_reset.md). Reset false (power-on reset in force). -/
  pwrgd : Bool := false
  /-- Measured-boot step 0-5 of Table 18-1 last begun, and its start. R471 (18_security.md). Reset 0. -/
  step : Nat := 0
  stepAt : Nat := 0
  /-- CORE_UP. R417 Table 16-6 (16_host_interface.md). Reset 0 (Table 16-6). -/
  coreUp : Bool := false
  /-- FULL. R540 (20_bringup_reset.md). Reset 0 (Table 16-6). -/
  full : Bool := false
  /-- STAGE 0-6 and its gate. R539 (20_bringup_reset.md). Reset 0 (Table 16-6). -/
  stage : Nat := 0
  gateAt : Nat := 0
  /-- The gate of the present stage holds. R539, R545 (20_bringup_reset.md). Reset true (BU0's gate is PWRGD). -/
  gated : Bool := true
  /-- BU2 of this module has ended: DISC_DONE. R544 (20_bringup_reset.md). Reset false. -/
  discDone : Bool := false
  /-- Departure step 1-4 of Table 20-7 in progress, 0 none. R550 (20_bringup_reset.md). Reset 0. -/
  depart : Nat := 0
  departAt : Nat := 0
  /-- Last packet other than TC6 received on a trunk port. R550 (20_bringup_reset.md). Reset 0. -/
  trunkAt : Nat := 0
  /-- Port and core dies are held in reset since a core reset (step 5 has not ended). R550 (20_bringup_reset.md). Reset true (power-on reset). -/
  held : Bool := true
  /-- The hold is a core reset (step 5 reinitialises), not a power-on. R550, R552 (20_bringup_reset.md). Reset false. -/
  coreReset : Bool := false
  /-- MRESET_L is low. R550, R604 (20, 23). Reset false (high). -/
  mreset : Bool := false
  /-- MODULE_NODE. R135, R535 (05, 20). Reset 0 (DESIGN CHOICE: 'none' in Table 20-1, log 22). -/
  node : Nat := 0
  /-- Board profile in the non-volatile store: MODULE_NODE, HOPS, 96 pair entries, 96 TXEQ words; valid CRC. R535 (20_bringup_reset.md). Reset absent (Table 20-1: none). -/
  profile : Option (List Byte) := none
  /-- Board profile in force since the last core or power-on reset. R535 (20_bringup_reset.md). Reset absent (Table 20-1: none). -/
  inForce : Option (List Byte) := none
  /-- Time renewals were last served. R547 (20_bringup_reset.md). Reset 0. -/
  servedAt : Nat := 0
  deriving DecidableEq, Repr


/-! ### The whole machine -/

/-- What has left the module, in order: the model's own record of its outputs. -/
inductive Out where
  /-- A 256 B link frame sent on a lane of a port (R60). -/
  | frame (port lane : Nat) (bytes : List Byte)
  /-- A packet sent whole on a port or delivered at an internal endpoint. -/
  | packet (ep : Nat) (pkt : Packet)
  /-- A posted write to host memory by a function: its T bit, the bytes its enables select (R442, R443, R451). -/
  | hostWrite (port func : Nat) (t : Bool) (addr : Nat) (data : List Byte)
  /-- A read of host memory by a function (FLUSH: zero length), with its T bit. -/
  | hostRead (port func : Nat) (t : Bool) (addr len : Nat)
  /-- The value a host read of a register, window or FIFO returns. -/
  | hostReply (port func : Nat) (data : List Byte)
  /-- An MSI-X message. -/
  | msix (port func vector : Nat)
  /-- A management answer on an interface: its request code, an error flag, its bytes. -/
  | mgmt (iface code : Nat) (err : Bool) (data : List Byte)
  /-- A key on CAS_TX; a SRCHNEXT carries the INDEX it goes on from (R377). -/
  | casKey (origin oseq table ctx : Nat) (key : BitVec 640) (after : Option Nat)
  /-- A match word on MATCH_OUT. -/
  | matchWord (w : Nat)
  /-- A cascade result word sent on the ring. -/
  | casResult (origin oseq : Nat) (w : Word)
  /-- A link-state record flooded on a port (R530). -/
  | linkState (port : Nat) (rec : LinkRec)
  deriving DecidableEq, Repr

/-- Why the model stops with a fault. -/
inductive Fault where
  /-- Raised by every meaning whose command names a port, lane, endpoint, die, tile, thread, table index or other unit that the module does not have. Safe: no such command can occur. -/
  | noSuchUnit
  deriving DecidableEq, Repr

/-- Why the model refuses a command. -/
inductive Refusal where
  /-- Raised by an arm of exec that has no meaning yet. Safe: the machine stops. -/
  | notModelled (mnemonic : String)
  deriving DecidableEq, Repr

/-- The state of the block. -/
structure State where
  /-- Commands waiting, first in, first out. The model's own field (the block takes commands). Reset empty. -/
  pending : List Instr := []
  /-- Counter of free values drawn: the model's own field; Config.fresh applied to it is the next free value. Reset 0 (DESIGN CHOICE, log 8; no statement rests on it). -/
  free : Nat := 0
  /-- Outputs of the module, oldest first: the model's own field. Reset empty. -/
  out : List Out := []
  /-- Module time. R52-R56 (02_handshake_timing.md). Reset see Clock. -/
  clk : Clock := {}
  /-- Event recorder. R576-R589 (22_event_recorder.md). Reset see Recorder. -/
  evr : Recorder := {}
  /-- Chervil. R556-R574 (21_sentinel_power_thermal.md). Reset see Chervil. -/
  chv : Chervil := {}
  /-- Fabric ports, by endpoint code 0-383. R82 (03_fabric_links.md). Reset see Port. -/
  ports : SMap Port := []
  /-- Lanes 0-799. R85-R91 (03_fabric_links.md). Reset see Lane. -/
  lanes : SMap Lane := []
  /-- Switch core. R95-R134 (04_switch_core.md). Reset see Switch. -/
  sw : Switch := {}
  /-- Memory fabric. R135-R168 (05_memory_fabric.md). Reset see MemFabric. -/
  mf : MemFabric := {}
  /-- Coherence. R169-R190 (06_coherence.md). Reset see Coherence. -/
  coh : Coherence := {}
  /-- Yarpin machine. R191-R288 (07, 08, 09). Reset see Control. -/
  ctl : Control := {}
  /-- Tables and epochs. R402-R413 (15_staged_commit.md). Reset see Tables. -/
  tab : Tables := {}
  /-- Collectives and services. R289-R352 (10, 11). Reset see Services. -/
  svc : Services := {}
  /-- Exponent compression. R353-R363 (12_compression.md). Reset see Codec. -/
  cod : Codec := {}
  /-- Peridot. R364-R380 (13_associative_search.md). Reset see Peridot. -/
  per : Peridot := {}
  /-- Memory tiers. R381-R401 (14_memory_tiers.md). Reset see Tiers. -/
  tier : Tiers := {}
  /-- Host interface. R414-R445 (16_host_interface.md). Reset see HostIf. -/
  hst : HostIf := {}
  /-- Context lifecycle. R446-R467 (17_contexts_isolation.md). Reset see Contexts. -/
  cx : Contexts := {}
  /-- Root of trust. R468-R499 (18_security.md). Reset see Security. -/
  sec : Security := {}
  /-- Reliability and health. R500-R528 (19_reliability.md). Reset see Reliability. -/
  rel : Reliability := {}
  /-- Map protocol. R412, R413, R530 (15, 19). Reset see MapProto. -/
  map : MapProto := {}
  /-- Bring-up and reset. R535-R555 (20_bringup_reset.md). Reset see Boot. -/
  boot : Boot := {}
  deriving DecidableEq, Repr

/-- The machine right after power-on reset (R538, R555): PWRGD low, every die held, the non-volatile store as it leaves manufacture, every register at the value its docstring names. -/
def State.reset : State := {}

end Sys2Proof.Machine
end

