-- ==== Sys2Proof/Machine/Units.lean ====
section
/-!
DEFINITION. The units the module has (Table 01-1): the bounds of every number that names one.
-/
namespace Sys2Proof.Machine

/-- Endpoint codes of fabric ports and half-ports (R137, Table 05-1). -/
def isPort (p : Nat) : Bool := decide (p < 384)
/-- Lanes (R60). -/
def isLane (l : Nat) : Bool := decide (l < 800)
/-- Endpoint numbers (R402): 0-383 fabric ports, 400-401 host channels, 416-447 cluster ports, 448-455 control cores, 456-459 HBM ports, 460-461 Peridot ports, 462-463 home ports, 464-465 core links, 466-469 codec ports. -/
def isEp (e : Nat) : Bool := decide (e < 384) || decide (400 ≤ e ∧ e ≤ 401) || decide (416 ≤ e ∧ e < 470)
/-- Traffic classes and virtual lanes (R64, R103). -/
def isCls (c : Nat) : Bool := decide (c < 8)
def isTile (t : Nat) : Bool := decide (t < 256)
def isSlot (n : Nat) : Bool := decide (n < 1048576)
/-- Control threads, and Chervil's at 256. -/
def isThread (h : Nat) : Bool := decide (h ≤ 256)
def isCoreDie (d : Nat) : Bool := decide (d < 2)
def isPortDie (d : Nat) : Bool := decide (d < 4)
/-- P0-P3, C0, C1, S. -/
def isDie (d : Nat) : Bool := decide (d < 7)
def isHostPort (p : Nat) : Bool := decide (p < 2)
def isFunc (f : Nat) : Bool := decide (f < 128)
def isVf (v : Nat) : Bool := decide (1 ≤ v ∧ v < 128)
def isRing (r : Nat) : Bool := decide (r < 8)
def isWin (w : Nat) : Bool := decide (w < 1024)
def isFifo (f : Nat) : Bool := decide (f < 256)
def isExt (e : Nat) : Bool := decide (e < 65536)
def isCtx (c : Nat) : Bool := decide (c < 1024)
def isCluster (c : Nat) : Bool := decide (c < 32)
def isAgent (a : Nat) : Bool := decide (a < 64)
/-- Clusters and crossbar halves. -/
def isBlock (b : Nat) : Bool := decide (b < 34)
/-- Delay lines: those of blocks and tiles as table 0x0203 numbers them, then lookup pipelines, crossbar port stages and spare tiles. -/
def isDelayLine (l : Nat) : Bool := decide (l < 328)
def isPlan (p : Nat) : Bool := decide (p < 4096)
def isStream (x : Nat) : Bool := decide (x < 128)
def isTidSlot (x : Nat) : Bool := decide (x < 4096)
def isJob (j : Nat) : Bool := decide (j < 8)
def isSvc (v : Nat) : Bool := decide (v < 256)
def isNode (n : Nat) : Bool := decide (n < 65536)
def isStack (m : Nat) : Bool := decide (m < 4)
def isIface (i : Nat) : Bool := decide (i < 4)
def isImage (i : Nat) : Bool := decide (i < 3)
def isStreamId (x : Nat) : Bool := decide (x ≤ 8)
def isCore (c : Nat) : Bool := decide (c < 8)
/-- A Yarpin site. -/
def isSite : Site → Bool
  | .tile t => isTile t
  | .thread h => decide (h < 256)
  | .chervil => true

/-- A moment of a DMA descriptor. -/
def isDmaStep : DmaStep → Bool
  | .post x => isSite x
  | .move p _ => isHostPort p
/-- Buffer macros, eight to a bank, then tile scratch macros from 1,024. -/
def isMacro (m : Nat) : Bool := decide (m < 768) || decide (1024 ≤ m ∧ m < 1280)
/-- A line of HBM: stack, frame and line within it. -/
def isHbmLine (l : Nat) : Bool := decide (l < 4294967296) && decide (l / 1024 % 1048576 < 589824)
/-- A place of a patrol read. -/
def isPlace : PatrolAt → Bool
  | .bank b => decide (b < 96)
  | .cell c w => decide (c < 3145728) && decide (w < 4)
  | .link c => decide (c < 3145728)
  | .queue k => isEp (k / 8)
  | .lineBuffer l => decide (l < 2 ^ 36)
  | .scratch t w => isTile t && decide (w < 22528)
  | .descriptor n => isSlot n
  | .filter d w => isCoreDie d && decide (w < 524288)
  | .store c w => isCluster c && decide (w < 8192)
  | .peridot b => decide (b < 64)
  | .hbm l => isHbmLine l
  | .table _ _ => true

end Sys2Proof.Machine
end

