-- ==== Sys2Proof/Machine/Ops.lean ====
section
/-!
DEFINITION. The named operations over the state: outcomes, module time, accessors, free values, event records, MODSTAT and MSI-X, table entries and the shape of ports.
-/
namespace Sys2Proof.Machine

/-! ### Outcomes and time -/

/-- The queue is the senders', and no meaning touches it: a state with the queue of another. -/
def State.queueOf (t s : State) : State := { t with pending := s.pending }
/-- A command's outcome: its effect t on all but the queue where the units it names exist, else the fault (log 1). -/
def unit (ok : Bool) (s t : State) : Host.Outcome State Fault Refusal := if ok then .next (t.queueOf s) else .fault .noSuchUnit

/-- Module time in ns of a count of FREFCLK cycles: times 6.4, rounded down, modulo 2^64 (R52). -/
def timeOf (cycles : Nat) : Nat := (cycles * 32 / 5) % 2 ^ 64
/-- Module time (R52). -/
def now (s : State) : Nat := timeOf s.clk.cycles
/-- One FREFCLK cycle (R53, R56); a service die without power counts nothing (R53, R538; log 2). -/
def tick (s : State) : State :=
  if s.boot.pwrgd then { s with clk := { s.clk with cycles := s.clk.cycles + 1 } } else s
/-- A time has been reached. -/
def reached (s : State) (t : Nat) : Bool := decide (t ≤ now s)
/-- At least d ns have passed since a time. -/
def passed (s : State) (since d : Nat) : Bool := decide (since + d ≤ now s)

/-- A condition under which an effect takes place; nothing happens otherwise (log 1). -/
def onlyIf (c : Bool) (s : State) (t : State) : State := if c then t else s

/-! ### Free values and outputs -/

/-- The next free value and the state after the draw (log 8). -/
def draw (s : State) : Nat × State := (Config.fresh s.free, { s with free := s.free + 1 })
/-- The next free yes or no (log 8). -/
def drawCoin (s : State) : Bool × State := (Config.coin s.free, { s with free := s.free + 1 })
/-- Something leaves the module. -/
def put (o : Out) (s : State) : State := { s with out := s.out ++ [o] }

/-! ### Accessors -/

/-- The Port of a number. -/
def State.port (s : State) (k : Nat) : Port := mget {} k s.ports
/-- The state with that Port replaced. -/
def State.setPort (s : State) (k : Nat) (x : Port) : State := { s with ports := mset {} k x s.ports }
/-- The state with that Port changed by a function. -/
def State.modPort (s : State) (k : Nat) (f : Port → Port) : State := s.setPort k (f (s.port k))

/-- The Lane of a number. -/
def State.lane (s : State) (k : Nat) : Lane := mget {} k s.lanes
/-- The state with that Lane replaced. -/
def State.setLane (s : State) (k : Nat) (x : Lane) : State := { s with lanes := mset {} k x s.lanes }
/-- The state with that Lane changed by a function. -/
def State.modLane (s : State) (k : Nat) (f : Lane → Lane) : State := s.setLane k (f (s.lane k))

/-- The EQueue of a number. -/
def State.queue (s : State) (k : Nat) : EQueue := mget {} k s.sw.queues
/-- The state with that EQueue replaced. -/
def State.setQueue (s : State) (k : Nat) (x : EQueue) : State := { s with sw := { s.sw with queues := mset {} k x s.sw.queues } }
/-- The state with that EQueue changed by a function. -/
def State.modQueue (s : State) (k : Nat) (f : EQueue → EQueue) : State := s.setQueue k (f (s.queue k))

/-- The ParkQ of a number. -/
def State.park (s : State) (k : Nat) : ParkQ := mget {} k s.sw.parked
/-- The state with that ParkQ replaced. -/
def State.setPark (s : State) (k : Nat) (x : ParkQ) : State := { s with sw := { s.sw with parked := mset {} k x s.sw.parked } }
/-- The state with that ParkQ changed by a function. -/
def State.modPark (s : State) (k : Nat) (f : ParkQ → ParkQ) : State := s.setPark k (f (s.park k))

/-- The BufDie of a number. -/
def State.buf (s : State) (k : Nat) : BufDie := mget {} k s.sw.buf
/-- The state with that BufDie replaced. -/
def State.setBuf (s : State) (k : Nat) (x : BufDie) : State := { s with sw := { s.sw with buf := mset {} k x s.sw.buf } }
/-- The state with that BufDie changed by a function. -/
def State.modBuf (s : State) (k : Nat) (f : BufDie → BufDie) : State := s.setBuf k (f (s.buf k))

/-- The Buckets of a number. -/
def State.bucket (s : State) (k : Nat) : Buckets := mget {} k s.sw.buckets
/-- The state with that Buckets replaced. -/
def State.setBucket (s : State) (k : Nat) (x : Buckets) : State := { s with sw := { s.sw with buckets := mset {} k x s.sw.buckets } }
/-- The state with that Buckets changed by a function. -/
def State.modBucket (s : State) (k : Nat) (f : Buckets → Buckets) : State := s.setBucket k (f (s.bucket k))

/-- The Gate of a number. -/
def State.gate (s : State) (k : Nat) : Gate := mget {} k s.sw.gates
/-- The state with that Gate replaced. -/
def State.setGate (s : State) (k : Nat) (x : Gate) : State := { s with sw := { s.sw with gates := mset {} k x s.sw.gates } }
/-- The state with that Gate changed by a function. -/
def State.modGate (s : State) (k : Nat) (f : Gate → Gate) : State := s.setGate k (f (s.gate k))

/-- The Tile of a number. -/
def State.tile (s : State) (k : Nat) : Tile := mget {} k s.ctl.tiles
/-- The state with that Tile replaced. -/
def State.setTile (s : State) (k : Nat) (x : Tile) : State := { s with ctl := { s.ctl with tiles := mset {} k x s.ctl.tiles } }
/-- The state with that Tile changed by a function. -/
def State.modTile (s : State) (k : Nat) (f : Tile → Tile) : State := s.setTile k (f (s.tile k))

/-- The Slot of a number. -/
def State.slot (s : State) (k : Nat) : Slot := mget {} k s.ctl.slots
/-- The state with that Slot replaced. -/
def State.setSlot (s : State) (k : Nat) (x : Slot) : State := { s with ctl := { s.ctl with slots := mset {} k x s.ctl.slots } }
/-- The state with that Slot changed by a function. -/
def State.modSlot (s : State) (k : Nat) (f : Slot → Slot) : State := s.setSlot k (f (s.slot k))

/-- The Thread of a number. -/
def State.thread (s : State) (k : Nat) : Thread := mget {} k s.ctl.threads
/-- The state with that Thread replaced. -/
def State.setThread (s : State) (k : Nat) (x : Thread) : State := { s with ctl := { s.ctl with threads := mset {} k x s.ctl.threads } }
/-- The state with that Thread changed by a function. -/
def State.modThread (s : State) (k : Nat) (f : Thread → Thread) : State := s.setThread k (f (s.thread k))

/-- The Plan of a number. -/
def State.plan (s : State) (k : Nat) : Plan := mget {} k s.svc.plans
/-- The state with that Plan replaced. -/
def State.setPlan (s : State) (k : Nat) (x : Plan) : State := { s with svc := { s.svc with plans := mset {} k x s.svc.plans } }
/-- The state with that Plan changed by a function. -/
def State.modPlan (s : State) (k : Nat) (f : Plan → Plan) : State := s.setPlan k (f (s.plan k))

/-- The WStream of a number. -/
def State.stream (s : State) (k : Nat) : WStream := mget {} k s.svc.streams
/-- The state with that WStream replaced. -/
def State.setStream (s : State) (k : Nat) (x : WStream) : State := { s with svc := { s.svc with streams := mset {} k x s.svc.streams } }
/-- The state with that WStream changed by a function. -/
def State.modStream (s : State) (k : Nat) (f : WStream → WStream) : State := s.setStream k (f (s.stream k))

/-- The Expert of a number. -/
def State.expert (s : State) (k : Nat) : Expert := mget {} k s.svc.experts
/-- The state with that Expert replaced. -/
def State.setExpert (s : State) (k : Nat) (x : Expert) : State := { s with svc := { s.svc with experts := mset {} k x s.svc.experts } }
/-- The state with that Expert changed by a function. -/
def State.modExpert (s : State) (k : Nat) (f : Expert → Expert) : State := s.setExpert k (f (s.expert k))

/-- The HostPort of a number. -/
def State.hport (s : State) (k : Nat) : HostPort := mget {} k s.hst.ports
/-- The state with that HostPort replaced. -/
def State.setHport (s : State) (k : Nat) (x : HostPort) : State := { s with hst := { s.hst with ports := mset {} k x s.hst.ports } }
/-- The state with that HostPort changed by a function. -/
def State.modHport (s : State) (k : Nat) (f : HostPort → HostPort) : State := s.setHport k (f (s.hport k))

/-- The Func of a number. -/
def State.func (s : State) (k : Nat) : Func := mget {} k s.hst.funcs
/-- The state with that Func replaced. -/
def State.setFunc (s : State) (k : Nat) (x : Func) : State := { s with hst := { s.hst with funcs := mset {} k x s.hst.funcs } }
/-- The state with that Func changed by a function. -/
def State.modFunc (s : State) (k : Nat) (f : Func → Func) : State := s.setFunc k (f (s.func k))

/-- The Fifo of a number. -/
def State.fifo (s : State) (k : Nat) : Fifo := mget {} k s.hst.fifos
/-- The state with that Fifo replaced. -/
def State.setFifo (s : State) (k : Nat) (x : Fifo) : State := { s with hst := { s.hst with fifos := mset {} k x s.hst.fifos } }
/-- The state with that Fifo changed by a function. -/
def State.modFifo (s : State) (k : Nat) (f : Fifo → Fifo) : State := s.setFifo k (f (s.fifo k))

/-- The Sensor of a number. -/
def State.sensor (s : State) (k : Nat) : Sensor := mget {} k s.chv.sensors
/-- The state with that Sensor replaced. -/
def State.setSensor (s : State) (k : Nat) (x : Sensor) : State := { s with chv := { s.chv with sensors := mset {} k x s.chv.sensors } }
/-- The state with that Sensor changed by a function. -/
def State.modSensor (s : State) (k : Nat) (f : Sensor → Sensor) : State := s.setSensor k (f (s.sensor k))

/-- The Phase of a number. -/
def State.phase (s : State) (k : Nat) : Phase := mget {} k s.chv.phases
/-- The state with that Phase replaced. -/
def State.setPhase (s : State) (k : Nat) (x : Phase) : State := { s with chv := { s.chv with phases := mset {} k x s.chv.phases } }
/-- The state with that Phase changed by a function. -/
def State.modPhase (s : State) (k : Nat) (f : Phase → Phase) : State := s.setPhase k (f (s.phase k))

/-- The Block of a number. -/
def State.block (s : State) (k : Nat) : Block := mget {} k s.chv.blocks
/-- The state with that Block replaced. -/
def State.setBlock (s : State) (k : Nat) (x : Block) : State := { s with chv := { s.chv with blocks := mset {} k x s.chv.blocks } }
/-- The state with that Block changed by a function. -/
def State.modBlock (s : State) (k : Nat) (f : Block → Block) : State := s.setBlock k (f (s.block k))

/-- The DelayLine of a number. -/
def State.line (s : State) (k : Nat) : DelayLine := mget {} k s.chv.lines
/-- The state with that DelayLine replaced. -/
def State.setLine (s : State) (k : Nat) (x : DelayLine) : State := { s with chv := { s.chv with lines := mset {} k x s.chv.lines } }
/-- The state with that DelayLine changed by a function. -/
def State.modLine (s : State) (k : Nat) (f : DelayLine → DelayLine) : State := s.setLine k (f (s.line k))

/-- The Droop of a number. -/
def State.droop (s : State) (k : Nat) : Droop := mget {} k s.chv.droop
/-- The state with that Droop replaced. -/
def State.setDroop (s : State) (k : Nat) (x : Droop) : State := { s with chv := { s.chv with droop := mset {} k x s.chv.droop } }
/-- The state with that Droop changed by a function. -/
def State.modDroop (s : State) (k : Nat) (f : Droop → Droop) : State := s.setDroop k (f (s.droop k))

/-- The issue a sensor governs falls to 50 %: a cluster's tiles, a crossbar half's tiles and lookups (R45, R46). -/
def paceDown (sensor : Nat) (x : Droop) : Droop :=
  { x with
    paceT := 32
    paceL := if sensor < 32 then x.paceL else 32 }
/-- The wake from DOZE: PSTATE waking with issue at 50 % (R573). -/
def wakeNow (s : State) : State :=
  (List.range 34).foldl (fun s b => s.modDroop b (fun x => { paceDown b x with since := x.since.map (fun _ => now s) }))
    { s with chv := { s.chv with pstate := .waking } }
/-- Slot writes are held: PSTATE is not RUN (R573). -/
def slotsHeld (s : State) : Bool := s.chv.pstate == .doze || s.chv.pstate == .waking
/-- A slot write that is held wakes the module from DOZE, and waits (R573). -/
def holdSlot (s : State) : State := if s.chv.pstate == .doze then wakeNow s else s

/-- The Limits of a number. -/
def State.limit (s : State) (k : Nat) : Limits := mget {} k s.chv.limits
/-- The state with that Limits replaced. -/
def State.setLimit (s : State) (k : Nat) (x : Limits) : State := { s with chv := { s.chv with limits := mset {} k x s.chv.limits } }
/-- The state with that Limits changed by a function. -/
def State.modLimit (s : State) (k : Nat) (f : Limits → Limits) : State := s.setLimit k (f (s.limit k))
/-- Core rail set point of a core die, mV: DOZE_V in DOZE (R570, R572). -/
def coreRail (s : State) (d : Nat) : Nat := if s.chv.pstate == .doze then s.chv.dozeV else (s.limit d).vcore

/-- The ShedDie of a number. -/
def State.shed (s : State) (k : Nat) : ShedDie := mget {} k s.chv.shed
/-- The state with that ShedDie replaced. -/
def State.setShed (s : State) (k : Nat) (x : ShedDie) : State := { s with chv := { s.chv with shed := mset {} k x s.chv.shed } }
/-- The state with that ShedDie changed by a function. -/
def State.modShed (s : State) (k : Nat) (f : ShedDie → ShedDie) : State := s.setShed k (f (s.shed k))

/-- The RecDie of a number. -/
def State.recDie (s : State) (k : Nat) : RecDie := mget {} k s.evr.dies
/-- The state with that RecDie replaced. -/
def State.setRecDie (s : State) (k : Nat) (x : RecDie) : State := { s with evr := { s.evr with dies := mset {} k x s.evr.dies } }
/-- The state with that RecDie changed by a function. -/
def State.modRecDie (s : State) (k : Nat) (f : RecDie → RecDie) : State := s.setRecDie k (f (s.recDie k))

/-- The Nbr of a number. -/
def State.nbr (s : State) (k : Nat) : Nbr := mget {} k s.rel.nbrs
/-- The state with that Nbr replaced. -/
def State.setNbr (s : State) (k : Nat) (x : Nbr) : State := { s with rel := { s.rel with nbrs := mset {} k x s.rel.nbrs } }
/-- The state with that Nbr changed by a function. -/
def State.modNbr (s : State) (k : Nat) (f : Nbr → Nbr) : State := s.setNbr k (f (s.nbr k))

/-- The Image of a number. -/
def State.image (s : State) (k : Nat) : Image := mget {} k s.sec.images
/-- The state with that Image replaced. -/
def State.setImage (s : State) (k : Nat) (x : Image) : State := { s with sec := { s.sec with images := mset {} k x s.sec.images } }
/-- The state with that Image changed by a function. -/
def State.modImage (s : State) (k : Nat) (f : Image → Image) : State := s.setImage k (f (s.image k))

/-- The Spdm of a number. -/
def State.spdm (s : State) (k : Nat) : Spdm := mget {} k s.sec.spdm
/-- The state with that Spdm replaced. -/
def State.setSpdm (s : State) (k : Nat) (x : Spdm) : State := { s with sec := { s.sec with spdm := mset {} k x s.sec.spdm } }
/-- The state with that Spdm changed by a function. -/
def State.modSpdm (s : State) (k : Nat) (f : Spdm → Spdm) : State := s.setSpdm k (f (s.spdm k))

/-! ### MODSTAT and MSI-X (R419, R431) -/

/-- MSI-X table entry reset: masked (PRESUMED PCIe, log 19). -/
def msixReset : Nat := 2 ^ 96
/-- A function sends a vector: a masked one, one of a function in D3hot, or one while the link is down, sets its pending bit (R431, R457, R459). -/
def sendMsix (port func vec : Nat) (s : State) : State :=
  if bit (mget msixReset vec (s.func (128 * port + func)).msix) 96 || (s.func (128 * port + func)).d3 || !(s.hport port).linkUp then
    s.modFunc (128 * port + func) (fun f => { f with pba := insertSet vec f.pba })
  else put (.msix port func vec) s

/-- A thermal limit is below 64/64 (R565). -/
def throttle (s : State) : Bool :=
  [0, 1].any (fun d => decide ((s.limit d).thT < 64) || decide ((s.limit d).thL < 64))

/-- MODSTAT of a port (Table 16-6). -/
def modstat (s : State) (port : Nat) : Nat :=
  b2n s.boot.coreUp + 2 * b2n s.boot.full + 4 * b2n s.clk.holdover + 8 * b2n (throttle s)
  + 16 * b2n (s.hst.owner == port + 1) + 32 * b2n (s.hst.owner != 0 && s.hst.owner != port + 1)
  + 64 * b2n (s.hst.modstat.contains (16 * port + 6)) + 128 * b2n (s.hst.modstat.contains (16 * port + 7))
  + 256 * b2n (s.hst.modstat.contains (16 * port + 8)) + 4096 * s.boot.stage

/-- MODID and MODREV (Table 16-5). -/
def modId : Nat := 0x77681D9F
def modRev : Nat := 0x000100

/-- Level of ALERT_L: low while THROTTLE, CAPACITY or CRITICAL is set in MODSTAT or a limit of the input is in force; released while PWRGD is low (R568, R603). -/
def alertL (s : State) : Bool :=
  !(s.boot.pwrgd && (throttle s || [6, 7, 22, 23].any (fun i => s.hst.modstat.contains i) || s.chv.inputHigh || s.chv.inputLow))
/-- Level of THERMTRIP_L; released while PWRGD is low (R567, R603). -/
def thermtripL (s : State) : Bool := !(s.boot.pwrgd && s.chv.trip)
/-- PF vector 0 of a port for every MODSTAT bit 0-8 that has become set and is enabled (Table 16-4, MODSTAT_IE). -/
def modEdgesOf (port : Nat) (before after : State) : State :=
  (List.range 9).foldl (fun t i =>
    if !bit (modstat before port) i && bit (modstat after port) i && bit (mget 0 port after.hst.modIe) i
    then sendMsix port 0 0 t else t) after
/-- The same for both ports. -/
def modEdges (before after : State) : State := modEdgesOf 1 before (modEdgesOf 0 before after)

/-- A W1C bit of MODSTAT set on both ports. -/
def setModBit (i : Nat) (s : State) : State :=
  modEdges s { s with hst := { s.hst with modstat := insertSet i (insertSet (16 + i) s.hst.modstat) } }

/-! ### Event records (R576-R583, R609) -/

/-- Ring positions of a die. -/
def ringSize : Nat := 65536
/-- The valid mark of a lap (R576). -/
def lapMark (odd : Bool) : Nat := if odd then 0xA5 else 0x5A
/-- A record written at the next position of its die's ring (R577, R580). -/
def ringWrite (die : Nat) (r : Record) (s : State) : State :=
  let d := s.recDie die
  let s := { s with evr := { s.evr with
    rings := mput (ringSize * die + d.wpos) ⟨lapMark d.lap, r⟩ s.evr.rings } }
  s.setRecDie die { d with
    wpos := (d.wpos + 1) % ringSize
    lap := if d.wpos + 1 = ringSize then !d.lap else d.lap
    uncopied := d.uncopied + 1 }
/-- A record is not stored: counted in LOST, and among those of a freeze (R579, R583). -/
def loseRecord (die : Nat) (s : State) : State :=
  s.modRecDie die (fun d => { d with lost := satAdd 30 d.lost 1, lostFrz := d.lostFrz + b2n s.evr.frozen })
/-- A record stored, or lost with the queue full or during a freeze (R579, R583). -/
def keepRecord (die : Nat) (full : Bool) (r : Record) (s : State) : State :=
  if full || s.evr.frozen then loseRecord die s else ringWrite die r s
/-- Records in the queue of a die's recorder, which takes one per 20 ns (R579). -/
def recQueued (s : State) (die : Nat) : Nat := ceilDiv ((s.recDie die).busyTo - now s) 20
/-- The queue of a recorder holds its 64 records (R579). -/
def recFull (s : State) (die : Nat) : Bool := decide (64 ≤ recQueued s die)
/-- A record generated by a die: it takes a sequence number, and is stored, or lost with the queue full or during a freeze (R578, R579, R583); a critical one sets CRITICAL, and, unless the queue was full, waits for the critical archive (R581; log 62). -/
def emit (die code sev p0 p1 p2 p3 : Nat) (s : State) : State :=
  let d := s.recDie die
  let r : Record := { sev := sev, die := die, code := code, time := now s % 2 ^ 48, seq := d.nextSeq,
                      p0 := p0 % 2 ^ 32, p1 := p1 % 2 ^ 32, p2 := p2 % 2 ^ 32, p3 := p3 % 2 ^ 32 }
  let full := recFull s die
  let s := s.setRecDie die { d with nextSeq := (d.nextSeq + 1) % 65536, busyTo := if full then d.busyTo else max d.busyTo (now s) + 20 }
  let s := keepRecord die full r s
  if sev = 4 then setModBit 7 { s with evr := { s.evr with critPend := if full then s.evr.critPend else s.evr.critPend ++ [r] } } else s
/-- A record called for without a code of its own: code 0xcc00 of its class, severity 1 (R589). -/
def emitClass (die cls p0 p1 p2 p3 : Nat) (s : State) : State := emit die (256 * cls) 1 p0 p1 p2 p3 s
/-- A capacity report (R506, Table 19-4), written by Chervil; it sets CAPACITY. -/
def capacity (level step die unit_ spares now_ : Nat) (s : State) : State :=
  setModBit 6 (emit 6 0x0E01 2 (level + 16 * step + 256 * die) unit_ spares now_ s)
/-- The die of a control thread's core: C0 for CC0-CC3, C1 for CC4-CC7, S for Chervil (R609). -/
def threadDie (h : Nat) : Nat := if h < 128 then 4 else if h < 256 then 5 else 6

/-- An event raised for a control thread: its type and its 64-byte descriptor (Table 08-20). -/
def raiseThread (h kind : Nat) (desc : List Byte) (s : State) : State :=
  if (s.thread h).running then s.modThread h (fun t => { t with events := t.events ++ [⟨kind, padTo 64 desc⟩] }) else s
/-- The lowest enabled control core of a core die takes over what is reserved on it: the given one while it is enabled (R514). -/
def reservedCore (s : State) (c : Nat) : Nat :=
  if s.ctl.coreOff.contains c then (((List.range 4).map (fun i => c / 4 * 4 + i)).find? (fun k => !s.ctl.coreOff.contains k)).getD c else c
/-- The map thread: thread 30 of CC0, or of the core that took it over (R412, R514). -/
def mapThread (s : State) : Nat := 32 * reservedCore s 0 + 30
/-- An alert of Table 21-5: its record, and the event of type 0x06 to the map thread unless the dies are in reset (R560). -/
def alert (code die value : Nat) (s : State) : State :=
  let s := emit 6 (0x1000 + code) 2 die value 0 0 s
  if s.boot.held then s
  else raiseThread (mapThread s) 6 (natBytes 2 code ++ natBytes 2 die ++ natBytes 4 value ++ natBytes 8 (now s)) s

/-- Chervil's firmware runs: with power, and while it does not restart (R532, R538). -/
def chervilRuns (s : State) : Bool := s.boot.pwrgd && s.chv.restarting.isNone

/-! ### Table entries (R402, R410, R411) -/

/-- The key of a table entry. -/
def tkey (id idx : Nat) : Nat := id * 2 ^ 24 + idx

/-- The class of each default of Table 04-3: threshold code, RED profile, shaper rate and burst. -/
def queueReset (cls : Nat) : Nat :=
  [0, 2, 6, 5, 3, 4, 3, 2].getD cls 0 + 16 * (if cls = 7 then 1 else 0) + 256 * 16
  + 2 ^ 16 * (if cls = 6 then 50000 else if cls = 7 then 10000 else 0)
  + 2 ^ 36 * (if cls = 6 then 64 else if cls = 7 then 16 else 0) + 2 ^ 48
/-- RED profiles 0 and 1 as Table 04-8 resets them. -/
def redReset (p : Nat) : Nat :=
  if p = 0 then 64 + 2 ^ 14 * 256 + 2 ^ 28 * 16 + 2 ^ 42 * 128 + 2 ^ 56 * 1 + 2 ^ 60 * 3
  else if p = 1 then 16 + 2 ^ 14 * 64 + 2 ^ 28 * 4 + 2 ^ 42 * 32 + 2 ^ 56 * 1 + 2 ^ 60 * 3
  else 0
/-- A word of the board profile in force: ADMIN_UP and FENCE_EN reset to 1 without one (Table 03-2, Table 20-1). -/
def profilePair (s : State) (j : Nat) : Nat :=
  match s.boot.inForce with
  | some b => byteAt b (4 + 4 * j) 4
  | none => 0xC000
/-- HOPS of the board profile in force; 0b10 without one (Table 20-1). -/
def profileHops (s : State) : Nat :=
  match s.boot.inForce with
  | some b => fld (byteAt b 0 4) 16 2
  | none => 2
/-- Context entries reset as Table 17-1 states: 0 and 1023 open, and context 0 with every node, slot and DPOL 0. -/
def ctxReset (c : Nat) : Nat :=
  (if c = 0 ∨ c = 1023 then 1 + 4 else 0) + 2 ^ 18 * (if c = 0 then 0 else 1) + 2 ^ 34 * (if c = 0 then 16383 else 0)
  + 2 ^ 48 * 50 + 2 ^ 62 * 3 + 2 ^ 65 * (if c = 0 then 1048576 else 0)
/-- The image a table entry resets to (the reset columns of the tables of Table 15-1). -/
def resetEntry (s : State) (id idx : Nat) : Nat :=
  match id with
  | 0x0001 => profilePair s idx
  | 0x0002 => 64 + 2 ^ 10 * 8 + 2 ^ 20 * 64 + 2 ^ 30 * 64 + 2 ^ 40 * 8 + 2 ^ 50 * 8
  | 0x0003 => queueReset (idx % 8)
  | 0x0005 => 0xFFF
  | 0x0006 => redReset (idx % 16)
  | 0x0008 => 0xFF
  | 0x0013 => 2 ^ 212 * 2000 + 2 ^ 228 * 500
  | 0x0029 => 2 ^ 22 * 30
  | 0x0030 => ctxReset idx
  | 0x0031 => profileHops s + 2 ^ 2 * 100 + 2 ^ 12 * 100 + 2 ^ 22 * 20 + 2 ^ 32 * 20 + 2 ^ 42 * 4 + 2 ^ 46 * 4
  | _ => 0
/-- A live entry: the current bank's (R408). -/
def entry (s : State) (id idx : Nat) : Nat := (mfind? (tkey id idx) s.tab.live).getD (resetEntry s id idx)
/-- Banks of the fabric map (R410). -/
inductive Bank where
  | cur | old | pend
  deriving DecidableEq, Repr
/-- An entry as a bank of the fabric map holds it (R410, R411). -/
def entryIn (s : State) (b : Bank) (id idx : Nat) : Nat :=
  match b with
  | .cur => entry s id idx
  | .old => (mfind? (tkey id idx) s.tab.old).getD (entry s id idx)
  | .pend => (mfind? (tkey id idx) s.tab.pend).getD (entry s id idx)
/-- A live entry written; an entry equal to its reset image is not listed. -/
def setEntry (s : State) (id idx v : Nat) : State :=
  { s with tab := { s.tab with
    live := if v = resetEntry s id idx then mdel (tkey id idx) s.tab.live else mput (tkey id idx) v s.tab.live } }
/-- A field of a live entry written. -/
def setEntryFld (s : State) (id idx lo len v : Nat) : State := setEntry s id idx (setFld (entry s id idx) lo len v)

/-! ### Ports (R18-R20, R137) -/

/-- The FP number of an endpoint code (R137). -/
def fpOf (p : Nat) : Nat := if p < 192 then p else p - 192
/-- The port die of a port (R18). -/
def dieOf (p : Nat) : Nat := fpOf p / 48
/-- The core die that serves a port (R10). -/
def coreOf (p : Nat) : Nat := dieOf p / 2
/-- The pair of a port. -/
def pairOf (p : Nat) : Nat := fpOf p / 2
/-- The port link entry of a port's pair (R62). -/
def linkEntry (s : State) (p : Nat) : Nat := entry s 0x0001 (pairOf p)
/-- MODE of the pair. -/
def modeOf (s : State) (p : Nat) : Nat := fld (linkEntry s p) 0 2
/-- The port exists in its pair's mode (R19, R137). -/
def portExists (s : State) (p : Nat) : Bool :=
  match modeOf s p with
  | 0 => decide (p < 192)
  | 1 => decide (p < 192) && p % 2 == 0
  | 2 => decide (p < 384)
  | _ => false
/-- The port's role is trunk (Table 03-2). -/
def isTrunk (s : State) (p : Nat) : Bool := bit (linkEntry s p) (if fpOf p % 2 = 0 || modeOf s p = 1 then 4 else 5)
def adminUp (s : State) (p : Nat) : Bool := bit (linkEntry s p) 14
def fenceEn (s : State) (p : Nat) : Bool := bit (linkEntry s p) 15
/-- The lanes of the port's positions in its mode (R18, R19). -/
def modeLanes (s : State) (p : Nat) : List Nat :=
  let base := 200 * dieOf p + 4 * (fpOf p % 48)
  match modeOf s p with
  | 0 => (List.range 4).map (base + ·)
  | 1 => (List.range 8).map (base + ·)
  | _ => if p < 192 then [base, base + 1] else [base + 2, base + 3]
/-- Spare lanes wired to the port's partner (SPARE_MAP, R20). -/
def spareLanes (s : State) (p : Nat) : List Nat :=
  ((List.range 8).filter (fun i => bit (linkEntry s p) (6 + i))).map (fun i => 200 * dieOf p + 192 + i)
/-- A link state's number in the order of Table 03-6. -/
def linkCode : LinkState → Nat
  | .down => 0 | .trainR => 1 | .reduced => 2 | .trainF => 3 | .up => 4 | .narrowed => 5 | .fenced => 6
/-- States that count as down (R83). -/
def countsDown (st : LinkState) : Bool := st == .down || st == .trainR || st == .fenced
/-- The port counts as down, or does not exist (R83). -/
def portDown (s : State) (p : Nat) : Bool := !portExists s p || countsDown (s.port p).st
/-- The port carries a class in its state (Table 03-6, R77). -/
def carries (st : LinkState) (cls : Nat) : Bool :=
  match st with
  | .up | .narrowed => true
  | .reduced | .trainF => cls == 0 || cls == 6
  | .fenced => cls == 6
  | _ => false
/-- Frames pass on a port that exists and is trained. -/
def linkAlive (s : State) (p : Nat) : Bool :=
  portExists s p && !((s.port p).st == .down || (s.port p).st == .trainR)
/-- A port enters a state: the PORT_STATE record, and the flush that a transition to a state that counts as down calls for; a transmission that is over is none that it abandons (R82, R83, R129). -/
def setLink (p : Nat) (st : LinkState) (s : State) : State :=
  let old := (s.port p).st
  if old == st then s
  else
    let s := s.modPort p (fun x => { x with
      st := st, since := now s, flushDue := if countsDown st && !countsDown old then 1 else x.flushDue
      txEnd := if reached s x.txEnd then 0 else x.txEnd })
    emit (dieOf p) 0x0103 1 p (linkCode old + 16 * linkCode st) 0 0 s
/-- What a port forgets when it goes to DOWN: training, frames, credits and keys; its binding stays (R75, R81, R543). -/
def portReset (x : Port) : Port :=
  { st := x.st, since := x.since, viol := x.viol, violAt := x.violAt, bound := x.bound, flushDue := x.flushDue,
    txEnd := x.txEnd, txCls := x.txCls }
/-- A port goes to DOWN. -/
def portToDown (p : Nat) (s : State) : State := (setLink p .down s).modPort p portReset

/-! ### The fabric control entry (Table 15-2) -/

def ctlEntry (s : State) : Nat := entry s 0x0031 0
/-- HOPS (R159). -/
def hops (s : State) : Nat := fld (ctlEntry s) 0 2 + 1
/-- RES_LIMIT of a core die in ns (R158). -/
def resLimit (s : State) (die : Nat) : Nat := 1000 * fld (ctlEntry s) (if die = 0 then 2 else 12) 10
/-- SNOOP_LIMIT of a core die's home in ns (R182). -/
def snoopLimit (s : State) (die : Nat) : Nat := 1000 * fld (ctlEntry s) (if die = 0 then 22 else 32) 10
/-- Sample period of a core die in ns (R134). -/
def samplePeriod (s : State) (die : Nat) : Nat := 1000 * 2 ^ fld (ctlEntry s) (if die = 0 then 42 else 46) 4
/-- PATH_BOUND in ns (R159). -/
def pathBound (s : State) : Nat := hops s * (max (resLimit s 0) (resLimit s 1) + 1000) + 20000

end Sys2Proof.Machine
end

