-- ==== Sys2Proof/Machine/CodecOps.lean ====
section
/-!
DEFINITION. Shared operations of the table store: slot entries, the blocks that name a slot, and retiring (R357-R359, R361).
-/
namespace Sys2Proof.Machine

/-! ### Table slots (Table 12-2) -/

/-- A slot entry as stored, without REFS. -/
def tslot (s : State) (n : Nat) : Nat := mget 0 n s.cod.slots
/-- STATE: 0 FREE, 1 CURRENT, 2 PREVIOUS, 3 RETIRING. -/
def tsState (v : Nat) : Nat := fld v 0 2
def tsFmt (v : Nat) : Nat := fld v 3 4
def tsTid (v : Nat) : Nat := fld v 7 12
def tsGen (v : Nat) : Nat := fld v 19 4
def setTslot (n v : Nat) (s : State) : State := { s with cod := { s.cod with slots := mset 0 n v s.cod.slots } }
/-- REFS: blocks in flight that decoding legs count on a slot: their headers in egress queues, and the blocks at the legs' and the codecs' decoders (R359). -/
def slotRefs (s : State) (n : Nat) : Nat :=
  s.svc.streams.foldl (fun a e => a + ((e.2.legData.flatMap (·.2)).filter (fun b => b.slot == n + 1)).length) 0
    + s.sw.queues.foldl (fun a e => a + (e.2.pkts.filter (fun x => x.slot == n + 1)).length) 0
    + (s.cod.runs.filter (fun e => e.2.slot == n + 1)).length
/-- A RETIRING slot without blocks becomes FREE; its table leaves every port-die cache first (R358). -/
def freeSlot (n : Nat) (s : State) : State :=
  if tsState (tslot s n) = 3 ∧ slotRefs s n = 0 then
    { s with cod := { s.cod with
      cache := mmap [] (fun _ l => eraseSet n l) s.cod.cache
      slots := mset 0 n 0 s.cod.slots
      lens := mset [] n [] s.cod.lens } }
  else s
/-- RETIRING slots whose last block has gone become FREE. -/
def settleSlots (s : State) : State := (mkeys s.cod.slots).foldl (fun s n => freeSlot n s) s
/-- A generation is retired: CURRENT or PREVIOUS becomes RETIRING (R358). -/
def retireSlot (n : Nat) (s : State) : State := freeSlot n (setTslot n (setFld (tslot s n) 0 2 3) s)
/-- The slot entry and code lengths, 17 words (R357). -/
def slotImage (s : State) (n : Nat) : Nat :=
  setFld (tslot s n) 23 20 (slotRefs s n)
    + 2 ^ 64 * ((mget [] n s.cod.lens).foldr (fun l a => 16 * a + l % 16) 0)

/-- A table wanted on a port die whose cache lacks it: the queue waits for its loading; none where the cache holds it (R28). -/
def waitTable (queue die slot : Nat) (s : State) : Option State :=
  if (mget [] die s.cod.cache).contains slot then none
  else if s.cod.waits.contains (queue, die, slot) then some s
  else some { s with cod := { s.cod with waits := s.cod.waits ++ [(queue, die, slot)] } }

/-! ### Jobs (Tables 12-3, 14-6) -/

/-- A codec job entry. -/
def codecJob (s : State) (j : Nat) : Nat := mget 0 j s.cod.jobs
def setCodecJob (j v : Nat) (s : State) : State := { s with cod := { s.cod with jobs := mset 0 j v s.cod.jobs } }
/-- A tier job entry. -/
def tierJob (s : State) (j : Nat) : Nat := mget 0 j s.tier.jobs
def setTierJob (j v : Nat) (s : State) : State := { s with tier := { s.tier with jobs := mset 0 j v s.tier.jobs } }
/-- Progress of a tier job. -/
def tierRun (s : State) (j : Nat) : TierRun := mget {} j s.tier.runs
def setTierRun (j : Nat) (r : TierRun) (s : State) : State := { s with tier := { s.tier with runs := mput j r s.tier.runs } }
/-- STATE of a job: 0 IDLE, 1 RUNNING, 2 DONE. -/
def jobState (v : Nat) : Nat := fld v 0 2
def jobOp (v : Nat) : Nat := fld v 2 2

end Sys2Proof.Machine
end

