-- ==== Sys2Proof/Machine/Operands.lean ====
section
/-!
DEFINITION. The operands of packets: header fields, statuses and reasons, the opcodes and their classes, and the forms of responses (R139-R143, R610).
-/
namespace Sys2Proof.Machine

/-! ### Header fields (Tables 05-3, 05-4, 07-5) -/

/-- Bits of the header. -/
def hfld (p : Packet) (lo len : Nat) : Nat := fld p.hdr.toNat lo len
/-- The packet with header bits replaced. -/
def setH (p : Packet) (lo len v : Nat) : Packet := { p with hdr := BitVec.ofNat 256 (setFld p.hdr.toNat lo len v) }
def pOp (p : Packet) : Nat := hfld p 0 8
def pLen (p : Packet) : Nat := hfld p 8 11
def pEpoch (p : Packet) : Nat := hfld p 19 2
def pKgen (p : Packet) : Nat := hfld p 21 6
def pCtx (p : Packet) : Nat := hfld p 27 10
def pDst (p : Packet) : Nat := hfld p 37 14
def pSrc (p : Packet) : Nat := hfld p 51 14
def pTag (p : Packet) : Nat := hfld p 65 20
def pStatus (p : Packet) : Nat := hfld p 85 4
def pReason (p : Packet) : Nat := hfld p 89 4
def pRetry (p : Packet) : Bool := hfld p 93 1 == 1
/-- Memory opcodes: line address, lines minus one, poison mask, byte mask (Table 05-4). -/
def pLaddr (p : Packet) : Nat := hfld p 128 42
def pNl (p : Packet) : Nat := hfld p 170 2
def pPmask (p : Packet) : Nat := hfld p 172 4
def pBmask (p : Packet) : Nat := hfld p 176 64
/-- Operation-addressed opcodes (Table 07-5). -/
def pOpslot (p : Packet) : Nat := hfld p 128 20
def pOpgen (p : Packet) : Nat := hfld p 148 12
def pChunk (p : Packet) : Nat := hfld p 160 16
def pBoff (p : Packet) : Nat := hfld p 176 4
def pMtype (p : Packet) : Nat := hfld p 180 8
/-- Bytes 16-31 of the header. -/
def pUpper (p : Packet) : Nat := hfld p 128 128
/-- Packet bytes: 32 B header and payload (R68, R124). -/
def pBytes (p : Packet) : Nat := 32 + p.payload.length
/-- Buffer cells of a packet (R99). -/
def pCells (p : Packet) : Nat := ceilDiv (pBytes p) 128

/-- Status codes (Table 05-5). -/
def stOK : Nat := 0
def stNotReady : Nat := 1
def stRevoked : Nat := 2
def stStaleMap : Nat := 3
def stPathLost : Nat := 4
def stContextGone : Nat := 5
def stPoison : Nat := 6
def stViolation : Nat := 7
def stTimeout : Nat := 8
def stIncomplete : Nat := 9
def stStateLost : Nat := 10
def stTableRetired : Nat := 11
def stOverrun : Nat := 12
def stTrailing : Nat := 13
def stBusy : Nat := 14
/-- Violation reasons (Table 05-6). -/
def rsLength : Nat := 1
def rsOpcode : Nat := 2
def rsRange : Nat := 3
def rsRights : Nat := 4
def rsMask : Nat := 5

/-! ### Opcodes -/

def opRD64 : Nat := 0x01
def opRDN : Nat := 0x02
def opWR64 : Nat := 0x04
def opWRN : Nat := 0x05
def opWRP : Nat := 0x06
def opRDRSP : Nat := 0x08
def opWRRSP : Nat := 0x09
def opRDS : Nat := 0x20
def opRDX : Nat := 0x21
def opWB : Nat := 0x22
def opINV : Nat := 0x23
def opDATA : Nat := 0x24
def opCMP : Nat := 0x25
def opOPBLK : Nat := 0x40
def opOPMSG : Nat := 0x41
def opCBLK : Nat := 0x50
def opCNOTE : Nat := 0x51
def opSVCREQ : Nat := 0x60
def opSVCCMP : Nat := 0x61
def opWSDATA : Nat := 0x62
def opMAPMSG : Nat := 0x70
def opCRMSG : Nat := 0x71
def opHVOTE : Nat := 0x72
def opNBRMSG : Nat := 0x73

/-- Requests to memory (Table 05-7). -/
def isMemReq (op : Nat) : Bool := op == opRD64 || op == opRDN || op == opWR64 || op == opWRN || op == opWRP
def isMemRsp (op : Nat) : Bool := op == opRDRSP || op == opWRRSP
def isMemRead (op : Nat) : Bool := op == opRD64 || op == opRDN
/-- Requests to a home (Table 06-3). -/
def isCohReq (op : Nat) : Bool := op == opRDS || op == opRDX || op == opWB
def isCoh (op : Nat) : Bool := decide (0x20 ≤ op ∧ op ≤ 0x25)
/-- A request is a packet of an opcode that has a response (R610). -/
def isRequest (op : Nat) : Bool := isMemReq op || isCohReq op || op == opSVCREQ
/-- Responses (R147). -/
def isResponse (op : Nat) : Bool := isMemRsp op || op == opDATA || op == opCMP || op == opSVCCMP

/-- A packet made from its header fields and payload. -/
def mkPkt (tc op ctx kgen epoch dst src tag status upper : Nat) (payload : List Byte) : Packet :=
  { tc := tc
    hdr := BitVec.ofNat 256 (op % 256 + 2 ^ 8 * (payload.length % 2048) + 2 ^ 19 * (epoch % 4) + 2 ^ 21 * (kgen % 64)
      + 2 ^ 27 * (ctx % 1024) + 2 ^ 37 * (dst % 16384) + 2 ^ 51 * (src % 16384) + 2 ^ 65 * (tag % 1048576)
      + 2 ^ 85 * (status % 16) + 2 ^ 128 * (upper % 2 ^ 128))
    payload := payload }

/-- KGEN of a context on the module: field [112:107] of its entry (Table 17-1). -/
def ctxKgen (s : State) (ctx : Nat) : Nat := fld (entry s 0x0030 ctx) 107 6

/-- The response opcode of a request (R610). -/
def responseOp (op : Nat) : Nat :=
  if isMemRead op then opRDRSP else if isMemReq op then opWRRSP
  else if isCohReq op then opCMP else opSVCCMP
/-- The refusal of a request in the form of R610: on the class and in the context of the request, to its SRC, from its DST, with this module's EPOCH and KGEN (R143, R611). -/
def refusal (s : State) (p : Packet) (status reason : Nat) : Packet :=
  let upper := if pOp p == opSVCREQ then 0
    else if isMemReq (pOp p) then pLaddr p + 2 ^ 42 * pNl p else pLaddr p
  let body := if pOp p == opSVCREQ then natBytes 8 status else []
  setH (mkPkt p.tc (responseOp (pOp p)) (pCtx p) (ctxKgen s (pCtx p)) s.tab.cur (pSrc p) (pDst p) (pTag p) status upper body)
    89 4 (if status == stViolation then reason else 0)

end Sys2Proof.Machine
end

