-- ==== Sys2Proof/Machine/TileOps.lean ====
section
/-!
DEFINITION. Shared operations on operation slots and tiles: programs, counters, raising events and faults, ENDING, and contexts that close (R195-R210, R215-R221, R448, R449).
-/
namespace Sys2Proof.Machine

/-! ### Programs (R215, R216) -/

/-- Tile of a module-wide slot number (R22). -/
def slotTile (n : Nat) : Nat := n / 4096
/-- Cluster of a tile (R21). -/
def clusterOf (t : Nat) : Nat := t / 8
/-- Core die of a tile: 0 C0, 1 C1 (R10). -/
def tileCore (t : Nat) : Nat := t / 128
/-- Program table entry image (Table 07-10); its REFS field is counted, not stored. -/
def ptab (s : State) (cl e : Nat) : Nat := mget 0 (64 * cl + e) s.ctl.ptab
def ptProg (v : Nat) : Nat := fld v 0 16
def ptVer (v : Nat) : Nat := fld v 16 16
def ptBase (v : Nat) : Nat := fld v 32 13
def ptLen (v : Nat) : Nat := fld v 45 14
def ptState (v : Nat) : Nat := fld v 59 2
def ptCompat (v : Nat) : Nat := fld v 61 16
/-- A word of a cluster's program store (R215). -/
def storeWord (s : State) (cl w : Nat) : Nat := (mget (0 : Word) (8192 * cl + w) s.ctl.store).toNat
/-- The entry of a program version that a cluster holds whole: RESIDENT, or RETIRING (R217). -/
def findProg (s : State) (cl prog ver : Nat) : Option Nat :=
  ((List.range 64).map (ptab s cl)).find? (fun v => ptProg v == prog && ptVer v == ver && decide (2 ≤ ptState v))
/-- The entry offset a program gives an event, none for 0xFFFF (Table 07-9). -/
def entryOffset (s : State) (cl image ev : Nat) : Option Nat :=
  let w2 := storeWord s cl (ptBase image + 2)
  let o := match ev with
    | 0 => fld w2 0 16
    | 1 => fld w2 16 16
    | 2 => fld w2 32 16
    | 3 => fld w2 48 16
    | _ => fld (storeWord s cl (ptBase image + 3)) 0 16
  if o = 0xFFFF then none else some o
/-- The entry offset of a slot's program for an event. -/
def slotEntry (s : State) (n ev : Nat) : Option Nat :=
  let x := s.slot n
  match findProg s (clusterOf (slotTile n)) x.prog x.ver with
  | some image => entryOffset s (clusterOf (slotTile n)) image ev
  | none => none
/-- The version an operation runs under: a handler in progress keeps its own (R218). -/
def slotVer (s : State) (n : Nat) : Nat :=
  match (s.tile (slotTile n)).run with
  | some h => if h.slot == n % 4096 then h.ver else (s.slot n).ver
  | none => (s.slot n).ver
/-- Operations LIVE or ENDING in a cluster under a version: REFS (Table 07-10). -/
def refs (s : State) (cl prog ver : Nat) : Nat :=
  (s.ctl.slots.filter (fun e => clusterOf (slotTile e.1) == cl && e.2.prog == prog && slotVer s e.1 == ver
    && (e.2.st == .live || e.2.st == .ending))).length
/-- Versions in RETIRING that no operation of the cluster runs under become EMPTY and free their words (R217). -/
def retirePrograms (cl : Nat) (s : State) : State :=
  (List.range 64).foldl (fun s e =>
    let v := ptab s cl e
    if ptState v = 3 ∧ refs s cl (ptProg v) (ptVer v) = 0 then
      { s with ctl := { s.ctl with ptab := mset 0 (64 * cl + e) 0 s.ctl.ptab } }
    else s) s
/-- Slots of a context in LIVE, ENDING or COOLING: OPUSED (Table 17-1, R452). -/
def opUsed (s : State) (c : Nat) : Nat :=
  (s.ctl.slots.filter (fun e => e.2.ctx == c && e.2.st != .free)).length

/-! ### Counters, staging and the event queue -/

/-- A correction or sparing counter raised (Table 19-2): banks 4 x bank + item, tiles 512 + 8 x tile + item, stacks 2560 + 8 x stack + item, module 2592 and 2593 (log 33). -/
def relCount (key n : Nat) (s : State) : State :=
  { s with rel := { s.rel with ctr := mmod 0 key (fun v => wrapAdd 64 v n) s.rel.ctr } }

/-- A counter of Table 07-12 raised; 64 bits, wrapping. -/
def tileCount (t row n : Nat) (s : State) : State :=
  s.modTile t (fun x => { x with ctr := mmod 0 row (fun v => wrapAdd 64 v n) x.ctr })
/-- Staging units of a payload (Table 07-1). -/
def stageUnits (e : OpEvent) : Nat := ceilDiv e.data.length 64
/-- BLOCK, ALL and MSG hold an event-queue entry until their handler ends (R224). -/
def holdsEntry (e : OpEvent) : Bool := e.ev == 0 || e.ev == 1 || e.ev == 3
/-- Staging in use changed, with STAGE_FULL_NS kept (R223). -/
def setStaged (t n : Nat) (s : State) : State :=
  let x := s.tile t
  match x.fullSince with
  | some since =>
    if n < 1024 then
      tileCount t 7 (now s - since) (s.setTile t { x with staged := n, fullSince := none })
    else s.setTile t { x with staged := n }
  | none => s.setTile t { x with staged := n, fullSince := if 1024 ≤ n then some (now s) else none }
/-- An event's staging and queue entry given back (R195, R200, R224). -/
def releaseEvent (t : Nat) (e : OpEvent) (s : State) : State :=
  let s := if holdsEntry e then s.modTile t (fun x => { x with evq := x.evq - 1 }) else s
  if e.data.isEmpty then s else setStaged t ((s.tile t).staged - stageUnits e) s
/-- An event raised: it takes its stamp, its staging and its queue entry (R204, R205, R224). A second TIMER or FAULT while one waits in the operation's reserved place (R208) is not spoken of: DESIGN CHOICE (log 72), both wait. -/
def raiseEvent (n : Nat) (e : OpEvent) (s : State) : State :=
  let t := slotTile n
  let e := { e with stamp := s.ctl.stamp }
  let s := { s with ctl := { s.ctl with stamp := s.ctl.stamp + 1 } }
  let s := s.modSlot n (fun x => { x with
    events := if e.ev == 4 then x.events.filter (fun y => y.ev == 4) ++ e :: x.events.filter (fun y => y.ev != 4)
              else x.events ++ [e] })
  let s := if holdsEntry e then s.modTile t (fun x => { x with
      evq := x.evq + 1, ctr := mset 0 8 (max (mget 0 8 x.ctr) (x.evq + 1)) x.ctr }) else s
  if e.data.isEmpty then s else setStaged t ((s.tile t).staged + stageUnits e) s

/-! ### Ending and faults (R195, R209, R221) -/

/-- A handler that is over waits for no search. -/
def dropSearches (t : Nat) (s : State) : State :=
  if s.per.queue.isEmpty && s.per.answers.isEmpty && s.per.cas.isEmpty then s
  else { s with per := { s.per with
    queue := mmap [] (fun _ l => l.filter (fun k => k.src != t)) s.per.queue
    answers := s.per.answers.filter (fun a => a.1 != t)
    cas := s.per.cas.map (fun c => if c.src = t then { c with src := 256 } else c) } }
/-- The shadow record of a handler that is over goes to its cluster's queue of 16 with s0-s7 at exit, or is dropped and counted; a cluster without its spare keeps none (R517, R521). -/
def closeRecord (t : Nat) (h : Handler) (s : State) : State :=
  match mfind? t s.ctl.tracing with
  | none => s
  | some r =>
    let cl := clusterOf t
    let s := { s with ctl := { s.ctl with tracing := mdel t s.ctl.tracing } }
    if s.rel.spareUsed.contains cl || s.rel.spareGone.contains cl then s
    else if 16 ≤ (mget [] cl s.rel.shadows).length then relCount (512 + 8 * t + 5) 1 s
    else { s with rel := { s.rel with shadows := mmod [] cl (· ++ [{ r with exit := h.s }]) s.rel.shadows } }
/-- The handler of a tile is over: its event gives its staging and queue entry back, and s0-s7 go to the record (R200, R204, R224). -/
def endHandler (t : Nat) (s : State) : State :=
  match (s.tile t).run with
  | none => s
  | some h =>
    let n := 4096 * t + h.slot
    let s := closeRecord t h (dropSearches t (releaseEvent t h.ev s))
    let s := (s.modSlot n (fun x => { x with regs := h.s })).modTile t (fun x => { x with run := none })
    if h.ver = (s.slot n).ver then s else retirePrograms (clusterOf t) s
/-- The handler of a tile runs for a slot. -/
def runsSlot (s : State) (n : Nat) : Bool :=
  match (s.tile (slotTile n)).run with
  | some h => h.slot == n % 4096
  | none => false
/-- A SEND or FWD of the operation has not left its tile (R194). -/
def opSends (s : State) (n : Nat) : Bool := s.sw.stalled.any (fun e => e.2.any (fun k => k.owner == 1 + slotTile n + 1024 * (n % 4096 + 1)))
/-- An operation goes to ENDING: no handler of it runs on, the TIMER is cancelled, pending events and their staging are released (R194, R195). A COUNT, STORE or CLOSING fault of an operation without a FAULT entry may come while its handler runs, and R205 and R209 then differ: DESIGN CHOICE (log 72), the handler is cut off. -/
def endOp (n status cause : Nat) (s : State) : State :=
  let s := if runsSlot s n then endHandler (slotTile n) s else s
  let x := s.slot n
  let s := x.events.foldl (fun s e => releaseEvent (slotTile n) e s) s
  s.modSlot n (fun x => { x with
    st := .ending, events := [], deadline := 2 ^ 64 - 1, fstatus := status, fcause := cause })
/-- Status of an operation that a fault ends (Table 07-8). -/
def faultStatus (cause status : Nat) : Nat :=
  if cause = 7 then status else if cause = 8 then stPoison else if cause = 10 then stContextGone else stViolation
/-- FAULT raised with a cause; without a FAULT entry the operation goes straight to ENDING (R209). -/
def raiseFault (n cause status : Nat) (s : State) : State :=
  let s := tileCount (slotTile n) 6 1 s
  match slotEntry s n 4 with
  | none => endOp n (faultStatus cause status) cause s
  | some _ => raiseEvent n { ev := 4, code := cause, status := if cause = 7 then status else 0 } s
/-- A fault ends the running handler; in a FAULT handler the operation goes straight to ENDING, with CONTEXT_GONE where the handler's cause is CLOSING (R209, R210; log 34). -/
def faultHandler (t cause : Nat) (s : State) : State :=
  match (s.tile t).run with
  | none => s
  | some h =>
    let n := 4096 * t + h.slot
    let s := endHandler t s
    if h.ev.ev = 4 then
      endOp n (if h.ev.code = 10 then stContextGone else faultStatus cause 0) cause (tileCount t 6 1 s)
    else raiseFault n cause 0 s
/-- FAULT of cause CLOSING: the other pending events are discarded (R221). -/
def closingFault (n : Nat) (s : State) : State :=
  let x := s.slot n
  let s := x.events.foldl (fun s e => releaseEvent (slotTile n) e s) s
  let s := s.modSlot n (fun x => { x with events := [], closing := true })
  raiseFault n 10 0 s
/-- Every LIVE operation of a context receives the CLOSING fault (R221). -/
def closeOps (c : Nat) (s : State) : State :=
  ((s.ctl.slots.filter (fun e => e.2.ctx == c && e.2.st == .live)).map (·.1)).foldl (fun s n => closingFault n s) s

/-! ### Contexts (R448, R449, R457) -/

/-- STATE of a context: 0 FREE, 1 OPEN, 2 CLOSING, 3 SCRUBBING (Table 17-1). -/
def ctxState (s : State) (c : Nat) : Nat := fld (entry s 0x0030 c) 0 2
/-- The VF of a host port bound to a context, 0 none (Table 17-1). -/
def ctxVf (s : State) (c port : Nat) : Nat := fld (entry s 0x0030 c) (if port = 0 then 4 else 11) 7
/-- The context of a function: 0 for a PF, the context whose entry names the VF, none unbound (R416, R450). -/
def funcCtx (s : State) (port func : Nat) : Option Nat :=
  if func = 0 then some 0
  else ((List.range 1022).map (· + 1)).find? (fun c => ctxState s c != 0 && ctxVf s c port == func)
/-- A context's state changes; every move writes a CONTEXT_STATE record of S (R448, R609). -/
def moveCtx (c st cause : Nat) (s : State) : State :=
  let v := entry s 0x0030 c
  let v := setFld (setFld v 0 2 st) 113 4 cause
  emit 6 0x0C01 1 c st cause 0 (setEntry s 0x0030 c (if st = 1 then v else setFld v 2 1 0))
/-- A VF of a closing context: pending MSI-X bits cleared, and a locked or running TDI enters ERROR (R451, R457). -/
def closeVf (port vf : Nat) (s : State) : State :=
  if vf = 0 then s
  else s.modFunc (128 * port + vf) (fun f => { f with
    pba := [], tdi := if f.tdi == .locked || f.tdi == .run then .error else f.tdi })
/-- An OPEN context enters CLOSING with a cause (R448, R449, R221, R457, R460 step 1); another state is left as it is (R459). -/
def closeContext (c cause : Nat) (s : State) : State :=
  if ctxState s c ≠ 1 ∨ c = 0 ∨ c = 1023 then s
  else
    let s := closeVf 1 (ctxVf s c 1) (closeVf 0 (ctxVf s c 0) s)
    let s := moveCtx c 2 cause s
    let s := { s with cx := { s.cx with removals := mput c { at_ := now s } s.cx.removals } }
    closeOps c s
/-- Contexts bound to a VF of a port. -/
def boundCtxs (s : State) (port : Nat) : List Nat :=
  ((List.range 1022).map (· + 1)).filter (fun c => ctxState s c != 0 && ctxVf s c port != 0)

/-! ### Homes of module packets -/

/-- A completion event of an operation to its creator (R195, Table 08-21). -/
def opCompletion (n : Nat) (x : Slot) : List Byte :=
  natBytes 4 (n + 2 ^ 20 * x.gen) ++ natBytes 1 x.fstatus ++ natBytes 1 x.fcause ++ natBytes 2 0
    ++ natBytes 8 (mget 0 0 x.regs).toNat ++ natBytes 8 (mget 0 1 x.regs).toNat

end Sys2Proof.Machine
end

