-- ==== Sys2Proof/Machine/HomeOps.lean ====
section
/-!
DEFINITION. Shared operations of the homes: tier-space pages and frames, the line buffer, HBM and its poison (R167, R382-R387, R509).
-/
namespace Sys2Proof.Machine

/-! ### Pages (Table 14-1) -/

/-- Page map entry image. -/
def page (s : State) (p : Nat) : Nat := mget 0 p s.tier.pages
def setPage (p v : Nat) (s : State) : State := { s with tier := { s.tier with pages := mset 0 p v s.tier.pages } }
def pgState (v : Nat) : Nat := fld v 0 3
def pgTier (v : Nat) : Nat := fld v 3 2
def pgTo (v : Nat) : Nat := fld v 5 2
def pgRef (v : Nat) : Bool := bit v 7
def pgFixed (v : Nat) : Bool := bit v 8
def pgCtx (v : Nat) : Nat := fld v 9 10
def pgShared (v : Nat) : Bool := bit v 19
def pgLoc (v : Nat) : Nat := fld v 32 48
def pgAge (v : Nat) : Nat := fld v 80 32
/-- Page of a tier-space line. -/
def linePage (line : Nat) : Nat := line / 1024
/-- The stack that holds a page's frame (R382). -/
def stackOf (s : State) (p : Nat) : Nat :=
  let m := p % 4
  if s.tier.stacksMoved.contains m then (if m % 2 = 0 then m + 1 else m - 1) else m
/-- The core die that homes a page (R382). -/
def homeOf (p : Nat) : Nat := p % 4 / 2
/-- A frame's number among all stacks, after the home's remap (R509). -/
def frameKey (s : State) (stack frame : Nat) : Nat :=
  mget (1048576 * stack + frame) (1048576 * stack + frame) s.tier.remap
/-- HBM address of a line of a page held near. -/
def hbmAddr (s : State) (line : Nat) : Nat :=
  let p := linePage line
  65536 * frameKey s (stackOf s p) (fld (pgLoc (page s p)) 0 19) + 64 * (line % 1024)
/-- REF set and AGE taken at an access (Table 14-1). -/
def touchPage (p : Nat) (s : State) : State :=
  setPage p (setFld (setFld (page s p) 7 1 1) 80 32 (fld (now s) 20 32)) s

/-! ### The line buffer and HBM (R167) -/

/-- A line as HBM holds it: its bytes, and whether it is poisoned; the lines of a failed stack read as poison (R512). -/
def hbmLine (s : State) (line : Nat) : List Byte × Bool :=
  let a := hbmAddr s line
  if s.mf.poison.contains (a / 64) || s.tier.stacksFailed.contains (stackOf s (linePage line)) then
    (List.replicate 64 0, true)
  else (memRead s.mf.hbm a 64, false)
/-- A line as the home sees it: the buffered value, or the one in HBM (R167). -/
def readLine (s : State) (line : Nat) : List Byte × Bool :=
  match mfind? line s.mf.lines with
  | some b => (b.data, b.poison)
  | none => hbmLine s line
/-- A line written to HBM; a poisoned line holds zero data (R501). -/
def hbmWrite (line : Nat) (data : List Byte) (poison : Bool) (s : State) : State :=
  let a := hbmAddr s line
  { s with mf := { s.mf with
    hbm := memWrite s.mf.hbm a (if poison then List.replicate 64 0 else padTo 64 data)
    poison := if poison then insertSet (a / 64) s.mf.poison else eraseSet (a / 64) s.mf.poison } }
/-- A buffered line is written to HBM and its entry freed (R167). -/
def writeBack (line : Nat) (s : State) : State :=
  match mfind? line s.mf.lines with
  | none => s
  | some b =>
    let s := hbmWrite line b.data b.poison s
    { s with mf := { s.mf with lines := mdel line s.mf.lines } }
/-- Buffered lines of a home. -/
def homeLines (s : State) (die : Nat) : SMap BufLine := s.mf.lines.filter (fun e => homeOf (linePage e.1) == die)
/-- A line put into the line buffer of 8,192 lines; when an entry is needed for another line, the one that has gone longest without a write is written back first (R167 names none: DESIGN CHOICE, log 71). -/
def bufWrite (line : Nat) (data : List Byte) (poison : Bool) (s : State) : State :=
  let mine := homeLines s (homeOf (linePage line))
  let s := if mhas line s.mf.lines || decide (mine.length < 8192) then s
    else match mine with
      | [] => s
      | e :: rest => writeBack (rest.foldl (fun b x => if x.2.at_ < b.2.at_ then x else b) e).1 s
  { s with mf := { s.mf with lines := mput line ⟨padTo 64 data, poison, now s⟩ s.mf.lines } }
/-- Every buffered line of a page is written back (R388 step 1). -/
def writeBackPage (p : Nat) (s : State) : State :=
  ((s.mf.lines.filter (fun e => linePage e.1 == p)).map (·.1)).foldl (fun s l => writeBack l s) s
/-- Every buffered line is written back. -/
def writeBackAll (s : State) : State := (mkeys s.mf.lines).foldl (fun s l => writeBack l s) s
/-- Every line of a page, as HBM holds it. -/
def pageBytes (s : State) (p : Nat) : List Byte :=
  memRead s.mf.hbm (65536 * frameKey s (stackOf s p) (fld (pgLoc (page s p)) 0 19)) 65536

/-! ### Extents (Table 05-9) -/

def extent (s : State) (e : Nat) : Nat := entry s 0x0013 e
def exOwner (v : Nat) : Nat := fld v 0 10
def exNode (v : Nat) : Nat := fld v 10 14
def exBase (v : Nat) : Nat := fld v 24 32
def exSize (v : Nat) : Nat := fld v 56 32
def exState (v : Nat) : Nat := fld v 88 3
def exTier (v : Nat) : Nat := fld v 91 2
def exXts (v : Nat) : Bool := bit v 93
def exKeyslot (v : Nat) : Nat := fld v 94 12
def exLeased (v : Nat) : Bool := bit v 106
def exHolder (v : Nat) : Nat := fld v 107 14
def exEnd (v : Nat) : Nat := fld v 128 64
/-- Lease length and grace in ns. -/
def exLease (v : Nat) : Nat := 1000000 * fld v 212 16
def exGrace (v : Nat) : Nat := 1000000 * fld v 228 16
/-- INFLIGHT: open request records of the extent (R148). -/
def inflight (s : State) (e : Nat) : Nat := (s.mf.open_.filter (fun r => r.ext == e)).length
/-- Extents with an entry of their own. -/
def listedExtents (s : State) : List Nat :=
  (s.tab.live.filter (fun e => decide (tkey 0x0013 0 ≤ e.1 ∧ e.1 < tkey 0x0014 0))).map (fun e => e.1 - tkey 0x0013 0)
/-- Pages of a tier-space extent (R381). -/
def extentPages (s : State) (e : Nat) : List Nat :=
  let v := extent s e
  if exNode v = s.boot.node then (List.range (exSize v)).map (exBase v + ·) else []
/-- The tier-space extent that holds a page, not FREE. -/
def pageExtent (s : State) (p : Nat) : Option Nat :=
  (listedExtents s).find? (fun e => let v := extent s e
    exState v != 0 && exNode v == s.boot.node && decide (exBase v ≤ p ∧ p < exBase v + exSize v))

end Sys2Proof.Machine
end

