-- ==== Sys2Proof/Machine/Reset.lean ====
section
/-!
DEFINITION. What ends a freeze of the recorder, and what a core reset takes away (R551, R555, R583, R584, R586).
-/
namespace Sys2Proof.Machine

/-! ### The recorder across resets -/

/-- The EPOCH record of a die (R586). -/
def epochRecord (die : Nat) (s : State) : State :=
  emit die 0x1103 0 (now s % 2 ^ 32) (now s / 2 ^ 32) 0 0 s
/-- Recording resumes: a THAW record with the records lost, then an EPOCH record, into the ring of each of the dies (R583). -/
def thawDies (dies : List Nat) (auto : Bool) (s : State) : State :=
  let s := { s with evr := { s.evr with frozen := false } }
  let s := dies.foldl (fun s d => emit d 0x1102 0 (s.recDie d).lostFrz (b2n auto) 0 0 s) s
  let s := dies.foldl (fun s d => s.modRecDie d (fun x => { x with lostFrz := 0 })) s
  dies.foldl (fun s d => epochRecord d s) s
/-- Dies P0-P3, C0, C1, S. -/
def allDies : List Nat := [0, 1, 2, 3, 4, 5, 6]
/-- Dies whose recorders run: S alone while the others are held. -/
def liveDies (s : State) : List Nat := if s.boot.held then [6] else allDies
/-- The automatic thaw of a freeze in force (R584). -/
def autoThawNow (s : State) : State := if s.evr.frozen then thawDies (liveDies s) true s else s
/-- Every commit group is gone, with the pending epoch bank (R411, R533). -/
def dropGroups (s : State) : State :=
  { s with
    ctl := { s.ctl with threads := mmap {} (fun _ t => { t with group := [], groupOpen := false, check := none }) s.ctl.threads }
    tab := { s.tab with pend := [], pending := false } }

/-! ### Pages and gates -/

/-- A page whose move is lost rests again where it was. -/
def settlePage (v : Nat) : Nat :=
  if pgState v = 3 then setFld (setFld v 0 3 (if pgTier v = 0 then 1 else 2)) 5 2 0 else v
/-- Moves are lost: pages rest where they were, and the places taken for them, as those of collective staging, are free again (R551; log 25). -/
def dropMoves (s : State) : State :=
  let arriving := (s.tier.moves.filter (fun m => m.dest == 0)).map (fun m => 1048576 * stackOf s m.page + m.loc)
  let staging := s.svc.plans.flatMap (fun e => e.2.frames)
  let pool := (s.tier.moves.filter (fun m => m.dest == 1)).map (fun m => 2 ^ 32 * fld m.loc 0 16 + fld m.loc 16 32)
  let host := (s.tier.moves.filter (fun m => m.dest == 2)).map (fun m => 2 ^ 32 * fld m.loc 0 1 + fld m.loc 1 32)
  { s with tier := { s.tier with
    pages := s.tier.pages.map (fun e => (e.1, settlePage e.2))
    frames := s.tier.frames.filter (fun f => !arriving.contains f && !staging.contains f)
    poolUsed := s.tier.poolUsed.filter (fun k => !pool.contains k)
    hostUsed := s.tier.hostUsed.filter (fun k => !host.contains k)
    moves := [], held := [], jobs := [], runs := [] } }
/-- Entries of a committed gate list (R125). -/
def gateEntries (s : State) (ep n : Nat) : List Nat := (List.range n).map (fun i => entry s 0x0008 (64 * ep + i))
/-- The gate lists that are committed run after a core reset (R125, R555). -/
def gatesOf (s : State) : SMap Gate :=
  (List.range 384).filterMap (fun ep =>
    let h := entry s 0x0007 ep
    if h = 0 then none else some (ep, { hdr := h, ents := gateEntries s ep (fld h 96 7) }))

/-! ### Core reset (R550 step 4, Table 20-9) -/

/-- Buffer accounting as it begins again: banks retired and spares used stay so (R102, R508). -/
def bufAfterReset (b : BufDie) : BufDie :=
  { resSize := b.resSize, hrCut := b.hrCut, bankStop := b.bankStop, bankRetired := b.bankRetired, bankSpares := b.bankSpares }
/-- A tile as it begins again: sparing stays (R511, R519). -/
def tileAfterReset (t : Tile) : Tile :=
  { onSpare := t.onSpare, off := t.off, retired := t.retired }
/-- Recorder status of a die whose ring is lost; its archive stays (Table 20-9). -/
def recAfterReset (d : RecDie) : RecDie := { apos := d.apos, alap := d.alap, afail := d.afail }

/-- The port and core dies are held in reset: what Table 20-9 says a core reset loses is gone, FROZEN ends with an automatic THAW in the ring of S (R584), CORE_UP and FULL are clear and STAGE is 0 (R550 step 4). -/
def coreHold (s : State) : State :=
  let s := if s.evr.frozen then thawDies [6] true s else s
  let s := dropMoves (writeBackAll (dropGroups s))
  { s with
    evr := { s.evr with
      dies := mmap {} (fun d x => if d < 6 then recAfterReset x else x) s.evr.dies
      rings := s.evr.rings.filter (fun e => decide (6 * ringSize ≤ e.1)) }
    ports := mmap {} (fun _ x => { bound := x.bound }) s.ports
    sw := { buf := mmap {} (fun _ b => bufAfterReset b) s.sw.buf, gates := gatesOf s }
    mf := { hbm := s.mf.hbm, poison := s.mf.poison, nextTag := s.mf.nextTag, drainAt := s.mf.drainAt, drained := s.mf.drained }
    coh := { filter := s.coh.filter, lru := s.coh.lru, stamp := s.coh.stamp, snoopTag := s.coh.snoopTag, reclaim := s.coh.reclaim
             deadLines := s.coh.deadLines, backing := s.coh.backing }
    ctl := { prog := s.ctl.prog, store := s.ctl.store, ptab := s.ctl.ptab, stamp := s.ctl.stamp,
             tiles := mmap {} (fun _ t => tileAfterReset t) s.ctl.tiles,
             coreStops := s.ctl.coreStops, coreOff := s.ctl.coreOff }
    svc := { table := s.svc.table, bundle := s.svc.bundle, manifest := s.svc.manifest, kv := s.svc.kv,
             kvRow := s.svc.kvRow, freeMap := s.svc.freeMap, shadows := s.svc.shadows }
    cod := { slots := s.cod.slots, lens := s.cod.lens, lastGen := s.cod.lastGen }
    per := { rows := s.per.rows, oseq := s.per.oseq }
    hst := { s.hst with
      ports := mmap {} (fun _ h => { perst := h.perst }) s.hst.ports, funcs := [], fifos := [], fcosel := 0, fcoen := 0 }
    sec := { s.sec with kreqs := [] }
    rel := { s.rel with ctr := [], shadows := [], linkScore := [], replaysAt := [], tagsAt := [], nbrs := [], gossip := [],
                        votes := [], hold := false }
    map := { seq := s.map.seq }
    chv := { s.chv with pstate := .run }
    boot := { s.boot with coreUp := false, full := false, stage := 0, held := true, coreReset := true, discDone := false,
                          depart := 0, gated := false, servedAt := if s.boot.coreUp then now s else s.boot.servedAt } }

end Sys2Proof.Machine
end

