-- ==== Sys2Proof/Machine/LinkTx.lean ====
section
/-!
DEFINITION. The transmit side of a fabric link: CRC, frames, groups under the link key, control frames with their health block (R64-R71, R75-R80, R523).
-/
namespace Sys2Proof.Machine

/-! ### CRC-32 and frames (R64, R66) -/

/-- Eight steps of the reflected CRC-32. -/
def crcByte : Nat → Nat → Nat
  | 0, c => c
  | k + 1, c => crcByte k (if c % 2 = 1 then (c / 2) ^^^ 0xEDB88320 else c / 2)
/-- CRC-32 of R66: reflected, all ones before, inverted after. -/
def crc32 (l : List Byte) : Nat :=
  (l.foldl (fun c b => crcByte 8 (c ^^^ b.toNat)) 0xFFFFFFFF) ^^^ 0xFFFFFFFF

/-- Frame types (Table 03-3). -/
def ftData : Nat := 0
def ftControl : Nat := 1
def ftIdle : Nat := 2
/-- Header of a frame (Table 03-3). -/
def frameHdr (type vl : Nat) (kphase close : Bool) (seq start used : Nat) : Nat :=
  type + 4 * vl + 32 * b2n kphase + 64 * b2n close + 128 * (seq % 4096) + 2 ^ 19 * start + 2 ^ 25 * used
def fhType (h : Nat) : Nat := fld h 0 2
def fhVl (h : Nat) : Nat := fld h 2 3
def fhPhase (h : Nat) : Bool := bit h 5
def fhClose (h : Nat) : Bool := bit h 6
def fhSeq (h : Nat) : Nat := fld h 7 12
def fhStart (h : Nat) : Nat := fld h 19 6
def fhUsed (h : Nat) : Nat := fld h 25 7
/-- The header of a frame's bytes. -/
def hdrOf (f : List Byte) : Nat := byteAt f 0 4
/-- A frame of header and body with its CRC (R64). -/
def withCrc (f : List Byte) : List Byte := f ++ natBytes 4 (crc32 f)
/-- The text of a group that the cipher covers: every body, but the tag bytes 232-247 of the closing one (R78). -/
def groupText (g : List (List Byte)) : List Byte :=
  (g.map (fun f => if fhClose (hdrOf f) then ((f.drop 4).take 232) ++ ((f.drop 252).take 0) else (f.drop 4).take 248)).flatten
/-- The additional data of a group: its headers (R78). -/
def groupAad (g : List (List Byte)) : List Byte := (g.map (·.take 4)).flatten
/-- The frames of a group with their bodies replaced by a text, and the closing one given a tag. -/
def refill (tag : List Byte) : List (List Byte) → List Byte → List (List Byte)
  | [], _ => []
  | f :: rest, text =>
    if fhClose (hdrOf f) then [f.take 4 ++ padTo 232 text ++ padTo 16 tag]
    else (f.take 4 ++ padTo 248 (text.take 248)) :: refill tag rest (text.drop 248)

/-! ### Credits and scores that a control frame carries -/

/-- Frames of the replay buffer: 512 for four lanes, 1,024 for eight, 256 for a half-port (R71). -/
def replayCap (s : State) (p : Nat) : Nat :=
  match modeOf s p with
  | 0 => 512
  | 1 => 1024
  | _ => 256
/-- The last frame received in order and authenticated (Table 03-5). -/
def ackSeqOf (x : Port) : Nat := (x.rxSeq + 8192 - x.rxGroup.length - 1) % 4096
/-- Classes whose credits the module grants in a link state: VL0 and VL6 alone in the reduced service (R77). -/
def grantsVl (st : LinkState) (vl : Nat) : Bool :=
  match st with
  | .reduced | .trainF => vl == 0 || vl == 6
  | .up | .narrowed | .fenced => true
  | _ => false
/-- Neighbour modules: nodes bound to trunk ports (R522, R523). -/
def neighbours (s : State) : List Nat :=
  distinct ((s.ports.filter (fun e => portExists s e.1 && isTrunk s e.1)).filterMap (fun e => e.2.bound))
/-- The neighbour node of a port. -/
def peerOf (s : State) (p : Nat) : Nat := ((s.port p).bound).getD 0
/-- One gossip entry of the health block (Table 19-8). -/
def gossipEntry (s : State) (i : Nat) : List Byte :=
  match (neighbours s)[i]? with
  | some n => natBytes 4 (n + 2 ^ 16 * (s.nbr n).score)
  | none => natBytes 4 0
/-- The health block of a control frame on a port (Table 19-8). -/
def healthBlock (s : State) (p : Nat) : List Byte :=
  let n := (neighbours s).length
  let first := if n = 0 then 0 else mget 0 p s.rel.gossip % n
  natBytes 2 s.boot.node ++ natBytes 2 (if s.boot.depart != 0 then 0 else s.rel.modScore)
    ++ natBytes 1 (b2n (s.boot.depart != 0) + 2 * b2n s.rel.hold) ++ natBytes 1 (min n 255)
    ++ natBytes 2 (mget 0 p s.rel.linkScore) ++ natBytes 2 (s.nbr (peerOf s p)).score
    ++ natBytes 4 s.rel.gseq ++ natBytes 2 first
    ++ ((List.range 8).map (fun i => gossipEntry s (first + i))).flatten ++ natBytes 16 0
/-- A lane change as bytes 36-39 carry it (Table 03-5). -/
def laneWord (c : LaneChange) : Nat := c.mask % 65536 + 2 ^ 16 * (c.seq % 4096) + 2 ^ 28 * c.op
/-- The body of a control frame (Table 03-5). The table gives bytes 40-43 and 48-51 no form of their own: DESIGN CHOICE (log 13), each repeats the partner's last announcement word for word. -/
def controlBody (s : State) (p : Nat) : List Byte :=
  let x := s.port p
  let nak := x.nakDue.getD (0, 0)
  natBytes 2 (ackSeqOf x + 4096 * b2n x.nakDue.isSome) ++ natBytes 2 (nak.1 + 4096 * nak.2)
    ++ ((List.range 8).map (fun vl => natBytes 4 (if grantsVl x.st vl then mget 0 vl x.crGiven else 0))).flatten
    ++ natBytes 4 ((x.change.map laneWord).getD 0) ++ natBytes 4 ((x.partnerChange.map laneWord).getD 0)
    ++ natBytes 4 x.keyWord ++ natBytes 4 x.partnerKey
    ++ healthBlock s p ++ natBytes 132 0

/-! ### Sending frames -/

/-- A new transmit key of the hop for a count of updates (R80, R487). -/
def txKeyOf (x : Port) (u : Nat) : Nat := Config.linkKey x.th x.dir u
def rxKeyOf (x : Port) (u : Nat) : Nat := Config.linkKey x.th (1 - x.dir) u
/-- A frame is given whole to the next active lane of its port, in strict round robin by position (R60). -/
def emitFrame (p : Nat) (f : List Byte) (s : State) : State :=
  let x := s.port p
  let n := max 1 x.lanes.length
  put (.frame p (x.lanes.getD (x.nextLane % n) 0) f) (s.setPort p { x with nextLane := (x.nextLane + 1) % n })
/-- The open group is closed: encrypted under the link key with its counter, tagged, sent and kept for replay; the key changes at the SEQ announced (R71, R78, R80, R81). -/
def sealGroup (p : Nat) (s : State) : State :=
  let x := s.port p
  let text := groupText x.txGroup
  let frames := if x.keyed then
      let c := Config.gcmText x.txKey x.txCtr text
      refill (natBytes 16 (Config.gcmTag x.txKey x.txCtr (groupAad x.txGroup) c).toNat) x.txGroup c
    else refill (List.replicate 16 0) x.txGroup text
  let frames := frames.map withCrc
  let change := x.txUpdate == some x.txSeq
  let s := s.setPort p { x with
    txGroup := []
    txCtr := if change then 0 else x.txCtr + 1
    replay := x.replay ++ frames.map (fun f => ⟨fhSeq (hdrOf f), fhClose (hdrOf f), f⟩)
    txKey := if change then txKeyOf x (x.txU + 1) else x.txKey
    txOld := if change then some (x.txKey, (x.txSeq) % 4096) else x.txOld
    txU := if change then x.txU + 1 else x.txU
    txPhase := if change then !x.txPhase else x.txPhase
    keyAt := if change then now s else x.keyAt
    txUpdate := if change then none else x.txUpdate }
  frames.foldl (fun s f => emitFrame p f s) s
/-- A sequenced frame joins the open group, and closes it if it says so (R64, R78). -/
def addFrame (p type vl start used : Nat) (close : Bool) (body : List Byte) (s : State) : State :=
  let x := s.port p
  let f := natBytes 4 (frameHdr type vl x.txPhase close x.txSeq start used) ++ padTo 248 body
  let s := s.setPort p { x with
    txSeq := (x.txSeq + 1) % 4096
    txGroup := x.txGroup ++ [f]
    ackAt := if x.replay.isEmpty && x.txGroup.isEmpty then now s else x.ackAt
    sinceCtl := if type = ftData then x.sinceCtl + 1 else 0 }
  if close then sealGroup p s else s
/-- The replay buffer has room for so many frames more (R71). -/
def replayRoom (s : State) (p n : Nat) : Bool :=
  decide ((s.port p).replay.length + (s.port p).txGroup.length + n ≤ replayCap s p)
/-- A key update is announced for the module's direction, with the SEQ behind the next control frame as its first under the new phase (R80). -/
def announceKey (x : Port) : Port :=
  let q := (x.txSeq + 1) % 4096
  { x with txUpdate := some q, keyWord := b2n (!x.txPhase) + 2 * q }
/-- No update of the module's direction is under way (R80; log 13). -/
def keyIdle (x : Port) : Bool := x.keyed && x.txUpdate.isNone && x.txOld.isNone && x.keyWord == 0
/-- An update is due: 2^40 groups have nearly used the key, or it is 24 hours old (R80; log 13). -/
def keyDue (s : State) (p : Nat) : Bool :=
  let x := s.port p
  keyIdle x && (decide (2 ^ 40 ≤ x.txCtr + 4096) || passed s x.keyAt 86400000000000)
/-- A control frame is sent: acknowledgement, NAK, credits, lane change, key update and health block; it closes its group (R69, R70). It starts a key update that is due; with it goes the acknowledgement of the partner's first group under a new key, and the old receive key (R80). A full replay buffer makes it wait (R71). -/
def sendControl (p : Nat) (s : State) : State :=
  if !replayRoom s p 1 then s.modPort p (fun x => { x with ackDue := true })
  else
    let s := if keyDue s p then s.modPort p announceKey else s
    let body := controlBody s p
    let s := addFrame p ftControl 0 63 0 true body s
    let n := (neighbours s).length
    let s := s.modPort p (fun x => { x with
      sinceCtl := 0, ackDue := false, nakDue := none, rxKeyNext := if x.rxUpdate.isNone then none else x.rxKeyNext })
    { s with rel := { s.rel with gossip := mset 0 p (if n = 0 then 0 else (mget 0 p s.rel.gossip + 8) % n) s.rel.gossip } }
/-- Packet bytes of a VL leave in data frames: the first frame marks where the packet starts; the eighth frame of a group closes it, and a control frame follows every 64 data frames (R64, R65, R70, R78). -/
def sendBytes (p vl : Nat) : Nat → Bool → List Byte → State → State
  | 0, _, _, s => s
  | fuel + 1, first, bytes, s =>
    if bytes.isEmpty then s
    else
      let close := (s.port p).txGroup.length == 7
      let room := if close then 232 else 248
      let n := min room bytes.length
      let s := addFrame p ftData vl (if first then 0 else 63) (ceilDiv n 4) close (bytes.take n) s
      let s := if 64 ≤ (s.port p).sinceCtl then sendControl p s else s
      sendBytes p vl fuel false (bytes.drop n) s
/-- A packet's bytes: header, then payload. -/
def packetBytes (q : Packet) : List Byte := natBytes 32 q.hdr.toNat ++ q.payload
/-- A packet is transmitted on a port: its credits are spent and its bytes framed; an open group that has no more bytes is closed with a control frame (R70, R75). -/
def linkSend (p : Nat) (q : Packet) (s : State) : State :=
  let s := s.modPort p (fun x => { x with
    crSpent := mmod 0 q.tc (fun v => wrapAdd 32 v (pCells q)) x.crSpent })
  let bytes := packetBytes q
  let s := sendBytes p q.tc (bytes.length + 1) true bytes s
  if (s.port p).txGroup.isEmpty then s else sendControl p s
/-- Credits of the partner left on a VL (R75). -/
def creditsLeft (x : Port) (vl : Nat) : Nat := (mget 0 vl x.crGot + 2 ^ 32 - mget 0 vl x.crSpent) % 2 ^ 32
/-- Frames a packet may need in the replay buffer: its data frames, a control frame after the 64th, and the one that closes its group. -/
def framesFor (q : Packet) : Nat := ceilDiv (pBytes q) 232 + 2
/-- Frames of the replay buffer that packets leave free, so that acknowledgements can still go out when both ends have filled their buffers (DESIGN CHOICE, log 13). -/
def controlReserve : Nat := 16
/-- The partner's credits and the replay buffer hold a packet (R71, R75). -/
def linkRoom (s : State) (p : Nat) (q : Packet) : Bool :=
  decide (pCells q ≤ creditsLeft (s.port p) q.tc) && replayRoom s p (framesFor q + controlReserve)

/-! ### Link-local messages (R94, R541) -/

/-- An NBRMSG packet to the partner of a port (R541). -/
def nbrMsg (s : State) (p mtype chunk : Nat) (payload : List Byte) : Packet :=
  mkPkt 6 opNBRMSG 0 (ctxKgen s 0) s.tab.cur (peerOf s p) s.boot.node 0 0 (mtype + 16 * chunk) payload
/-- The oldest message that waits for its port goes out if credits and replay buffer hold it (R71, R75). -/
def sendNbrDue (p : Nat) (s : State) : State :=
  match (s.port p).nbrDue with
  | [] => s
  | (m, c, b) :: rest =>
    let q := nbrMsg s p m c b
    if linkRoom s p q then linkSend p q (s.modPort p (fun x => { x with nbrDue := rest })) else s
/-- A link-local message is sent on its port, or waits for credits and room in the replay buffer; a newer one of its kind takes the place of one that waits. -/
def sendNbr (p mtype chunk : Nat) (payload : List Byte) (s : State) : State :=
  let q := nbrMsg s p mtype chunk payload
  if (s.port p).nbrDue.isEmpty && linkRoom s p q then linkSend p q s
  else s.modPort p (fun x => { x with
    nbrDue := x.nbrDue.filter (fun d => !(d.1 == mtype && d.2.1 == chunk)) ++ [(mtype, chunk, payload)] })

end Sys2Proof.Machine
end

