-- ==== Sys2Proof/Machine/Gates.lean ====
section
/-!
DEFINITION. Egress queues: their configuration and counters, time gates, and the clocks that count how long a head waits for credits or for its gate (R99, R103, R123, R125-R128, R132).
-/
namespace Sys2Proof.Machine

/-! ### Queues (R99, R103, R123) -/

/-- The key of an egress queue. -/
def qkey (ep tc : Nat) : Nat := 8 * ep + tc
/-- Queue configuration entry (Table 04-9). -/
def qcfg (s : State) (k : Nat) : Nat := entry s 0x0003 k
/-- Depth of a queue in cells (R99). -/
def depth (q : EQueue) : Nat := q.pkts.foldl (fun a x => a + (if x.piped then 0 else pCells x.pkt)) 0
/-- The link table's next-cell pointer of a cell in a packet's chain; the last cell has none (R99). -/
def nextCell (c : Nat) (x : QPkt) : Option Nat := ((x.cells.zip x.cells.tail).find? (fun e => e.1 == c)).map (·.2)
/-- Head and tail pointers of a queue: the first cell of its first packet, the last of its last (R99). -/
def headCell (q : EQueue) : Option Nat := q.pkts.head?.bind (·.cells.head?)
def tailCell (q : EQueue) : Option Nat := q.pkts.getLast?.bind (·.cells.getLast?)
/-- A queue counter raised (Table 04-13). -/
def qcount (k row n : Nat) (s : State) : State :=
  s.modQueue k (fun q => { q with ctr := mmod 0 row (fun v => wrapAdd 64 v n) q.ctr })

/-! ### Time gates (R125-R128) -/

/-- The open set of a list's entries at a point of its cycle; behind the last entry every gate is open. -/
def openInCycle : List Nat → Nat → Nat
  | [], _ => 255
  | e :: rest, t => if t < fld e 8 32 then fld e 0 8 else openInCycle rest (t - fld e 8 32)
def gateEn (hdr : Nat) : Bool := bit hdr 103
def gateBase (hdr : Nat) : Nat := fld hdr 0 64
def gateCycle (hdr : Nat) : Nat := fld hdr 64 32
/-- The open set of a list at a module time (R125). -/
def listOpen (hdr : Nat) (ents : List Nat) (t : Nat) : Nat :=
  if !gateEn hdr || decide (t < gateBase hdr) || gateCycle hdr == 0 then 255
  else openInCycle ents ((t - gateBase hdr) % gateCycle hdr)
/-- Start of the first cycle of a list that begins after a flip (R128). -/
def firstCycle (hdr flip : Nat) : Nat :=
  if flip < gateBase hdr then gateBase hdr
  else gateBase hdr + ((flip - gateBase hdr) / max 1 (gateCycle hdr) + 1) * gateCycle hdr
/-- When a waiting list takes effect: at its first cycle, or, if it clears GATE_EN, at the end of the old list's cycle. -/
def switchAt (g : Gate) (hdr flip : Nat) : Nat := if gateEn hdr then firstCycle hdr flip else g.oldEnd
/-- The open set in force at a module time (R125, R128). -/
def openAt (g : Gate) (t : Nat) : Nat :=
  match g.next with
  | none => listOpen g.hdr g.ents t
  | some (h, e, flip) =>
    if switchAt g h flip ≤ t then listOpen h e t
    else if t < g.oldEnd then listOpen g.hdr g.ents t
    else 255
/-- Active lanes of a port, at least one. -/
def activeLanes (s : State) (p : Nat) : Nat := max 1 (s.port p).lanes.length
/-- Packet bytes a lane carries, in Gb/s: 50 while it is in the reduced service, else 200; in TRAIN_F the first half trains while the second is in the reduced service, and then carries at full rate (R68, R84). -/
def laneRate (x : Port) : Nat := if x.st == .reduced || (x.st == .trainF && x.half == 0) then 50 else 200
/-- Transmission time of a packet in whole ns, rounded up, at the port's present payload rate (R68, R126). -/
def txTime (s : State) (p : Nat) (q : Packet) : Nat := ceilDiv (pBytes q * 8) (laneRate (s.port p) * activeLanes s p)
/-- The class's gate stays open for the whole transmission (R126). -/
def gateAllows (s : State) (ep : Nat) (q : Packet) : Bool :=
  if 384 ≤ ep then true
  else (List.range (max 1 (txTime s ep q))).all (fun i => bit (openAt (s.gate ep) (now s + i)) q.tc)

/-! ### Waiting heads (R132) -/

/-- Time counted in a queue counter while a condition holds for its head. -/
def stallTime (k row : Nat) (since : Option Nat) (on : Bool) (s : State) : Option Nat × State :=
  match since with
  | some t => if on then (some t, s) else (none, qcount k row (now s - t) s)
  | none => (if on then some (now s) else none, s)
/-- A packet at the head of a port's queue has too few of the partner's credits. -/
def starved (s : State) (ep : Nat) (q : Packet) : Bool := decide (ep < 384) && decide (creditsLeft (s.port ep) q.tc < pCells q)
/-- A queue's STALL_NS and GATE_NS clocks as its head now stands; both stop when it is empty. -/
def clockQueue (ep tc : Nat) (s : State) : State :=
  let k := qkey ep tc
  let q := s.queue k
  let on (f : Packet → Bool) : Bool := q.pkts.head?.any (fun x => f x.pkt)
  let a := stallTime k 9 q.stallSince (on (starved s ep)) s
  let b := stallTime k 10 q.gateSince (on (fun p => !gateAllows s ep p)) a.2
  b.2.modQueue k (fun q => { q with stallSince := a.1, gateSince := b.1 })
/-- The clocks of every queue of an endpoint. -/
def clockAll (ep : Nat) (s : State) : State := (List.range 8).foldl (fun s tc => clockQueue ep tc s) s
/-- A queue counter as it reads: a wait that still runs counts up to now (Table 04-13). -/
def qctr (s : State) (k row : Nat) : Nat :=
  let q := s.queue k
  let since := if row = 9 then q.stallSince else if row = 10 then q.gateSince else none
  wrapAdd 64 (mget 0 row q.ctr) ((since.map (now s - ·)).getD 0)
/-- The age of a packet by bits [31:0] of the times (R133). -/
def ageOf (s : State) (x : QPkt) : Nat := (now s + 2 ^ 32 - x.takeAt) % 2 ^ 32

end Sys2Proof.Machine
end

