-- ==== Sys2Proof/Machine/CodecBlocks.lean ====
section
/-!
DEFINITION. Compressed blocks: header, plane and exponent stream, canonical codes, decoding and encoding (R353-R356, R362, R363).
-/
namespace Sys2Proof.Machine

/-! ### Header (Table 12-1) -/

def bhFmt (h : Nat) : Nat := fld h 0 4
def bhRaw (h : Nat) : Bool := bit h 4
def bhClen (h : Nat) : Nat := fld h 8 7
def bhTid (h : Nat) : Nat := fld h 16 12
def bhGen (h : Nat) : Nat := fld h 28 4
def bhRlen (h : Nat) : Nat := fld h 32 7
def bhCrc (h : Nat) : Nat := fld h 64 32
def blockHeader (fmt clen rlen crc tid gen : Nat) (raw : Bool) : Nat :=
  fmt + 2 ^ 4 * b2n raw + 2 ^ 8 * clen + 2 ^ 16 * tid + 2 ^ 28 * gen + 2 ^ 32 * rlen + 2 ^ 64 * crc
/-- Row 1 of Table 12-4. -/
def headerOk (h : Nat) : Bool :=
  (bhFmt h == 2 || bhFmt h == 3) && fld h 5 3 == 0 && fld h 15 1 == 0 && fld h 39 25 == 0 && fld h 96 32 == 0
    && decide (1 ≤ bhRlen h ∧ bhRlen h ≤ 64) && decide (1 ≤ bhClen h ∧ bhClen h ≤ 65) && (!bhRaw h || bhClen h == bhRlen h + 1)

/-! ### Codes (R356) -/

/-- Values of one length in rising order with their codes, and the code that follows. -/
def codesOfLen (len : Nat) (lens : List Nat) (code : Nat) : List (Nat × Nat × Nat) × Nat :=
  let l := (List.range lens.length).filter (fun v => lens.getD v 0 == len)
  (l.mapIdx (fun i v => (v, len, code + i)), code + l.length)
/-- Value, length and code of every value that has one. -/
def canonical (lens : List Nat) : List (Nat × Nat × Nat) :=
  ((List.range 12).foldl (fun (a : List (Nat × Nat × Nat) × Nat) i =>
    let r := codesOfLen (i + 1) lens a.2
    (a.1 ++ r.1, 2 * r.2)) ([], 0)).1

/-! ### Bits of a byte string -/

/-- Bits from bit 0 of each byte upward. -/
def bytesBits (l : List Byte) : List Bool := l.flatMap (fun b => (List.range 8).map (fun i => bit b.toNat i))
/-- The number of a little-endian bit string. -/
def bitsNat (l : List Bool) : Nat := l.foldr (fun b a => b2n b + 2 * a) 0
/-- A number's low bits, bit 0 first. -/
def natBits (n v : Nat) : List Bool := (List.range n).map (fun i => bit v i)
/-- Bits packed into bytes, the last filled with zeros. -/
def packBits (l : List Bool) : List Byte := natBytes (ceilDiv l.length 8) (bitsNat l)

/-! ### Elements -/

/-- Mantissa bits of a format: 7 of BF16, 10 of FP16. -/
def codedMant (fmt : Nat) : Nat := if fmt = 2 then 7 else 10
/-- Exponent of an element, and its sign and mantissa as the plane holds them. -/
def elExp (fmt v : Nat) : Nat := fld v (codedMant fmt) (15 - codedMant fmt)
def elPlane (fmt v : Nat) : Nat := fld v 0 (codedMant fmt) + 2 ^ codedMant fmt * fld v 15 1
def elJoin (fmt exp plane : Nat) : Nat :=
  fld plane 0 (codedMant fmt) + 2 ^ codedMant fmt * exp + 2 ^ 15 * fld plane (codedMant fmt) 1
/-- Bytes of the plane of RLEN units. -/
def planeBytes (fmt rlen : Nat) : Nat := if fmt = 2 then 32 * rlen else 44 * rlen
/-- 16-bit elements of raw bytes. -/
def elements (raw : List Byte) : List Nat := (List.range (raw.length / 2)).map (fun i => byteAt raw (2 * i) 2)

/-! ### Decoding (R363, Table 12-4) -/

/-- One code from the front of a bit string: its value and the rest. -/
def takeCode (codes : List (Nat × Nat × Nat)) : Nat → Nat → Nat → List Bool → Option (Nat × List Bool)
  | 0, _, _, _ => none
  | _ + 1, _, _, [] => none
  | f + 1, len, code, b :: bs =>
    match codes.find? (fun (c : Nat × Nat × Nat) => c.2.1 == len + 1 && c.2.2 == 2 * code + b2n b) with
    | some c => some (c.1, bs)
    | none => takeCode codes f (len + 1) (2 * code + b2n b) bs
/-- Codes of n elements. -/
def takeCodes (codes : List (Nat × Nat × Nat)) : Nat → List Bool → Option (List Nat × List Bool)
  | 0, bs => some ([], bs)
  | n + 1, bs =>
    match takeCode codes 12 0 0 bs with
    | none => none
    | some (v, bs) => (takeCodes codes n bs).map (fun r => (v :: r.1, r.2))
/-- A decoded block: status and raw bytes. `lens` is the table that its TID and GEN named at the take, none for none. -/
def decodeBlock (lens : Option (List Nat)) (data : List Byte) : Nat × List Byte :=
  let h := byteAt data 0 16
  let n := 64 * bhClen h
  let raw := bhRlen h * 64
  if !headerOk h then (stViolation, [])
  else if bhRaw h then
    let out := (data.drop 16).take raw
    if data.length < n then (stOverrun, [])
    else if ((data.take n).drop (16 + raw)).any (· != 0) then (stTrailing, [])
    else if crc32 out ≠ bhCrc h then (stPoison, [])
    else (stOK, out)
  else match lens with
    | none => (stTableRetired, [])
    | some lens =>
      let body := (data.take n).drop 16
      let pb := planeBytes (bhFmt h) (bhRlen h)
      if body.length < pb ∨ data.length < n then (stOverrun, [])
      else match takeCodes (canonical lens) (32 * bhRlen h) (bytesBits (body.drop pb)) with
        | none => (stOverrun, [])
        | some (exps, rest) =>
          if ((body.drop (body.length - rest.length / 8))).any (· != 0) then (stTrailing, [])
          else
            let w := codedMant (bhFmt h) + 1
            let plane := bytesBits (body.take pb)
            let out := (exps.mapIdx (fun i e => natBytes 2 (elJoin (bhFmt h) e (bitsNat ((plane.drop (w * i)).take w))))).flatten
            if crc32 out ≠ bhCrc h then (stPoison, []) else (stOK, out)

/-! ### Encoding (R362) -/

/-- The RAW form of a block. -/
def rawBlock (fmt : Nat) (raw : List Byte) : List Byte :=
  let rlen := raw.length / 64
  padTo (64 * (rlen + 1)) (natBytes 16 (blockHeader fmt (rlen + 1) rlen (crc32 raw) 0 0 true) ++ raw)
/-- Codes of exponents, most significant bit first; none where a value has no code. -/
def codeBits (codes : List (Nat × Nat × Nat)) (exps : List Nat) : Option (List Bool) :=
  exps.foldr (fun e a =>
    match a, codes.find? (fun (c : Nat × Nat × Nat) => c.1 == e) with
    | some bs, some c => some ((natBits c.2.1 c.2.2).reverse ++ bs)
    | _, _ => none) (some [])
/-- A block of raw bytes coded with a table, or RAW where a value has no code or the coded form is not shorter than RLEN + 1 lines. -/
def encodeBlock (fmt tid gen : Nat) (lens : List Nat) (raw : List Byte) : List Byte :=
  let els := elements raw
  match codeBits (canonical lens) (els.map (elExp fmt)) with
  | none => rawBlock fmt raw
  | some bs =>
    let plane := packBits (els.flatMap (fun v => natBits (codedMant fmt + 1) (elPlane fmt v)))
    let body := plane ++ packBits bs
    let rlen := raw.length / 64
    let clen := ceilDiv (16 + body.length) 64
    if clen < rlen + 1 then padTo (64 * clen) (natBytes 16 (blockHeader fmt clen rlen (crc32 raw) tid gen false) ++ body)
    else rawBlock fmt raw

/-! ### Building a table (R356) -/

/-- A coin: its weight, and the exponent values it stands for. -/
def insertCoin (x : Nat × List Nat) : List (Nat × List Nat) → List (Nat × List Nat)
  | [] => [x]
  | y :: t => if y.1 ≤ x.1 then y :: insertCoin x t else x :: y :: t
/-- Coins two by two. -/
def pairCoins : List (Nat × List Nat) → List (Nat × List Nat)
  | a :: b :: t => (a.1 + b.1, a.2 ++ b.2) :: pairCoins t
  | _ => []
/-- Shortest code lengths of at most 12 for a histogram of two or more values: a value's length is the number of its coins among the first 2n - 2. -/
def packageMerge (hist : List Nat) : List Nat :=
  let coins := ((List.range hist.length).filter (fun v => hist.getD v 0 != 0)).foldl (fun l v => insertCoin (hist.getD v 0, [v]) l) []
  let last := (List.range 11).foldl (fun l _ => (pairCoins l).foldl (fun a x => insertCoin x a) coins) coins
  let taken := (last.take (2 * coins.length - 2)).flatMap (·.2)
  (List.range hist.length).map (fun v => (taken.filter (· == v)).length)
/-- Coded bits of a histogram under a set of lengths. -/
def codedBits (hist lens : List Nat) : Nat := ((hist.zip lens).map (fun (x : Nat × Nat) => x.1 * x.2)).sum
/-- A set of lengths is a complete code of at most 12 bits for the values that occur, and for no others. -/
def completeCode (hist lens : List Nat) : Bool :=
  lens.length == hist.length && (hist.zip lens).all (fun (x : Nat × Nat) => if x.1 = 0 then x.2 == 0 else inRange 1 12 x.2)
    && (lens.map (fun l => if l = 0 then 0 else 2 ^ (12 - l))).sum == 4096
/-- Code lengths of a histogram: one bit for a single value; of several equally short sets the choice is open (log 8). -/
def buildLens (hist : List Nat) : List Nat :=
  if (hist.filter (· != 0)).length ≤ 1 then hist.map (fun n => if n = 0 then 0 else 1)
  else
    let best := packageMerge hist
    let l := Config.codeLengths hist
    if completeCode hist l && codedBits hist l == codedBits hist best then l else best
/-- Histogram of the exponents of raw bytes: 256 values of BF16, 32 of FP16. -/
def expHist (fmt : Nat) (raw : List Byte) : List Nat :=
  (elements raw).foldl (fun h v => h.set (elExp fmt v) (h.getD (elExp fmt v) 0 + 1)) (List.replicate (if fmt = 2 then 256 else 32) 0)

/-! ### Slots by TID and GEN (R357-R359) -/

/-- The slot that a block's TID and GEN name and that is not RETIRING: none fails with TABLE_RETIRED. -/
def slotNamed (s : State) (h : Nat) : Option Nat :=
  (mkeys s.cod.slots).find? (fun n => let v := tslot s n
    (tsState v == 1 || tsState v == 2) && tsTid v == bhTid h && tsGen v == bhGen h)
/-- The CURRENT slot of a TID. -/
def currentSlot (s : State) (tid : Nat) : Option Nat :=
  (mkeys s.cod.slots).find? (fun n => tsState (tslot s n) == 1 && tsTid (tslot s n) == tid)
def lensOf (s : State) (n : Nat) : List Nat := mget [] n s.cod.lens

end Sys2Proof.Machine
end

