-- ==== Sys2Proof/Machine/StreamBlocks.lean ====
section
/-!
DEFINITION. Shared operations of stream responses: their tags, at-rest decryption, the block whose header one carries, and the slot it is counted on where it is taken (R16, R25, R331, R359).
-/
namespace Sys2Proof.Machine

/-- Tag of a fetcher's request (R331). -/
def fetchTag (k seq : Nat) (bstart : Bool) : Nat := 524288 + 32768 * (k / 16) + 2 ^ 14 + 2 ^ 10 * (k % 16) + 2 ^ 9 * b2n bstart + seq % 512
def tagSeq (tag : Nat) : Nat := tag % 512
def tagBstart (tag : Nat) : Bool := bit tag 9
/-- Key of a block. -/
def blkKey (ent bidx : Nat) : Nat := 2 ^ 20 * ent + bidx
/-- The stream whose alias a node is. -/
def streamOf (s : State) (node : Nat) : Option Nat :=
  (s.svc.streams.find? (fun e => e.2.used && e.2.alias_ == node)).map (·.1)

/-! ### At-rest encryption (R151) -/

/-- The tweak of a unit (R151). -/
def xtsTweak (node unit16 : Nat) : BitVec 128 := BitVec.ofNat 128 (unit16 % 2 ^ 44 + 2 ^ 44 * node)
/-- Bytes of lines from a line address, encrypted or decrypted 16 B at a time; units whose mask is clear are left (R151). -/
def xtsLines (enc : Bool) (key node laddr : Nat) (skip : Nat → Bool) (data : List Byte) : List Byte :=
  ((chunksOf 16 (data.length / 16) data).mapIdx (fun i u =>
    if skip i then u else Config.xts enc key (xtsTweak node (4 * laddr + i)) u)).flatten
/-- The key of a slot. -/
def slotKey (s : State) (slot : Nat) : Nat := mget 0 slot s.sec.keys
/-- Bytes of a stream's response as they were before at-rest encryption (R25, R334). -/
def plainLines (s : State) (x : WStream) (ent : Nat) (p : Packet) : List Byte :=
  let v := extent s (mget {} ent x.ents).ext
  if exXts v then xtsLines false (slotKey s (exKeyslot v)) (exNode v) (pLaddr p) (fun _ => false) p.payload else p.payload

/-! ### Counting (R359) -/

/-- Table slot, plus one, that the block whose header begins these bytes names. -/
def countedOn (s : State) (x : WStream) (comp : Bool) (d : List Byte) : Nat :=
  let h := byteAt d 0 16
  if x.decode && comp && !bhRaw h then ((slotNamed s h).map (· + 1)).getD 0 else 0
/-- Slot, plus one, on which a leg that decodes counts a packet as it is taken into the buffer of its die. -/
def slotAtTake (s : State) (ep : Nat) (p : Packet) (blk : Option (Nat × Nat × Nat)) : Nat :=
  match blk, streamOf s (pDst p) with
  | some (ent, _, _), some k =>
    let x := s.stream k
    if ep < 384 ∧ pStatus p = stOK ∧ tagBstart (pTag p) then countedOn s x (mget {} ent x.ents).comp (plainLines s x ent p) else 0
  | _, _ => 0

end Sys2Proof.Machine
end

