-- ==== Sys2Proof/Machine/SwitchOps.lean ====
section
/-!
DEFINITION. Shared operations of the switch core: endpoints, the shared buffer and its pools, policers, random early drop, admission, parking and stalling, and the answers a lookup makes (R95-R134, R611).
-/
namespace Sys2Proof.Machine

/-! ### Endpoints and the pool -/

/-- The core die that serves an endpoint (R10, R402). -/
def coreOfEp (ep : Nat) : Nat :=
  if ep < 384 then coreOf ep
  else if ep < 416 then ep - 400
  else if ep < 448 then (ep - 416) / 16
  else if ep < 456 then (ep - 448) / 4
  else if ep < 460 then (ep - 456) / 2
  else if ep < 462 then ep - 460
  else if ep < 464 then ep - 462
  else if ep < 466 then ep - 464
  else (ep - 466) / 2
/-- The core die where a packet that came by an endpoint stands: a core link's packets stand on its far die (R108). -/
def ingDie (ep : Nat) : Nat := if ep = 464 then 1 else if ep = 465 then 0 else coreOfEp ep
/-- Internal sources that need no headroom and stall instead of parking (R109): all but fabric ports, host channels and core links. The rule does not list codec ports, and Table 04-5 gives them no headroom: DESIGN CHOICE (log 14), their sends stall as well. -/
def stalls (ep : Nat) : Bool := decide (416 ≤ ep ∧ ep < 464) || decide (466 ≤ ep)
/-- The core link leaving a core die. -/
def coreLink (die : Nat) : Nat := 464 + die
def isCoreLink (ep : Nat) : Bool := ep == 464 || ep == 465
/-- A packet enters the fabric at this endpoint: an edge port, or an internal source (R24). -/
def isEdge (s : State) (ep : Nat) : Bool := if ep < 384 then !isTrunk s ep else !isCoreLink ep
/-- The die whose policers meter an endpoint: port dies 0-3, core dies 4 and 5 (R115, R402). -/
def policeDie (ep : Nat) : Nat := if ep < 384 then dieOf ep else 4 + coreOfEp ep
/-- Droppable classes (R110). -/
def droppable (tc : Nat) : Bool := tc == 5 || tc == 7
/-- An endpoint that counts as down: only a port can (R83). -/
def epDown (s : State) (ep : Nat) : Bool := decide (ep < 384) && portDown s ep

/-- Headroom cells of a port position for a class: units of 16 cells (Table 04-4), less what R102 took. -/
def headroomOf (s : State) (pos tc : Nat) : Nat :=
  let v := entry s 0x0002 pos
  let cut := if tc = 0 ∨ tc = 2 ∨ tc = 3 then (s.buf (pos / 96)).hrCut else 0
  let n := match tc with
    | 0 => fld v 0 10
    | 1 => fld v 10 10
    | 2 => fld v 20 10
    | 3 => fld v 30 10
    | 4 => fld v 40 10
    | 6 => fld v 50 10
    | _ => 0
  16 * n - cut
/-- Headroom of a port: a half-port has half of its position's, an 8-lane port the sum of its pair's (R113); 32 credits for TC5 and TC7 (R76). -/
def portHeadroom (s : State) (p tc : Nat) : Nat :=
  if droppable tc then 32
  else match modeOf s p with
    | 0 => headroomOf s (fpOf p) tc
    | 1 => headroomOf s (fpOf p) tc + headroomOf s (fpOf p + 1) tc
    | _ => headroomOf s (fpOf p) tc / 2
/-- Core-link and host-channel headroom of a class (Table 04-3). -/
def fixedHeadroom (ep tc : Nat) : Nat :=
  if isCoreLink ep then (if tc = 0 ∨ tc = 2 ∨ tc = 3 then 8192 else 1024)
  else (if tc = 0 ∨ tc = 2 ∨ tc = 3 then 512 else 128)
/-- Fabric-port headroom of a core die, all positions (Table 04-5). -/
def fabricHeadroom (s : State) (die : Nat) : Nat :=
  (List.range 96).foldl (fun a i => a + ([0, 1, 2, 3, 4, 6].foldl (fun b tc => b + headroomOf s (96 * die + i) tc) 0)) 0
/-- Shared pool of a core die: the active cells less every reservation (R102, Table 04-5). -/
def poolSize (s : State) (die : Nat) : Nat :=
  (48 - (s.buf die).bankRetired.length) * 32768 - fabricHeadroom s die - 6144 - 29696 - 2176 - (s.buf die).resSize
/-- Free cells of the shared pool. -/
def poolFree (s : State) (die : Nat) : Nat := poolSize s die - (s.buf die).used
/-- The dynamic threshold: depth below alpha times the free cells (R104, Table 04-2). -/
def belowThreshold (s : State) (die k : Nat) : Bool :=
  decide (depth (s.queue k) * 64 < 2 ^ fld (qcfg s k) 0 4 * poolFree s die)

/-! ### Cells (R17, R99, R100) -/

/-- The lowest clear bit of a word. -/
def lowestClear (w : Nat) : Nat := Nat.log2 ((w + 1) ^^^ w)
/-- The free cell of a bank that is given out next: which of several is not said, the lowest is taken (DESIGN CHOICE, log 14). -/
def freeCell (b : BufDie) (bank : Nat) : Nat := lowestClear (mget 0 bank b.inUse)
/-- The next bank of a rotation that gives cells and has a free one (R100, R508). -/
def nextBank (b : BufDie) (from_ : Nat) : Option Nat :=
  ((List.range 48).map (fun i => (from_ + i) % 48)).find?
    (fun k => !mhas k b.bankStop && !b.bankRetired.contains k && decide (freeCell b k < 32768))
/-- Cells for a packet of a queue, in the rotation of that queue: their 22-bit indices, [21:15] the logical bank and [14:0] the cell in it (R17, R100). -/
def allocCells (die k : Nat) : Nat → State → List Nat × State
  | 0, s => ([], s)
  | n + 1, s =>
    match nextBank (s.buf die) (s.queue k).bankNext with
    | none => ([], s)
    | some bank =>
      let c := freeCell (s.buf die) bank
      let s := s.modBuf die (fun b => { b with inUse := mmod 0 bank (fun w => setFld w c 1 1) b.inUse })
      let s := s.modQueue k (fun q => { q with bankNext := (bank + 1) % 48 })
      let r := allocCells die k n s
      ((32768 * (48 * die + bank) + c) :: r.1, r.2)
/-- Cells given back. -/
def clearCells (cells : List Nat) (s : State) : State :=
  cells.foldl (fun s c =>
    s.modBuf (c / 32768 / 48) (fun b => { b with inUse := mmod 0 (c / 32768 % 48) (fun w => setFld w (c % 32768) 1 0) b.inUse })) s
/-- The queue whose rotation a packet's cells follow: the first it is linked into. -/
def firstQueue (tc : Nat) (queues : List (Nat × Nat)) : Nat := qkey (queues.headD (0, 0)).1 tc

/-! ### Policers (R115-R117) -/

/-- The policer of a context and class at an endpoint, none for index 0xFFF or an entry that is not enabled. -/
def policerOf (s : State) (ep ctx tc : Nat) : Option Nat :=
  if !isEdge s ep then none
  else
    let d := policeDie ep
    let i := fld (entry s 0x0005 (8192 * d + 8 * ctx + tc)) 0 12
    if i = 0xFFF then none else if bit (entry s 0x0004 (4096 * d + i)) 80 then some (4096 * d + i) else none
/-- Buckets of a policer filled up to now: tokens in 1/8000 byte, CIR and PIR in Mb/s, bursts in 64 B (R116, Table 04-7). -/
def filled (s : State) (k : Nat) : Buckets :=
  let v := entry s 0x0004 k
  let b := s.bucket k
  let dt := now s - b.at_
  { c := min (b.c + fld v 0 20 * dt) (fld v 40 20 * 512000)
    p := min (b.p + fld v 20 20 * dt) (fld v 60 20 * 512000)
    at_ := now s }
/-- The colour of a packet at a take, 0 green, 1 yellow, 2 red, with its tokens taken (R116). -/
def police (ep : Nat) (p : Packet) (s : State) : Nat × State :=
  match policerOf s ep (pCtx p) p.tc with
  | none => (0, s)
  | some k =>
    let b := filled s k
    let n := 8000 * pBytes p
    if b.p < n then (2, s.setBucket k b)
    else if b.c < n then (1, s.setBucket k { b with p := b.p - n })
    else (0, s.setBucket k { b with p := b.p - n, c := b.c - n })

/-! ### Random early drop (R119, R120) -/

/-- A droppable queue's average takes the depth, and the packet may be drawn for dropping: never below MIN, always from MAX on, and between them with probability PMAX (avg - MIN) / (MAX - MIN), the draw a free value (R119; log 8). -/
def redTest (die k colour : Nat) (s : State) : Bool × State :=
  let q := s.queue k
  let avg := (q.avg * 15 + depth q * 65536) / 16
  let s := s.setQueue k { q with avg := avg }
  let v := entry s 0x0006 (16 * die + fld (qcfg s k) 4 4)
  let lo := 64 * 65536 * fld v (if colour = 0 then 0 else 28) 14
  let hi := 64 * 65536 * fld v (if colour = 0 then 14 else 42) 14
  let pmax := fld v (if colour = 0 then 56 else 60) 4 + 1
  if hi = 0 then (false, s)
  else if avg ≤ lo then (false, s)
  else if hi ≤ avg then (true, s)
  else
    let d := draw s
    (decide (d.1 % (16 * (hi - lo)) < pmax * (avg - lo)), d.2)

/-! ### Linking into a queue (R103, R122, R132) -/

/-- Unit of tags and virtual times: the least common multiple of the weights 1 to 255, so that every quotient of R122 is exact. -/
def tagUnit : Nat :=
  8337245403447921335829504375888192675135162254454825924977726845769444687965016467695833282339504042669808000
/-- The tags of a packet that becomes head of its queue (R122), in 1/tagUnit. -/
def tagHead (ep k : Nat) (s : State) : State :=
  s.modQueue k (fun q => match q.pkts with
    | [] => { q with tag := none, woke := true }
    | h :: _ =>
      let start := if q.woke then max (mget 0 ep s.sw.vtime) q.lastFin else q.lastFin
      { q with woke := false, tag := some (start, start + pBytes h.pkt * 256 * (tagUnit / max 1 (fld (qcfg s k) 8 8))) })
/-- A packet linked into a queue (R105, R132, R133). -/
def enqueue (ep : Nat) (x : QPkt) (s : State) : State :=
  let k := qkey ep x.pkt.tc
  let empty := (s.queue k).pkts.isEmpty
  let s := s.modQueue k (fun q =>
    let q := { q with pkts := q.pkts ++ [x] }
    { q with ctr := mmod 0 12 (fun v => max v (depth q)) q.ctr })
  let s := qcount k 1 (pBytes x.pkt) (qcount k 0 1 s)
  if empty then clockQueue ep x.pkt.tc (tagHead ep k s) else s
/-- The least free cells since they were last read (POOL_MIN, RESERVE_MIN). -/
def notePool (die : Nat) (s : State) : State :=
  s.modBuf die (fun b => { b with
    poolMin := some (min (b.poolMin.getD (poolFree s die)) (poolFree s die))
    resMin := some (min (b.resMin.getD (b.resSize - b.resUsed)) (b.resSize - b.resUsed)) })
/-- Cells of the shared pool, or of the collective reserve, taken (R105, R109). -/
def takeCells (die n : Nat) (reserve : Bool) (s : State) : State :=
  notePool die (s.modBuf die (fun b => if reserve then { b with resUsed := b.resUsed + n } else { b with used := b.used + n }))
/-- Cells given back. -/
def freeCells (die n : Nat) (reserve : Bool) (s : State) : State :=
  s.modBuf die (fun b => if reserve then { b with resUsed := b.resUsed - n } else { b with used := b.used - n })
/-- A leg of a packet is done with its cells: they are freed with the last leg of the copy (R101). -/
def releaseLeg (die : Nat) (x : QPkt) (s : State) : State :=
  let n := pCells x.pkt
  if x.piped then s
  else match mfind? x.copy s.sw.copies with
  | none => clearCells x.cells (freeCells die n x.reserve s)
  | some (legs, cells, d) =>
    if legs ≤ 1 then
      clearCells x.cells (freeCells d cells x.reserve { s with sw := { s.sw with copies := mdel x.copy s.sw.copies } })
    else { s with sw := { s.sw with copies := mput x.copy (legs - 1, cells, d) s.sw.copies } }

/-! ### Headroom and credits (R76, R105, R131) -/

/-- Credits of a taken packet return to a partner, unless its receive FIFO withholds them or its port is down; a reduced headroom first keeps back what it lost (R43, R76, R112, R131). -/
def returnCredit (p tc n : Nat) (s : State) : State :=
  s.modPort p (fun x =>
    if countsDown x.st then x
    else
      let kept := min n (mget 0 tc x.crDebt)
      let x : Port := { x with crDebt := mmod 0 tc (· - kept) x.crDebt }
      if x.withhold then { x with crHeld := mmod 0 tc (· + (n - kept)) x.crHeld }
      else { x with crGiven := mmod 0 tc (fun v => wrapAdd 32 v (n - kept)) x.crGiven, ackDue := true })
/-- A packet leaves the headroom it was written into (R105). -/
def leaveHeadroom (ing tc n : Nat) (s : State) : State :=
  let s := { s with sw := { s.sw with hrUsed := mmod 0 (qkey ing tc) (· - n) s.sw.hrUsed } }
  if ing < 384 then returnCredit ing tc n s else s

/-! ### Lookup counters and violations -/

/-- A counter of R318 raised on a core die: 0 GRP_DROP, 1 LEG_PRUNED, 2 SPRAY_OFF, 3 SPRAY_CTX, 4 SPRAY_STALE, 5 SP_BAD. -/
def lookupCount (die row : Nat) (s : State) : State :=
  s.modBuf die (fun b => { b with lookup := mmod 0 row (fun v => wrapAdd 64 v 1) b.lookup })
/-- Fence thresholds of the rows of Table 03-10, in table order. -/
def fenceThreshold (row : Nat) : Option Nat :=
  match row with
  | 0 => some 16
  | 1 => some 8
  | 2 => some 4
  | 3 => some 16
  | 4 => some 64
  | 5 => some 4096
  | _ => none
/-- A violation counted on its port, with its time kept for the 1 ms window (R92, R93); internal sources have no such counter. -/
def violate (ep row : Nat) (s : State) : State :=
  if ep < 384 then
    s.modPort ep (fun x => { x with
      viol := mmod 0 row (fun v => satAdd 32 v 1) x.viol
      violAt := mset [] row ((mget [] row x.violAt).filter (fun t => decide (now s < t + 1000000)) ++ [now s]) x.violAt })
  else s

/-! ### Taking, parking and stalling -/

/-- A packet that a lookup has settled, before admission. -/
def mkParked (s : State) (ing head : Nat) (p : Packet) (legs : List (Nat × Nat)) : Parked :=
  { pkt := p, legs := legs, wroteAt := now s, src := ing, head := head }
/-- The colour a packet has, or that its policer gives it (R116). -/
def colourOf (ing : Nat) (k : Parked) (s : State) : Nat × State :=
  match k.colour with
  | some c => (c, s)
  | none => police ing k.pkt s
/-- Legs whose endpoint is on a die. -/
def legsOn (die : Nat) (legs : List (Nat × Nat)) : List (Nat × Nat) := legs.filter (fun l => coreOfEp l.1 == die)
/-- Legs whose endpoint is on the other die. -/
def legsOff (die : Nat) (legs : List (Nat × Nat)) : List (Nat × Nat) := legs.filter (fun l => coreOfEp l.1 != die)
/-- The queues a packet enters on a die: its local legs, and the core link once for every leg on the other die (R16, R105, R108). -/
def localLegs (die : Nat) (legs : List (Nat × Nat)) : List (Nat × Nat) :=
  legsOn die legs ++ (if (legsOff die legs).isEmpty then [] else [(coreLink die, 0)])
/-- A packet's cells move to the pool and it is linked into the queues given (R101, R105). -/
def linkInto (die : Nat) (k : Parked) (colour : Nat) (reserve : Bool) (queues : List (Nat × Nat)) (s : State) : State :=
  let n := pCells k.pkt
  let r := if k.cells.isEmpty then allocCells die (firstQueue k.pkt.tc queues) n s else (k.cells, s)
  let s := takeCells die n reserve r.2
  let copy := if queues.length ≤ 1 then 0 else s.sw.nextCopy
  let s := if copy = 0 then s
    else { s with sw := { s.sw with nextCopy := copy + 1, copies := mput copy (queues.length, n, die) s.sw.copies } }
  queues.foldl (fun s l => enqueue l.1
    { pkt := k.pkt, src := k.src, takeAt := now s % 2 ^ 32, wroteAt := k.wroteAt, colour := colour, copy := copy, leg := l.2,
      reserve := reserve, cells := r.1, far := if isCoreLink l.1 then legsOff die k.legs else []
      blk := k.blk, slot := slotAtTake s l.1 k.pkt k.blk } s) s
/-- Legs toward endpoints that are down send no copy and count in LEG_PRUNED (R130, R295). -/
def pruneLegs (die : Nat) (legs : List (Nat × Nat)) (s : State) : List (Nat × Nat) × State :=
  let live := legs.filter (fun l => !epDown s l.1)
  (live, (List.range (legs.length - live.length)).foldl (fun s _ => lookupCount die 1 s) s)
/-- The legs a packet still has: a packet of no group whose one endpoint is down is answered or discarded, a group's legs are pruned (R129 step 2, R130, R295). -/
def liveLegs (onDown : Nat → Packet → State → State) (die : Nat) (k : Parked) (s : State) : List (Nat × Nat) × State :=
  match k.legs with
  | [(ep, 0)] => if epDown s ep then ([], onDown k.src k.pkt s) else (k.legs, s)
  | _ => pruneLegs die k.legs s
/-- A lossless packet, or an internal send, is taken if it may be: false where it must wait (R105, R107, R109, R117). -/
def tryTake (onDown : Nat → Packet → State → State) (die ing : Nat) (k : Parked) (s : State) : Bool × State :=
  let n := pCells k.pkt
  let pr := liveLegs onDown die k s
  let queues := localLegs die pr.1
  if queues.isEmpty then (true, clearCells k.cells pr.2)
  else
    let fits := queues.all (fun l => belowThreshold s die (qkey l.1 k.pkt.tc)) && decide (n ≤ poolFree s die)
    let reserve := !fits && stalls ing && (k.pkt.tc == 2 || k.pkt.tc == 3) && decide (416 ≤ ing ∧ ing < 456)
      && decide ((s.buf die).resUsed + n ≤ (s.buf die).resSize)
    if fits || reserve then
      let c := colourOf ing k pr.2
      if c.1 = 2 && !droppable k.pkt.tc then (false, c.2)
      else (true, linkInto die { k with legs := pr.1 } c.1 reserve queues c.2)
    else (false, s)
/-- Legs of a packet that queues on a die, given or refused, stand for: the core link's queue stands for every leg on the other die. -/
def keptLegs (die : Nat) (queues legs : List (Nat × Nat)) : List (Nat × Nat) :=
  legs.filter (fun l => if coreOfEp l.1 = die then queues.contains l else queues.any (fun q => q.1 == coreLink die))
/-- Tests 1 and 2 of R110 on one queue, with their counts. A red packet is dropped at test 1 before the average of test 2 is updated (DESIGN CHOICE, log 14). -/
def colourTest (die colour q : Nat) (s : State) : Bool × State :=
  if colour = 2 then (false, qcount q 4 1 s)
  else if (redTest die q colour s).1 then (false, qcount q 5 1 (redTest die q colour s).2)
  else (true, (redTest die q colour s).2)
/-- Tests 3 and 4 of R110 on one queue, with their counts. -/
def roomTest (die n q : Nat) (s : State) : Bool × State :=
  if !belowThreshold s die q then (false, qcount q 6 1 s)
  else if poolFree s die < n then (false, qcount q 7 1 s)
  else (true, s)
/-- A test made on each queue of a packet: the queues that pass. -/
def testQueues (test : Nat → State → Bool × State) (tc : Nat) (queues : List (Nat × Nat)) (s : State) : List (Nat × Nat) × State :=
  queues.foldl (fun (acc : List (Nat × Nat) × State) l =>
    (if (test (qkey l.1 tc) acc.2).1 then acc.1 ++ [l] else acc.1, (test (qkey l.1 tc) acc.2).2)) ([], s)
/-- Droppable packets: taken at once, then tested on each queue, which the legs that pass enter (R110). -/
def admitDroppable (onDown : Nat → Packet → State → State) (die ing : Nat) (k : Parked) (s : State) : State :=
  let c := colourOf ing k s
  let pr := liveLegs onDown die k c.2
  let a := testQueues (colourTest die c.1) k.pkt.tc (localLegs die pr.1) pr.2
  let b := testQueues (roomTest die (pCells k.pkt)) k.pkt.tc a.1 a.2
  if b.1.isEmpty then b.2 else linkInto die { k with legs := keptLegs die b.1 pr.1 } c.1 false b.1 b.2
/-- A droppable send of an internal source: tests 1 and 2 of R110 are made on each leg, and what passes waits for room like any send; none is left of a send that fails on all (R109). -/
def sourceDrops (die ing : Nat) (k : Parked) (s : State) : Option Parked × State :=
  if droppable k.pkt.tc then
    let c := police ing k.pkt s
    let r := testQueues (colourTest die c.1) k.pkt.tc (localLegs die k.legs) c.2
    (if r.1.isEmpty then none else some { k with colour := some c.1, legs := keptLegs die r.1 k.legs }, r.2)
  else (some k, s)
/-- Room for a packet in every queue it has on a die and in the pool (R105, R107). -/
def roomy (s : State) (die : Nat) (k : Parked) : Bool :=
  (localLegs die (k.legs.filter (fun l => !epDown s l.1))).all (fun l => belowThreshold s die (qkey l.1 k.pkt.tc))
    && decide (pCells k.pkt ≤ poolFree s die)
/-- A packet that could not be taken although there is room is held red by its policer, and counted once (R117, R132). -/
def markRed (die ing : Nat) (k : Parked) (s : State) : Parked × State :=
  if !k.red && k.colour.isNone && (policerOf s ing (pCtx k.pkt) k.pkt.tc).isSome && roomy s die k then
    ({ k with red := true }, s.modPark (qkey ing k.pkt.tc) (fun q => { q with holdPolice := wrapAdd 64 q.holdPolice 1 }))
  else (k, s)
/-- Cells of parked packets. -/
def parkedCells (l : List Parked) : Nat := l.foldl (fun a x => a + pCells x.pkt) 0
/-- Parked packets of an ingress and class (R106, R132). -/
def parkPacket (ing : Nat) (k : Parked) (s : State) : State :=
  let r := allocCells (ingDie ing) (firstQueue k.pkt.tc (localLegs (ingDie ing) k.legs)) (pCells k.pkt) s
  r.2.modPark (qkey ing k.pkt.tc) (fun q =>
    let pkts := q.pkts ++ [{ k with cells := r.1 }]
    { q with pkts := pkts, since := some (q.since.getD (now s)),
             parkMax := max q.parkMax (parkedCells pkts) })
/-- Admission of a settled packet on the die of the endpoint it came by. Fabric ports, host channels and core links hold it in headroom and park it; other internal sources stall (R105-R110). -/
def takeIn (onDown : Nat → Packet → State → State) (ing : Nat) (k : Parked) (s : State) : State :=
  let die := ingDie ing
  let tc := k.pkt.tc
  if stalls ing then
    let waiting := mget [] (qkey ing tc) s.sw.stalled
    let d := sourceDrops die ing k s
    match d.1 with
    | none => d.2
    | some k =>
      let r := if waiting.isEmpty then tryTake onDown die ing k d.2 else (false, d.2)
      if r.1 then r.2
      else { r.2 with sw := { r.2.sw with stalled := mset [] (qkey ing tc) (waiting ++ [k]) r.2.sw.stalled } }
  else if droppable tc then leaveHeadroom ing tc k.head (admitDroppable onDown die ing k s)
  else if (s.park (qkey ing tc)).pkts.isEmpty then
    let r := tryTake onDown die ing k s
    if r.1 then leaveHeadroom ing tc k.head r.2
    else
      let m := markRed die ing k r.2
      parkPacket ing m.1 m.2
  else parkPacket ing k s
/-- The head of a parked FIFO is gone: its headroom is left, and PARK_NS is kept (R105, R132). -/
def unpark (ing tc : Nat) (s : State) : State :=
  let q := s.park (qkey ing tc)
  match q.pkts with
  | [] => s
  | k :: rest =>
    let s := s.setPark (qkey ing tc) { q with
      pkts := rest
      parkNs := if rest.isEmpty then wrapAdd 64 q.parkNs (now s - q.since.getD (now s)) else q.parkNs
      since := if rest.isEmpty then none else q.since }
    leaveHeadroom ing tc k.head s
/-- The head of a parked FIFO is taken if it may be (R105-R107, R117). -/
def takeParked (onDown : Nat → Packet → State → State) (ing tc : Nat) (s : State) : Bool × State :=
  match (s.park (qkey ing tc)).pkts with
  | [] => (false, s)
  | k :: rest =>
    let r := tryTake onDown (ingDie ing) ing k s
    if r.1 then (true, unpark ing tc r.2)
    else
      let m := markRed (ingDie ing) ing k r.2
      (false, m.2.modPark (qkey ing tc) (fun q => { q with pkts := m.1 :: rest }))

end Sys2Proof.Machine
end

