-- ==== Sys2Proof/Machine/Lookup.lean ====
section
/-!
DEFINITION. The ingress lookup: legality of packets, epoch and key generation, the edge checks, the node table with routes, groups and local endpoints, refusals, and at-rest encryption at the edge (R24, R25, R96, R97, R136-R151, R174-R176, R198, R290, R297, R324, R410, R448, R455, R456, R480, R529, R610, R611).
-/
namespace Sys2Proof.Machine

/-! ### Coherent lines and their records (R169-R171, R183) -/

/-- An extent is named by an enabled coherent extent entry (Table 06-1). -/
def coherentExt (s : State) (e : Nat) : Bool :=
  (List.range 256).any (fun i => let v := entry s 0x0014 i; bit v 16 && fld v 0 16 == e)
/-- The agent, enabled, of a node (Table 06-2). -/
def agentOf (s : State) (node : Nat) : Option Nat :=
  (List.range 64).find? (fun a => let v := entry s 0x0015 a; bit v 14 && fld v 0 14 == node)
/-- STATE of an agent: 0 ABSENT, 1 ATTACHED, 2 SUSPECT, 3 DEAD. -/
def agentState (s : State) (a : Nat) : Nat := fld (entry s 0x0015 a) 16 2
/-- A node is that of a DEAD agent, enabled or not, and of no other agent. -/
def deadNode (s : State) (node : Nat) : Bool :=
  (List.range 64).any (fun a => agentState s a == 3 && fld (entry s 0x0015 a) 0 14 == node)
    && (agentOf s node).all (fun a => agentState s a == 3)
/-- The line's index among the two stacks of its die, first stack first (R183; log 29). -/
def dieLine (s : State) (line : Nat) : Nat :=
  let p := linePage line
  (stackOf s p % 2 * 589824 + fld (pgLoc (page s p)) 0 19) * 1024 + line % 1024
/-- First key of an agent's set for a line. -/
def setBase (s : State) (agent line : Nat) : Nat :=
  1048576 * homeOf (linePage line) + 16384 * agent + 16 * (dieLine s line % 1024)
/-- A filter entry image (Table 06-6). -/
def fent (s : State) (k : Nat) : Nat := mget 0 k s.coh.filter
/-- The filter entry of an agent that holds a line. -/
def wayOf (s : State) (agent line : Nat) : Option Nat :=
  ((List.range 16).map (setBase s agent line + ·)).find? (fun k =>
    fld (fent s k) 21 2 != 0 && fld (fent s k) 0 21 == dieLine s line / 1024)
/-- An agent's record of a line: 0 I, 1 S, 2 E, 3 M (R173). -/
def record (s : State) (agent line : Nat) : Nat :=
  match wayOf s agent line with
  | some k => fld (fent s k) 21 2
  | none => 0
/-- The two entries of a filter word as its backing holds them, one in each half (log 29). -/
def backWord (f : SMap Nat) (w : Nat) : Nat := mget 0 (2 * w) f + 2 ^ 32 * mget 0 (2 * w + 1) f
/-- A filter entry written, and its word written through to the directory backing; an I entry is free and holds nothing (R184). -/
def setFent (k v : Nat) (s : State) : State :=
  let f := mset 0 k (if fld v 21 2 = 0 then 0 else v) s.coh.filter
  { s with coh := { s.coh with filter := f, backing := mset 0 (k / 2) (backWord f (k / 2)) s.coh.backing } }
/-- An agent's record of a line becomes I. -/
def clearRecord (agent line : Nat) (s : State) : State :=
  match wayOf s agent line with
  | some k => setFent k 0 s
  | none => s

/-! ### Legality (Table 03-10, R141-R143, R174, R198, R297, R324, R412, R488, R525, R541) -/

/-- An opcode is assigned. -/
def assigned (op : Nat) : Bool :=
  isMemReq op || isMemRsp op || isCoh op || [0x40, 0x41, 0x50, 0x51, 0x60, 0x61, 0x62, 0x70, 0x71, 0x72, 0x73].contains op
/-- Lengths an opcode admits (Tables 05-7, 06-3, 07-4, 10-4, 11-3); an unassigned opcode is for the next row. -/
def lengthOk (p : Packet) : Bool :=
  let n := pLen p
  let op := pOp p
  decide (n ≤ 1024) && n == p.payload.length &&
  (if op == opRD64 then n == 0 && pNl p == 0
   else if op == opRDN then n == 0
   else if op == opWR64 then n == 64 && pNl p == 0
   else if op == opWRN then n == 64 * (pNl p + 1) && pNl p != 0
   else if op == opWRP then n == 64 && pNl p == 0 && pBmask p != 0
   else if op == opRDRSP then n == (if pStatus p == stOK || pStatus p == stPoison then 64 * (pNl p + 1) else 0)
   else if op == opWRRSP then n == 0
   else if op == opDATA then n == 64
   else if op == opWB then n == 0 || n == 64
   else if isCoh op then n == 0
   else if op == opOPBLK then n % 64 == 0 && n != 0 && decide (pBoff p * 64 + n ≤ 1024)
   else if op == opOPMSG then n % 8 == 0 && decide (n ≤ 256)
   else if op == opCBLK then n % 64 == 0 && n != 0 && (hfld p 180 1 == 1 || decide (pBoff p * 64 + n ≤ 1024))
   else if op == opCNOTE || op == opSVCREQ || op == opCRMSG then n % 8 == 0 && n != 0 && decide (n ≤ 256)
   else if op == opSVCCMP then n % 8 == 0 && n != 0 && decide (n ≤ 64)
   else if op == opWSDATA then n % 64 == 0 && n != 0
   else if op == opMAPMSG then n == 0
   else if op == opHVOTE then n == 16
   else if op == opNBRMSG then n % 8 == 0 && n != 0
   else true)
/-- Classes and contexts an opcode is allowed on. -/
def classOk (p : Packet) : Bool :=
  let op := pOp p
  let c0 := pCtx p == 0
  if isMemReq op || isMemRsp op then
    p.tc == 0 || p.tc == 3 || p.tc == 4 || p.tc == 5 || (p.tc == 7 && (c0 || pCtx p == 1023))
  else if isCoh op then p.tc == 1
  else if op == opOPBLK then p.tc == 2 || p.tc == 3 || p.tc == 4 || p.tc == 5
  else if op == opOPMSG then p.tc == 2 || p.tc == 4 || p.tc == 6
  else if op == opCBLK then p.tc == 2 || p.tc == 3
  else if op == opCNOTE then p.tc == 2 || p.tc == 6
  else if op == opSVCREQ || op == opSVCCMP then p.tc == 4 || (p.tc == 6 && c0)
  else if op == opWSDATA then p.tc == 3
  else p.tc == 6 && c0
/-- Every reserved header field of the opcode is zero (R141): what its layout gives as zero, so GRANT, KEEP and PSN of Table 06-4 are none. -/
def reservedOk (p : Packet) : Bool :=
  let op := pOp p
  let up := pUpper p
  hfld p 94 34 == 0
  && (pReason p == 0 || (pStatus p == stViolation && !isRequest op))
  && (pStatus p == 0 || !isRequest op)
  && (if isMemReq op || isMemRsp op then
        (op == opRDRSP || pPmask p == 0) && (op == opWRP || pBmask p == 0) && fld up 112 16 == 0
      else if isCoh op then fld up 46 82 == 0
      else if op == opOPBLK then fld up 52 76 == 0
      else if op == opOPMSG then fld up 32 20 == 0 && fld up 60 68 == 0
      else if op == opCBLK then fld up 20 12 == 0 && fld up 53 7 == 0 && (bit up 52 || fld up 60 4 == 0) && fld up 64 64 == 0
      else if op == opCNOTE then fld up 20 32 == 0 && fld up 60 68 == 0
      else if op == opSVCREQ || op == opSVCCMP then fld up 9 119 == 0
      else if op == opWSDATA then fld up 51 77 == 0
      else if op == opMAPMSG then fld up 54 74 == 0
      else if op == opHVOTE then up == 0
      else if op == opNBRMSG then fld up 12 116 == 0
      else true)
/-- The opcode row: assigned, on an allowed class and in an allowed context, reserved fields zero. -/
def opcodeOk (p : Packet) : Bool := assigned (pOp p) && classOk p && reservedOk p

/-! ### Verdicts -/

/-- What a test says of a packet: it passes; a request is answered and anything else discarded; it is discarded whatever it is. The number is the row of Table 03-10 that counts it. -/
inductive Verdict where
  | pass
  | refuse (row : Option Nat) (status reason : Nat)
  | discard (row : Option Nat)
  deriving DecidableEq, Repr

/-- The neighbour of a port is doubtful, and the packet is neither of TC5 nor of TC6 in context 0 (R524). -/
def heldDoubtful (s : State) (p : Nat) (tc ctx : Nat) : Bool :=
  isTrunk s p && (s.nbr (peerOf s p)).doubtful && !((tc == 5 || tc == 6) && ctx == 0)
/-- Test 1 of R147 with the rows of R77, R81 and R456: what the link's state and keys, the boot tables, the length, the opcode and context 1023 allow. -/
def test1 (s : State) (ep : Nat) (p : Packet) : Verdict :=
  let x := s.port ep
  if decide (ep < 384) && ((!x.keyed && !(p.tc == 6 || (p.tc == 0 && pCtx p == 0))) || !carries x.st p.tc
      || (x.st == .fenced && pCtx p != 0) || heldDoubtful s ep p.tc (pCtx p)) then .discard (some 8)
  else if !s.tab.committed && !(p.tc == 0 || p.tc == 6) then .discard (some 8)
  else if !lengthOk p then .refuse (some 3) stViolation rsLength
  else if !opcodeOk p then .refuse (some 4) stViolation rsOpcode
  else if decide (ep < 384) && isEdge s ep && pCtx p == 1023 && !isMemRsp (pOp p) then .discard (some 4)
  else .pass
/-- The bank of a packet's epoch (Table 15-6); none is STALE_MAP. -/
def epochBank (s : State) (p : Packet) : Option Bank :=
  let d := (pEpoch p + 4 - s.tab.cur) % 4
  if d = 0 then some .cur
  else if d = 3 then (if s.tab.oldLive then some .old else none)
  else if d = 1 then (if s.tab.pending then some .pend else none)
  else none
/-- The key generation test of R480. -/
def kgenOk (s : State) (p : Packet) : Bool :=
  let c := pCtx p
  if ctxState s c = 1 then pKgen p == ctxKgen s c else !s.cx.retired.contains c

/-! ### Edge checks -/

/-- Lines of a request: NL is a field of the memory opcodes. -/
def reqLines (p : Packet) : Nat := if isMemReq (pOp p) then pNl p + 1 else 1
/-- Listed range entries (Table 05-8). -/
def ranges (s : State) : List Nat :=
  (s.tab.live.filter (fun e => decide (tkey 0x0012 0 ≤ e.1 ∧ e.1 < tkey 0x0013 0))).map (·.2)
/-- A range entry matches a request (R150). -/
def rangeMatches (s : State) (p : Packet) (r : Nat) : Bool :=
  let v := extent s (fld r 27 16)
  fld r 0 10 == pCtx p && (bit r 24 || fld r 10 14 == pSrc p) && fld r 25 2 != 0 && exState v != 0 && pDst p == exNode v
  && decide (exBase v * 1024 ≤ pLaddr p) && decide (pLaddr p + reqLines p ≤ (exBase v + exSize v) * 1024)
/-- The range entry of a request. -/
def rangeOf (s : State) (p : Packet) : Option Nat := (ranges s).find? (rangeMatches s p)
/-- The request reads. -/
def needsRead (p : Packet) : Bool := isMemRead (pOp p) || pOp p == opRDS
/-- A byte mask splits a 16 B unit (R147 test 8). -/
def splitMask (m : Nat) : Bool := [0, 16, 32, 48].any (fun i => fld m i 16 != 0 && fld m i 16 != 65535)
/-- The line lies in a coherent extent, whichever context asks (R169). -/
def coherentAt (s : State) (p : Packet) : Bool :=
  pDst p == s.boot.node && (pageExtent s (linePage (pLaddr p))).any (coherentExt s)
/-- Tests 6 to 9 of R147, with the coherence tests of R175. -/
def memTest (s : State) (ep : Nat) (p : Packet) : Verdict :=
  let op := pOp p
  match rangeOf s p with
  | none => if isCohReq op && (!coherentAt s p || decide (384 ≤ ep)) then .refuse (some 4) stViolation rsOpcode else .refuse (some 5) stViolation rsRange
  | some r =>
    let e := fld r 27 16
    let v := extent s e
    if isCohReq op && (!coherentExt s e || decide (384 ≤ ep)) then .refuse (some 4) stViolation rsOpcode
    else if !bit r (if needsRead p then 25 else 26) then .refuse (some 5) stViolation rsRights
    else if op == opWRP && exXts v && splitMask (pBmask p) then .refuse (some 5) stViolation rsMask
    else if exState v = 3 then .refuse none stRevoked 0
    else if exState v = 4 && !(pCtx p == 1023 && (op == opWR64 || op == opWRN)) then .refuse none stRevoked 0
    else .pass
/-- DPOL at an edge port (R455). -/
def dpolOk (s : State) (p : Packet) : Bool :=
  let v := entry s 0x0030 (pCtx p)
  match fld v 18 2 with
  | 0 => true
  | 1 => decide (fld v 20 14 ≤ pSrc p ∧ pSrc p ≤ fld v 34 14)
  | _ => false
/-- Opcodes under the destination policy. -/
def isPolicied (op : Nat) : Bool := op == opOPBLK || op == opOPMSG || op == opCBLK || op == opCNOTE || op == opSVCREQ
/-- The checks made only where a packet enters the fabric: departure (R550), context (R448), SRC (R138), destination policy (R455), and tests 6 to 9 (R147, R175). -/
def edgeTest (s : State) (ep : Nat) (p : Packet) : Verdict :=
  let op := pOp p
  let port := decide (ep < 384)
  if s.boot.depart != 0 && (port || isRequest op) then
    (if isRequest op then .refuse none stPathLost 0 else .discard (some 8))
  else if isCoh op && deadNode s (pSrc p) then .discard (some 8)
  else if isCohReq op && (match agentOf s (pSrc p) with | some _ => false | none => true) then
    .refuse (some 4) stViolation rsOpcode
  else if !isResponse op && ctxState s (pCtx p) != 1 && !(decide (416 ≤ ep ∧ ep < 448) && !isRequest op && ctxState s (pCtx p) == 2) then
    (if isRequest op then .refuse none stContextGone 0 else .discard (some 8))
  else if port && (s.port ep).bound != some (pSrc p) then .refuse (some 5) stViolation rsRange
  else if port && isPolicied op && !dpolOk s p then .refuse (some 5) stViolation rsRange
  else if isMemReq op || isCohReq op then memTest s ep p
  else .pass
/-- Tests 1 to 9 of R147, with the epoch bank of those that pass; coherence requests on a trunk port are illegal (R175). -/
def lookupTests (s : State) (ep : Nat) (p : Packet) : Verdict × Bank :=
  match test1 s ep p with
  | .pass =>
    match epochBank s p with
    | none => (.refuse (some 6) stStaleMap 0, .cur)
    | some b =>
      if !kgenOk s p then (.discard (some 7), b)
      else if isEdge s ep then (edgeTest s ep p, b)
      else if isCohReq (pOp p) then (.refuse (some 4) stViolation rsOpcode, b)
      else (.pass, b)
  | v => (v, .cur)

/-! ### Test 10 and the outcome (R96, R97, R136, R290, R529) -/

/-- What a packet's destination resolves to. -/
inductive Dest where
  /-- KIND absent, or no usable endpoint. -/
  | lost
  /-- Handled by the module where it stands. -/
  | keep
  /-- No taker on this module, or dropped: the row of R318 that counts it. -/
  | drop (row : Nat)
  | legs (l : List (Nat × Nat))
  deriving DecidableEq, Repr

/-- A port without link keys sends only TC6, and TC0 of context 0 (R81). -/
def egressAllowed (s : State) (ep : Nat) (p : Packet) : Bool :=
  decide (384 ≤ ep) || (s.port ep).keyed || p.tc == 6 || (p.tc == 0 && pCtx p == 0)
/-- A fabric port is usable for a class (R529, R528). -/
def usable (s : State) (ep : Nat) (p : Packet) : Bool :=
  let x := s.port ep
  !portDown s ep && carries x.st p.tc && !heldDoubtful s ep p.tc (pCtx p) && !(isTrunk s ep && (s.nbr (peerOf s ep)).departing)
/-- The endpoint a route gives a packet: the hashed one, or the next usable one in ascending order, wrapping. -/
def pickRoute (s : State) (route : Nat) (p : Packet) : Option Nat :=
  let n := fld route 80 3 + 1
  let h := Config.pathHash (pSrc p) (pDst p) (pCtx p) p.tc % n
  ((List.range n).map (fun i => fld route (10 * ((h + i) % n)) 10)).find? (fun ep => usable s ep p)
/-- The endpoint number of a leg's EP code (Table 10-2). -/
def legEp (code : Nat) : Option Nat :=
  if code < 384 then some code
  else if 512 ≤ code ∧ code < 768 then some (416 + (code - 512) / 8)
  else if 768 ≤ code ∧ code < 776 then some (448 + code - 768)
  else if 776 ≤ code ∧ code < 778 then some (400 + code - 776)
  else if 780 ≤ code ∧ code < 784 then some (466 + code - 780)
  else none
/-- A leg is a tile leg. -/
def isTileLeg (v : Nat) : Bool := decide (512 ≤ fld v 0 10 ∧ fld v 0 10 < 768)
/-- A leg as a queued packet names it. -/
def legCode (li v : Nat) : Nat := li + 1 + 2 ^ 17 * v
def legIndex (c : Nat) : Nat := c % 2 ^ 17 - 1
def legImage (c : Nat) : Nat := c / 2 ^ 17
/-- A group's legs for a packet, and the copies dropped from it because a tile leg carries operation packets only (R290). -/
def groupLegs (s : State) (b : Bank) (ing g : Nat) (p : Packet) : List (Nat × Nat) × Nat :=
  let v := entryIn s b 0x0018 g
  let all := (List.range (fld v 16 11)).map (fun i => fld v 0 16 + i)
  let live := all.filterMap (fun li =>
    let l := entryIn s b 0x0019 li
    match legEp (fld l 0 10) with
    | some ep => if isTileLeg l || ep != ing then some (ep, legCode li l) else none
    | none => none)
  let ok := live.filter (fun l => !isTileLeg (legImage l.2) || pOp p == opOPBLK || pOp p == opOPMSG)
  (ok, live.length - ok.length)
/-- Owner endpoint of a tag of MODULE_NODE (R201). -/
def tagEp (tag : Nat) : Nat :=
  if tag < 524288 then 416 + tag / 16384
  else if tag < 786432 then 448 + (tag - 524288) / 32768
  else 400 + (tag - 786432) / 131072
/-- Service table entry (Table 11-2). -/
def svcEntry (s : State) (svc : Nat) : Nat := mget 0 svc s.svc.table
/-- Where a packet addressed to this module goes (R137, R165, R199, R201, R299, R325, R326, R412). -/
def localDest (s : State) (p : Packet) : Dest :=
  let op := pOp p
  if isMemReq op || isCohReq op || op == opDATA || op == opCMP then .legs [(462 + homeOf (linePage (pLaddr p)), 0)]
  else if isMemRsp op then .legs [(tagEp (pTag p), 0)]
  else if op == opSVCCMP then (if pTag p < 524288 then .drop 6 else .legs [(tagEp (pTag p), 0)])
  else if op == opOPBLK || op == opOPMSG then .legs [(416 + slotTile (pOpslot p) / 8, 0)]
  else if op == opSVCREQ then .legs [(448 + fld (svcEntry s (hfld p 128 8)) 11 3, 0)]
  else if op == opMAPMSG then .legs [(448, 0)]
  else if op == opCBLK || op == opCNOTE || op == opHVOTE || op == opCRMSG then .keep
  else .drop 6
/-- Test 10 of R147: the node table entry of DST in the bank of the packet's epoch. -/
def resolve (s : State) (b : Bank) (ing : Nat) (p : Packet) : Dest :=
  let v := entryIn s b 0x0010 (pDst p)
  match fld v 0 3 with
  | 1 => match pickRoute s (entryIn s b 0x0011 (fld v 3 12)) p with
    | some ep => .legs [(ep, 0)]
    | none => .lost
  | 3 => localDest s p
  | 4 =>
    let g := entryIn s b 0x0018 (fld v 3 12)
    if !bit g 27 || fld g 28 10 != pCtx p then .drop 0
    else if pOp p == opRDRSP && (streamOf s (pDst p)).isSome then .keep
    else .legs (groupLegs s b ing (fld v 3 12) p).1
  | _ => .lost
/-- Copies that a group drops for their opcode (R290). -/
def groupDrops (s : State) (b : Bank) (ing : Nat) (p : Packet) : Nat :=
  let v := entryIn s b 0x0010 (pDst p)
  if fld v 0 3 = 4 then (groupLegs s b ing (fld v 3 12) p).2 else 0

/-! ### Answers (R610, R611) -/

/-- A packet is gone and counted. -/
def lostPacket (ep : Nat) (s : State) : State := lookupCount (coreOfEp ep) 6 s
/-- A packet that the module handles where it stands; a stream's response keeps its headroom until it is taken into its group's copies (R16, R333). -/
def keepHere (ep head : Nat) (p : Packet) (s : State) : State :=
  if pOp p = opRDRSP then { s with mf := { s.mf with streamIn := s.mf.streamIn ++ [(p, ep, head)] } }
  else { s with mf := { s.mf with modIn := s.mf.modIn ++ [(p, ep)] } }
/-- A response of the module enters the crossbar at an endpoint, under tests 1 to 3 and 10; its epoch is the current one. One that cannot go on is discarded and counted. It arrived on no endpoint, so a group sends a copy on every leg (R290; log 6). -/
def placeResponse (ep : Nat) (r : Packet) (s : State) : State :=
  if !lengthOk r then lostPacket ep (violate ep 3 s)
  else if !opcodeOk r then lostPacket ep (violate ep 4 s)
  else if !kgenOk s r then violate ep 7 s
  else match resolve s .cur 1024 r with
    | .legs l => takeIn (fun _ _ s => lostPacket ep s) ep (mkParked s ep 0 r l) s
    | .keep => keepHere ep 0 r s
    | _ => lostPacket ep s
/-- A request is answered at an endpoint; anything else is discarded and counted (R130, R610). -/
def refuseAt (ep : Nat) (p : Packet) (status reason : Nat) (s : State) : State :=
  if isRequest (pOp p) then placeResponse ep (refusal s p status reason) s else lostPacket ep s
/-- PATH_LOST under R130. -/
def pathLost (ep : Nat) (p : Packet) (s : State) : State := refuseAt ep p stPathLost 0 s
/-- The internal endpoint whose lookup answers for a core die: its home port (R611). -/
def homeEp (die : Nat) : Nat := 462 + die

/-! ### Encryption at the edge (R25, R151) -/

/-- A packet that carries line data into storage. -/
def carriesWrite (op : Nat) : Bool := op == opWR64 || op == opWRN || op == opWRP || op == opWB || op == opDATA
/-- The packet with its payload as storage takes it (R151, R175); a poisoned line's zeros stay. -/
def encryptFor (s : State) (e : Nat) (p : Packet) : Packet :=
  let v := extent s e
  if !exXts v || !carriesWrite (pOp p) || (isCoh (pOp p) && hfld p 173 1 == 1) then p
  else { p with payload := xtsLines true (slotKey s (exKeyslot v)) (exNode v) (pLaddr p)
                  (fun i => pOp p == opWRP && fld (pBmask p) (16 * i) 16 == 0) p.payload }
/-- The extent of a request that passed, or of an agent's data. -/
def extentOf (s : State) (p : Packet) : Option Nat :=
  if pOp p == opDATA then pageExtent s (linePage (pLaddr p)) else (rangeOf s p).map (fun r => fld r 27 16)
/-- A request passes test 10 at its edge: its open record (R148), and its payload encrypted (R25). -/
def passEdge (ep : Nat) (p : Packet) (s : State) : Packet × State :=
  if !isEdge s ep || !(isMemReq (pOp p) || isCohReq (pOp p) || (pOp p == opDATA && decide (ep < 384))) then (p, s)
  else match extentOf s p with
    | none => (p, s)
    | some e =>
      let s' := if isRequest (pOp p) then
          { s with mf := { s.mf with open_ := s.mf.open_ ++ [⟨pCtx p, pSrc p, pTag p, e⟩] } } else s
      (if pCtx p = 1023 then p else encryptFor s e p, s')

/-! ### The lookup -/

/-- A packet that a port, host channel or core link had in headroom is discarded. -/
def dropHead (ep head : Nat) (p : Packet) (s : State) : State := if head = 0 then s else leaveHeadroom ep p.tc head s
/-- A WB refused for its extent's state leaves the agent without the line (R176). -/
def wbRevoked (p : Packet) (status : Nat) (s : State) : State :=
  if pOp p == opWB && status == stRevoked then
    match agentOf s (pSrc p) with
    | some a => clearRecord a (pLaddr p) s
    | none => s
  else s
/-- The lookup of a packet that stands at an endpoint with so many headroom cells: the tests of R147 and of Table 03-10 in order, then the outcome and admission. -/
def lookup (ep head : Nat) (p : Packet) (s : State) : State :=
  if pOp p == opNBRMSG && decide (ep < 384) && lengthOk p && opcodeOk p then
    dropHead ep head p { s with mf := { s.mf with modIn := s.mf.modIn ++ [(p, ep)] } }
  else
    let t := lookupTests s ep p
    match t.1 with
    | .discard row => dropHead ep head p ((row.map (violate ep · s)).getD s)
    | .refuse row status reason =>
      let s := wbRevoked p status ((row.map (violate ep · s)).getD s)
      dropHead ep head p (if isRequest (pOp p) then placeResponse ep (refusal s p status reason) s else s)
    | .pass =>
      match resolve s t.2 ep p with
      | .lost => dropHead ep head p (pathLost ep p s)
      | .drop row => dropHead ep head p (lookupCount (coreOfEp ep) row s)
      | .keep => if pOp p = opRDRSP then keepHere ep head p s else keepHere ep head p (dropHead ep head p s)
      | .legs l =>
        let s := (List.range (groupDrops s t.2 ep p)).foldl (fun s _ => lookupCount (coreOfEp ep) 0 s) s
        let s := (l.filter (fun e => !egressAllowed s e.1 p)).foldl (fun s e => violate e.1 8 s) s
        let l := l.filter (fun e => egressAllowed s e.1 p)
        let q := passEdge ep p s
        if l.isEmpty then dropHead ep head p q.2
        else takeIn (fun i p s => pathLost i p s) ep (mkParked s ep head q.1 l) q.2
/-- A packet that a unit of the module sends into the crossbar at its endpoint (R24, R109). -/
def sendFrom (ep : Nat) (p : Packet) (s : State) : State := lookup ep 0 p s
/-- A send of an endpoint and class would have to wait behind another (R109). -/
def sendStalls (s : State) (ep tc : Nat) : Bool := !(mget [] (qkey ep tc) s.sw.stalled).isEmpty

end Sys2Proof.Machine
end

