-- ==== Sys2Proof/Machine/StreamLegs.lean ====
section
/-!
DEFINITION. Shared operations of a stream's legs: members' legs, blocks in a leg's egress pipeline, digests, and the intake of a response's copy (R294, R334-R337, R359).
-/
namespace Sys2Proof.Machine

/-! ### Members' legs (R138, R294) -/

/-- Edge ports bound to a node (R138). -/
def edgesOf (s : State) (node : Nat) : List Nat := (s.ports.filter (fun e => e.2.bound == some node && !isTrunk s e.1)).map (·.1)
/-- The leg toward a member: its edge port with DST rewritten, the host channel for this module's own node, else the trunk port its route names first. -/
def memberLeg (s : State) (node : Nat) : Option Nat :=
  if node = s.boot.node then some 776
  else match edgesOf s node with
    | p :: _ => some (p + 2 ^ 10 + 2 ^ 11 * node)
    | [] =>
      let v := entry s 0x0010 node
      if fld v 0 3 = 1 then some (fld (entry s 0x0011 (fld v 3 12)) 0 10) else none
/-- A member's leg is down. -/
def memberDown (s : State) (node : Nat) : Bool :=
  match memberLeg s node with
  | some v => epDown s (fld v 0 10)
  | none => true

/-! ### Streams and their legs (R334-R336) -/

/-- Mailbox thread of a service. -/
def mboxThread (s : State) (v : Nat) : Nat := 32 * fld (svcEntry s v) 11 3 + fld (svcEntry s v) 14 5
/-- Mailbox thread of the weight streaming service. -/
def streamThread (s : State) : Nat := mboxThread s 2
/-- A consumer's leg is up and has been all along (R336). -/
def legUp (s : State) (x : WStream) (i : Nat) : Bool := !x.lost.contains i && !memberDown s (x.consumers.getD i 0)
def legsUp (s : State) (x : WStream) : List Nat := (List.range x.consumers.length).filter (legUp s x)
/-! ### Blocks at a leg (R334, R335, R359) -/

/-- Every stored line of a block is at the leg. -/
def legWhole (b : LegBlock) : Bool := decide (b.size ≤ b.data.length)
/-- A leg abandons the block in progress and discards up to the next BSTART; blocks that are whole stay. -/
def abandonLeg (x : WStream) (i : Nat) : WStream :=
  { x with
    legData := mset [] i ((mget [] i x.legData).filter legWhole) x.legData
    legSkip := insertSet i x.legSkip }
/-- The data of an OK response taken at a leg. -/
def takeAtLeg (p : Packet) (slot : Nat) (blk : Nat × Nat × Nat) (data : List Byte) (x : WStream) (i : Nat) : WStream :=
  let e := mget ({} : OrderEnt) blk.1 x.ents
  let last := decide (e.lines ≤ blk.2.2 + pNl p + 1)
  if tagBstart (pTag p) then
    let b : LegBlock := { ent := blk.1, bidx := blk.2.1, data := data, size := 64 * (mget ({} : StreamBlk) (blkKey blk.1 blk.2.1) x.blks).len, slot := slot, last := last }
    { x with
      legData := mset [] i ((mget [] i x.legData).filter legWhole ++ [b]) x.legData
      legSkip := eraseSet i x.legSkip }
  else match (mget [] i x.legData).getLast? with
    | some b => { x with legData := mset [] i ((mget [] i x.legData).dropLast ++ [{ b with data := b.data ++ data, last := b.last || last }]) x.legData }
    | none => { x with legSkip := insertSet i x.legSkip }
/-- A response at a leg: out of sequence or failed abandons the block; behind an abandoned one only a BSTART is taken. -/
def legTake (p : Packet) (slot : Nat) (blk : Nat × Nat × Nat) (data : List Byte) (x : WStream) (i : Nat) : WStream :=
  let want := mget 0 i x.legSeq
  let x := { x with legSeq := mset 0 i ((tagSeq (pTag p) + 1) % 512) x.legSeq }
  let x := if want ≠ tagSeq (pTag p) ∧ !x.legSkip.contains i then abandonLeg x i else x
  if pStatus p ≠ stOK then (if x.legSkip.contains i then x else abandonLeg x i)
  else if x.legSkip.contains i && !tagBstart (pTag p) then x
  else takeAtLeg p slot blk data x i

/-! ### Digests (R337) -/

/-- The manifest entry of an extent in a context, and a free place. -/
def manifestOf (s : State) (c e : Nat) : Option Nat :=
  (s.svc.manifest.find? (fun x => x.1 / 4096 == c && x.2.ext == e)).map (·.1)
def freeManifest (s : State) (c : Nat) : Option Nat := ((List.range 4096).map (4096 * c + ·)).find? (fun k => !mhas k s.svc.manifest)
/-- An extent digested whole: recorded, or with VERIFY compared. -/
def closeDigest (k : Nat) (d : Digest) (s : State) : State :=
  let x := s.stream k
  let v := extent s d.ext
  let h := (Config.sha384 d.bytes).toNat
  let s := s.modStream k (fun x => { x with dig := none, digests := x.digests + 1 })
  match manifestOf s x.ctx d.ext with
  | none =>
    match freeManifest s x.ctx with
    | none => s
    | some m => { s with svc := { s.svc with
        manifest := mput m { digest := h, ext := d.ext, node := exNode v, base := exBase v, size := exSize v, st := 1, recAt := now s } s.svc.manifest } }
  | some m =>
    let e := mget {} m s.svc.manifest
    if e.digest = h then { s with svc := { s.svc with manifest := mput m { e with verAt := now s } s.svc.manifest } }
    else
      emit (threadDie (streamThread s)) 0x0603 4 d.ext x.ctx 0 0 ({ s with svc := { s.svc with
        manifest := mput m { e with st := 2, verAt := now s } s.svc.manifest } }.modStream k (fun x => { x with mismatch := true }))
/-- A digest is wanted of an extent: its first stream, or one with VERIFY. -/
def wantsDigest (s : State) (x : WStream) (e : Nat) : Bool := x.verify || (manifestOf s x.ctx e).isNone
/-- The lowest leg that is up digests the stored bytes of an extent in address order; anything else gives the digest up. -/
def digestTake (k leg ent : Nat) (p : Packet) (data : List Byte) (s : State) : State :=
  let x := s.stream k
  let e := (mget {} ent x.ents).ext
  let at_ := pLaddr p - 1024 * exBase (extent s e)
  if (legsUp s x).head? ≠ some leg then s
  else
    let d? := if at_ = 0 then (if wantsDigest s x e then some { leg := leg, ext := e } else none)
      else match x.dig with
        | some d => if d.leg = leg ∧ d.ext = e ∧ d.lines = at_ then some d else none
        | none => none
    match d? with
    | none => s.modStream k (fun x => { x with dig := none })
    | some d =>
      if pStatus p ≠ stOK then s.modStream k (fun x => { x with dig := none })
      else
        let d := { d with lines := d.lines + pNl p + 1, bytes := d.bytes ++ data }
        if 1024 * exSize (extent s e) ≤ d.lines then closeDigest k d s else s.modStream k (fun x => { x with dig := some d })

/-! ### Intake (R28, R334, R335) -/

/-- A copy of a stream's response enters the decoder of its leg. -/
def streamIntake (x : QPkt) (s : State) : State :=
  match x.blk, streamOf s (pDst x.pkt) with
  | some blk, some k =>
    match (s.stream k).consumers.findIdx? (· == fld (legImage x.leg) 11 14) with
    | some i =>
      let data := plainLines s (s.stream k) blk.1 x.pkt
      (digestTake k i blk.1 x.pkt data s).modStream k (fun y => legTake x.pkt x.slot blk data y i)
    | none => s
  | _, _ => s

end Sys2Proof.Machine
end

