-- ==== Sys2Proof/Machine/StreamUnit.lean ====
section
/-!
DEFINITION. The tests of a tile's stream unit: sparse blocks, the order of R199, and when a packet leaves its cluster-port queue (R145, R199-R201, R224, R300, R301).
-/
namespace Sys2Proof.Machine

/-! ### Sparse blocks (R300, R301) -/

/-- Bytes of an element of a byte format (Table 08-3). -/
def byteWidth (fmt : Nat) : Option Nat :=
  if fmt = 0 ∨ fmt = 9 ∨ fmt = 13 then some 8
  else if fmt = 1 ∨ fmt = 10 then some 4
  else if fmt = 2 ∨ fmt = 3 ∨ fmt = 11 then some 2
  else if fmt = 4 ∨ fmt = 5 ∨ fmt = 12 then some 1
  else none
/-- A list of numbers strictly ascends. -/
def ascends : List Nat → Bool
  | a :: b :: rest => decide (a < b) && ascends (b :: rest)
  | _ => true
/-- Dense bytes with the values at their element indices. -/
def scatter (w : Nat) (idx : List Nat) (vals : List (List Byte)) (dense : List Byte) : List Byte :=
  (idx.zip vals).foldl (fun d x => splice d (w * x.1) x.2) dense
/-- The dense bytes of a sparse block, none where it breaks R300. -/
def expandSparse (fmt boff : Nat) (pl : List Byte) : Option (List Byte) :=
  match byteWidth fmt with
  | none => none
  | some w =>
    let d := byteAt pl 0 8
    let kind := fld d 0 2
    let dlen := fld d 8 11
    let nnz := fld d 32 12
    let e := dlen / w
    let size := if kind = 1 then 8 * ceilDiv e 64 else 8 * ceilDiv (2 * nnz) 8
    let pos := (pl.drop 8).take size
    let idx := if kind = 1 then (List.range (8 * size)).filter (fun i => bit (byteAt pos (i / 8) 1) (i % 8))
               else (List.range nnz).map (fun i => byteAt pos (2 * i) 2)
    let vals := chunksOf w nnz ((pl.drop (8 + size)).take (w * nnz))
    let used := 8 + size + w * nnz
    let good := (kind == 1 || kind == 2) && fld d 2 6 == 0 && fld d 19 13 == 0 && fld d 44 20 == 0
      && dlen % 64 == 0 && decide (64 ≤ dlen ∧ dlen ≤ 1024) && decide (64 * boff + dlen ≤ 1024)
      && idx.length == nnz && ascends idx && idx.all (fun i => decide (i < e))
      && (kind == 1 || (pos.drop (2 * nnz)).all (· == 0))
      && pl.length == 64 * ceilDiv used 64 && (pl.drop used).all (· == 0)
    if good then some (scatter w idx vals (List.replicate dlen 0)) else none

/-! ### Blocks (R199, R200, R202, R203, R224) -/

/-- Room on a tile for staged bytes and events (R200, R224). -/
def tileRoom (s : State) (t bytes entries : Nat) : Bool :=
  let x := s.tile t
  decide (x.staged + ceilDiv bytes 64 ≤ 1024) && decide (x.evq + entries ≤ 8192)
/-- Arrival and expected count of a chunk of an operation. -/
def arrivedOf (s : State) (n chunk : Nat) : Nat := mget 0 ((s.slot n).cbase + chunk) (s.tile (slotTile n)).arrived
def expectedOf (s : State) (n chunk : Nat) : Nat := mget 0 ((s.slot n).cbase + chunk) (s.tile (slotTile n)).expected
/-- An arrival of this chunk reaches its expected count. -/
def fillsChunk (s : State) (n chunk : Nat) : Bool :=
  expectedOf s n chunk != 0 && decide (expectedOf s n chunk ≤ arrivedOf s n chunk + 1)
/-- The counter of the first test of R199 that a packet fails. -/
def streamTest (s : State) (p : Packet) : Option Nat :=
  let n := pOpslot p
  let x := s.slot n
  if x.st ≠ .live then some 0
  else if pOpgen p ≠ x.gen then some 1
  else if pCtx p ≠ x.ctx then some 2
  else if pOp p ≠ opOPMSG ∧ x.ccount ≤ pChunk p then some 3
  else none
/-- Payload of a block as the program sees it: a sparse block expanded (R301). -/
def blockBytes (p : Packet) : Option (List Byte) :=
  if pOp p == opCBLK && hfld p 180 1 == 1 then expandSparse (hfld p 188 4) (pBoff p) p.payload else some p.payload
/-- The owner of an outcome can take it now: a BLOCK needs staging and event entries (R200, R224). -/
def outcomeRoom (s : State) (r : OwnReq) (bytes : Nat) : Bool :=
  r.user != 0 || (s.slot r.unit).st != .live
    || tileRoom s (slotTile r.unit) bytes (if fillsChunk s r.unit (r.arg % 65536) then 2 else 1)

/-! ### The cluster port (R145, R200, R201) -/

/-- A block or a message for a stream unit. -/
def isUnitBlock (p : Packet) : Bool := pOp p == opOPBLK || pOp p == opCBLK || pOp p == opOPMSG
/-- The stream unit of a tile can take a packet from its cluster-port queue: one that fails a test of R199 or R301 is discarded, any other needs staging units and event entries; the response of a FETCH needs them for its operation, and one that lowers OUTSTANDING alone needs nothing. A tile takes one block or message, and one RDRSP, at a time. -/
def tileTakes (s : State) (t : Nat) (p : Packet) : Bool :=
  let x := s.tile t
  if isUnitBlock p then
    x.inq.all (fun q => !isUnitBlock q)
      && ((pOp p == opOPMSG && pMtype p == 0) || (streamTest s p).isSome
        || match blockBytes p with
          | none => true
          | some d => tileRoom s t d.length (if pOp p != opOPMSG && fillsChunk s (pOpslot p) (pChunk p) then 2 else 1))
  else if pOp p == opRDRSP then
    x.inq.all (fun q => pOp q != opRDRSP)
      && match mfind? (pTag p) s.mf.own with
        | some r => outcomeRoom s r p.payload.length
        | none => true
  else true
/-- The first packet of a kind that a tile's stream unit has taken. -/
def firstIn (s : State) (t : Nat) (kind : Packet → Bool) : Option Packet := (s.tile t).inq.find? kind
/-- It leaves. -/
def popIn (t : Nat) (kind : Packet → Bool) (s : State) : State := s.modTile t (fun x => { x with inq := x.inq.eraseP kind })

end Sys2Proof.Machine
end

