-- ==== Sys2Proof/Machine/Egress.lean ====
section
/-!
DEFINITION. Shared operations of egress: time gates, shapers, eligibility, weighted fair queuing, what a packet is as it leaves, and where it goes (R25, R101, R121-R128, R148, R158, R166, R290).
-/
namespace Sys2Proof.Machine

/-! ### Shapers and eligibility (R121, R123) -/

/-- A shaper's bucket filled up to now, in 1/8000 byte. What it holds when a commit sets or changes a shaper is not given: DESIGN CHOICE (log 14), its level stays and all time since it was last used is credited at the new rate, so a new shaper starts about full. -/
def shaperFill (s : State) (k : Nat) : Int :=
  let q := s.queue k
  let v := qcfg s k
  min (q.bucket + (fld v 16 20 * (now s - q.bucketAt) : Nat)) (fld v 36 12 * 8192000 : Nat)
/-- The shaper allows a packet: none is set, or the bucket holds its length or is full. -/
def shaperAllows (s : State) (k : Nat) (q : Packet) : Bool :=
  let v := qcfg s k
  fld v 16 20 == 0 || decide ((8000 * pBytes q : Nat) ≤ shaperFill s k) || decide ((fld v 36 12 * 8192000 : Nat) ≤ shaperFill s k)
/-- Tile that a packet at a cluster port is for (R199, R201). -/
def tileOf (q : Packet) : Nat :=
  if isMemRsp (pOp q) then pTag q / 2048 else slotTile (pOpslot q)
/-- The packet a leg sends (R290). -/
def applyLeg (leg : Nat) (q : Packet) : Packet :=
  if leg = 0 then q
  else
    let v := legImage leg
    let q := if bit v 10 then setH q 37 14 (fld v 11 14) else q
    if isTileLeg v then setH q 128 32 (fld v 25 32) else q
/-- The receiver of an internal endpoint can take a packet: a tile's stream unit as R200 says, else the packet waits in its cluster-port queue, a home one of a class at a time (R177), a far die as its core-link headroom allows (R108). -/
def sinkRoom (s : State) (ep : Nat) (x : QPkt) : Bool :=
  if isCoreLink ep then
    decide (mget 0 (qkey ep x.pkt.tc) s.sw.hrUsed + pCells x.pkt ≤ fixedHeadroom ep x.pkt.tc)
  else if 416 ≤ ep ∧ ep < 448 then tileTakes s (tileOf (applyLeg x.leg x.pkt)) (applyLeg x.leg x.pkt)
  else if 462 ≤ ep ∧ ep < 464 then (mget [] (ep - 462) s.mf.homeIn).all (fun q => q.tc != x.pkt.tc)
  else true
/-- The link carries a packet of the queue now: the endpoint sends one packet at a time, a flush that is due comes first, and no block of the queue waits for a decode table (R28, R81, R82, R121, R129, R524). -/
def linkCarries (s : State) (ep : Nat) (q : Packet) : Bool :=
  !(s.cod.waits.any (fun w => w.1 == qkey ep q.tc))
    && (decide (384 ≤ ep)
      || (((s.port ep).flushDue == 0 || ((s.port ep).flushDue == 2 && (q.tc == 0 || q.tc == 6))) && reached s (s.port ep).txEnd
        && egressAllowed s ep q && carries (s.port ep).st q.tc && !((s.port ep).st == .fenced && pCtx q != 0) && !heldDoubtful s ep q.tc (pCtx q)))
/-- A queue is eligible (R121); a stream's response at its leg goes to the decoder, not to the link (R334). -/
def eligible (s : State) (ep tc : Nat) : Bool :=
  match (s.queue (qkey ep tc)).pkts with
  | [] => false
  | x :: _ => linkCarries s ep x.pkt && (x.blk.isSome && decide (ep < 384) || (decide (384 ≤ ep) || linkRoom s ep x.pkt) && gateAllows s ep x.pkt
      && shaperAllows s (qkey ep tc) x.pkt && sinkRoom s ep x)

/-! ### Weighted fair queuing (R122, R132) -/

/-- A queue looked at: its clocks, and its waking when it becomes eligible again. -/
def refresh (ep tc : Nat) (s : State) : State :=
  let k := qkey ep tc
  match (s.queue k).pkts with
  | [] => s
  | _ :: _ =>
    let s := clockQueue ep tc s
    let e := eligible s ep tc
    if e && (s.queue k).blocked then tagHead ep k (s.modQueue k (fun q => { q with blocked := false, woke := true }))
    else s.modQueue k (fun q => { q with blocked := !e })
/-- Every queue of an endpoint looked at. -/
def refreshAll (ep : Nat) (s : State) : State := (List.range 8).foldl (fun s tc => refresh ep tc s) s
/-- Start tag of a queue's head. -/
def headStart (s : State) (ep tc : Nat) : Nat := (((s.queue (qkey ep tc)).tag).getD (0, 0)).1
/-- The class to send: TC6 if it may, else the eligible queue with the smallest start, ties to the lower class. -/
def pickClass (s : State) (ep : Nat) : Option Nat :=
  if eligible s ep 6 then some 6
  else ([0, 1, 2, 3, 4, 5, 7].filter (eligible s ep)).foldl (fun best tc =>
    match best with
    | none => some tc
    | some b => if headStart s ep tc < headStart s ep b then some tc else some b) none
/-- The head of a queue leaves it: virtual time, finish tag, shaper, counters (R122, R123, R132, R133). -/
def popHead (ep tc : Nat) (s : State) : Option (QPkt × State) :=
  let k := qkey ep tc
  let q := s.queue k
  match q.pkts with
  | [] => none
  | x :: rest =>
    let tag := q.tag.getD (0, 0)
    let shaped := fld (qcfg s k) 16 20 != 0
    let s := s.setQueue k { q with
      pkts := rest, tag := none, lastFin := if tc = 6 then q.lastFin else tag.2,
      bucket := if shaped then shaperFill s k - (8000 * pBytes x.pkt : Nat) else q.bucket,
      bucketAt := if shaped then now s else q.bucketAt,
      ctr := mmod 0 14 (fun v => max v (ageOf s x)) q.ctr }
    let s := if tc = 6 then s else { s with sw := { s.sw with vtime := mset 0 ep tag.1 s.sw.vtime } }
    some (x, clockQueue ep tc (tagHead ep k (qcount k 3 (pBytes x.pkt) (qcount k 2 1 s))))

/-- The head of a queue leaves it unsent: nothing is counted as sent (R158). -/
def skipHead (ep tc : Nat) (s : State) : State :=
  clockQueue ep tc (tagHead ep (qkey ep tc) (s.modQueue (qkey ep tc) (fun q => { q with pkts := q.pkts.tail, tag := none })))

/-! ### Leaving -/

/-- Bytes of a response decrypted for its requester, poisoned lines left (R25, R151). -/
def decryptFor (s : State) (e : Nat) (p : Packet) : Packet :=
  let v := extent s e
  if !exXts v || !(pOp p == opRDRSP || pOp p == opDATA) || (pOp p == opDATA && hfld p 173 1 == 1) then p
  else { p with payload := xtsLines false (slotKey s (exKeyslot v)) (exNode v) (pLaddr p)
                  (fun i => pOp p == opRDRSP && bit (pPmask p) (i / 4)) p.payload }
/-- A response toward the requester's edge closes its open record and is decrypted (R25, R148). -/
def leaveEdge (ep : Nat) (p : Packet) (s : State) : Packet × State :=
  if !isEdge s ep || !isResponse (pOp p) then (p, s)
  else match popFirst (fun r => r.ctx == pCtx p && r.src == pDst p && r.tag == pTag p) s.mf.open_ with
    | some (r, rest) => (decryptFor s r.ext p, { s with mf := { s.mf with open_ := rest } })
    | none => (p, s)
/-- A packet crosses a core link: it stands in the far die's core-link headroom and is admitted there; a droppable one keeps its colour (R108). -/
def crossLink (ep : Nat) (x : QPkt) (s : State) : State :=
  let k : Parked := { pkt := x.pkt, blk := x.blk, legs := x.far, wroteAt := now s, src := x.src, head := pCells x.pkt,
                      colour := if droppable x.pkt.tc then some x.colour else none }
  let s := { s with sw := { s.sw with hrUsed := mmod 0 (qkey ep x.pkt.tc) (· + pCells x.pkt) s.sw.hrUsed } }
  takeIn (fun i p s => pathLost i p s) ep k s
/-- A RUN notice that leaves the module: the run's deadline starts behind the last of them (R308). -/
def noteRunSent (p : Packet) (s : State) : State :=
  if pOp p = opCNOTE ∧ hfld p 180 8 = 2 then
    match s.svc.plans.find? (fun e => e.2.running && e.2.spray == hfld p 128 12 && e.2.run == hfld p 140 8 && e.2.ctx == pCtx p && pSrc p == s.boot.node) with
    | some (k, _) => s.modPlan k (fun x => { x with armed := true, deadline := now s + x.span })
    | none => s
  else s
/-- A packet reaches its endpoint. -/
def deliver (ep : Nat) (x : QPkt) (s : State) : State :=
  if isCoreLink ep then crossLink ep x s
  else
    let r := leaveEdge ep (applyLeg x.leg x.pkt) s
    if ep < 384 then
      linkSend ep r.1 ((noteRunSent r.1 r.2).modPort ep (fun y => { y with txEnd := now s + txTime s ep r.1, txCls := x.pkt.tc }))
    else if ep < 416 ∨ (448 ≤ ep ∧ ep < 456) ∨ (466 ≤ ep ∧ ep < 470) then { r.2 with mf := { r.2.mf with modIn := r.2.mf.modIn ++ [(r.1, ep)] } }
    else if ep < 448 then r.2.modTile (tileOf r.1) (fun t => { t with inq := t.inq ++ [r.1] })
    else if 462 ≤ ep ∧ ep < 464 then
      { r.2 with mf := { r.2.mf with homeIn := mmod [] (ep - 462) (· ++ [r.1]) r.2.mf.homeIn } }
    else put (.packet ep r.1) r.2
/-- A memory packet on TC0, TC3 or TC4 is older than the residence limit of its die (R158). -/
def overAge (s : State) (die : Nat) (x : QPkt) : Bool :=
  (isMemReq (pOp x.pkt) || isMemRsp (pOp x.pkt)) && (x.pkt.tc == 0 || x.pkt.tc == 3 || x.pkt.tc == 4)
    && decide (x.wroteAt + resLimit s die < now s)
/-- A packet discarded for residence: a request is answered TIMEOUT through the die's home port, a response is counted (R158, R611). -/
def discardOld (die : Nat) (p : Packet) (s : State) : State :=
  if isRequest (pOp p) then placeResponse (homeEp die) (refusal s p stTimeout 0) s
  else { s with mf := { s.mf with oldResp := s.mf.oldResp + 1 } }
/-- A stream's response leaves its queue for the decoder of its leg, or the queue waits for the table of its block (R28, R334). -/
def takeStreamCopy (ep tc : Nat) (x : QPkt) (s : State) : State :=
  match (if x.slot = 0 then none else waitTable (qkey ep tc) (dieOf ep) (x.slot - 1) s) with
  | some t => t
  | none => settleSlots (releaseLeg (coreOfEp ep) x (streamIntake x (skipHead ep tc s)))
/-- One egress endpoint sends one packet, or discards one that is too old; link-local messages that wait for their port go before it (R94, R121, R122, R158). -/
def egressSend (ep : Nat) (s : State) : State :=
  let s := refreshAll ep (if ep < 384 && linkAlive s ep then sendNbrDue ep s else s)
  match pickClass s ep with
  | none => s
  | some tc =>
    let die := coreOfEp ep
    match (s.queue (qkey ep tc)).pkts with
    | [] => s
    | x :: _ =>
      if overAge s die x then releaseLeg die x (discardOld die x.pkt (skipHead ep tc s))
      else if x.blk.isSome && decide (ep < 384) then takeStreamCopy ep tc x s
      else match popHead ep tc s with
        | none => s
        | some (x, s) => releaseLeg die x (deliver ep x s)

/-! ### Prune notices (R296) -/

/-- The payload of a prune notice (Table 10-3). -/
def prunePayload (s : State) (g li leg : Nat) : List Byte :=
  let p := fld leg 0 10
  let x := s.port p
  natBytes 2 g ++ natBytes 2 li ++ natBytes 2 (if bit leg 10 then fld leg 11 14 else 0xFFFF) ++ natBytes 2 p
    ++ natBytes 8 x.since ++ natBytes 2 s.boot.node
    ++ natBytes 1 (if x.st == .trainR then 1 else if x.st == .fenced then 2 else 0) ++ natBytes 5 0
/-- The notice for a leg of a group: an OPMSG of MTYPE 0xFE on TC6 to the watcher, sent by the die of the leg. -/
def pruneNotice (g li : Nat) (s : State) : State :=
  let v := entry s 0x0018 g
  let leg := entry s 0x0019 li
  let ctx := fld v 28 10
  let q := mkPkt 6 opOPMSG ctx (ctxKgen s ctx) s.tab.cur (fld v 64 14) s.boot.node 0 0
    (fld v 78 20 + 2 ^ 20 * fld v 98 12 + 2 ^ 52 * 0xFE) (prunePayload s g li leg)
  sendFrom (homeEp (coreOfEp (fld leg 0 10))) q s
/-- Groups with an entry of their own. -/
def listedGroups (s : State) : List Nat :=
  (s.tab.live.filter (fun e => decide (tkey 0x0018 0 ≤ e.1 ∧ e.1 < tkey 0x0019 0))).map (fun e => e.1 - tkey 0x0018 0)
/-- Leg indices of a group. -/
def legsOf (s : State) (g : Nat) : List Nat :=
  let v := entry s 0x0018 g
  (List.range (fld v 16 11)).map (fun i => fld v 0 16 + i)
/-- Notices for every enabled watched group with a leg on a port. -/
def pruneFor (port : Nat) (s : State) : State :=
  (listedGroups s).foldl (fun s g =>
    let v := entry s 0x0018 g
    if bit v 27 && bit v 38 then
      ((legsOf s g).filter (fun li => fld (entry s 0x0019 li) 0 10 == port)).foldl (fun s li => pruneNotice g li s) s
    else s) s
/-- One packet flushed from a queue: a request of one leg is answered through the die's home port, anything else is discarded and counted (R129, R130). -/
def flushPacket (ep tc : Nat) (x : QPkt) (s : State) : State :=
  let die := coreOfEp ep
  let s := qcount (qkey ep tc) 8 1 s
  let s := if x.leg = 0 then pathLost (homeEp die) x.pkt s else s
  releaseLeg die x s
/-- One queue flushed in queue order. -/
def flushQueue (ep tc : Nat) (s : State) : State :=
  let k := qkey ep tc
  let pkts := (s.queue k).pkts
  let s := clockQueue ep tc (s.modQueue k (fun q => { q with pkts := [], tag := none, woke := true, blocked := false }))
  pkts.foldl (fun s x => flushPacket ep tc x s) s

end Sys2Proof.Machine
end

