-- ==== Sys2Proof/Machine/LifeOps.lean ====
section
/-!
DEFINITION. Shared operations of the module's life: answers of services, power-on reset, the hold of the dies, departure, and the stop of the control threads at a control restart (R322, R326, R327, R533, R538, R549, R550, R555).
-/
namespace Sys2Proof.Machine

/-! ### Services -/

/-- STATE of a service: 0 ABSENT, 1 STARTING, 2 RUNNING, 3 SWITCHING, 4 FAILED (Table 11-2). -/
def svcState (s : State) (v : Nat) : Nat := fld (svcEntry s v) 0 3
def setSvcState (v st : Nat) (s : State) : State :=
  { s with svc := { s.svc with table := mmod 0 v (fun e => setFld e 0 3 st) s.svc.table } }
/-- The SVCCMP of a request: on its class, in its context, to its SRC with its TAG (R324, R326). -/
def svcAnswer (m : Mail) (payload : List Byte) (s : State) : State :=
  sendFrom (448 + mboxThread s m.svc / 32)
    (mkPkt m.tc opSVCCMP m.ctx (ctxKgen s m.ctx) s.tab.cur m.src s.boot.node m.tag 0 (m.svc + 256 * b2n m.nocmp)
      (padTo (8 * ceilDiv (max 1 payload.length) 8) payload)) s
/-- The completion of an accepted request; one with NOCMP set gets none (R325). -/
def svcComplete (m : Mail) (payload : List Byte) (s : State) : State := if m.nocmp then s else svcAnswer m payload s
/-- A completion that holds a status alone (R327). -/
def svcStatus (m : Mail) (status : Nat) (s : State) : State := svcComplete m (natBytes 8 status) s
/-- The open requests of a service complete with a status. -/
def flushMail (v status : Nat) (s : State) : State :=
  let open_ := mget [] v s.svc.oldMail ++ mget [] v s.svc.mail
  let s := { s with svc := { s.svc with
    mail := mdel v s.svc.mail, oldMail := mdel v s.svc.oldMail, reads := s.svc.reads.filter (fun e => e.1 / 2 ^ 20 != v) } }
  open_.foldl (fun s m => svcStatus m status s) s
/-- The requests that a service has taken and not completed: a run's, a stream's, a batch's, a LOOKUP's, a filter run's, a GRANT's and a peer's REVOKE (R322). -/
def takenMail (v : Nat) (x : Services) : List Mail :=
  match v with
  | 1 => x.plans.filterMap (fun e => e.2.req)
  | 2 => x.streams.filterMap (fun e => e.2.req)
  | 3 => x.experts.filterMap (fun e => e.2.batch.map (·.req))
  | 4 => x.kvWait.map (·.1)
  | 5 => x.filters.map (fun e => e.2.req)
  | 6 => x.holds.filterMap (fun e => e.2.grant) ++ x.drainWait.map (·.2)
  | _ => []
/-- What remains of a service's work once they are completed: a run is over and its operations are to be made anew. -/
def dropTaken (v : Nat) (x : Services) : Services :=
  match v with
  | 1 => { x with plans := x.plans.map (fun e => (e.1, if e.2.running then { e.2 with running := false, req := none, due := false, phase := 0, recreate := true } else e.2)) }
  | 2 => { x with streams := x.streams.map (fun e => (e.1, { e.2 with req := none })) }
  | 3 => { x with experts := x.experts.map (fun e => (e.1, { e.2 with batch := none })) }
  | 4 => { x with kvWait := [] }
  | 5 => { x with filters := [] }
  | 6 => { x with holds := x.holds.map (fun e => (e.1, { e.2 with grant := none })), drainWait := [] }
  | _ => x
/-- Every open request of a service that has stopped completes BUSY_RETRY (R322). -/
def flushOpen (v : Nat) (s : State) : State :=
  (takenMail v s.svc).foldl (fun s m => svcStatus m stBusy s) (flushMail v stBusy { s with svc := dropTaken v s.svc })
/-- CMD of a request: bits [3:0] of byte 0 (R327). -/
def mailCmd (m : Mail) : Nat := fld (byteAt m.data 0 1) 0 4
/-- The first waiting request that satisfies a test, taken out: the old version's mailbox goes first (R323). -/
def takeMailIf (v : Nat) (ok : Mail → Bool) (s : State) : Option (Mail × State) :=
  match popFirst ok (mget [] v s.svc.oldMail) with
  | some (m, rest) => some (m, { s with svc := { s.svc with oldMail := mset [] v rest s.svc.oldMail } })
  | none =>
    match popFirst ok (mget [] v s.svc.mail) with
    | some (m, rest) => some (m, { s with svc := { s.svc with mail := mset [] v rest s.svc.mail } })
    | none => none
/-- Commands of a Tierarel service: 1 up to this one (Tables 10-9, 11-6, 11-9, 11-11 to 11-13). -/
def lastCmd (v : Nat) : Nat := match v with
  | 1 => 3
  | 2 => 3
  | 3 => 4
  | 4 => 4
  | 5 => 1
  | _ => 6
/-- CMD is none of the service's. -/
def cmdUnknown (m : Mail) : Bool := mailCmd m == 0 || decide (lastCmd m.svc < mailCmd m)
/-- The first waiting request of a command; one whose CMD is none of the service's goes with the first command, which refuses it. -/
def takeMail (v cmd : Nat) (s : State) : Option (Mail × State) :=
  takeMailIf v (fun m => mailCmd m == cmd || (cmd == 1 && cmdUnknown m)) s

/-! ### Control restart (R533, R549) -/

/-- A thread as a restart leaves it: stopped at its entry, its events and registers gone; its context, its range and its outstanding tags stay. -/
def threadRestart (t : Thread) : Thread :=
  { ctx := t.ctx, svc := t.svc, lo := t.lo, hi := t.hi, pc := t.lo, ticket := t.ticket, tagNext := t.tagNext, tags := t.tags }
/-- Services with an entry of their own. -/
def listedServices (s : State) : List Nat := mkeys s.svc.table
/-- Every service that serves is STARTING, and its open requests complete BUSY_RETRY (R322, R533). -/
def servicesStarting (s : State) : State :=
  (listedServices s).foldl (fun s v =>
    if svcState s v = 2 ∨ svcState s v = 3 then setSvcState v 1 (flushMail v stBusy s) else s) s
/-- The control threads stop: a freeze ends, open commit groups are gone, services are STARTING (R533, R549, R584). -/
def controlRestartNow (s : State) : State :=
  let s := servicesStarting (dropGroups (autoThawNow s))
  { s with ctl := { s.ctl with
    threads := mmap {} (fun h t => if h < 256 then threadRestart t else t) s.ctl.threads
    restartAt := some (now s) } }

/-! ### Control programs (R215, R240, R320, R471) -/

/-- Words put into a control core's program memory from a word on (core 8: Chervil's store), as far as it goes. -/
def loadWords (core base : Nat) (l : List Word) (s : State) : State :=
  { s with ctl := { s.ctl with
    prog := ((l.take (65536 - base)).zipIdx).foldl (fun m e => mset (0 : Word) (65536 * core + base + e.2) e.1 m) s.ctl.prog } }
/-- A thread starts the program whose header stands at a word of its core's memory: at its word 8, within the length that the header names (R215, R240; log 4). -/
def startThread (h base : Nat) (s : State) : State :=
  let n := fld (mget (0 : Word) (65536 * (h / 32) + base + 1) s.ctl.prog).toNat 16 14
  s.modThread h (fun t => { t with running := true, lo := base + 8, hi := min 65536 (base + n), pc := base + 8 })
/-- A bundle's control program in the memories of its control cores (Table 11-2). -/
def loadBundle (b : Bundle) (s : State) : State :=
  ((List.range 8).filter (fun c => bit b.ccmask c || b.mbox / 32 == c)).foldl (fun s c =>
    loadWords c b.base (Config.programWords b.digest) s) s
/-- Where the program of a thread stands: that of the bundle it serves, else the control program. -/
def threadBase (s : State) (h : Nat) : Nat :=
  match mfind? (s.thread h).svc s.svc.bundle with
  | some k => (mget {} k s.sec.bundles).base
  | none => 0
/-- The control program in use in the memory of every control core (R471, R533). -/
def loadControl (s : State) : State :=
  (List.range 8).foldl (fun s c => loadWords c 0 (Config.programWords (s.image (4 + mget 0 2 s.sec.inUse)).digest) s) s
/-- Every thread of an enabled control core starts its program (R514, R533, R549). -/
def startThreads (s : State) : State :=
  (List.range 256).foldl (fun s h => if s.ctl.coreOff.contains (h / 32) then s else startThread h (threadBase s h) s) s
/-- Chervil's firmware starts, the image in use in its store (R471, R532). -/
def startFirmware (s : State) : State :=
  startThread 256 0 (loadWords 8 0 (Config.programWords (s.image (2 + mget 0 1 s.sec.inUse)).digest) s)

/-! ### Power and the hold of the dies (R538, R550, R555, R567, R571) -/

/-- What the non-volatile store holds of the root of trust (Table 20-9). -/
def securityKept (x : Security) : Security :=
  { pref := x.pref, active := x.pref, token := x.pref, images := x.images, inUse := x.preferred, preferred := x.preferred,
    floors := x.floors, lms0 := x.lms0, lms1 := x.lms1, lmsLost := x.lmsLost, nextTree := x.nextTree,
    signers := x.signers, roots := x.roots }
/-- Lanes that are retired stay so (Table 20-9). -/
def lanesKept (m : SMap Lane) : SMap Lane :=
  (m.filter (fun e => e.2.retired)).map (fun e => (e.1, { retired := true, port := e.2.port }))
/-- A power-on reset: only the non-volatile store remains, and module time stands at zero (R53, R538, R555); pins stay as they are driven (R604). The queue of commands and the record of outputs are the model's own. -/
def powerOff (s : State) : State :=
  { pending := s.pending, free := s.free, out := s.out
    evr := { crit := s.evr.crit, critPos := s.evr.critPos, critLap := s.evr.critLap }
    chv := { offsets := s.chv.offsets, shadowRate := s.chv.shadowRate, cap := s.chv.cap, dozeEn := s.chv.dozeEn, dozeV := s.chv.dozeV }
    lanes := lanesKept s.lanes
    hst := { ownLease := s.hst.ownLease, i3cStatic := s.hst.i3cStatic, ports := mmap {} (fun _ h => { perst := h.perst }) s.hst.ports }
    cx := { kgen := s.cx.kgen, closures := s.cx.closures }
    sec := securityKept s.sec
    rel := { cellRate := s.rel.cellRate, ppr := s.rel.ppr }
    tier := { remap := s.tier.remap, remapUsed := s.tier.remapUsed, remapFree := s.tier.remapFree, retired := s.tier.retired }
    boot := { profile := s.boot.profile, mreset := s.boot.mreset } }
/-- The port and core dies go into reset unless they are held already. -/
def holdNow (s : State) : State := if s.boot.held then s else coreHold s
/-- The core is held, and MODSTAT says so at once. -/
def converterStop (s : State) : State :=
  let s := holdNow s
  { s with chv := { s.chv with convStop := true } }
/-- Step 1 of a departure: FULL cleared, DEPARTING set; the module's link-state record then lists every trunk port unusable, and is due (R540, R550); a second trigger changes nothing. -/
def startDeparture (s : State) : State :=
  if s.boot.held || s.boot.depart != 0 then s
  else { s with
    boot := { s.boot with full := false, depart := 2, departAt := now s } }

end Sys2Proof.Machine
end

