-- ==== Sys2Proof/Machine/OwnOps.lean ====
section
/-!
DEFINITION. Shared operations of the module's own requests: tags, retries and outcomes, and the arrival of blocks and responses at an operation (R161-R163, R199-R203, R255, R299-R301, R326).
-/
namespace Sys2Proof.Machine

/-! ### Tags (R161, R201, R326) -/

/-- Timeout of a context's requests in ns (R163). -/
def ownTimeout (s : State) (c : Nat) : Nat := 1000 * fld (entry s 0x0030 c) 48 14
/-- Retry limit of a context (R163). -/
def ownRetries (s : State) (c : Nat) : Nat := fld (entry s 0x0030 c) 62 3
/-- A tag of MODULE_NODE that no request uses: none is outstanding with it, and it is not held for a late response. -/
def tagFree (s : State) (tag : Nat) : Bool :=
  !mhas tag s.mf.own
    && (match mfind? tag s.mf.tagHold with
        | some t => decide (t ≤ now s)
        | none => true)
    && !(decide (524288 ≤ tag ∧ tag < 786432) && (s.thread ((tag - 524288) / 32768 * 32 + (tag - 524288) % 32768 / 512)).tags.contains tag)
/-- First tag and number of tags of a tag's owner: a tile's 2,048, a control thread's 512. -/
def tagRange (tag : Nat) : Nat × Nat :=
  if tag < 524288 then (tag / 2048 * 2048, 2048) else (tag / 512 * 512, 512)
/-- The first free tag of an owner from a position on (log 15). -/
def freeTag (s : State) (base n from_ : Nat) : Option Nat :=
  ((List.range n).map (fun i => base + (from_ + i) % n)).find? (tagFree s)
/-- First tag of a control thread. -/
def threadTags (h : Nat) : Nat := 524288 + 32768 * (h / 32) + 512 * (h % 32)
/-- A request of the module goes out with a tag. -/
def issueOwn (tag : Nat) (r : OwnReq) (s : State) : State :=
  let r := { r with pkt := setH r.pkt 65 20 tag, at_ := now s, retryAt := none, silent := false }
  sendFrom (tagEp tag) r.pkt { s with mf := { s.mf with
    own := mput tag r s.mf.own
    tagHold := mdel tag s.mf.tagHold } }
/-- A request of the module tried again with a new tag, its own key generation and epoch, and RETRY set (R161, R163). -/
def reissueOwn (old tag : Nat) (r : OwnReq) (s : State) : State :=
  let p := setH (setH (setH r.pkt 93 1 1) 19 2 s.tab.cur) 21 6 (ctxKgen s (pCtx r.pkt))
  issueOwn tag { r with pkt := p, tries := r.tries + 1 } { s with mf := { s.mf with own := mdel old s.mf.own } }
/-- Statuses after which a request is tried again (R163). -/
def retriable (st : Nat) : Bool := st == stStaleMap || st == stPathLost || st == stTimeout || st == stBusy
/-- When the next attempt is due after a status: behind BUSY_RETRY 2^(n-1) us before attempt n, the first sending being attempt 1 (log 64), else at once. -/
def retryDue (s : State) (r : OwnReq) (st : Nat) : Nat := if st = stBusy then now s + 1000 * 2 ^ (r.tries + 1) else now s

/-! ### Blocks and the scoreboard (R200, R202, R203, R224) -/

def setArrived (n chunk v : Nat) (s : State) : State :=
  s.modTile (slotTile n) (fun x => { x with arrived := mset 0 ((s.slot n).cbase + chunk) v x.arrived })
/-- The test of an armed chunk: ALL for each time the expected count goes into the arrival count, as far as the event queue has entries (R203, R224; log 35). -/
def testChunk (n chunk : Nat) (s : State) : State :=
  let a := arrivedOf s n chunk
  let e := expectedOf s n chunk
  if e = 0 then s
  else
    let k := min (a / e) (8192 - (s.tile (slotTile n)).evq)
    (List.range k).foldl (fun s _ => raiseEvent n { ev := 1, chunk := chunk } s) (setArrived n chunk (a - k * e) s)
/-- A BLOCK raised: its arrival is counted, saturating with FAULT COUNT, and the chunk tested (R202, R203). -/
def arriveBlock (n : Nat) (e : OpEvent) (s : State) : State :=
  let a := arrivedOf s n e.chunk
  let s := raiseEvent n e s
  if a = 65535 then raiseFault n 6 0 s else testChunk n e.chunk (setArrived n e.chunk (a + 1) s)
/-- A payload block that the stream unit has taken is tested and staged, discarded and counted, or waits for room (R199-R203, R301). -/
def takeBlock (t : Nat) (p : Packet) (s : State) : State :=
  match streamTest s p with
  | some row => tileCount t row 1 (popIn t isUnitBlock s)
  | none =>
    match blockBytes p with
    | none => lookupCount (tileCore t) 5 (popIn t isUnitBlock s)
    | some d =>
      let n := pOpslot p
      if tileRoom s t d.length (if fillsChunk s n (pChunk p) then 2 else 1) then
        arriveBlock n { ev := 0, chunk := pChunk p, len := d.length, boff := pBoff p, src := pSrc p, data := d, hasData := true } (popIn t isUnitBlock s)
      else s
/-- A running plan that an operation with its GEN belongs to, with the operation's number. -/
def planOfOp (s : State) (n : Nat) : Option (Nat × Nat) :=
  s.svc.plans.findSome? (fun e =>
    if e.2.running then (e.2.ops.findIdx? (fun o => o == (n, (s.slot n).gen))).map (fun i => (e.1, i)) else none)
/-- A prune notice that reaches a plan's watcher, its first operation: the member it names is lost to the run (R296, R310, R311). -/
def noteNotice (n : Nat) (p : Packet) (s : State) : State :=
  match planOfOp s n with
  | some (k, 0) => if pMtype p = 0xFE then s.modPlan k (fun x => { x with told := insertSet (byteAt p.payload 4 2) x.told }) else s
  | _ => s
/-- A staging line that an operation of phase 2 reads as poisoned: its chunk is not delivered (R317). -/
def notePoison (n chunk : Nat) (s : State) : State :=
  match planOfOp s n with
  | some (k, i) =>
    if (s.plan k).staged && (s.plan k).phase == 2 then
      s.modPlan k (fun x => { x with bad := insertSet (chunk * x.ops.length + i) x.bad })
    else s
  | none => s
/-- A message that the stream unit has taken (R199, R200); type 0 never comes from outside (R197). -/
def takeMessage (t : Nat) (p : Packet) (s : State) : State :=
  match (if pMtype p = 0 then some 0 else streamTest s p) with
  | some row => tileCount t row 1 (popIn t isUnitBlock s)
  | none =>
    if tileRoom s t p.payload.length 1 then
      raiseEvent (pOpslot p)
        { ev := 3, code := pMtype p, len := p.payload.length, src := pSrc p, data := p.payload, hasData := !p.payload.isEmpty }
        (noteNotice (pOpslot p) p (popIn t isUnitBlock s))
    else s

/-! ### Outcomes (R163, R201) -/

/-- Bytes copied to a free place of a core's data memory, 8 B aligned: the place is open (log 8). -/
def stash (core : Nat) (data : List Byte) (s : State) : Nat × State :=
  let d := draw s
  let a := 8 * (d.1 % 524032)
  (a, { d.2 with ctl := { d.2.ctl with data := memWrite d.2.ctl.data (4194304 * core + a) data } })
/-- The event of Table 11-4 for a message at a data-memory address. -/
def mailEvent (m : Mail) (completion : Bool) (addr : Nat) : List Byte :=
  natBytes 1 m.svc ++ natBytes 1 (b2n m.nocmp + 2 * b2n completion + 4 * m.origin) ++ natBytes 2 m.ctx ++ natBytes 2 m.src
    ++ natBytes 2 m.data.length ++ natBytes 4 m.tag ++ natBytes 4 0 ++ natBytes 8 addr ++ natBytes 8 m.at_
/-- A response awaited no longer. -/
def lowerOutstanding (n : Nat) (s : State) : State := s.modSlot n (fun x => { x with outst := x.outst - 1 })
/-! ### Requests that wait for a tag (R161, R326) -/

/-- Position of an owner's next tag. -/
def ownNext (s : State) (base : Nat) : Nat :=
  if base < 524288 then (s.tile (base / 2048)).tagNext else (s.thread ((base - 524288) / 32768 * 32 + (base - 524288) % 32768 / 512)).tagNext
/-- The position moved on. -/
def stepNext (base : Nat) (s : State) : State :=
  if base < 524288 then s.modTile (base / 2048) (fun t => { t with tagNext := (t.tagNext + 1) % 2048 })
  else s.modThread ((base - 524288) / 32768 * 32 + (base - 524288) % 32768 / 512) (fun t => { t with tagNext := (t.tagNext + 1) % 512 })
/-- A request of an owner, named by its first tag: it goes out under the next free tag, or waits for one behind those that wait. -/
def requestOwn (base : Nat) (r : OwnReq) (s : State) : State :=
  let wait := { s with svc := { s.svc with backlog := s.svc.backlog ++ [(base, r)] } }
  if s.svc.backlog.any (fun e => e.1 == base) then wait
  else match freeTag s base (tagRange base).2 (ownNext s base) with
    | some tag => issueOwn tag r (stepNext base s)
    | none => wait
/-- The requests of an owner that wait take the tags that are free. -/
def drainBacklog (base : Nat) (s : State) : State :=
  let mine := s.svc.backlog.filter (fun e => e.1 == base)
  mine.foldl (fun s e => requestOwn base e.2 s) { s with svc := { s.svc with backlog := s.svc.backlog.filter (fun e => e.1 != base) } }
/-- Requests of a user for a unit that are outstanding or wait for a tag. -/
def ownOpen (s : State) (user unit : Nat) : Bool :=
  s.mf.own.any (fun e => e.2.user == user && e.2.unit == unit) || s.svc.backlog.any (fun e => e.2.user == user && e.2.unit == unit)

/-! ### Peers of the lease manager (R156, R349, R351; layouts: log 49) -/

/-- A request of the lease manager to another module's, SVC 6, in context 0 on TC6. -/
def leaseRequest (e node : Nat) (d : List Byte) (s : State) : State :=
  requestOwn (threadTags (mboxThread s 6))
    { pkt := mkPkt 6 opSVCREQ 0 (ctxKgen s 0) s.tab.cur node s.boot.node 0 0 6 d, user := 10, unit := e, arg := node } s
def modHold (e : Nat) (f : LeaseHold → LeaseHold) (s : State) : State :=
  { s with svc := { s.svc with holds := mput e (f (mget {} e s.svc.holds)) s.svc.holds } }
/-- REVOKING asked of every other module that holds the extent (R156). -/
def tellHolders (e : Nat) (s : State) : State :=
  let x := mget {} e s.svc.holds
  if x.mods.isEmpty then s
  else x.mods.foldl (fun s n => leaseRequest e n (natBytes 2 6 ++ natBytes 2 e ++ natBytes 4 0) s) (modHold e (fun x => { x with undrained := x.mods }) s)
/-- A GRANT that no report is missing of completes with the first status that was not OK. -/
def settleGrant (e : Nat) (s : State) : State :=
  let x := mget {} e s.svc.holds
  match x.grant with
  | none => s
  | some m =>
    if !x.uninstalled.isEmpty then s
    else svcComplete m (natBytes 4 x.status ++ natBytes 4 e ++ natBytes 4 x.node ++ natBytes 4 x.base) (modHold e (fun x => { x with grant := none }) s)
/-- A peer's answer: to a REVOKE once its drain is complete, to the installation of an extent, or to a later state of it. A REVOKE that was not carried out is asked again. -/
def settleLease (r : OwnReq) (st : Nat) (s : State) : State :=
  if fld (byteAt r.pkt.payload 0 1) 0 4 = 6 then
    if st = stOK ∨ st = stViolation ∨ st = stRevoked then modHold r.unit (fun x => { x with undrained := x.undrained.filter (· != r.arg) }) s
    else leaseRequest r.unit r.arg r.pkt.payload s
  else if byteAt r.pkt.payload 1 1 = 1 then
    settleGrant r.unit (modHold r.unit (fun x => { x with
      uninstalled := x.uninstalled.filter (· != r.arg), status := if x.status = stOK then st else x.status }) s)
  else s

/-! ### Peers of a removal (R460, R462; layouts: log 49) -/

/-- Peers of a context's anchor. -/
def peersOf (s : State) (c : Nat) : List Nat := (List.range (min 8 (fld (entry s 0x0030 c) 240 4))).map (fun i => fld (entry s 0x0030 c) (128 + 14 * i) 14)
/-- The flip reports that T_R waits for are in: every peer's on the anchor, the anchor's on a peer (R460, R462). -/
def reportsIn (s : State) (c : Nat) (r : Removal) : Bool :=
  if bit (entry s 0x0030 c) 3 then (peersOf s c).all (fun n => r.reports.contains n || r.excluded.contains n) else !r.reports.isEmpty
/-- A request about a removal to a peer's lease manager: form 4 asks for its closing group, form 5 reports that every module has flipped (R460). -/
def peerRequest (c node form : Nat) (s : State) : State :=
  requestOwn (threadTags (mboxThread s 6))
    { pkt := mkPkt 6 opSVCREQ 0 (ctxKgen s 0) s.tab.cur node s.boot.node 0 0 6 (natBytes 1 2 ++ natBytes 1 form ++ natBytes 2 c), user := 14, unit := c, arg := node } s
/-- T_R: the module time at which the own closing group has flipped and the reports are in; the anchor then sends its own report to the peers (R460). -/
def settleTr (c : Nat) (s : State) : State :=
  match mfind? c s.cx.removals with
  | none => s
  | some r =>
    if r.flipped && r.tr.isNone && reportsIn s c r then
      let s := { s with cx := { s.cx with removals := mput c { r with tr := some (now s) } s.cx.removals } }
      if bit (entry s 0x0030 c) 3 then ((peersOf s c).filter (fun n => !r.excluded.contains n)).foldl (fun s n => peerRequest c n 5 s) s else s
    else s
/-- A flip report: of a peer on the anchor, of the anchor on a peer. -/
def noteReport (c node : Nat) (s : State) : State :=
  match mfind? c s.cx.removals with
  | none => s
  | some r =>
    if !bit (entry s 0x0030 c) 3 || (peersOf s c).contains node then
      settleTr c { s with cx := { s.cx with removals := mput c { r with reports := insertSet node r.reports } s.cx.removals } }
    else s
/-- A peer's answer to a request about a removal: its SVCCMP to form 4 is its flip report; one that could not be served is asked again until the anchor goes on without the peer. -/
def settlePeer (r : OwnReq) (st : Nat) (s : State) : State :=
  if st = stOK then (if byteAt r.pkt.payload 1 1 = 4 then noteReport r.unit r.arg s else s)
  else if retriable st && (mfind? r.unit s.cx.removals).any (fun x => !x.excluded.contains r.arg) then peerRequest r.unit r.arg (byteAt r.pkt.payload 1 1) s
  else s

/-- The outcome of a tile's FETCH or STORE, or of a control thread's: a thread gets it as an event of type 0x01 with COMPLETION, its payload the status and the data (R162, R201; log 36). -/
def settleOwn (tag : Nat) (r : OwnReq) (st : Nat) (p : Packet) (s : State) : State :=
  let s := { s with mf := { s.mf with own := mdel tag s.mf.own } }
  let carries := st == stOK || st == stPoison
  if r.user = 0 then
    let s := lowerOutstanding r.unit s
    if (s.slot r.unit).st ≠ .live then s
    else
      let d := if carries then p.payload else []
      let e : OpEvent := { ev := 0, status := st, fetched := true, chunk := r.arg % 65536, boff := r.arg / 65536 }
      let s := if st = stPoison then notePoison r.unit (r.arg % 65536) s else s
      arriveBlock r.unit { e with len := d.length, src := pSrc p, data := d, pmask := if carries then pPmask p else 0, hasData := carries } s
  else if r.user = 1 then
    let s := lowerOutstanding r.unit s
    if (s.slot r.unit).st = .live ∧ st ≠ stOK then raiseFault r.unit 7 st s else s
  else if r.user = 4 ∨ r.user = 7 then s
  else if r.user = 8 then
    -- a pool request of a DMA descriptor (R440, R445)
    let f := fun (d : Dma) =>
      if d.thread = r.unit / 65536 ∧ d.ticket = r.unit % 65536 ∧ d.asked then
        (if st = stOK then { d with lines := mput r.arg p.payload d.lines } else { d with fail := some (d.fail.getD st) }) else d
    [0, 1].foldl (fun s k => s.modHport k (fun h => { h with rdq := h.rdq.map f, wrq := h.wrq.map f })) s
  else if r.user = 9 then
    -- a write of a page's copy (R388)
    if st = stOK then s
    else { s with tier := { s.tier with
      moves := s.tier.moves.map (fun m => if m.page = r.unit ∧ m.asked then { m with failed := some (m.failed.getD st) } else m) } }
  else if r.user = 10 then settleLease r st s
  else if r.user = 14 then settlePeer r st s
  else if r.user = 15 then
    -- a store of a report: its request completes with the first status that is not OK (R485)
    if st = stOK then s
    else { s with sec := { s.sec with kreqs := s.sec.kreqs.map (fun q =>
      if 65536 * q.thread + q.ticket = r.unit then
        { q with done := q.done.map (fun b => if byteAt b 2 1 = 0 then b.take 2 ++ natBytes 1 st ++ b.drop 3 else b) } else q) } }
  else if r.user = 11 then
    -- a piece of a service's read (R327)
    { s with svc := { s.svc with reads := s.svc.reads.map (fun e =>
      if e.1 ≠ r.unit then e
      else (e.1, if st = stOK then { e.2 with got := mput r.arg p.payload e.2.got }
                 else { e.2 with status := if e.2.status = stOK then st else e.2.status })) } }
  else if r.user = 12 then
    -- a piece that an operation of a service fetches (R341, R342, R348)
    { s with svc := { s.svc with pieces := mput (r.unit * 2 ^ 64 + r.arg) (st, if st = stOK then p.payload else []) s.svc.pieces } }
  else if r.user = 13 then
    -- a piece that an operation of a service stores (R341-R343)
    if st = stOK then s
    else { s with svc := { s.svc with pieces := mput (r.unit * 2 ^ 64 + r.arg) (st, []) s.svc.pieces } }
  else if r.user = 6 then
    -- a write of an extent's scrub (R465)
    if st = stOK then s
    else emitClass (threadDie r.arg) 0x0C r.unit st 0 0 { s with svc := { s.svc with
      scrubs := mmod 0 r.unit (· + 8192) s.svc.scrubs } }
  else if r.user = 5 then
    -- the primary copy of a phase-state record (R315)
    if st = stOK ∨ (s.plan r.unit).primaryLost then s
    else emit (threadDie r.arg) 0x0601 3 r.unit (s.plan r.unit).run 0 0 (s.modPlan r.unit (fun x => { x with primaryLost := true, degraded := true }))
  else
    let data := natBytes 8 st ++ (if carries then p.payload else [])
    let a := stash (r.unit / 32) data s
    raiseThread r.unit 1 (natBytes 1 0 ++ natBytes 1 2 ++ natBytes 2 (pCtx r.pkt) ++ natBytes 2 (pSrc p) ++ natBytes 2 data.length
      ++ natBytes 4 tag ++ natBytes 4 0 ++ natBytes 8 a.1 ++ natBytes 8 (now s)) a.2
/-- The same, and a request that waits for the tag goes out. -/
def finishOwn (tag : Nat) (r : OwnReq) (st : Nat) (p : Packet) (s : State) : State :=
  drainBacklog (tagRange tag).1 (settleOwn tag r st p s)
/-- STATUS of an answer; an SVCCMP's is in its first payload byte (R162, R327). -/
def answerStatus (p : Packet) : Nat := if pOp p = opSVCCMP then fld (byteAt p.payload 0 1) 0 4 else pStatus p
/-- A response taken from its queue: a tag that is not outstanding is counted, a status to retry waits for its retry, any other outcome goes to its owner. `pop` takes the packet from where it stands; it waits there while its owner has no room (R161, R163). -/
def takeResponse (p : Packet) (pop : State → State) (s : State) : State :=
  match mfind? (pTag p) s.mf.own with
  | none =>
    if (mfind? (pTag p) s.mf.tagHold).any (fun t => decide (now s < t)) then
      pop { s with mf := { s.mf with tagHold := mdel (pTag p) s.mf.tagHold } }
    else pop { s with mf := { s.mf with strayTags := s.mf.strayTags + 1 } }
  | some r =>
    if responseOp (pOp r.pkt) ≠ pOp p then pop { s with mf := { s.mf with strayTags := s.mf.strayTags + 1 } }
    else
      let st := answerStatus p
      if retriable st && decide (r.tries < ownRetries s (pCtx r.pkt)) then
        pop { s with mf := { s.mf with own := mput (pTag p) { r with last := some st, retryAt := some (retryDue s r st), silent := false } s.mf.own } }
      else if outcomeRoom s r p.payload.length then finishOwn (pTag p) r st p (pop s)
      else s

end Sys2Proof.Machine
end

