-- ==== Sys2Proof/Machine/TierOps.lean ====
section
/-!
DEFINITION. Shared operations of the memory tiers: quotas and room, frames and backing pages, victims, and moves (R381-R397).
-/
namespace Sys2Proof.Machine

/-! ### Use and room (R392-R397) -/

/-- A page takes a near frame. -/
def pgNear (v : Nat) : Bool := pgState v == 1 || (pgState v == 3 && (pgTier v == 0 || pgTo v == 0))
/-- A page takes a page of a far tier. -/
def pgFar (tier v : Nat) : Bool := (pgState v == 2 && pgTier v == tier) || (pgState v == 3 && (pgTier v == tier || pgTo v == tier))
/-- Pages that satisfy a test. -/
def pageCount (s : State) (f : Nat → Bool) : Nat := (s.tier.pages.filter (fun e => f e.2)).length
/-- Quota entry and tier control entry (Tables 14-4, 14-5). -/
def quota (s : State) (c : Nat) : Nat := entry s 0x0028 c
def qShared (s : State) (c : Nat) : Bool := bit (quota s c) 86
def sharedFrames (s : State) : Nat := fld (entry s 0x0029 0) 0 22
def tierHold (s : State) : Nat := 1000 * fld (entry s 0x0029 0) 22 10
/-- Near frames that a plan's staging takes on the root: 1,024 B of staging for each chunk, in whole pages (R303, R396). -/
def stagingPages (p : Plan) : Nat := if p.used && p.stagingHeld then ceilDiv (1024 * p.chunks) 65536 else 0
/-- Staging pages of the plans of contexts. -/
def stagingUsed (s : State) (mine : Nat → Bool) : Nat := s.svc.plans.foldl (fun a e => if mine e.2.ctx then a + stagingPages e.2 else a) 0
/-- NEAR_USED, POOL_USED and HOST_USED of a context (Table 14-4). -/
def nearUsed (s : State) (c : Nat) : Nat := pageCount s (fun v => pgCtx v == c && pgNear v) + stagingUsed s (· == c)
def poolUsedBy (s : State) (c : Nat) : Nat := pageCount s (fun v => pgCtx v == c && pgFar 1 v)
def hostUsedBy (s : State) (c : Nat) : Nat := pageCount s (fun v => pgCtx v == c && pgFar 2 v)
/-- Frames of the compatibility pool in use (R397). -/
def sharedUsed (s : State) : Nat := pageCount s (fun v => pgShared v && pgNear v) + stagingUsed s (qShared s)
/-- A context's quota has room for staging pages (R396). -/
def stagingFits (s : State) (c n : Nat) : Bool :=
  if qShared s c then decide (sharedUsed s + n ≤ sharedFrames s) else decide (nearUsed s c + n ≤ fld (quota s c) 0 22)
/-- Room in a tier for one more page of a context (R395, R397): near, pool, host. -/
def quotaRoom (s : State) (tier c : Nat) : Bool :=
  match tier with
  | 0 => if qShared s c then decide (sharedUsed s < sharedFrames s) else decide (nearUsed s c < fld (quota s c) 0 22)
  | 1 => decide (poolUsedBy s c < fld (quota s c) 22 32)
  | _ => decide (hostUsedBy s c < fld (quota s c) 54 32)

/-- The first number from lo on that a rising list does not hold. -/
def firstGap : Nat → List Nat → Nat
  | lo, [] => lo
  | lo, x :: t => if x < lo then firstGap lo t else if x = lo then firstGap (lo + 1) t else lo
/-- The lowest free frame of a stack that is not retired (R382, R391). -/
def freeFrame (s : State) (stack : Nat) : Option Nat :=
  let used := s.tier.retired.foldl (fun l f => insertSet f l) s.tier.frames
  let f := firstGap 0 ((used.filter (fun k => k / 1048576 == stack)).map (· % 1048576))
  if f < 524288 then some f else none
/-- Backing extents (R392) that serve: ACTIVE or GRACE. -/
def isBacking (s : State) (v : Nat) : Bool :=
  exOwner v == 0 && exHolder v == s.boot.node && exTier v == 1 && !exXts v && exNode v != s.boot.node
    && (exState v == 1 || exState v == 2)
/-- A free backing page: LOC of the pool tier, and its key. -/
def freePool (s : State) : Option (Nat × Nat) :=
  (listedExtents s).findSome? (fun e =>
    let v := extent s e
    if isBacking s v then
      let g := firstGap 0 ((s.tier.poolUsed.filter (fun k => k / 2 ^ 32 == e)).map (· % 2 ^ 32))
      if g < exSize v then some (e + 2 ^ 16 * g, 2 ^ 32 * e + g) else none
    else none)
/-- A free host page behind a port whose window is open and whose link is up: LOC of the host tier, and its key (R393). -/
def freeHost (s : State) : Option (Nat × Nat) :=
  [0, 1].findSome? (fun port =>
    let w := entry s 0x002A port
    if bit w 96 && (s.hport port).linkUp then
      let g := firstGap 0 ((s.tier.hostUsed.filter (fun k => k / 2 ^ 32 == port)).map (· % 2 ^ 32))
      if g < fld w 64 32 then some (port + 2 * g, 2 ^ 32 * port + g) else none
    else none)
/-- A place in a tier for a page: its LOC. -/
def freePlace (s : State) (tier p : Nat) : Option Nat :=
  match tier with
  | 0 => freeFrame s (stackOf s p)
  | 1 => (freePool s).map (·.1)
  | _ => (freeHost s).map (·.1)
/-- A place taken, or given back. -/
def takePlace (tier p loc : Nat) (s : State) : State :=
  match tier with
  | 0 => { s with tier := { s.tier with frames := insertSet (1048576 * stackOf s p + loc) s.tier.frames } }
  | 1 => { s with tier := { s.tier with poolUsed := insertSet (2 ^ 32 * fld loc 0 16 + fld loc 16 32) s.tier.poolUsed } }
  | _ => { s with tier := { s.tier with hostUsed := insertSet (2 ^ 32 * fld loc 0 1 + fld loc 1 32) s.tier.hostUsed } }
def freePlaceOf (tier p loc : Nat) (s : State) : State :=
  match tier with
  | 0 => { s with tier := { s.tier with frames := eraseSet (1048576 * stackOf s p + loc) s.tier.frames } }
  | 1 => { s with tier := { s.tier with poolUsed := eraseSet (2 ^ 32 * fld loc 0 16 + fld loc 16 32) s.tier.poolUsed } }
  | _ => { s with tier := { s.tier with hostUsed := eraseSet (2 ^ 32 * fld loc 0 1 + fld loc 1 32) s.tier.hostUsed } }

/-- Near frames taken for staging, the stacks in turn; none where a stack has no more (R396). -/
def takeFrames (n : Nat) (s : State) : Option (List Nat × State) :=
  (List.range n).foldl (fun (a : Option (List Nat × State)) i => a.bind (fun x =>
    (freeFrame x.2 (stackOf x.2 i)).map (fun f => (x.1 ++ [1048576 * stackOf x.2 i + f], takePlace 0 i f x.2)))) (some ([], s))
/-- Frames that staging holds. -/
def holdFrames (l : List Nat) (s : State) : State := { s with tier := { s.tier with frames := l.foldl (fun a f => insertSet f a) s.tier.frames } }
/-- A plan's staging returned (R317, R396). -/
def dropStaging (k : Nat) (s : State) : State :=
  let l := (s.plan k).frames
  let s := { s with tier := { s.tier with frames := s.tier.frames.filter (fun f => !l.contains f) } }
  s.modPlan k (fun x => { x with stagingHeld := false, frames := [] })

/-! ### Moves (R388, R389) -/

/-- The tier a page rests in. -/
def restTier (v : Nat) : Nat := if pgState v = 1 then 0 else pgTier v
/-- A page can begin a move to a tier. -/
def canMove (s : State) (p dest : Nat) : Bool :=
  let v := page s p
  (pgState v == 1 || pgState v == 2) && restTier v != dest && !(pgState v == 1 && pgFixed v)
/-- Steps 1 and 2 of a move: lines written back, the destination taken, the page MIGRATING (R388). -/
def beginMove (p dest tc : Nat) (job : Option Nat) (loc : Nat) (s : State) : State :=
  let s := takePlace dest p loc (writeBackPage p s)
  let v := page s p
  let m : Move := { page := p, loc := loc, dest := dest, src := restTier v, tc := tc, job := job }
  let s := setPage p (setFld (setFld (setFld v 0 3 3) 3 2 (restTier v)) 5 2 dest) s
  { s with tier := { s.tier with moves := s.tier.moves ++ [m] } }
/-- A move begun if quota and place allow. -/
def tryMove (p dest tc : Nat) (job : Option Nat) (force : Bool) (s : State) : Option State :=
  if !canMove s p dest then none
  else if !force && !quotaRoom s dest (pgCtx (page s p)) then none
  else (freePlace s dest p).map (fun loc => beginMove p dest tc job loc s)

/-! ### Victims (R396, R397) -/

/-- Pages of a context that rest near, in page order. -/
def restingNear (s : State) (ok : Nat → Bool) : List Nat := (s.tier.pages.filter (fun e => pgState e.2 == 1 && ok e.2)).map (·.1)
/-- One pass of the second-chance sweep: REF cleared on the way, the first page left is the victim. -/
def sweep : List Nat → State → Option Nat × State
  | [], s => (none, s)
  | p :: rest, s =>
    let v := page s p
    if pgState v ≠ 1 ∨ pgFixed v then sweep rest s
    else if pgRef v then sweep rest (setPage p (setFld v 7 1 0) s)
    else (some p, s)
/-- The victim of a context without SHARED: two passes from its hand (R396). -/
def sweepVictim (c : Nat) (s : State) : Option Nat × State :=
  let l := restingNear s (fun v => pgCtx v == c && !pgShared v)
  let h := mget 0 c s.tier.hand
  let once := l.filter (fun p => decide (h ≤ p)) ++ l.filter (fun p => decide (p < h))
  let r := sweep (once ++ once) s
  match r.1 with
  | some p => (some p, { r.2 with tier := { r.2.tier with hand := mset 0 c (p + 1) r.2.tier.hand } })
  | none => r
/-- The victim of the compatibility pool: the oldest AGE, ties to the lowest page, among pages whose owner has room in the pool tier (R397). -/
def agedVictim (s : State) : Option Nat :=
  let l := restingNear s (fun v => pgShared v && !pgFixed v && quotaRoom s 1 (pgCtx v))
  match l with
  | [] => none
  | p :: rest => some (rest.foldl (fun b x => if pgAge (page s x) < pgAge (page s b) then x else b) p)
/-- A victim's eviction begins: to the pool tier if it has room, else, for a context without SHARED, to the host tier. -/
def beginEvict (p tc : Nat) (s : State) : Option State :=
  match tryMove p 1 tc none false s with
  | some t => some t
  | none => if pgShared (page s p) then none else tryMove p 2 tc none false s
/-- One eviction of a context's near page is begun (R395-R397). -/
def evictOne (c tc : Nat) (s : State) : Option State :=
  if qShared s c then
    match agedVictim s with
    | some p => beginEvict p tc s
    | none => none
  else
    let r := sweepVictim c s
    match r.1 with
    | some p => beginEvict p tc r.2
    | none => none
/-- An eviction that makes room for a context is under way. -/
def evicting (s : State) (c : Nat) : Bool :=
  s.tier.moves.any (fun m => m.src == 0 && (let v := page s m.page; if qShared s c then pgShared v else pgCtx v == c))

/-! ### Held requests and promotion (R386, R387, R395, R396) -/

/-- Requests held for a page on its home die. -/
def heldFor (s : State) (p : Nat) : List Held := (mget [] (homeOf p) s.tier.held).filter (fun h => h.page == p)
/-- Held requests of a page leave the wait list. -/
def dropHeld (p : Nat) (s : State) : State :=
  { s with tier := { s.tier with held := mmod [] (homeOf p) (fun l => l.filter (fun h => h.page != p)) s.tier.held } }
/-- The held requests of a page are answered with a status. -/
def answerHeld (p status : Nat) (s : State) : State :=
  (heldFor s p).foldl (fun s h => refuseAt (homeEp (homeOf p)) h.pkt status 0 s) (dropHeld p s)
/-- Promotion of a page at rest: begun if there is room, else a victim's eviction is begun, else its held requests are answered BUSY_RETRY. -/
def promote (p : Nat) (s : State) : State :=
  if pgState (page s p) ≠ 2 then s
  else match tryMove p 0 4 none false s with
    | some t => t
    | none =>
      let c := pgCtx (page s p)
      if evicting s c then s
      else match evictOne c 4 s with
        | some t => t
        | none => answerHeld p stBusy s
/-- Pages at rest that requests wait for. -/
def wantedPages (s : State) (die : Nat) : List Nat :=
  ((mget [] die s.tier.held).map (·.page)).foldl (fun l p => if l.contains p then l else l ++ [p]) []
/-- Promotions waiting for room are tried again. -/
def retryPromotions (die : Nat) (s : State) : State := (wantedPages s die).foldl (fun s p => promote p s) s

/-! ### KV page words (Table 11-10) -/

/-- STATE: 0 EMPTY, 1 RESIDENT, 2 FREEING, 3 MIGRATING. -/
def kwState (v : Nat) : Nat := fld v 0 2
def kwRef (v : Nat) : Bool := bit v 4
def kwDrop (v : Nat) : Bool := bit v 5
def kwPins (v : Nat) : Nat := fld v 6 10
def kwPage (v : Nat) : Nat := fld v 30 32
/-- A word as its page stands: STATE and TIER follow the page's moves, and a page that has become FREE leaves the word EMPTY (R344). -/
def kvFollows (s : State) (v : Nat) : Nat :=
  let p := page s (kwPage v)
  if kwState v = 0 ∨ kwState v = 2 then v
  else if pgState p = 0 then 0
  else if pgState p = 3 then setFld v 0 2 3
  else setFld (setFld v 0 2 1) 2 2 (restTier p)
/-- The word of a key: 64 x group row + BLOCK[5:0]. -/
def kvWord (s : State) (k : Nat) : Nat := kvFollows s (mget 0 k s.svc.kv)

end Sys2Proof.Machine
end

