-- ==== Sys2Proof/Machine/HomeServe.lean ====
section
/-!
DEFINITION. Shared operations of the homes: memory requests applied in line order, pages that are not near, and the transactions of the coherence domain (R165-R190, R386, R387, R512).
-/
namespace Sys2Proof.Machine

/-! ### Memory requests (R166-R168) -/

/-- The response of a home to a memory request (Table 05-7): pmask marks poisoned lines. -/
def memResponse (s : State) (p : Packet) (status pmask : Nat) (data : List Byte) : Packet :=
  mkPkt p.tc (responseOp (pOp p)) (pCtx p) (ctxKgen s (pCtx p)) s.tab.cur (pSrc p) (pDst p) (pTag p) status
    (pLaddr p + 2 ^ 42 * pNl p + 2 ^ 44 * pmask) data
/-- Lines of a request. -/
def linesOf (p : Packet) : List Nat := (List.range (reqLines p)).map (pLaddr p + ·)
/-- Pages of a request. -/
def pagesOf (p : Packet) : List Nat := if linePage (pLaddr p) = linePage (pLaddr p + (reqLines p - 1)) then [linePage (pLaddr p)]
  else [linePage (pLaddr p), linePage (pLaddr p + (reqLines p - 1))]
/-- The stack of a line has failed (R512). -/
def lineFailed (s : State) (line : Nat) : Bool := s.tier.stacksFailed.contains (stackOf s (linePage line))
/-- A line of 64 B merged by a byte mask. -/
def mergeBytes (mask : Nat) (old new : List Byte) : List Byte :=
  (List.range 64).map (fun i => if bit mask i then new.getD i 0 else old.getD i 0)
/-- Writes applied in the line buffer, with their status: WR64 and WRN replace lines, WRP merges, a WRP to a poisoned line and any write to a failed stack are POISON and not applied (R167, R512). -/
def applyWrite (p : Packet) (s : State) : Nat × State :=
  if (linesOf p).any (lineFailed s) then (stPoison, s)
  else if pOp p == opWRP then
    let r := readLine s (pLaddr p)
    if r.2 then (stPoison, s) else (stOK, bufWrite (pLaddr p) (mergeBytes (pBmask p) r.1 p.payload) false s)
  else (stOK, ((List.range (reqLines p)).foldl (fun s i => bufWrite (pLaddr p + i) ((p.payload.drop (64 * i)).take 64) false s) s))
/-- Lines read, poisoned ones as zeros and marked (R162, R167). -/
def readLines (s : State) (p : Packet) : List Byte × Nat :=
  let r := (linesOf p).map (readLine s)
  ((r.map (fun x => if x.2 then List.replicate 64 (0 : Byte) else padTo 64 x.1)).flatten,
   ofBitList ((List.range r.length).filter (fun i => ((r.getD i ([], false)).2))))
/-- A memory request applied at its home and answered (R166-R168). -/
def memApply (die : Nat) (p : Packet) (s : State) : State :=
  let s := (pagesOf p).foldl (fun s g => touchPage g s) s
  if isMemRead (pOp p) then
    let r := readLines s p
    placeResponse (homeEp die) (memResponse s p (if r.2 = 0 then stOK else stPoison) r.2 r.1) s
  else
    let r := applyWrite p s
    placeResponse (homeEp die) (memResponse r.2 p r.1 0 []) r.2

/-! ### Transactions (R173, R177-R188) -/

/-- Coherence counter of a home: 0 TXN_MAX, 1 WAIT_MAX, 2 BACK_INV, 3 PIN_RETRY, 4 PIN_BUSY, 5 SNOOP_TMO, 6 POISON_SET (Table 06-8). -/
def cohCount (die row n : Nat) (s : State) : State :=
  { s with coh := { s.coh with ctr := mmod 0 (8 * die + row) (fun v => wrapAdd 64 v n) s.coh.ctr } }
def cohMax (die row n : Nat) (s : State) : State :=
  { s with coh := { s.coh with ctr := mmod 0 (8 * die + row) (fun v => max v n) s.coh.ctr } }
def txnsOf (s : State) (die : Nat) : List Txn := mget [] die s.coh.txns
def waitsOf (s : State) (die : Nat) : List HomeReq := mget [] die s.coh.waits
def setTxns (die : Nat) (l : List Txn) (s : State) : State := { s with coh := { s.coh with txns := mset [] die l s.coh.txns } }
def setWaits (die : Nat) (l : List HomeReq) (s : State) : State := { s with coh := { s.coh with waits := mset [] die l s.coh.waits } }
/-- Lines that a transaction keeps: its own, and its victim's. -/
def txnLines (t : Txn) : List Nat := t.line :: (match t.victim with
  | some v => [v.line]
  | none => [])
/-- A line is kept by an open transaction. -/
def lineBusy (s : State) (die line : Nat) : Bool := (txnsOf s die).any (fun t => (txnLines t).contains line)
/-- A request must wait behind an open transaction of its line, or behind requests that wait for it. -/
def mustWait (s : State) (die : Nat) (waiting : List HomeReq) (line : Nat) : Bool :=
  lineBusy s die line || waiting.any (fun q => pLaddr q.pkt == line)
/-- An agent's record of a line set, in its entry or in a free way of its set (R183). -/
def setRecord (agent line st : Nat) (s : State) : State :=
  let k := match wayOf s agent line with
    | some k => some k
    | none => ((List.range 16).map (setBase s agent line + ·)).find? (fun k => fld (fent s k) 21 2 == 0)
  match k with
  | none => s
  | some k =>
    let s := setFent k (dieLine s line / 1024 + 2 ^ 21 * st) s
    { s with coh := { s.coh with lru := mset 0 k (if st = 0 then 0 else s.coh.stamp) s.coh.lru, stamp := s.coh.stamp + 1 } }
/-- A line is poisoned in the line buffer (R189). -/
def poisonLine (line : Nat) (s : State) : State := bufWrite line (List.replicate 64 0) true s
/-- A line of a dead agent counted for the record of its reclaim (Table 06-7). -/
def noteDead (die a : Nat) (poisoned : Bool) (s : State) : State :=
  { s with coh := { s.coh with
    deadLines := mmod (0, 0) (64 * die + a) (fun (x : Nat × Nat) => if poisoned then (x.1 + 1, x.2) else (x.1, x.2 + 1)) s.coh.deadLines } }
/-- A dead agent's record of a line goes; an M line is poisoned first (R189). -/
def reclaimLine (die a line : Nat) (s : State) : State :=
  match record s a line with
  | 0 => s
  | 3 => clearRecord a line (noteDead die a true (cohCount die 6 1 (poisonLine line s)))
  | _ => clearRecord a line (noteDead die a false s)
/-- Records of dead agents on a line are reclaimed before it is served (R189). -/
def clearDead (die line : Nat) (s : State) : State :=
  ((List.range 64).filter (fun a => agentState s a == 3)).foldl (fun s a => reclaimLine die a line s) s
/-- Agents that a request would snoop on a line, with KEEP (Table 06-5, R188). -/
def snoopTargets (s : State) (p : Packet) (agent line : Nat) : List (Nat × Bool) :=
  let others := (List.range 64).filter (fun a => a != agent && record s a line != 0)
  if pOp p == opRDS then
    if record s agent line = 0 then (others.filter (fun a => decide (2 ≤ record s a line))).map (·, true) else []
  else if pOp p == opRDX then others.map (·, false)
  else if isMemRead (pOp p) then (others.filter (fun a => record s a line == 3)).map (·, true)
  else if isMemReq (pOp p) then others.map (·, false)
  else []
/-- An INV leaves the home (R174). -/
def sendInv (die agent line : Nat) (keep : Bool) (s : State) : Snoop × State :=
  let tag := s.coh.snoopTag
  let ctx := match pageExtent s (linePage line) with
    | some e => exOwner (extent s e)
    | none => 0
  let s := { s with coh := { s.coh with snoopTag := (tag + 1) % 1048576 } }
  let q := mkPkt 1 opINV ctx (ctxKgen s ctx) s.tab.cur (fld (entry s 0x0015 agent) 0 14) s.boot.node tag 0 (line + 2 ^ 44 * b2n keep) []
  ({ agent := agent, keep := keep, tag := tag, at_ := now s, line := line }, placeResponse (homeEp die) q s)
/-- All snoops of a transaction leave at once (R180). -/
def sendSnoops (die line : Nat) (l : List (Nat × Bool)) (s : State) : List Snoop × State :=
  l.foldl (fun acc x =>
    let r := sendInv die x.1 line x.2 acc.2
    (acc.1 ++ [r.1], r.2)) ([], s)
/-- The answer of a home to a coherence request: DATA or CMP with GRANT (Table 06-4). -/
def cohAnswer (s : State) (p : Packet) (grant : Nat) (data : Option (List Byte × Bool)) : Packet :=
  let upper := pLaddr p + 2 ^ 42 * grant
  match data with
  | some (d, psn) => mkPkt 1 opDATA (pCtx p) (ctxKgen s (pCtx p)) s.tab.cur (pSrc p) (pDst p) (pTag p) 0 (upper + 2 ^ 45 * b2n psn)
      (if psn then List.replicate 64 0 else padTo 64 d)
  | none => mkPkt 1 opCMP (pCtx p) (ctxKgen s (pCtx p)) s.tab.cur (pSrc p) (pDst p) (pTag p) 0 upper []

/-! ### Uncached accesses of several lines (R188) -/

/-- One line of an access of several. -/
def lineReq (p : Packet) (i : Nat) : Packet :=
  setH (setH { p with payload := (p.payload.drop (64 * i)).take 64 } 128 42 ((pLaddr p + i) % 2 ^ 42)) 170 2 0
/-- The one response of an access all of whose lines have completed: BUSY_RETRY where a line was answered so (log 71), else the lines read, or the writes' status. -/
def answerJob (die : Nat) (m : LineJob) (s : State) : State :=
  if m.status = stBusy then refuseAt (homeEp die) m.pkt stBusy 0 s
  else if isMemRead (pOp m.pkt) then
    let l := (List.range (reqLines m.pkt)).map (fun i => mget ([], false) i m.lines)
    let mask := ofBitList ((List.range l.length).filter (fun i => (l.getD i ([], false)).2))
    placeResponse (homeEp die) (memResponse s m.pkt (if mask = 0 then stOK else stPoison) mask
      (l.map (fun x => if x.2 then List.replicate 64 (0 : Byte) else padTo 64 x.1)).flatten) s
  else placeResponse (homeEp die) (memResponse s m.pkt m.status 0 []) s
/-- A line of an access completes with a status, and what it read. -/
def lineDone (die job line st : Nat) (data : List Byte × Bool) (s : State) : State :=
  match mfind? job s.coh.jobs with
  | none => s
  | some m =>
    let m := { m with
      left := m.left - 1, status := if m.status = stBusy ∨ st = stOK then m.status else st, lines := mput (line - pLaddr m.pkt) data m.lines }
    if m.left = 0 then answerJob die m { s with coh := { s.coh with jobs := mdel job s.coh.jobs } }
    else { s with coh := { s.coh with jobs := mput job m s.coh.jobs } }
/-- A request, or one line of an access, is refused. -/
def refuseReq (die : Nat) (p : Packet) (job st reason : Nat) (s : State) : State :=
  if job = 0 then refuseAt (homeEp die) p st reason s else lineDone die job (pLaddr p) st ([], false) s
/-- A memory request of one line applied. -/
def lineApply (die : Nat) (p : Packet) (job : Nat) (s : State) : State :=
  if job = 0 then memApply die p s
  else
    let s := touchPage (linePage (pLaddr p)) s
    if isMemRead (pOp p) then lineDone die job (pLaddr p) stOK (readLine s (pLaddr p)) s
    else
      let r := applyWrite p s
      lineDone die job (pLaddr p) r.1 ([], false) r.2

/-! ### Answers (Table 06-5) -/

/-- The answer to a request whose snoops are in, with the requester's record after it (Table 06-5). What an RDS is granted where its holder's crossing WB or its death has left every record I is not in the table: DESIGN CHOICE (log 71), the records at the answer decide, and it is E. A dead requester gets none (log 71). -/
def finish (die : Nat) (t : Txn) (s : State) : State :=
  let p := t.pkt
  let a := t.agent
  if !isCohReq (pOp p) then lineApply die p t.job s
  else if agentState s a = 3 then s
  else
    let own := record s a t.line
    let s := touchPage (linePage t.line) s
    if pOp p == opRDS then
      let grant := if own ≠ 0 then own else if (List.range 64).all (fun b => record s b t.line == 0) then 2 else 1
      let s := setRecord a t.line grant s
      placeResponse (homeEp die) (cohAnswer s p grant (some (readLine s t.line))) s
    else
      let s := setRecord a t.line 3 s
      placeResponse (homeEp die) (cohAnswer s p 3 (if own = 0 then some (readLine s t.line) else none)) s
/-- A WB is taken (Table 06-5, R180): M data are written, a clean eviction is noted, anything else is VIOLATION. A clean eviction of a line recorded I, as behind a snoop that it crossed, is not in the table: DESIGN CHOICE (log 71), VIOLATION as well. -/
def takeWb (die a : Nat) (p : Packet) (s : State) : State :=
  let line := pLaddr p
  let own := record s a line
  if p.payload.length = 64 ∧ own = 3 then
    let s := bufWrite line p.payload (hfld p 173 1 == 1) s
    let s := clearRecord a line s
    placeResponse (homeEp die) (cohAnswer s p 0 none) s
  else if p.payload.isEmpty && (own == 1 || own == 2) then
    let s := clearRecord a line s
    placeResponse (homeEp die) (cohAnswer s p 0 none) s
  else refuseAt (homeEp die) p stViolation rsOpcode s
/-- A WB of 64 B that crosses an INV of its line is taken as the snoop's data (R181). -/
def takeCrossing (die a : Nat) (p : Packet) (s : State) : State :=
  let s := clearRecord a (pLaddr p) (bufWrite (pLaddr p) p.payload (hfld p 173 1 == 1) s)
  placeResponse (homeEp die) (cohAnswer s p 0 none) s
/-- The agent of a WB of 64 B that has an INV of its line outstanding. -/
def crossing (s : State) (die : Nat) (p : Packet) : Option Nat :=
  if pOp p == opWB && p.payload.length == 64 then
    (agentOf s (pSrc p)).filter (fun a => (txnsOf s die).any (fun t =>
      t.snoops.any (fun n => n.agent == a && n.line == pLaddr p) || t.victim.any (fun n => n.agent == a && n.line == pLaddr p)))
  else none
/-- WBs that have waited for a line, and cross an INV that has now left, are taken (R181). -/
def crossWaits (die : Nat) (s : State) : State :=
  let r := (waitsOf s die).partition (fun q => (crossing s die q.pkt).isSome)
  r.1.foldl (fun s q => takeCrossing die ((crossing s die q.pkt).getD 0) q.pkt s) (setWaits die r.2 s)

/-! ### Filter entries (R183-R187) -/

/-- Ways of an agent's set that are in use, with those that open transactions of the agent will take: a victim's way passes to its transaction, even where the victim's record has gone already (R186). -/
def waysUsed (s : State) (die agent line : Nat) : Nat :=
  let base := setBase s agent line
  ((List.range 16).filter (fun i => fld (fent s (base + i)) 21 2 != 0)).length
  + ((txnsOf s die).filter (fun t => t.agent == agent && !t.blocked && t.victim.all (fun v => record s agent v.line == 0)
      && isCohReq (pOp t.pkt) && record s agent t.line == 0 && setBase s agent t.line == base)).length
/-- A filter entry is pinned: its line has an open transaction or a back-invalidation (R185). -/
def pinned (s : State) (die k : Nat) : Bool :=
  (txnsOf s die).any (fun t => (txnLines t).any (fun l => dieLine s l / 1024 == fld (fent s k) 0 21 && dieLine s l % 1024 == k % 16384 / 16))
/-- The line of a filter entry, found among the pages of the die. -/
def lineOfEntry (s : State) (die k : Nat) : Option Nat :=
  let n := fld (fent s k) 0 21 * 1024 + k % 16384 / 16
  ((s.tier.pages.map (·.1)).find? (fun p => homeOf p == die && pgState (page s p) == 1 && decide (dieLine s (1024 * p) ≤ n ∧ n < dieLine s (1024 * p) + 1024))).map
    (fun p => 1024 * p + (n - dieLine s (1024 * p)))
/-- The least recently used unpinned way of an agent's set for a line (R186). -/
def victimWay (s : State) (die agent line : Nat) : Option Nat :=
  let l := ((List.range 16).map (setBase s agent line + ·)).filter (fun k => fld (fent s k) 21 2 != 0 && !pinned s die k && (lineOfEntry s die k).isSome)
  match l with
  | [] => none
  | k :: rest => some (rest.foldl (fun b x => if mget 0 x s.coh.lru < mget 0 b s.coh.lru then x else b) k)
/-- A request needs a new filter entry for its agent. -/
def needsEntry (s : State) (p : Packet) (agent line : Nat) : Bool := isCohReq (pOp p) && record s agent line == 0

/-! ### Opening a transaction (R177, R180, R182, R186, R187) -/

/-- A request of its line would snoop a SUSPECT agent (R182). -/
def wouldSuspect (s : State) (t : Txn) : Bool := (snoopTargets s t.pkt t.agent t.line).any (fun x => agentState s x.1 == 2)
/-- A transaction whose entry is sure sends its snoops, or is answered at once if none are needed; where it would snoop a SUSPECT agent it is answered BUSY_RETRY (R182). -/
def launch (die : Nat) (t : Txn) (s : State) : State :=
  let s := clearDead die t.line s
  if wouldSuspect s t then refuseReq die t.pkt t.job stBusy 0 s
  else
    let r := sendSnoops die t.line (snoopTargets s t.pkt t.agent t.line) s
    if r.1.isEmpty then finish die t r.2
    else crossWaits die (setTxns die (txnsOf r.2 die ++ [{ t with snoops := r.1, victim := none, blocked := false }]) r.2)
/-- A transaction gets its filter entry: a free way, a victim's back-invalidation (R186), or it is blocked (R187). -/
def acquire (die : Nat) (t : Txn) (s : State) : State :=
  let s := clearDead die t.line s
  if wouldSuspect s t then refuseReq die t.pkt t.job stBusy 0 s
  else if !needsEntry s t.pkt t.agent t.line || decide (waysUsed s die t.agent t.line < 16) then launch die t s
  else if agentState s t.agent = 2 then refuseReq die t.pkt t.job stBusy 0 s
  else match victimWay s die t.agent t.line with
    | none => setTxns die (txnsOf s die ++ [{ t with blocked := true }]) s
    | some k =>
      match lineOfEntry s die k with
      | none => setTxns die (txnsOf s die ++ [{ t with blocked := true }]) s
      | some l =>
        let r := sendInv die t.agent l false s
        crossWaits die (cohCount die 2 1 (setTxns die (txnsOf r.2 die ++ [{ t with victim := some r.1, blocked := false }]) r.2))
/-- A request opens a transaction on its line (R177-R188); one of an agent that has died since is discarded and counted (R175, R189). -/
def openTxn (die : Nat) (q : HomeReq) (s : State) : State :=
  let p := q.pkt
  let s := clearDead die (pLaddr p) s
  let t : Txn := { line := pLaddr p, pkt := p, job := q.job, agent := if isCohReq (pOp p) then (agentOf s (pSrc p)).getD 64 else 64, pinAt := now s }
  if isCohReq (pOp p) && deadNode s (pSrc p) then lookupCount die 8 s
  else if isCohReq (pOp p) && t.agent == 64 then refuseAt (homeEp die) p stViolation rsOpcode s
  else
    let s := cohMax die 0 ((txnsOf s die).length + 1) s
    if pOp p == opWB then takeWb die t.agent p s
    else if pOp p == opRDS && record s t.agent (pLaddr p) == 3 then refuseAt (homeEp die) p stViolation rsOpcode s
    else acquire die t s
/-- Waiting requests in order: each opens its transaction unless its line is kept or waited for, or no transaction entry is free (R177). -/
def drainList (die : Nat) : List HomeReq → List HomeReq → State → List HomeReq × State
  | kept, [], s => (kept, s)
  | kept, q :: rest, s =>
    if mustWait s die kept (pLaddr q.pkt) || decide (4096 ≤ (txnsOf s die).length) then drainList die (kept ++ [q]) rest s
    else drainList die kept rest (openTxn die q s)
def drainWaits (die : Nat) (s : State) : State :=
  let r := drainList die [] (waitsOf s die) (setWaits die [] s)
  crossWaits die (setWaits die (r.1 ++ waitsOf r.2 die) r.2)
/-- A blocked transaction tries again; when 32 retries have found no free way it is answered BUSY_RETRY with its record (R187). -/
def retryBlocked (die line : Nat) (s : State) : State :=
  match popFirst (fun t => t.line == line && t.blocked) (txnsOf s die) with
  | none => s
  | some (t, rest) =>
    let s := acquire die { t with pins := t.pins + 1, pinAt := now s } (cohCount die 3 1 (setTxns die rest s))
    match popFirst (fun t => t.line == line && t.blocked && decide (32 ≤ t.pins)) (txnsOf s die) with
    | none => s
    | some (t, rest) =>
      let s := emit (4 + die) 0x0402 2 t.agent (setBase s t.agent t.line % 16384 / 16) die 0 (setTxns die rest s)
      refuseReq die t.pkt t.job stBusy 0 (cohCount die 4 1 s)
/-- What follows a close: blocked transactions of the set try again, whoever's the closed one was, and waiting requests open (R177, R187). -/
def afterClose (die : Nat) (t : Txn) (s : State) : State :=
  let blocked := (txnsOf s die).filter (fun b => b.blocked && (txnLines t).any (fun l => dieLine s b.line % 1024 == dieLine s l % 1024))
  let s := blocked.foldl (fun s b => retryBlocked die b.line s) s
  drainWaits die s

/-! ### Snoop answers (R180-R182, R186) -/

/-- A snoop's answer is applied: M data go to the line buffer, and the agent's record becomes I, or S after KEEP 1. -/
def applySnoop (q : Packet) (n : Snoop) (s : State) : State :=
  let s := if pOp q == opDATA && record s n.agent n.line == 3 then bufWrite n.line q.payload (hfld q 173 1 == 1) s else s
  if record s n.agent n.line = 0 then s
  else if n.keep then setRecord n.agent n.line 1 s else clearRecord n.agent n.line s
/-- The snoop of a list that an answer is for. -/
def matches_ (a : Nat) (q : Packet) (n : Snoop) : Bool := n.agent == a && n.tag == pTag q
/-- A SUSPECT agent that has answered every snoop outstanding to it is ATTACHED again (R172). -/
def agentRecord (a st : Nat) (s : State) : State :=
  let s := setEntryFld s 0x0015 a 16 2 st
  emit (4 + (match s.ports.find? (fun e => e.2.bound == some (fld (entry s 0x0015 a) 0 14)) with
    | some e => coreOf e.1
    | none => 0)) 0x0401 2 a st (fld (entry s 0x0015 a) 0 14) 0 s
/-- Snoops outstanding to an agent on both homes, closed ones included. -/
def snoopsTo (s : State) (a : Nat) : Nat :=
  [0, 1].foldl (fun n d => n
    + ((txnsOf s d).filter (fun t => t.snoops.any (fun x => x.agent == a) || t.victim.any (fun x => x.agent == a))).length
    + ((mget [] d s.coh.closed).filter (fun x => x.agent == a)).length) 0
def reattach (a : Nat) (s : State) : State := if agentState s a = 2 ∧ snoopsTo s a = 0 then agentRecord a 1 s else s
/-- An answer to a snoop: of a transaction, of a victim, or late; one of a DEAD agent is discarded and counted (R175, R189). -/
def snoopAnswer (die : Nat) (q : Packet) (s : State) : State :=
  if deadNode s (pSrc q) then lookupCount die 8 s
  else match agentOf s (pSrc q) with
  | none => { s with mf := { s.mf with strayTags := s.mf.strayTags + 1 } }
  | some a =>
    match popFirst (fun t => t.snoops.any (matches_ a q)) (txnsOf s die) with
    | some (t, rest) =>
      match popFirst (matches_ a q) t.snoops with
      | none => s
      | some (n, left) =>
        let s := applySnoop q n (setTxns die (if left.isEmpty then rest else { t with snoops := left } :: rest) s)
        let s := reattach a s
        if left.isEmpty then afterClose die t (finish die { t with snoops := [] } s) else s
    | none =>
      match popFirst (fun t => t.victim.any (matches_ a q)) (txnsOf s die) with
      | some (t, rest) =>
        match t.victim with
        | none => s
        | some n =>
          let s := reattach a (applySnoop q n (setTxns die rest s))
          let before := (txnsOf s die).length
          let s := launch die { t with victim := none } s
          if (txnsOf s die).length = before then afterClose die t s else drainWaits die s
      | none =>
        match popFirst (matches_ a q) (mget [] die s.coh.closed) with
        | some (n, rest) => reattach a (applySnoop q n { s with coh := { s.coh with closed := mset [] die rest s.coh.closed } })
        | none => { s with mf := { s.mf with strayTags := s.mf.strayTags + 1 } }

/-! ### Dead agents (R156, R172, R189) -/

/-- An agent dies: its reclaim is due. -/
def killAgent (a : Nat) (s : State) : State :=
  if agentState s a = 1 ∨ agentState s a = 2 then
    let s := agentRecord a 3 s
    { s with coh := { s.coh with reclaim := insertSet a s.coh.reclaim } }
  else s
/-- An open transaction goes on without its snoops to a dead agent. -/
def dropSnoops (die a : Nat) (t : Txn) (s : State) : State :=
  match popFirst (fun x => x.line == t.line) (txnsOf s die) with
  | none => s
  | some (t, rest) =>
    let gone := t.snoops.filter (fun n => n.agent == a)
    let left := t.snoops.filter (fun n => n.agent != a)
    let s := gone.foldl (fun s n => reclaimLine die a n.line s) s
    if gone.isEmpty then s
    else if left.isEmpty then
      let s := setTxns die rest s
      afterClose die t (finish die { t with snoops := [] } s)
    else setTxns die (rest ++ [{ t with snoops := left }]) s
/-- Transactions and waiting requests of a dead agent go without an answer, and the snoops that they had out to other agents are closed snoops: the spec says only that the agent's packets are discarded (R189), so this is a DESIGN CHOICE (log 71). -/
def dropRequests (die a : Nat) (s : State) : State :=
  let node := fld (entry s 0x0015 a) 0 14
  let mine := (txnsOf s die).filter (fun t => t.agent == a)
  let s := setTxns die ((txnsOf s die).filter (fun t => t.agent != a)) s
  let s := setWaits die ((waitsOf s die).filter (fun q => !(isCohReq (pOp q.pkt) && pSrc q.pkt == node))) s
  let out := mine.flatMap (fun t => t.snoops.filter (fun n => n.agent != a))
  let s := { s with coh := { s.coh with
    closed := mmod [] die (fun l => l.filter (fun n => n.agent != a) ++ out) s.coh.closed } }
  drainWaits die s
/-- Filter entries of an agent on a die. -/
def entriesOf (s : State) (die a : Nat) : List Nat :=
  (s.coh.filter.filter (fun e => e.1 / 1048576 == die && e.1 % 1048576 / 16384 == a)).map (·.1)
/-- The walk of a dead agent's entries on a die, with the record of every line poisoned and released since its death (Table 06-7). -/
def reclaimDie (die a : Nat) (s : State) : State :=
  let s := (txnsOf s die).foldl (fun s t => dropSnoops die a t s) (dropRequests die a s)
  let s := (entriesOf s die a).foldl (fun s k =>
    match lineOfEntry s die k with
    | some l => reclaimLine die a l s
    | none => noteDead die a false (setFent k 0 s)) s
  let n := mget (0, 0) (64 * die + a) s.coh.deadLines
  emitClass (4 + die) 4 a n.1 n.2 0 { s with coh := { s.coh with deadLines := mdel (64 * die + a) s.coh.deadLines } }

/-! ### Taking requests (R166, R177, R386, R387) -/

/-- The line lies in a coherent extent (R169). -/
def coherentLine (s : State) (line : Nat) : Bool :=
  match pageExtent s (linePage line) with
  | some e => coherentExt s e
  | none => false
/-- A write to a page on its way out cancels the eviction: the page stays RESIDENT with REF set (Table 14-2). -/
def cancelMove (p : Nat) (s : State) : State :=
  let v := page s p
  if pgState v = 3 ∧ pgTier v = 0 then
    match popFirst (fun m => m.page == p) s.tier.moves with
    | none => s
    | some (m, rest) =>
      let s := freePlaceOf m.dest p m.loc { s with tier := { s.tier with moves := rest } }
      setPage p (setFld (setFld (setFld v 0 3 1) 5 2 0) 7 1 1) s
  else s
/-- A page keeps requests waiting: at rest elsewhere, or on its way to the near tier. -/
def pageAway (v : Nat) : Bool := pgState v == 2 || (pgState v == 3 && pgTo v == 0)
/-- A request joins the tier wait list of 16,384, and its page's promotion is started (R386, R387). -/
def hold (die p : Nat) (q : Packet) (s : State) : State :=
  if 16384 ≤ (mget [] die s.tier.held).length then refuseAt (homeEp die) q stBusy 0 s
  else promote p { s with tier := { s.tier with held := mmod [] die (· ++ [{ pkt := q, page := p, at_ := now s }]) s.tier.held } }
/-- A request of one coherent line: it opens its transaction, or waits behind those of its line (R177). -/
def place (die : Nat) (q : HomeReq) (s : State) : State :=
  if mustWait s die (waitsOf s die) (pLaddr q.pkt) then
    let s := setWaits die (waitsOf s die ++ [q]) s
    cohMax die 1 (waitsOf s die).length s
  else openTxn die q s
/-- A request to coherent lines: a crossing WB is its snoop's data (R181), and each line of an uncached access of several is a transaction of its own (R188). -/
def serveCoherent (die : Nat) (p : Packet) (s : State) : State :=
  match crossing s die p with
  | some a => takeCrossing die a p s
  | none =>
    if reqLines p = 1 then place die { pkt := p } s
    else
      let j := s.coh.jobNext
      (List.range (reqLines p)).foldl (fun s i => place die { pkt := lineReq p i, job := j } s)
        { s with coh := { s.coh with jobNext := j + 1, jobs := mput j { pkt := p, left := reqLines p } s.coh.jobs } }
/-- A request at its home (R165-R168, R177, R188, R386); a line whose page is FREE is in no extent that serves, and is answered REVOKED. -/
def serve (die : Nat) (p : Packet) (s : State) : State :=
  if isCohReq (pOp p) && deadNode s (pSrc p) then lookupCount die 8 s
  else match (pagesOf p).find? (fun g => pageAway (page s g)) with
  | some g => hold die g p s
  | none =>
    if (pagesOf p).any (fun g => pgState (page s g) == 0) then refuseAt (homeEp die) p stRevoked 0 s
    else
      let s := if isMemRead (pOp p) || pOp p == opRDS then s else (pagesOf p).foldl (fun s g => cancelMove g s) s
      if (linesOf p).any (coherentLine s) then serveCoherent die p s
      else if isCohReq (pOp p) then refuseAt (homeEp die) p stViolation rsOpcode s
      else memApply die p s
/-- The home can take a request: each line of it has a wait-list entry where it must wait, and a transaction entry where it need not (R177). -/
def canTake (s : State) (die : Nat) (p : Packet) : Bool :=
  let l := if (linesOf p).any (coherentLine s) && (crossing s die p).isNone then linesOf p else []
  let waiting := (l.filter (mustWait s die (waitsOf s die))).length
  (l.length == waiting || decide ((txnsOf s die).length + (l.length - waiting) ≤ 4096))
    && (waiting == 0 || decide ((waitsOf s die).length + waiting ≤ 16384))
/-- The home takes the first packet that satisfies a test (R166). -/
def homeTake (die : Nat) (ok : Packet → Bool) (f : Packet → State → State) (s : State) : State :=
  match popFirst ok (mget [] die s.mf.homeIn) with
  | none => s
  | some (p, rest) => f p { s with mf := { s.mf with homeIn := mset [] die rest s.mf.homeIn } }
/-- The home takes a request of an opcode. -/
def homeOp (op die : Nat) (s : State) : State :=
  homeTake die (fun p => pOp p == op && canTake s die p) (fun p s => serve die p s) s
/-- Held requests of a page are served in the order they were taken (R387). -/
def serveHeld (p : Nat) (s : State) : State :=
  (heldFor s p).foldl (fun s h => serve (homeOf p) h.pkt s) (dropHeld p s)

/-! ### Extents (R154-R160) -/

/-- Die of the lease manager's records (R609). -/
def leaseDie (s : State) : Nat := threadDie (mboxThread s 6)
/-- An extent changes state, with its record (R154). -/
def setExtState (e st die : Nat) (s : State) : State :=
  let v := extent s e
  if exState v = st then s
  else
    let s := setEntryFld s 0x0013 e 88 3 st
    let s := { s with mf := { s.mf with
      drainAt := if st = 3 then mput e (now s) s.mf.drainAt else mdel e s.mf.drainAt
      drained := eraseSet e s.mf.drained } }
    -- a FREE extent leaves no weight manifest entry (R337)
    let s := if st = 0 then { s with svc := { s.svc with manifest := s.svc.manifest.filter (fun x => x.2.ext != e) } } else s
    emit die 0x0301 1 e (exState v + 16 * st) (exOwner v) 0 s
/-- A commit made by a service (R408). -/
def noteCommit (s : State) : State := { s with tab := { s.tab with commits := s.tab.commits + 1, committed := true } }
/-- LEASE_END of an ACTIVE extent timed here is reached: GRACE (R154). -/
def expireLease (ext : Nat) (s : State) : State :=
  let v := extent s ext
  onlyIf (exState v == 1 && exLeased v && reached s (exEnd v)) s (setExtState ext 2 (leaseDie s) s)
/-- Every lease that a node held has lapsed (R156). -/
def holderDead (s : State) (node : Nat) : Bool :=
  (listedExtents s).all (fun e => let v := extent s e
    !(exLeased v && exHolder v == node && (exState v == 1 || exState v == 2)))
/-- LEASE_END plus grace is reached: the lease manager commits REVOKING here and has every other module that holds the extent do so, and a holder without a lease is dead (R156). -/
def lapseLease (ext : Nat) (s : State) : State :=
  let v := extent s ext
  if (exState v == 1 || exState v == 2) && exLeased v && reached s (exEnd v + exGrace v) then
    let s := tellHolders ext (setExtState ext 3 (leaseDie s) (noteCommit s))
    if holderDead s (exHolder v) then
      match agentOf s (exHolder v) with
      | some a => killAgent a s
      | none => s
    else s
  else s
/-- The drain of an extent is complete here: a peer's lease manager that asked for it has its answer (R160, R351). -/
def noteDrained (e : Nat) (s : State) : State :=
  let l := s.svc.drainWait.filter (fun (w : Nat × Mail) => w.1 == e)
  l.foldl (fun s (w : Nat × Mail) => svcStatus w.2 stOK s) { s with
    mf := { s.mf with drained := insertSet e s.mf.drained }
    svc := { s.svc with drainWait := s.svc.drainWait.filter (fun (w : Nat × Mail) => w.1 != e) } }
/-- A page of the extent is MIGRATING (R160, R391). -/
def extMigrating (s : State) (e : Nat) : Bool := (extentPages s e).any (fun p => pgState (page s p) == 3)

end Sys2Proof.Machine
end

