-- ==== Sys2Proof/Machine/ContextOps.lean ====
section
/-!
DEFINITION. Shared operations on pages that are lost, granted or freed, on key slots, and on the removal of contexts (R385, R390, R458-R463, R478-R483).
-/
namespace Sys2Proof.Machine

/-! ### Pages lost, granted and freed -/

/-- The move of a page. -/
def moveOf (s : State) (p : Nat) : Option Move := s.tier.moves.find? (fun m => m.page == p)
/-- The move of a page is off the list, and what it took for its destination is given back. -/
def dropMove (p : Nat) (s : State) : State :=
  match moveOf s p with
  | none => s
  | some m => freePlaceOf m.dest p m.loc { s with tier := { s.tier with moves := s.tier.moves.filter (fun x => x.page != p) } }
/-- A page that rests away, or comes from away, and cannot be read is RESIDENT in a near frame whose every line holds poison, with its record; held requests are served from it (R390). Without a free frame it stays where it is (log 45). -/
def losePage (p : Nat) (s : State) : State :=
  let v := page s p
  let src := pgTier v
  if (pgState v ≠ 2 ∧ pgState v ≠ 3) ∨ src = 0 then s
  else
    let t := dropMove p s
    match freeFrame t (stackOf t p) with
    | none => s
    | some f =>
      let t := takePlace 0 p f (freePlaceOf src p (pgLoc v) t)
      let t := setPage p (setFld (setFld (setFld (setFld v 0 3 1) 3 2 0) 5 2 0) 32 48 f) t
      let t := (List.range 1024).foldl (fun t i => hbmWrite (1024 * p + i) [] true t) t
      serveHeld p (emit (4 + homeOf p) 0x0901 3 p src 0 0 t)
/-- Pages of the pool tier that rest in a backing extent, or come from it. -/
def pagesBackedBy (s : State) (e : Nat) : List Nat :=
  (s.tier.pages.filter (fun x => pgTier x.2 == 1 && (pgState x.2 == 2 || pgState x.2 == 3) && fld (pgLoc x.2) 0 16 == e)).map (·.1)
/-- Pages of the host tier behind a port, or coming from it. -/
def pagesBehind (s : State) (port : Nat) : List Nat :=
  (s.tier.pages.filter (fun x => pgTier x.2 == 2 && (pgState x.2 == 2 || pgState x.2 == 3) && fld (pgLoc x.2) 0 1 == port)).map (·.1)
/-- A page is FREE: its lines leave the buffer, its frame or backing page is released (R385). -/
def freePage (p : Nat) (s : State) : State :=
  let s := dropMove p s
  let v := page s p
  let s := if pgState v = 0 then s else freePlaceOf (if pgState v = 1 then 0 else pgTier v) p (pgLoc v) s
  let s := { s with mf := { s.mf with lines := s.mf.lines.filter (fun e => linePage e.1 != p) } }
  setPage p 0 s
/-- A page is placed in its extent's placement tier and charged to the owner (R385, R397). -/
def placePage (tier ctx : Nat) (fixed : Bool) (s : State) (p : Nat) : State :=
  let s := freePage p s
  match freePlace s tier p with
  | none => s
  | some loc =>
    setPage p ((if tier = 0 then 1 else 2) + 2 ^ 3 * tier + 2 ^ 8 * b2n (fixed && tier == 0) + 2 ^ 9 * ctx + 2 ^ 19 * b2n (qShared s ctx)
      + 2 ^ 32 * loc + 2 ^ 80 * (now s / 2 ^ 20 % 2 ^ 32)) (takePlace tier p loc s)
/-- A granted tier-space extent's pages are placed. -/
def placeExtent (e : Nat) (s : State) : State :=
  let v := extent s e
  (extentPages s e).foldl (placePage (exTier v) (exOwner v) (coherentExt s e)) s
/-- A page of a coherent extent stays near: a move out of the near tier is given up, and a page that rests elsewhere is brought back (R170). -/
def bringNear (p : Nat) (s : State) : State := promote p (cancelMove p s)
/-- FIXED of an extent's pages follows the coherent extent table (R170, R385). -/
def fixExtent (e : Nat) (s : State) : State :=
  (extentPages s e).foldl (fun s p =>
    if pgState (page s p) = 0 then s
    else if coherentExt s e then setPage p (setFld (page (bringNear p s) p) 8 1 1) (bringNear p s)
    else setPage p (setFld (page s p) 8 1 0) s) s

/-! ### Key slots (Table 18-3) -/

def keySlot (s : State) (n : Nat) : Nat := mget 0 n s.sec.slots
def ksState (v : Nat) : Nat := fld v 0 2
def ksCtx (v : Nat) : Nat := fld v 2 10
def ksKgen (v : Nat) : Nat := fld v 12 6
def ksKind (v : Nat) : Nat := fld v 18 2
/-- EXTREFS: extents not FREE whose KEYSLOT names the slot (Table 18-3; log 27). -/
def extRefs (s : State) (n : Nat) : Nat :=
  ((listedExtents s).filter (fun e => exState (extent s e) != 0 && exKeyslot (extent s e) == n)).length
/-- A slot becomes EMPTY: its material is gone (R483). -/
def emptySlot (n : Nat) (s : State) : State := { s with sec := { s.sec with slots := mdel n s.sec.slots, keys := mdel n s.sec.keys } }
/-- RETIRED slots that no extent names any more become EMPTY (R482). -/
def settleKeys (s : State) : State :=
  ((s.sec.slots.filter (fun e => ksState e.2 == 2 && extRefs s e.1 == 0)).map (·.1)).foldl (fun s n => emptySlot n s) s

/-! ### Opening and removing contexts (R448, R460, R463) -/

/-- Key generation that the next opening of a context takes: the one retired last plus one, kept as that (R463). -/
def nextKgen (s : State) (c : Nat) : Nat := mget 0 c s.cx.kgen % 64
/-- A FREE context opens under its next generation (R448, R463, R479). -/
def openContext (c : Nat) (s : State) : State :=
  let s := setEntryFld s 0x0030 c 107 6 (nextKgen s c)
  let s := moveCtx c 1 (fld (entry s 0x0030 c) 113 4) s
  { s with cx := { s.cx with opened := insertSet c s.cx.opened, retired := eraseSet c s.cx.retired } }
/-- The tables stand as a closing group leaves them: OPEN clear, every owned extent REVOKING or further, and no range entry of the context on another owner's extent (R460 step 2). -/
def closedTables (s : State) (c : Nat) : Bool :=
  !bit (entry s 0x0030 c) 2
    && (listedExtents s).all (fun e => exOwner (extent s e) != c || exState (extent s e) == 0 || decide (3 ≤ exState (extent s e)))
    && (ranges s).all (fun r => fld r 0 10 != c || exOwner (extent s (fld r 27 16)) == c)
/-- A commit that leaves a closing context's tables so is its closing group; the anchor then asks every peer for its own. -/
def noteClosing (c : Nat) (s : State) : State :=
  match mfind? c s.cx.removals with
  | none => s
  | some r =>
    if r.flipped || !closedTables s c then s
    else
      let s := { s with cx := { s.cx with removals := mput c { r with flipped := true } s.cx.removals } }
      settleTr c (if bit (entry s 0x0030 c) 3 then (peersOf s c).foldl (fun s n => peerRequest c n 4 s) s else s)
/-- Reservations of FREE contexts are released: quota zero, policer map 0xFFF (R458). -/
def releaseCtx (s : State) (c : Nat) : State :=
  let s := setEntry s 0x0028 c 0
  (List.range 48).foldl (fun s i => setEntry s 0x0005 (8192 * (i / 8) + 8 * c + i % 8) 0xFFF) s
def releaseAll (s : State) : State :=
  let l := s.cx.release
  let s := l.foldl releaseCtx s
  { s with cx := { s.cx with release := [] } }

end Sys2Proof.Machine
end

