-- ==== Sys2Proof/Machine/TileEvents.lean ====
section
/-!
DEFINITION. Meanings of the events of tiles and operation slots: arrivals, handler starts, the step limit, timers, the slot states and loaded programs.
-/
namespace Sys2Proof.Machine

/-- A payload block, an OPBLK or a CBLK rewritten for its operation (R199, R299). -/
def effOpblk (tile : Nat) (s : State) : State :=
  match firstIn s tile isUnitBlock with
  | some p => if pOp p == opOPMSG then s else takeBlock tile p s
  | none => s
/-- A message (R199). -/
def effOpmsg (tile : Nat) (s : State) : State :=
  match firstIn s tile isUnitBlock with
  | some p => if pOp p == opOPMSG then takeMessage tile p s else s
  | none => s
/-- The response to a FETCH (R201). -/
def effFetchResponse (tile : Nat) (s : State) : State :=
  match firstIn s tile (fun p => pOp p == opRDRSP) with
  | some p => takeResponse p (popIn tile (fun p => pOp p == opRDRSP)) s
  | none => s
/-- The response to a STORE (R201). -/
def effStoreResponse (tile : Nat) (s : State) : State :=
  match firstIn s tile (fun p => pOp p == opWRRSP) with
  | some p => takeResponse p (popIn tile (fun p => pOp p == opWRRSP)) s
  | none => s

/-! ### The scheduler (R204, R205, R214, R517) -/

/-- Slots of a tile that have a pending event, with the rank of its head: a FAULT before the others, then the order raised. -/
def readySlots (s : State) (t : Nat) : List (Nat × Nat × Nat) :=
  s.ctl.slots.filterMap (fun e =>
    if slotTile e.1 == t && e.2.st == .live then
      match e.2.events with
      | x :: _ => some (e.1, if x.ev = 4 then 0 else 1, x.stamp)
      | [] => none
    else none)
/-- The slot to run next (R205). -/
def nextSlot (s : State) (t : Nat) : Option Nat :=
  ((readySlots s t).foldl (fun best x =>
    match best with
    | none => some x
    | some b => if x.2.1 < b.2.1 ∨ (x.2.1 = b.2.1 ∧ x.2.2 < b.2.2) then some x else some b) none).map (·.1)
/-- The event word (Table 07-7). -/
def eventWord (e : OpEvent) : Nat :=
  e.ev + 2 ^ 3 * e.status + 2 ^ 7 * b2n e.fetched + 2 ^ 8 * e.code + 2 ^ 16 * e.chunk + 2 ^ 32 * e.len + 2 ^ 43 * e.boff + 2 ^ 47 * e.src
/-- One step of the random source (R282). -/
def rndStep (h : Handler) : Handler :=
  let t := h.rx ^^^ (h.rx <<< 11)
  { h with rx := h.ry, ry := h.rz, rz := h.rw, rw := h.rw ^^^ (h.rw >>> 19) ^^^ t ^^^ (t >>> 8) }
/-- The random source as a handler finds it (R214, R282). -/
def rndSeed (seed hseq : Nat) (h : Handler) : Handler :=
  let a := BitVec.ofNat 32 seed
  let b := BitVec.ofNat 32 hseq
  let h := { h with rx := a, ry := b, rz := a ^^^ 0x9E3779B9, rw := b ^^^ 0x7F4A7C15 }
  (List.range 8).foldl (fun h _ => rndStep h) h
/-- The shadow rate of a tile for a bin and signature: 1 in quarantine, 16 where a cell was blamed, else the set rate, 1,024 by default (R517, R519, R520). -/
def shadowRateOf (s : State) (t bin sig : Nat) : Nat :=
  if (s.tile t).quarUntil.any (fun u => decide (now s < u)) then 1
  else if s.rel.cellRate.contains (128 * t + 16 * bin + sig) then 16
  else if (s.block (clusterOf t)).boostUntil.any (fun u => decide (now s < u)) then 64
  else mget 1024 t s.chv.shadowRate
/-- A handler invocation may be chosen for a shadow check: its record begins with the event, its payload and s0-s7. Which are chosen, and their load signature, is open (R517, R520, R521; log 8). -/
def shadowRecord (t n : Nat) (h : Handler) (s : State) : State :=
  let cl := clusterOf t
  let x := s.slot n
  if s.rel.spareUsed.contains cl || s.rel.spareGone.contains cl then s
  else
    let a := draw s
    let b := draw a.2
    let bin := (s.block cl).bin
    let sig := a.1 % 16
    if b.1 % max 1 (shadowRateOf s t bin sig) ≠ 0 then b.2
    else
      let r : Shadow :=
        { tile := t, slot := n, gen := x.gen, hseq := x.hseq, prog := x.prog, ver := x.ver, bin := bin, sigClass := sig, ev := h.ev, entry := h.s }
      { b.2 with ctl := { b.2.ctl with tracing := mput t r b.2.ctl.tracing } }
/-- A handler begins: s0-s6 from the record, the event word in s7, nothing else written yet (R204, R212, R214). -/
def beginHandler (t n pc : Nat) (e : OpEvent) (s : State) : State :=
  let x := s.slot n
  let h : Handler := { slot := n % 4096, ev := e, pc := pc, s := mset 0 7 (BitVec.ofNat 64 (eventWord e)) x.regs, ver := x.ver }
  let s := shadowRecord t n h s
  let s := s.modSlot n (fun y => { y with hseq := wrapAdd 32 y.hseq 1 })
  tileCount t 5 1 (s.modTile t (fun y => { y with run := some (rndSeed x.seed x.hseq h) }))
/-- The next pending event of the tile starts its handler; one whose program has no entry for it is released, or ends the operation if it is a FAULT (R200, R205, R209). -/
def effHandlerStart (tile : Nat) (s : State) : State :=
  if (s.tile tile).run.isSome || (s.tile tile).off then s
  else
    match nextSlot s tile with
    | none => s
    | some n =>
      match (s.slot n).events with
      | [] => s
      | e :: rest =>
        let s := s.modSlot n (fun x => { x with events := rest })
        match (if e.ev = 5 then some e.pc else slotEntry s n e.ev) with
        | some pc => beginHandler tile n pc e s
        | none =>
          if e.ev = 4 then endOp n (faultStatus e.code e.status) e.code s
          else
            let s := releaseEvent tile e s
            if e.ev = 0 ∨ e.ev = 3 then tileCount tile 4 1 s else s
/-- A 257th instruction would execute (R206). -/
def effStepLimit (tile : Nat) (s : State) : State :=
  match (s.tile tile).run with
  | some h => if h.count = 256 then faultHandler tile 1 s else s
  | none => s
/-- Module time reaches a slot's DEADLINE (R208). -/
def effTimerExpire (slot : Nat) (s : State) : State :=
  let x := s.slot slot
  onlyIf (x.st == .live && x.deadline != 2 ^ 64 - 1 && reached s x.deadline) s
    (raiseEvent slot { ev := 2 } (s.setSlot slot { x with deadline := 2 ^ 64 - 1 }))

/-! ### Slot states (R194, R195, R217) -/

/-- An ENDING slot whose requests are answered and whose sends have left the tile enters COOLING: its creator gets the completion, and GEN rises. -/
def effSlotCooling (slot : Nat) (s : State) : State :=
  let x := s.slot slot
  onlyIf (x.st == .ending && x.outst == 0 && !runsSlot s slot && !opSends s slot) s
    (retirePrograms (clusterOf (slotTile slot))
      (raiseThread x.creator 2 (opCompletion slot x)
        (s.setSlot slot { x with st := .cooling, coolAt := now s, gen := wrapAdd 12 x.gen 1 })))
/-- A slot that cooled for 100 us is FREE. -/
def effSlotFree (slot : Nat) (s : State) : State :=
  let x := s.slot slot
  onlyIf (x.st == .cooling && passed s x.coolAt 100000) s (s.setSlot slot { x with st := .free })
/-- Bytes of a program's words as they stand in the store. -/
def programBytes (s : State) (cl v : Nat) : List Byte :=
  (List.range (ptLen v)).flatMap (fun i => natBytes 8 (storeWord s cl (ptBase v + i)))
/-- An admitted bundle carries a program version. -/
def carriedBy (s : State) (prog ver : Nat) : List Bundle :=
  (s.sec.bundles.map (·.2)).filter (fun b => !b.retired && b.progs.contains (prog, ver))
/-- A load is done: RESIDENT if the words hash to the digest of an admitted bundle that carries the version, else abandoned with its record (R217). -/
def effProgramLoadDone (cluster entry : Nat) (s : State) : State :=
  let v := ptab s cluster entry
  if ptState v ≠ 1 then s
  else
    let key := 64 * cluster + entry
    let set := fun (x : Nat) (s : State) => { s with ctl := { s.ctl with ptab := mset 0 key x s.ctl.ptab } }
    if (carriedBy s (ptProg v) (ptVer v)).any (fun b => b.digest == (Config.sha384 (programBytes s cluster v)).toNat) then
      retirePrograms cluster (set (setFld (setFld v 59 2 2) 61 16 (fld (storeWord s cluster (ptBase v + 1)) 0 16)) s)
    else
      retirePrograms cluster (emit (4 + cluster / 16) 0x0502 3 cluster (ptProg v + 65536 * ptVer v) 0 0 (set 0 s))

/-! ### Meanings -/

/-- OPBLK (R199). -/
def execOpblk (tile : Nat) (s : State) : Host.Outcome State Fault Refusal :=
  unit (isTile tile) s (effOpblk tile s)

/-- OPMSG (R199). -/
def execOpmsg (tile : Nat) (s : State) : Host.Outcome State Fault Refusal :=
  unit (isTile tile) s (effOpmsg tile s)

/-- FETCH_RESPONSE (R201). -/
def execFetchResponse (tile : Nat) (s : State) : Host.Outcome State Fault Refusal :=
  unit (isTile tile) s (effFetchResponse tile s)

/-- STORE_RESPONSE (R201). -/
def execStoreResponse (tile : Nat) (s : State) : Host.Outcome State Fault Refusal :=
  unit (isTile tile) s (effStoreResponse tile s)

/-- HANDLER_START (R205). -/
def execHandlerStart (tile : Nat) (s : State) : Host.Outcome State Fault Refusal :=
  unit (isTile tile) s (effHandlerStart tile s)

/-- STEP_LIMIT (R206). -/
def execStepLimit (tile : Nat) (s : State) : Host.Outcome State Fault Refusal :=
  unit (isTile tile) s (effStepLimit tile s)

/-- TIMER_EXPIRE (R208). -/
def execTimerExpire (slot : Nat) (s : State) : Host.Outcome State Fault Refusal :=
  unit (isSlot slot) s (effTimerExpire slot s)

/-- SLOT_COOLING (R195). -/
def execSlotCooling (slot : Nat) (s : State) : Host.Outcome State Fault Refusal :=
  unit (isSlot slot) s (effSlotCooling slot s)

/-- SLOT_FREE (R194). -/
def execSlotFree (slot : Nat) (s : State) : Host.Outcome State Fault Refusal :=
  unit (isSlot slot) s (effSlotFree slot s)

/-- PROGRAM_LOAD_DONE (R217). -/
def execProgramLoadDone (cluster : Nat) (entry : Nat) (s : State) : Host.Outcome State Fault Refusal :=
  unit (isCluster cluster && decide (entry < 64)) s (effProgramLoadDone cluster entry s)


end Sys2Proof.Machine
end

