-- ==== Sys2Proof/Machine/Report.lean ====
section
/-!
DEFINITION. Shared operations of Carnelian: the LMS state, signatures, and the attestation report (R474-R477, R497-R499; layout choices: log 50).
-/
namespace Sys2Proof.Machine

/-! ### The LMS state (R474-R477) -/

/-- The value of the state counter: the higher of the valid copies (R476). -/
def lmsValue (x : Security) : Option Nat :=
  match x.lms0.valid, x.lms1.valid with
  | true, true => some (max x.lms0.val x.lms1.val)
  | true, false => some x.lms0.val
  | false, true => some x.lms1.val
  | false, false => none
/-- An HSS signature: the counter goes on in both copies first, and a record is written when fewer than 2^20 leaves remain (R475-R477). -/
def signHss (digest : BitVec 384) (s : State) : Option (List Byte × State) :=
  match lmsValue s.sec with
  | none => none
  | some q =>
    if s.sec.lmsLost || decide (2 ^ 40 ≤ q + 1) then none
    else
      let copy := fun (c : LmsCopy) => ({ val := q + 1, seq := c.seq + 1, valid := true } : LmsCopy)
      let s := { s with sec := { s.sec with lms0 := copy s.sec.lms0, lms1 := copy s.sec.lms1 } }
      let s := if 2 ^ 40 - (q + 1) = 2 ^ 20 - 1 then emit 6 0x0D02 4 (q + 1) ((q + 1) / 2 ^ 32) 0 0 s else s
      some (padTo 3604 (Config.hssSign q digest), s)

/-! ### Sections (Table 18-12) -/

/-- A section: TYPE, zero, length with its 8 bytes; filled with zeros to a multiple of 8. -/
def section_ (type : Nat) (body : List Byte) : List Byte :=
  let b := natBytes 2 type ++ natBytes 2 0 ++ natBytes 4 (8 + body.length) ++ body
  padTo (8 * ceilDiv b.length 8) b
/-- A digest as bytes. -/
def digestBytes (d : Nat) : List Byte := natBytes 48 d
/-- The Alias certificate in force: it follows the Carnelian image in use. -/
def aliasCert (s : State) : List Byte := Config.aliasCert (s.image (mget 0 0 s.sec.inUse)).digest
/-- An image in use, 64 B. -/
def imageEntry (s : State) (i : Nat) : List Byte :=
  let slot := mget 0 i s.sec.inUse
  let x := s.image (2 * i + slot)
  padTo 64 (digestBytes x.digest ++ natBytes 4 x.svn ++ natBytes 4 x.ver ++ natBytes 1 slot)
def secBoot (s : State) : List Byte := padTo 64 (padTo 56 Config.bootRom) ++ imageEntry s 0 ++ imageEntry s 1 ++ imageEntry s 2
/-- A bundle serves a context (R491). -/
def bundleFor (c : Nat) (b : Bundle) : Bool := !b.retired && (decide (b.svc < 0x40) || b.ctxs.contains c)
/-- RESIDENT program table entries: cluster and image. -/
def residents (s : State) : List (Nat × Nat) := (s.ctl.ptab.filter (fun e => ptState e.2 == 2)).map (fun e => (e.1 / 64, e.2))
/-- Programs of a context's report: each version once, in rising order of PROG and VER. -/
def reportProgs (s : State) (c : Nat) : List Nat :=
  (((residents s).filter (fun x => (carriedBy s (ptProg x.2) (ptVer x.2)).any (bundleFor c))).map (fun x => 65536 * ptProg x.2 + ptVer x.2)).foldl
    (fun a x => insertSet x a) []
def progEntry (s : State) (c k : Nat) : List Byte :=
  let mine := (residents s).filter (fun x => 65536 * ptProg x.2 + ptVer x.2 == k)
  let v := mine.headD (0, 0)
  let b := ((carriedBy s (k / 65536) (k % 65536)).filter (bundleFor c)).headD {}
  natBytes 2 (k / 65536) ++ natBytes 2 k ++ natBytes 2 (ptCompat v.2) ++ natBytes 1 b.svc ++ natBytes 1 0
    ++ natBytes 4 (ofBitList (mine.map (·.1))) ++ natBytes 4 0 ++ digestBytes (Config.sha384 (programBytes s v.1 v.2)).toNat
/-- Bundles of a context's report in order of SVC. -/
def reportBundles (s : State) (c : Nat) : List Bundle :=
  let l := (s.sec.bundles.map (·.2)).filter (bundleFor c)
  (List.range 256).flatMap (fun v => l.filter (fun b => b.svc == v))
def bundleBytes (b : Bundle) : List Byte :=
  natBytes 1 b.svc ++ natBytes 1 (b2n (decide (0x40 ≤ b.svc))) ++ natBytes 2 b.bver ++ natBytes 2 b.compat ++ natBytes 2 b.signer
    ++ natBytes 4 b.svn ++ natBytes 4 0 ++ digestBytes b.digest
/-- Weight manifest entries of a context (Table 11-8a). -/
def manifestBytes (m : Manifest) : List Byte :=
  padTo 128 (digestBytes m.digest ++ natBytes 2 m.ext ++ natBytes 2 m.node ++ natBytes 4 m.base ++ natBytes 4 m.size ++ natBytes 1 m.st
    ++ natBytes 3 0 ++ natBytes 8 m.recAt ++ natBytes 8 m.verAt)
def secManifest (s : State) (c : Nat) : List Byte :=
  ((s.svc.manifest.filter (fun e => e.1 / 4096 == c)).map (·.2)).flatMap manifestBytes
/-- A TDI's state as the report codes it. -/
def tdiCode : TdiState → Nat
  | .unlocked => 0 | .locked => 1 | .run => 2 | .error => 3
/-- Data key slots of a context that are loaded. -/
def dataSlots (s : State) (c : Nat) : List Nat :=
  (s.sec.slots.filter (fun e => ksState e.2 == 1 && ksKind e.2 == 0 && ksCtx e.2 == c)).map (·.2)
/-- The CONTEXT entry (Table 18-13). -/
def contextBytes (s : State) (c : Nat) : List Byte :=
  let v := entry s 0x0030 c
  let tdi := fun (port : Nat) => if ctxVf s c port = 0 then 0 else tdiCode (s.func (128 * port + ctxVf s c port)).tdi
  padTo 64 (natBytes 1 (fld v 0 2 + 4 * fld v 107 6) ++ natBytes 1 (b2n ((dataSlots s c).any (fun k => bit k 20)) + 2 * fld v 18 2)
    ++ natBytes 2 (fld v 20 14) ++ natBytes 2 (fld v 34 14) ++ natBytes 2 (if bit v 3 then s.boot.node else 0) ++ natBytes 1 (fld v 240 4)
    ++ natBytes 1 (dataSlots s c).length ++ (List.range 8).flatMap (fun i => natBytes 2 (fld v (128 + 14 * i) 14))
    ++ natBytes 1 (fld v 4 7) ++ natBytes 1 (fld v 11 7) ++ natBytes 1 (tdi 0 + 16 * tdi 1) ++ natBytes 3 0 ++ natBytes 4 (fld v 65 21))
/-- A closure entry (Table 18-14). -/
def closureBytes (x : Closure) : List Byte :=
  padTo 128 (natBytes 2 x.ctx ++ natBytes 1 x.kgen ++ natBytes 1 x.mods.length ++ natBytes 4 0 ++ natBytes 8 x.time
    ++ x.mods.flatMap (fun m => natBytes 2 m.1 ++ natBytes 1 (b2n m.2.1) ++ natBytes 1 0 ++ natBytes 4 m.2.2))
/-- Closures of a context's report, most recent first (R498). -/
def reportClosures (s : State) (c : Nat) : List Closure :=
  if c = 0 then s.cx.closures.take 64 else (s.cx.closures.filter (fun x => x.ctx == c)).take 4
/-- The sections of a report but for the signature, ascending TYPE. -/
def reportSections (s : State) (c : Nat) : List (List Byte) := [
  section_ 0x01 (padTo 76 Config.identity ++ digestBytes (Config.sha384 (aliasCert s)).toNat),
  section_ 0x02 (secBoot s),
  section_ 0x03 ((reportProgs s c).flatMap (progEntry s c)),
  section_ 0x04 ((reportBundles s c).flatMap bundleBytes),
  section_ 0x05 (secManifest s c),
  section_ 0x06 (contextBytes s c),
  section_ 0x07 ((reportClosures s c).flatMap closureBytes)]

/-! ### The report (R497, R499) -/

/-- The header (Table 18-11). -/
def reportHead (s : State) (c : Nat) (nonce : List Byte) (len sections : Nat) : List Byte :=
  padTo 128 (natBytes 2 1 ++ natBytes 2 128 ++ natBytes 4 len ++ natBytes 8 modId ++ natBytes 8 modRev ++ natBytes 2 c ++ natBytes 2 sections
    ++ natBytes 4 0 ++ padTo 32 nonce ++ natBytes 8 (now s) ++ natBytes 4 s.tab.mseq ++ natBytes 4 s.sec.reportSeq)
/-- The report of a context at this module time, none when the HSS key signs no more. -/
def makeReport (c : Nat) (nonce : List Byte) (s : State) : Option (List Byte × State) :=
  let s := { s with sec := { s.sec with reportSeq := (s.sec.reportSeq + 1) % 2 ^ 32 } }
  let body := (reportSections s c).flatten
  let span := reportHead s c nonce (128 + body.length + 3712) 8 ++ body
  let d := Config.sha384 span
  (signHss d s).map (fun r => (span ++ section_ 0x0F (padTo 96 (Config.ecdsaSign d) ++ r.1), r.2))

end Sys2Proof.Machine
end

