-- ==== Sys2Proof/Machine/ServiceOps.lean ====
section
/-!
DEFINITION. Shared operations of the services: packets the module received for itself, writes to the pool, notices to members, the outcome of a collective run and its phase-state record (R307, R310-R317, R327).
-/
namespace Sys2Proof.Machine

/-! ### Packets the module received for itself -/

/-- The first of them that satisfies a test, taken out. -/
def takeMod (ok : Packet × Nat → Bool) (s : State) : Option ((Packet × Nat) × State) :=
  (popFirst ok s.mf.modIn).map (fun r => (r.1, { s with mf := { s.mf with modIn := r.2 } }))

/-! ### The pool (Table 08-15, R327) -/

def paNode (a : Nat) : Nat := fld a 0 14
def paLaddr (a : Nat) : Nat := fld a 14 42
def paTc (a : Nat) : Nat := fld a 58 3
/-- Packets of at most four lines that bytes take, each with its number. -/
def poolPieces (data : List Byte) : List (List Byte) :=
  let d := padTo (64 * ceilDiv data.length 64) data
  chunksOf 256 (ceilDiv d.length 256) d
/-- One request of a service's thread. -/
def threadRequest (h user unit arg : Nat) (p : Packet) (s : State) : State :=
  requestOwn (threadTags h) { pkt := p, user := user, unit := unit, arg := arg } s
/-- Bytes written from the line that a pool address word names, in a context, by a service's thread. -/
def poolWrite (h user unit c a : Nat) (data : List Byte) (s : State) : State :=
  ((poolPieces data).mapIdx (fun i d => (i, d))).foldl (fun s (x : Nat × List Byte) =>
    let n := x.2.length / 64
    threadRequest h user unit h (mkPkt (paTc a) (if n = 1 then opWR64 else opWRN) c (ctxKgen s c) s.tab.cur (paNode a) s.boot.node 0 0
      ((paLaddr a + 4 * x.1) % 2 ^ 42 + 2 ^ 42 * (n - 1)) x.2) s) s

/-- Lines read from the one that a pool address word names, as requests of at most four lines of an owner, each piece under its number (R326, R327). -/
def readPieces (base user unit c tc node line n : Nat) (s : State) : State :=
  (List.range (ceilDiv n 4)).foldl (fun s i =>
    let k := min 4 (n - 4 * i)
    let p := mkPkt tc (if k = 1 then opRD64 else opRDN) c (ctxKgen s c) s.tab.cur node s.boot.node 0 0 ((line + 4 * i) % 2 ^ 42 + 2 ^ 42 * (k - 1)) []
    requestOwn base { pkt := p, user := user, unit := unit, arg := i } s) s
/-- Job numbers of the services' reads: by service, and within it. -/
def readKey (v k : Nat) : Nat := 2 ^ 20 * v + k
/-- Bytes that a service's thread asks of the pool, unless it has asked already (R327). -/
def askPool (key h c a len : Nat) (s : State) : State :=
  if mhas key s.svc.reads || ownOpen s 11 key then s
  else readPieces (threadTags h) 11 key c (paTc a) (paNode a) (paLaddr a) (ceilDiv len 64)
    { s with svc := { s.svc with reads := mput key {} s.svc.reads } }
/-- What the pool has answered, once every piece has: the first status that was not OK, and the bytes. -/
def poolGot (s : State) (key : Nat) : Option PoolAns :=
  match mfind? key s.svc.reads with
  | none => none
  | some r => if ownOpen s 11 key then none else some { status := r.status, data := (r.got.map (·.2)).flatten }
/-- The read is over. -/
def dropRead (key : Nat) (s : State) : State := { s with svc := { s.svc with reads := mdel key s.svc.reads } }

/-- Bytes written at a byte offset of a node, line by line: whole lines by WR64, parts of lines by WRP (Table 05-7). `base` is the first tag of the owner that writes. -/
def patchOwn (base user unit arg c tc node off : Nat) (data : List Byte) (s : State) : State :=
  let lead := off % 64
  let d := List.replicate lead 0 ++ data
  ((chunksOf 64 (ceilDiv d.length 64) d).mapIdx (fun i x => (i, x))).foldl (fun s (x : Nat × List Byte) =>
    let lo := if x.1 = 0 then lead else 0
    let line := (off / 64 + x.1) % 2 ^ 42
    let mask := 2 ^ x.2.length - 2 ^ lo
    let p := if lo = 0 ∧ x.2.length = 64 then mkPkt tc opWR64 c (ctxKgen s c) s.tab.cur node s.boot.node 0 0 line x.2
      else mkPkt tc opWRP c (ctxKgen s c) s.tab.cur node s.boot.node 0 0 (line + 2 ^ 48 * mask) (padTo 64 x.2)
    requestOwn base { pkt := p, user := user, unit := unit, arg := arg } s) s

/-! ### Pieces that operations of a service move (R341, R342, R348) -/

/-- One FETCH of an operation: n lines from a byte offset's line, under a job and a piece number. -/
def fetchPiece (base job arg c tc node off n : Nat) (s : State) : State :=
  let p := mkPkt tc (if n = 1 then opRD64 else opRDN) c (ctxKgen s c) s.tab.cur node s.boot.node 0 0 ((off / 64) % 2 ^ 42 + 2 ^ 42 * (n - 1)) []
  requestOwn base { pkt := p, user := 12, unit := job, arg := arg } s
/-- One STORE of an operation: whole lines at once where it begins on a line. -/
def storePiece (base job arg c tc node off : Nat) (data : List Byte) (s : State) : State :=
  let n := data.length / 64
  if off % 64 = 0 ∧ data.length = 64 * n ∧ inRange 1 4 n then
    let p := mkPkt tc (if n = 1 then opWR64 else opWRN) c (ctxKgen s c) s.tab.cur node s.boot.node 0 0 ((off / 64) % 2 ^ 42 + 2 ^ 42 * (n - 1)) data
    requestOwn base { pkt := p, user := 13, unit := job, arg := arg } s
  else patchOwn base 13 job arg c tc node off data s
/-- The answer to a piece of a job, none while it is awaited. -/
def pieceOf (s : State) (job arg : Nat) : Option (Nat × List Byte) := mfind? (job * 2 ^ 64 + arg) s.svc.pieces
def dropPiece (job arg : Nat) (s : State) : State := { s with svc := { s.svc with pieces := mdel (job * 2 ^ 64 + arg) s.svc.pieces } }
def dropJob (job : Nat) (s : State) : State := { s with svc := { s.svc with pieces := s.svc.pieces.filter (fun e => e.1 / 2 ^ 64 != job) } }
/-- The first status of a job's pieces in a range that is not OK. -/
def jobStatus (s : State) (job lo hi : Nat) : Nat :=
  match s.svc.pieces.find? (fun e => decide (job * 2 ^ 64 + lo ≤ e.1) && decide (e.1 < job * 2 ^ 64 + hi) && e.2.1 != stOK) with
  | some e => e.2.1
  | none => stOK

/-! ### Collective plans (R306-R317) -/

/-- Mailbox thread of the collective service. -/
def collThread (s : State) : Nat := mboxThread s 1
/-- A CNOTE of the collective service (Tables 10-5 and 10-11). -/
def cnote (pl : Plan) (tc ntype dst : Nat) (payload : List Byte) (s : State) : State :=
  sendFrom (448 + collThread s / 32)
    (mkPkt tc opCNOTE pl.ctx (ctxKgen s pl.ctx) s.tab.cur dst s.boot.node 0 0 (pl.spray + 2 ^ 12 * pl.run + 2 ^ 52 * ntype) (padTo 16 payload)) s
/-- A mask as bytes: bit i in byte i / 8 at i mod 8. -/
def maskBytes (n : Nat) (f : Nat → Bool) : List Byte :=
  (List.range (ceilDiv n 8)).map (fun b => BitVec.ofNat 8 (ofBitList ((List.range 8).filter (fun i => decide (8 * b + i < n) && f (8 * b + i)))))
/-- The two masks: the chunk mask starts at the first 64 B boundary behind the member mask. -/
def masksOf (pl : Plan) : List Byte :=
  padTo (64 * ceilDiv pl.n 512) (maskBytes pl.n (fun i => !pl.pruned.contains i)) ++ maskBytes pl.chunks (fun c => pl.done.contains c)
/-- Chunks delivered, and members in the member mask. -/
def chunksDone (pl : Plan) : Nat := pl.done.length
def membersLeft (pl : Plan) : Nat := pl.n - pl.pruned.length
/-- A chunk that the run is to deliver: none of a pruned member's slice where its kind goes on without it (Table 10-10), and none that is poisoned (R317). -/
def chunkDue (pl : Plan) (c : Nat) : Bool :=
  !pl.bad.contains c && !((pl.kind == 2 || pl.kind == 4) && pl.pruned.contains (c / (pl.chunks / pl.n)))
/-- Every chunk that is to be delivered has been. -/
def runWhole (pl : Plan) : Bool := (List.range pl.chunks).all (fun c => pl.done.contains c || !chunkDue pl c)
/-- The status that a run's masks give it (R311, R314, R317). -/
def runStatus (s : State) (pl : Plan) : Nat :=
  if ctxState s pl.ctx ≠ 1 then stContextGone
  else if !pl.pruned.isEmpty then stIncomplete
  else if chunksDone pl = pl.chunks then stOK
  else if pl.byDeadline then stTimeout
  else stIncomplete

/-! ### Phase state (R315, R316, Table 10-13) -/

/-- Bytes 0-59 of a record. -/
def recordHead (k : Nat) (pl : Plan) (status : Nat) : List Byte :=
  natBytes 2 k ++ natBytes 2 pl.run ++ natBytes 1 pl.phase ++ natBytes 1 status ++ natBytes 1 (b2n pl.primaryLost) ++ natBytes 1 0
    ++ natBytes 8 pl.seq ++ natBytes 4 (chunksDone pl) ++ natBytes 40 0
/-- A record: header, CRC, masks. -/
def phaseRecord (k : Nat) (pl : Plan) (status : Nat) : List Byte :=
  let h := recordHead k pl status
  let m := masksOf pl
  h ++ natBytes 4 (crc32 (h ++ m)) ++ m
/-- The record written with the next SEQ: the shadow first, unless its stack has failed, then the primary unless it is lost (R315, R316, R512). -/
def writeRecord (k status : Nat) (s : State) : State :=
  let dead := s.tier.stacksFailed.contains 2
  let s := s.modPlan k (fun x => { x with seq := (x.seq + 1) % 2 ^ 64, degraded := x.degraded || dead })
  let pl := s.plan k
  let r := phaseRecord k pl status
  let s := if dead then s else { s with svc := { s.svc with shadows := memWrite s.svc.shadows (16384 * k) r } }
  if pl.primaryLost then s
  else poolWrite (collThread s) 5 k pl.ctx pl.state r s
/-- A copy of a run's record that is valid, its CRC right and its PLAN and RUN the run's: SEQ, PHASE, chunks done (R316). -/
def validCopy (k : Nat) (pl : Plan) (d : List Byte) : Option (Nat × Nat × Nat) :=
  let d := d.take (64 + (masksOf pl).length)
  if byteAt d 0 2 = k ∧ byteAt d 2 2 = pl.run ∧ byteAt d 60 4 = crc32 (d.take 60 ++ d.drop 64) then some (byteAt d 8 8, byteAt d 4 1, byteAt d 16 4) else none
/-- The shadow copy, if its stack can be read and it is valid. -/
def shadowCopy (s : State) (k : Nat) : Option (Nat × Nat × Nat) :=
  let pl := s.plan k
  if s.tier.stacksFailed.contains 2 then none
  else validCopy k pl (memRead s.svc.shadows (16384 * k) (64 + (masksOf pl).length))
/-- Writes of the primary copy that have not been answered. -/
def primaryOpen (s : State) (k : Nat) : Bool := ownOpen s 5 k

/-! ### Chunks of a run (R299, R310, R312) -/

/-- A chunk is delivered, or in phase 1 of a staged run combined. -/
def addChunk (k c : Nat) (s : State) : State :=
  s.modPlan k (fun x => { x with done := if c < x.chunks then insertSet c x.done else x.done })
/-- Where the results of a chunk go: to the member that owns its slice, to the ROOT, or to every member through the alias (Table 10-10). -/
def resultNode (pl : Plan) (c : Nat) : Nat :=
  if pl.kind = 1 then pl.members.getD (c / (pl.chunks / pl.n)) 0 else if pl.kind = 4 then pl.members.getD pl.root 0 else pl.alias_
/-- A CBLK that an operation of a streamed run, or of phase 2, sends where the results of its chunk go: its last bytes deliver the chunk. -/
def noteBlock (p : Packet) (s : State) : State :=
  if pOp p ≠ opCBLK then s
  else
    let n := if hfld p 180 1 = 1 then fld (byteAt p.payload 0 8) 8 11 else p.payload.length
    match s.svc.plans.find? (fun e => e.2.running && e.2.spray == hfld p 128 12 && resultNode e.2 (pChunk p) == pDst p && e.2.run == hfld p 140 8) with
    | some (k, pl) => if pl.phase ≠ 1 ∧ 64 * pBoff p + n = 1024 then addChunk k (pChunk p) s else s
    | none => s
/-- The ALL handler of a chunk ended: in phase 1 of a staged run the chunk is combined, and the last one ends the phase with its record (R315). -/
def noteAll (n : Nat) (e : OpEvent) (s : State) : State :=
  if e.ev ≠ 1 then s
  else match planOfOp s n with
    | none => s
    | some (k, i) =>
      if (s.plan k).phase ≠ 1 then s
      else
        let t := addChunk k (e.chunk * (s.plan k).ops.length + i) s
        if chunksDone (s.plan k) < (s.plan k).chunks ∧ chunksDone (t.plan k) = (t.plan k).chunks then
          writeRecord k stOK (t.modPlan k (fun x => { x with due := true }))
        else t

end Sys2Proof.Machine
end

