-- ==== Sys2Proof/Machine/KeyOps.lean ====
section
/-!
DEFINITION. Shared operations on key slots and the requests of control threads to Carnelian (R463, R478-R485; choices of the requests: log 50).
-/
namespace Sys2Proof.Machine

/-- Carnelian serves requests: it has firmware and no handover is under way (R468-R470). -/
def carnelianServes (s : State) : Bool := s.boot.pwrgd && s.sec.handover.isNone && !s.sec.recovery

/-! ### Key slots (R478-R483) -/

/-- The generation that a slot loaded for a context takes: a FREE context's next one (R463, R479). -/
def slotKgen (s : State) (c : Nat) : Nat := if ctxState s c = 0 then nextKgen s c else ctxKgen s c
/-- A slot LOADED, as a commit of its own (R482). -/
def loadSlot (n c kgen kind : Nat) (imported shared : Bool) (key : Nat) (s : State) : State :=
  noteCommit { s with sec := { s.sec with
    slots := mset 0 n (1 + 2 ^ 2 * c + 2 ^ 12 * kgen + 2 ^ 18 * kind + 2 ^ 20 * b2n imported + 2 ^ 21 * b2n shared) s.sec.slots
    keys := mput n key s.sec.keys } }
/-- A free scrub slot takes a throwaway pair (R465, Table 18-5). -/
def loadScrub (c : Nat) (s : State) : Option (Nat × State) :=
  (((List.range 64).map (4032 + ·)).find? (fun n => ksState (keySlot s n) == 0)).map (fun n =>
    let d := draw s
    (n, loadSlot n c (slotKgen s c) 1 false false d.1 d.2))
/-- A slot is named by an extent that serves (R482). -/
def slotServes (s : State) (n : Nat) : Bool :=
  (listedExtents s).any (fun e => let v := extent s e; (exState v == 1 || exState v == 2) && exKeyslot v == n)
/-- A slot destroyed (R483). -/
def destroySlot (n : Nat) (s : State) : State := noteCommit (emptySlot n s)
/-- The generation of a context that is not OPEN retired: its LOADED slots become RETIRED and lose their material (R463, R480, R482, R483). -/
def retireKgen (c : Nat) (s : State) : State :=
  let g := ctxKgen s c
  let hit := fun (v : Nat) => ksState v == 1 && ksCtx v == c && ksKgen v == g && ksKind v == 0
  let gone := (s.sec.slots.filter (fun e => hit e.2)).map (·.1)
  let s := { s with sec := { s.sec with
    slots := s.sec.slots.map (fun e => if hit e.2 then (e.1, setFld e.2 0 2 2) else e)
    keys := s.sec.keys.filter (fun e => !gone.contains e.1) } }
  let s := if s.cx.retired.contains c then s
    else { s with cx := { s.cx with kgen := mset 0 c ((g + 1) % 64) s.cx.kgen, retired := insertSet c s.cx.retired } }
  noteCommit (settleKeys s)

/-! ### Requests (R484, R485) -/

/-- What a request comes to: status, slot, report length. -/
structure KeyDone where
  status : Nat := 0
  /-- The operation goes on: a SHARE awaits the peer's answer. -/
  wait : Bool := false
  slot : Nat := 0
  len : Nat := 0

def krOp (r : List Byte) : Nat := byteAt r 0 1
def krCtx (r : List Byte) : Nat := byteAt r 2 2
def krSlot (r : List Byte) : Nat := byteAt r 4 2
/-- A request whose fields are in range: no reserved field set, a slot of the kind the operation has. -/
def krOk (r : List Byte) : Bool :=
  let op := krOp r
  let data := decide (1 ≤ krSlot r ∧ krSlot r < 4032)
  byteAt r 1 1 == 0 && byteAt r 10 6 == 0 && byteAt r 56 8 == 0 && inRange 1 8 op && decide (krCtx r < 1024)
    && (match op with
        | 1 => data
        | 2 => data
        | 3 => data && decide (1 ≤ byteAt r 6 2 ∧ byteAt r 6 2 < 4032) && decide (byteAt r 8 2 < 16384)
        | 4 => decide (1 ≤ krSlot r ∧ krSlot r < 4096)
        | 6 => decide (krSlot r < 4096)
        | _ => true)
/-- The context is CLOSING or SCRUBBING. -/
def ctxGoing (s : State) (c : Nat) : Bool := decide (2 ≤ ctxState s c)
/-- ALLOC. -/
def keyAlloc (r : List Byte) (s : State) : KeyDone × State :=
  let n := krSlot r
  if ksState (keySlot s n) ≠ 0 then ({ status := stBusy, slot := n }, s)
  else if ctxGoing s (krCtx r) then ({ status := stContextGone, slot := n }, s)
  else
    let d := draw s
    ({ slot := n }, loadSlot n (krCtx r) (slotKgen s (krCtx r)) 0 false false d.1 d.2)
/-- IMPORT of a handle that KEY_UPLOAD gave out; the pair's number holds both keys. -/
def keyImport (r : List Byte) (s : State) : KeyDone × State :=
  let n := krSlot r
  match s.sec.imports.find? (fun (h : Nat × Nat × Nat × Nat) => h.1 == byteAt r 24 4 && h.2.1 == krCtx r && decide (now s < h.2.2.2)) with
  | none => ({ status := stViolation, slot := n }, s)
  | some h =>
    if h.2.2.1 % 2 ^ 256 = h.2.2.1 / 2 ^ 256 then ({ status := stViolation, slot := n }, s)
    else if ksState (keySlot s n) ≠ 0 then ({ status := stBusy, slot := n }, s)
    else if ctxGoing s (krCtx r) then ({ status := stContextGone, slot := n }, s)
    else
      let s := { s with sec := { s.sec with imports := s.sec.imports.filter (fun x => x.1 != h.1) } }
      ({ slot := n }, loadSlot n (krCtx r) (slotKgen s (krCtx r)) 0 true false h.2.2.1 s)
/-- A CRMSG to another module's Carnelian (R488). -/
def sendCrmsg (h dst : Nat) (payload : List Byte) (s : State) : State :=
  sendFrom (448 + h / 32) (mkPkt 6 opCRMSG 0 (ctxKgen s 0) s.tab.cur dst s.boot.node 0 0 0 payload) s
/-- A session of this Carnelian with a module's is established (R488). -/
def peerSession (s : State) (node : Nat) : Bool := (s.spdm 3).sessions.any (fun e => e.2 && mfind? e.1 (s.spdm 3).who == some node)
/-- The peer module can be reached: a route, and a session of the two Carnelians (R488). -/
def peerReached (s : State) (node : Nat) : Bool :=
  (fld (entry s 0x0010 node) 0 3 == 1 || fld (entry s 0x0010 node) 0 3 == 2) && peerSession s node
/-- SHARE: the key goes by CRMSG, and the peer's answer is awaited (log 50). -/
def keyShare (h : Nat) (r : List Byte) (s : State) : KeyDone × State :=
  let n := krSlot r
  if ksState (keySlot s n) ≠ 1 then ({ status := stViolation, slot := n }, s)
  else if !peerReached s (byteAt r 8 2) then ({ status := stPathLost, slot := n }, s)
  else
    let d := draw s
    ({ wait := true, slot := n }, sendCrmsg h (byteAt r 8 2) (padTo 64 (Config.spdmAnswer 3 d.1)) d.2)
/-- DESTROY. -/
def keyDestroy (r : List Byte) (s : State) : KeyDone × State :=
  let n := krSlot r
  if slotServes s n then ({ status := stBusy, slot := n }, s) else ({ slot := n }, destroySlot n s)
/-- RETIRE. -/
def keyRetire (r : List Byte) (s : State) : KeyDone × State :=
  if ctxState s (krCtx r) = 1 then ({ status := stViolation, slot := krSlot r }, s) else ({ slot := krSlot r }, retireKgen (krCtx r) s)
/-- SCRUB. -/
def keyScrub (r : List Byte) (s : State) : KeyDone × State :=
  match loadScrub (krCtx r) s with
  | some (n, t) => ({ slot := n }, t)
  | none => ({ status := stBusy, slot := krSlot r }, s)
/-- Unit under which the stores of a request's report stand. -/
def reportUnit (h ticket : Nat) : Nat := 65536 * h + ticket
/-- REPORT: built at once and stored to the output area in context 0; it completes behind its stores (R485). -/
def keyReport (h ticket : Nat) (r : List Byte) (s : State) : KeyDone × State :=
  if 64 ≤ (s.sec.kreqs.filter (fun q => krOp q.req == 7 && q.done.isSome)).length then ({ status := stBusy, slot := krSlot r }, s)
  else match makeReport (krCtx r) ((r.drop 24).take 32) s with
    | none => ({ status := stStateLost, slot := krSlot r }, s)
    | some (b, t) =>
      let a := byteAt r 16 8
      ({ slot := krSlot r, len := b.length }, patchOwn (threadTags h) 15 (reportUnit h ticket) 0 0 (paTc a) (paNode a) (64 * paLaddr a) b t)
/-- A request served for a thread: another context's than 0 is VIOLATION. -/
def serveKey (h ticket : Nat) (r : List Byte) (s : State) : KeyDone × State :=
  if (s.thread h).ctx ≠ 0 ∨ !krOk r then ({ status := stViolation, slot := krSlot r }, s)
  else match krOp r with
    | 1 => keyAlloc r s
    | 2 => keyImport r s
    | 3 => keyShare h r s
    | 4 => keyDestroy r s
    | 5 => keyRetire r s
    | 6 => ({ slot := krSlot r }, s)
    | 7 => keyReport h ticket r s
    | _ => keyScrub r s
/-- Status word of a slot with its EXTREFS (Table 18-3). -/
def slotWord (s : State) (n : Nat) : Nat := keySlot s n % 2 ^ 22 + 2 ^ 22 * extRefs s n
/-- The completion descriptor (Table 18-6). -/
def keyDoneBytes (s : State) (ticket : Nat) (r : List Byte) (d : KeyDone) : List Byte :=
  padTo 64 (natBytes 2 ticket ++ natBytes 1 d.status ++ natBytes 1 (krOp r) ++ natBytes 2 d.slot ++ natBytes 1 (ksKgen (keySlot s d.slot))
    ++ natBytes 1 0 ++ natBytes 8 (slotWord s d.slot) ++ natBytes 4 d.len)
/-- The oldest request that has not been served. -/
def serveNext (s : State) : State :=
  match s.sec.kreqs.findIdx? (fun q => q.done.isNone && q.sent.isNone) with
  | none => s
  | some i =>
    let q := s.sec.kreqs.getD i {}
    let r := serveKey q.thread q.ticket q.req s
    { r.2 with
      sec := { r.2.sec with
        kreqs := r.2.sec.kreqs.set i (if r.1.wait then { q with sent := some (now s) } else { q with done := some (keyDoneBytes r.2 q.ticket q.req r.1) }) } }
/-- The SHARE that a condition picks completes with a status. -/
def endShare (which : KReq → Bool) (st : Nat) (s : State) : State :=
  { s with sec := { s.sec with kreqs := s.sec.kreqs.map (fun q =>
    if q.done.isNone && q.sent.isSome && which q then { q with done := some (keyDoneBytes s q.ticket q.req { status := st, slot := krSlot q.req }) } else q) } }
/-- SHAREs that have had no answer for 2 ms: the peer is not reached (Table 18-5). -/
def dropShares (s : State) : State := endShare (fun q => q.sent.any (fun t => passed s t 2000000)) stPathLost s
/-- Every request that has reached Carnelian is served in order, while it serves (R470). -/
def serveKeys (s : State) : State :=
  if carnelianServes s then (List.range s.sec.kreqs.length).foldl (fun s _ => serveNext s) s else s
/-- A request reaches Carnelian. -/
def postKey (h ticket : Nat) (r : List Byte) (s : State) : State :=
  serveKeys { s with sec := { s.sec with kreqs := s.sec.kreqs ++ [{ thread := h, ticket := ticket, req := r }] } }

end Sys2Proof.Machine
end

