-- ==== Sys2Proof/Machine/MgmtOps.lean ====
section
/-!
DEFINITION. Shared operations of the management endpoints: answers, authority and sessions (R422, R493, R494, R496; codes and presumed message forms: log 52).
-/
namespace Sys2Proof.Machine

/-- Carnelian answers messages: its firmware runs, or the module is in recovery, and no handover is under way (R470, R472). -/
def mgmtServes (s : State) : Bool := s.boot.pwrgd && s.sec.handover.isNone && (s.sec.recovery || s.boot.step == 5)
/-- The line of an interface carries messages: the host link of its port is up, I3C has its address, a CRMSG waits (R488, R494, R602). -/
def ifaceLine (s : State) (iface : Nat) : Bool :=
  match iface with
  | 2 => s.hst.i3cAddr.isSome
  | 3 => !(s.spdm 3).peers.isEmpty
  | _ => (s.hport iface).linkUp
/-- An interface brings its messages to a Carnelian that serves. -/
def ifaceUp (s : State) (iface : Nat) : Bool := mgmtServes s && ifaceLine s iface
/-- A message that reaches Carnelian during a handover waits for the incoming core (R470). -/
def holdMessage (iface : Nat) (i : Message) (s : State) : State :=
  onlyIf (s.boot.pwrgd && s.sec.handover.isSome && ifaceLine s iface) s { s with sec := { s.sec with waiting := s.sec.waiting ++ [i] } }
/-- A request on an interface. -/
def onIface (iface : Nat) (i : Message) (f : State → State) (s : State) : State :=
  if ifaceUp s iface then f s else holdMessage iface i s
/-- An answer to another module's Carnelian goes by CRMSG, 256 B at a time (R488). -/
def answerPeer (data : List Byte) (s : State) : State :=
  match (s.spdm 3).peers with
  | [] => s
  | n :: rest =>
    ((chunksOf 256 data.length data).map (fun c => padTo (8 * ceilDiv (max 1 c.length) 8) c)).foldl (fun s c => sendCrmsg 0 n c s)
      (s.modSpdm 3 (fun x => { x with peers := rest }))
/-- An answer on an interface: `code` is the request's, in groups of 256: SPDM, IDE_KM, TDISP, Tierarel requests. -/
def answer (iface code : Nat) (data : List Byte) (s : State) : State :=
  let s := put (.mgmt iface code false data) s
  if iface = 3 then answerPeer (padTo 8 data) s else s
/-- An error answer: an SPDM or TDISP ERROR. -/
def answerError (iface code : Nat) (s : State) : State :=
  let s := put (.mgmt iface code true []) s
  if iface = 3 then answerPeer (padTo 8 []) s else s
/-- An answer that takes a signature: it is given at once, or an ERROR says that it is not ready and RESPOND_IF_READY gets it; which of the two is free (log 52). -/
def answerReady (iface code : Nat) (data : List Byte) (s : State) : State :=
  let b := drawCoin s
  if b.1 then answer iface code data b.2 else answerError iface code (b.2.modSpdm iface (fun x => { x with later := some (code, data) }))
/-- An answer that may be longer than one message: it is then held and given out by CHUNK_GET (R493). -/
def answerLong (iface code : Nat) (data : List Byte) (s : State) : State :=
  if data.length ≤ Config.messageMax then answer iface code data s
  else answerError iface code (s.modSpdm iface (fun x => { x with give := data, busy := insertSet code x.busy }))
/-- An owner-only write or an ownership command refused is counted, saturating (R419, Table 16-8). -/
def countRefused (s : State) : State := { s with hst := { s.hst with refused := satAdd 16 s.hst.refused 1 } }
/-- A Tierarel request that does not meet its row: an SPDM ERROR, counted (R493). -/
def refuseMgmt (iface code : Nat) (s : State) : State := answerError iface (768 + code) (countRefused s)
/-- A Tierarel request that fails with a status. -/
def mgmtStatus (iface code status : Nat) (s : State) : State :=
  if status = stOK then answer iface (768 + code) (natBytes 8 stOK) s else put (.mgmt iface (768 + code) true (natBytes 8 status)) s

/-! ### Sessions (R494) -/

/-- Most sessions of an interface. -/
def sessionMax (iface : Nat) : Nat := if iface < 2 then 8 else if iface = 2 then 4 else 64
/-- A session on interface 3 is that of the module whose message is served. -/
def sessionMine (s : State) (iface sess : Nat) : Bool := iface != 3 || mfind? sess (s.spdm 3).who == (s.spdm 3).peers.head?
/-- A session is established, with the module that asks. -/
def sessionUp (s : State) (iface sess : Nat) : Bool :=
  (s.spdm iface).sessions.contains (sess, true) && sessionMine s iface sess
/-- The interface is the owner's, and the request came in a secured session of it (R493). -/
def ownerSession (s : State) (iface sess : Nat) : Bool := decide (iface < 2) && s.hst.owner == iface + 1 && sessionUp s iface sess
/-- The request came in a session from the host TSM of a TDI bound to a context (R493). -/
def tsmSession (s : State) (iface sess vf c : Nat) : Bool :=
  decide (iface < 2) && vf != 0 && decide (vf < 128) && c != 0 && ctxState s c != 0 && ctxVf s c iface == vf && sessionUp s iface sess
/-- I3C may write and activate images while the module is in recovery. -/
def recoveryI3c (s : State) (iface : Nat) : Bool := iface == 2 && s.sec.recovery
/-- Every SPDM session ends (R470). -/
def endSessions (s : State) : State := { s with sec := { s.sec with spdm := [] } }

end Sys2Proof.Machine
end

