-- ==== Sys2Proof/Machine/Power.lean ====
section
/-!
DEFINITION. Meanings of Chervil's commands: sensors and bins, pacing, power cap, thermal limits and trip, input stage, phases, heartbeats, DOZE and SLEEP (R38-R51, R373, R513, R556-R574).
-/
namespace Sys2Proof.Machine

/-! ### The filter (R556, R557) -/

/-- One sample through the median of five and the IIR stage; the first sample starts the filter (log 12). -/
def filterSample (k : Nat) (x : Int) (t : Nat) (f : Sensor) : Sensor :=
  let hist := (x :: f.hist).take 5
  let m := medianOf hist * 65536
  let y := if f.hist.isEmpty then m else f.y + (m - f.y) / (2 ^ k : Nat)
  { f with hist := hist, y := y, peak := some (max (f.peak.getD (y / 65536)) (y / 65536)), lastAt := t }
/-- Filtered value. -/
def filtered (f : Sensor) : Int := f.y / 65536
/-- The die of a temperature sensor, 0-6 (R45, Table 21-1). -/
def sensorDie (i : Nat) : Nat :=
  if i < 16 then 4 else if i < 32 then 5 else if i = 32 then 4 else if i = 33 then 5
  else if i < 50 then (i - 34) / 4 else if i = 50 then 6 else if i < 53 then 4 else 5
/-- Junction sensors of a die. -/
def dieSensors (d : Nat) : List Nat := (List.range 51).filter (fun i => sensorDie i == d)
/-- The greatest of some values, the first as start. -/
def maxOf (d : Int) (l : List Int) : Int :=
  match l with
  | [] => d
  | x :: t => t.foldl max x
/-- Temperature a sensor stands for: its own, or, once failed, the hottest working one of its die (R557). -/
def sensorTemp (s : State) (i : Nat) : Int :=
  if (s.sensor i).failed then
    maxOf (filtered (s.sensor i)) (((dieSensors (sensorDie i)).filter (fun j => !(s.sensor j).failed)).map (fun j => filtered (s.sensor j)))
  else filtered (s.sensor i)
/-- A die's temperature: its hottest sensor, 1/16 degrees C (R556). -/
def dieTemp (s : State) (d : Nat) : Int := maxOf 0 ((dieSensors d).map (sensorTemp s))
/-- Degrees C in 1/16. -/
def deg (n : Int) : Int := 16 * n
/-- A reading taken; none for 1 ms, or one out of range, marks the sensor failed with an event record (R557). -/
def sampleSensor (k i : Nat) (reading : Option Int) (s : State) : State :=
  let f := s.sensor i
  let bad := match reading with
    | some x => !Config.inRange i x
    | none => passed s f.lastAt 1000000
  if bad then
    if f.failed then s else emitClass 6 16 i 0 0 0 (s.setSensor i { f with failed := true })
  else match reading with
    | some x => s.setSensor i (filterSample k x (now s) f)
    | none => s

/-! ### Bins and Peridot levels (R38-R40, R373) -/

/-- A level that steps with hysteresis between enter and leave figures in degrees C (Tables 02-2, 13-4). -/
def stepLevel (enter leave : List Int) (t : Int) (lvl : Nat) : Nat :=
  (List.range enter.length).foldl (fun b _ =>
    if deg (enter.getD b 100000) ≤ t then b + 1
    else if 0 < b ∧ t < deg (leave.getD (b - 1) (-100000)) then b - 1 else b) lvl
def binEnter : List Int := [23, 43, 63, 78, 88, 98, 106]
def binLeave : List Int := [21, 41, 61, 76, 86, 96, 104]
/-- The block whose temperature a delay line follows: a tile its cluster, a port die's lookups and a half's port stages the half (R38, R45; log 12). -/
def lineBlock (l : Nat) : Nat :=
  if l < 34 then l else if l < 290 then (l - 34) / 8 else if l < 294 then 32 + (l - 290) / 2 else if l < 296 then 32 + (l - 294) else l - 296
/-- Stage type of a delay line, as Config.delayCode numbers it (R34, R35). -/
def lineType (l : Nat) : Nat := if l < 32 then 0 else if l < 34 then 1 else if l < 290 then 2 else if l < 294 then 3 else if l < 296 then 4 else 2
/-- Offset of a tile or spare tile in a bin, beside its block's (R41; the spares' keys log 58). -/
def lineOffset (s : State) (l bin : Nat) : Nat :=
  if 34 ≤ l ∧ l < 290 then mget 0 (8 * l + bin) s.chv.offsets
  else if 296 ≤ l then mget 0 (8 * (l - 6) + bin) s.chv.offsets else 0
/-- Delay code of a line in a bin, 0-63: the table code, the block's offset and the tile's (R35, R38, R41, R515). -/
def codeFor (s : State) (l bin : Nat) : Nat :=
  min 63 (Config.delayCode (lineType l) bin + mget 0 (8 * lineBlock l + bin) s.chv.offsets + lineOffset s l bin)
/-- A line's code for the present bin of its block is pending (R40). -/
def pendLine (l : Nat) (s : State) : State := s.modLine l (fun x => { x with pend := some (codeFor s l (s.block (lineBlock l)).bin) })
/-- The delay lines of a block's stages. -/
def blockLines (b : Nat) : List Nat := (List.range 328).filter (fun l => lineBlock l == b)
/-- A code becomes pending in every line of a block (R40). -/
def pendBlock (b : Nat) (s : State) : State := (blockLines b).foldl (fun s l => pendLine l s) s
/-- A block enters a bin; its lines' new codes are pending (R39, R40). -/
def setBin (b bin : Nat) (s : State) : State :=
  if (s.block b).bin = bin then s else pendBlock b (s.modBlock b (fun x => { x with bin := bin }))
/-- The bin of a block after its temperature. -/
def updateBin (b : Nat) (s : State) : State := setBin b (stepLevel binEnter binLeave (sensorTemp s b) (s.block b).bin) s
/-- Level of a Peridot half (Table 13-4). -/
def perLevel (s : State) (half : Nat) : Nat := mget 0 half s.chv.plvl
/-- The level of a half changes; the time at level 1 or 2 is counted (R373, R380). -/
def setPerLevel (half lvl : Nat) (s : State) : State :=
  let old := perLevel s half
  let s := { s with chv := { s.chv with plvl := mset 0 half lvl s.chv.plvl } }
  if old = 0 ∧ lvl ≠ 0 then { s with per := { s.per with throttleSince := mput half (now s) s.per.throttleSince } }
  else if old ≠ 0 ∧ lvl = 0 then
    { s with per := { s.per with
      ctr := mmod 0 (8 * half + 3) (fun v => wrapAdd 64 v (now s - (mfind? half s.per.throttleSince).getD (now s))) s.per.ctr
      throttleSince := mdel half s.per.throttleSince } }
  else s
/-- The level of a half after its core die's temperature (log 28). -/
def updatePerLevel (half : Nat) (s : State) : State :=
  setPerLevel half (stepLevel [90, 100] [85, 95] (dieTemp s (4 + half)) (perLevel s half)) s
/-- The junction sensors are sampled, and bins and Peridot levels follow (R39, R373, R556, R557). -/
def sampleJunctions (readings : List (Option Int)) (s : State) : State :=
  let s := (List.range 51).foldl (fun s i => sampleSensor 2 i (readings.getD i none) s) s
  let s := (List.range 34).foldl (fun s b => updateBin b s) s
  updatePerLevel 1 (updatePerLevel 0 s)
def effTempSample (readings : List (Option Int)) (s : State) : State := onlyIf (chervilRuns s) s (sampleJunctions readings s)
/-- A pending code takes effect (R40). -/
def effDelayCodeApply (line : Nat) (s : State) : State :=
  match (s.line line).pend with
  | none => s
  | some c => s.setLine line { code := c }

/-! ### Pacing (R46, R47, R50) -/

/-- Applied tile and lookup issue limits of a core die: the lower demand (R562). -/
def tileLimit (s : State) (d : Nat) : Nat := min (s.limit d).capT (s.limit d).thT
def lookupLimit (s : State) (d : Nat) : Nat := min (s.limit d).capL (s.limit d).thL
/-- The core die whose rail a droop sensor watches. -/
def droopDie (sensor : Nat) : Nat := sensorDie sensor - 4
/-- The droop sensors that pace a tile: its cluster's and its crossbar half's (R45). -/
def tileSensors (t : Nat) : List Nat := [t / 8, 32 + t / 128]
/-- The droop sensor that paces the lookup pipelines of a port die (R45). -/
def lookupSensor (die : Nat) : Nat := 32 + die / 2
/-- The pacer works: without Chervil, issue runs at 50 % (R30, Table 01-8). -/
def pacerRuns (s : State) : Bool := chervilRuns s
/-- Issue rate of a tile, 64ths: the lowest of the pace of its sensors and the limit of its core die (R45, R50, R562); 50 % without the pacer (R30). -/
def tileIssue (s : State) (t : Nat) : Nat :=
  if pacerRuns s then (tileSensors t).foldl (fun m k => min m (s.droop k).paceT) (tileLimit s (t / 128)) else 32
/-- Issue rate of a port die's lookup pipelines, 64ths (R45, R50, R562). -/
def lookupIssue (s : State) (die : Nat) : Nat :=
  if pacerRuns s then min (lookupLimit s (die / 2)) (s.droop (lookupSensor die)).paceL else 32
/-- Droop threshold below a set point, mV: the lesser of 30 and the set point minus 700, never below 20 (R561). -/
def droopMargin (v : Nat) : Nat := max 20 (min 30 (v - 700))
/-- Droop threshold and restore level of a core die's rail, mV (R51). -/
def droopLevel (s : State) (d : Nat) : Nat := coreRail s d - (if s.chv.pstate == .doze then droopMargin s.chv.dozeV else (s.limit d).droopMv)
def restoreLevel (s : State) (d : Nat) : Nat := droopLevel s d + (s.limit d).restoreMv
/-- What a droop sensor reads of its rail: below the threshold issue falls to 50 %; from the restore level on the dwell runs, and below it no dwell does (R46, R47). -/
def effDroopDetect (sensor mv : Nat) (s : State) : State :=
  let d := droopDie sensor
  s.modDroop sensor (fun x =>
    if mv < droopLevel s d then { paceDown sensor x with since := none, events := x.events + 1 }
    else if mv < restoreLevel s d then { x with since := none }
    else { x with since := some (x.since.getD (now s)) })
/-- One restore step of 12.5 %, which stops at the limit that applies and does not pass it (R47, R50). -/
def raisePace (limit pace : Nat) : Nat := max pace (min limit (pace + 8))
/-- The dwell of a sensor's rail has passed. -/
def dwelt (s : State) (sensor : Nat) : Bool :=
  match (s.droop sensor).since with
  | some t => passed s t (s.limit (droopDie sensor)).dwell
  | none => false
/-- A sensor's issue after one restore step: tiles and lookups each up to their own limit. -/
def restored (s : State) (sensor : Nat) : Droop :=
  let x := s.droop sensor
  let d := droopDie sensor
  { x with
    paceT := raisePace (tileLimit s d) x.paceT
    paceL := raisePace (lookupLimit s d) x.paceL
    since := some (now s) }
/-- One step after a dwell (R47), unless the block is held at 50 % for its margin or the wake (R515, R573). -/
def effRestoreStep (sensor : Nat) (s : State) : State :=
  onlyIf (dwelt s sensor && !(s.block sensor).low && s.chv.pstate != .waking
      && decide ((s.droop sensor).paceT + (s.droop sensor).paceL < (restored s sensor).paceT + (restored s sensor).paceL)) s
    (s.setDroop sensor (restored s sensor))

/-! ### Power cap (R49, R562, R563) -/

/-- Filtered module input power in units of 0.1 mW: mV times 0.1 A. -/
def powerOf (s : State) : Int := filtered (s.sensor 55) * filtered (s.sensor 56)
/-- POWER, W (Table 21-4). -/
def powerW (s : State) : Nat := (powerOf s / 10000).toNat
/-- The cap applied (R513, R563). -/
def capNow (s : State) : Nat := min s.chv.cap s.chv.capMax
/-- One step down: tiles to 32/64, then tiles and lookups to 16/64 tiles, then lookups (R49, R562). -/
def lowerStep (t l : Nat) : Nat × Nat :=
  if 32 < t then (t - 1, l) else if 16 < t then (t - 1, max 16 (l - 1)) else (t, max 16 (l - 1))
/-- One step up, back along the same way. -/
def raiseStep (t l : Nat) : Nat × Nat :=
  if t = 16 ∧ l < 48 then (t, l + 1) else if l < 64 then (min 64 (t + 1), l + 1) else (min 64 (t + 1), l)
/-- One step of a pair of limits: down over the upper figure, up under the lower, else as it was (R49, R562, R566). -/
def limitStep (above under : Bool) (x : Nat × Nat) : Nat × Nat :=
  if above then lowerStep x.1 x.2 else if under then raiseStep x.1 x.2 else x
/-- The module as a source of an alert (Table 19-4). -/
def wholeModule : Nat := 255
/-- CAP_LIMITED: every applied limit at 16/64 and power still above the cap (R562). -/
def checkCap (s : State) : State :=
  let on := [0, 1].all (fun d => tileLimit s d == 16 && lookupLimit s d == 16) && decide ((10000 * capNow s : Nat) < powerOf s)
  let t := { s with chv := { s.chv with capLimited := on } }
  if on && !s.chv.capLimited then alert 3 wholeModule (powerW s) t else t
/-- The cap limit of a core die follows the power. -/
def capStep (d : Nat) (s : State) : State :=
  let x := s.limit d
  let p := powerOf s
  let r := limitStep (decide ((10000 * capNow s : Nat) < p)) (decide (p < (9800 * capNow s : Nat))) (x.capT, x.capL)
  s.setLimit d { x with capT := r.1, capL := r.2 }
/-- The comparison of every 100 us (R49). -/
def effPowerCapTick (s : State) : State := onlyIf (chervilRuns s) s (checkCap (capStep 1 (capStep 0 s)))

/-! ### Thermal limits (R565, R566) -/

/-- The hottest of a core die and its two port dies (R566). -/
def groupTemp (s : State) (d : Nat) : Int := max (dieTemp s (4 + d)) (max (dieTemp s (2 * d)) (dieTemp s (2 * d + 1)))
/-- A die's thermal limit is below 64/64. -/
def limited (x : Limits) : Bool := decide (x.thT < 64) || decide (x.thL < 64)
/-- Bits of a temperature as an alert carries it. -/
def tempBits (t : Int) : Nat := intBits 32 t
/-- The thermal limit of a core die follows its temperature, with THROTTLE_ON and THROTTLE_OFF. -/
def thermalStep (d : Nat) (s : State) : State :=
  let x := s.limit d
  let t := groupTemp s d
  let r := limitStep (decide (deg 100 ≤ t)) (decide (t ≤ deg 97)) (x.thT, x.thL)
  let y := { x with thT := r.1, thL := r.2 }
  let s := s.setLimit d y
  if limited y && !limited x then alert 1 (4 + d) (tempBits t) s
  else if limited x && !limited y then alert 2 (4 + d) (tempBits t) s else s
/-- Times kept for the shedding of a port die's ports. -/
def shedTimes (p : Nat) (s : State) : State :=
  let t := dieTemp s p
  let x := s.shed p
  s.setShed p { x with
    hotSince := if deg 105 ≤ t ∧ lookupLimit s (p / 2) = 16 then some (x.hotSince.getD (now s)) else none
    coolSince := if t < deg 95 then some (x.coolSince.getD (now s)) else none
    active := x.active && decide (deg 100 ≤ t) }
/-- The comparison of every 100 us (R566). -/
def effThermalLimitTick (s : State) : State :=
  onlyIf (chervilRuns s) s (modEdges s (checkCap ((List.range 4).foldl (fun s p => shedTimes p s) (thermalStep 1 (thermalStep 0 s)))))
/-- Ports of a die that exist and are not DOWN, highest number first. -/
def portsDownward (s : State) (ok : Nat → Bool) : List Nat :=
  ((List.range 192).reverse.flatMap (fun f => [f + 192, f])).filter (fun p => ok p && portExists s p && (s.port p).st != .down)
/-- Ports in service. -/
def activePorts (s : State) : Nat := ((List.range 384).filter (fun p => portExists s p && (s.port p).st != .down)).length
/-- A hot port die loses its highest-numbered port, one every 100 ms, until it is below 100 degrees C (R566). -/
def effThermalPortShed (die : Nat) (s : State) : State :=
  let x := s.shed die
  let begun := x.active || (match x.hotSince with
    | some t => passed s t 1000000000
    | none => false)
  if !begun || decide (dieTemp s die < deg 100) || (x.active && !passed s x.lastShed 100000000) then s
  else match portsDownward s (fun p => dieOf p == die) with
    | [] => s
    | p :: _ =>
      let s := s.setShed die { x with active := true, lastShed := now s, ports := insertSet p x.ports }
      let s := portToDown p s
      capacity 6 2 die p 0 (activePorts s) s
/-- Ports shed for heat train again after 10 s below 95 degrees C (R566). -/
def effThermalPortRestore (die : Nat) (s : State) : State :=
  let x := s.shed die
  match x.coolSince with
  | none => s
  | some t =>
    if !passed s t 10000000000 then s
    else x.ports.foldl (fun s p =>
        if adminUp s p && portExists s p && (s.port p).st == .down && !s.rel.dieFailed.contains die then setLink p .trainR s else s)
      (s.setShed die { x with ports := [], active := false })
/-- Admission of a stack's HBM port, per cent (R564). -/
def hbmAdmission (s : State) (m : Nat) : Nat := if s.chv.hbmHot.contains m then 50 else 100
/-- HBM stacks: 50 % admission and HBM_HOT from 95 degrees C, released below 90 (R564). -/
def effHbmTempSample (readings : List (Option Int)) (s : State) : State :=
  (List.range 4).foldl (fun s m =>
    let s := sampleSensor 1 (51 + m) (readings.getD m none) s
    let t := filtered (s.sensor (51 + m))
    if deg 95 ≤ t ∧ !s.chv.hbmHot.contains m then
      alert 7 (4 + m / 2) (tempBits t) { s with chv := { s.chv with hbmHot := insertSet m s.chv.hbmHot } }
    else if t < deg 90 then { s with chv := { s.chv with hbmHot := eraseSet m s.chv.hbmHot } } else s) s

/-! ### Input stage (R571) -/

/-- Since when a condition has held. -/
def heldSince (c : Bool) (t : Nat) (o : Option Nat) : Option Nat := if c then some (o.getD t) else none
/-- A condition has held for more than a time. -/
def heldOver (s : State) (o : Option Nat) (d : Nat) : Bool :=
  match o with
  | some t => decide (t + d < now s)
  | none => false
/-- VIN in units of 0.5 V. -/
def vinCode (s : State) : Nat := (filtered (s.sensor 55) / 500).toNat
/-- The input is sampled every 10 us; energy is counted, and INPUT_HIGH, INPUT_LOW and a converter stop follow the limits. -/
def effInputSample (mv da : Option Int) (s : State) : State :=
  let s := sampleSensor 4 56 da (sampleSensor 4 55 mv s)
  let v := filtered (s.sensor 55)
  let s := { s with chv := { s.chv with
    energyNj := s.chv.energyNj + (mv.getD (filtered (s.sensor 55)) * da.getD (filtered (s.sensor 56))).toNat
    over66 := heldSince (decide (66000 < v)) (now s) s.chv.over66
    under48 := heldSince (decide (v < 48000)) (now s) s.chv.under48
    inRange := heldSince (decide (48000 ≤ v ∧ v ≤ 66000)) (now s) s.chv.inRange } }
  let high := heldOver s s.chv.over66 1000000
  let low := match s.chv.under48 with
    | some t => passed s t 100000
    | none => false
  let newHigh := high && !s.chv.inputHigh
  let newLow := low && !s.chv.inputLow
  let s := { s with chv := { s.chv with inputHigh := high, inputLow := low } }
  let s := if newHigh then alert 4 wholeModule (vinCode s) s else s
  let s := if newLow then alert 5 wholeModule (vinCode s) s else s
  if (high || decide (72000 < v)) && !s.chv.convStop then converterStop s else s
/-- The input has stayed within 48-66 V for 100 ms: the converter runs, and step 5 may begin (R571). -/
def effInputRecover (s : State) : State :=
  match s.chv.inRange with
  | none => s
  | some t => onlyIf (s.chv.convStop && passed s t 100000000) s { s with chv := { s.chv with convStop := false } }

/-! ### Phases (R513, R569) -/

/-- The rail of a phase by its number, 5 for a spare (Table 21-6). -/
def phaseRail (i : Nat) : Nat := if i < 12 then 0 else if i < 24 then 1 else if i < 38 then 2 else if i < 41 then 3 else if i < 44 then 4 else 5
/-- The rail a phase feeds. -/
def railOf (s : State) (i : Nat) : Nat := if i < 44 then phaseRail i else (s.phase i).rail
/-- Working phases (Table 21-4). -/
def workingPhases (s : State) : Nat := ((List.range 48).filter (fun i => !(s.phase i).failed)).length
/-- Spare phases that are free. -/
def freePhases (s : State) : List Nat := [44, 45, 46, 47].filter (fun i => !(s.phase i).failed && (s.phase i).rail == 5)
/-- The greatest cap with w working phases (R513). -/
def capOf (w : Nat) : Nat := if w < 44 then 1500 * w / 44 / 10 * 10 else 1500
/-- A phase fault: the alert, a spare for its rail or a lower cap, and the capacity report (R505, R513, R569). -/
def phaseFault (i : Nat) (s : State) : State :=
  let rail := railOf s i
  let s := alert 6 wholeModule i (s.modPhase i (fun x => { x with failed := true }))
  let s := { s with chv := { s.chv with capMax := capOf (workingPhases s) } }
  if rail = 5 then capacity 7 1 wholeModule i (freePhases s).length s.chv.capMax s
  else match freePhases s with
    | n :: _ =>
      let s := s.modPhase n (fun x => { x with rail := rail })
      capacity 7 1 wholeModule i (freePhases s).length s.chv.capMax s
    | [] => capacity 7 6 wholeModule i 0 s.chv.capMax s
/-- With fewer than 24 working phases the highest-numbered port goes to DOWN until the power fits (R513). -/
def phaseShed (s : State) : State :=
  if 24 ≤ workingPhases s ∨ powerOf s ≤ (10000 * capNow s : Nat) then s
  else match portsDownward s (fun _ => true) with
    | [] => s
    | p :: _ => let s := portToDown p s; capacity 6 2 (dieOf p) p 0 (activePorts s) s
/-- Phases and rails are sampled every 10 us (R556, R569). -/
def effPhaseSample (phases : List (Int × Int × Bool)) (rails : List Int) (s : State) : State :=
  let s := (List.range 48).foldl (fun s i =>
    let r := phases.getD i (0, 0, false)
    let s := s.modPhase i (fun x => { x with cur := filterSample 3 r.1 (now s) x.cur, tmp := filterSample 3 r.2.1 (now s) x.tmp })
    let x := s.phase i
    if !x.failed && (decide (750 < filtered x.cur) || decide (125 < filtered x.tmp) || r.2.2) then phaseFault i s else s) s
  let s := (List.range 5).foldl (fun s r =>
    s.modPhase (48 + r) (fun x => { x with cur := filterSample 3 (rails.getD r 0) (now s) x.cur })) s
  phaseShed s

/-! ### Heartbeats and lease scans (R560) -/

/-- Control cores whose heartbeat is due. -/
def beatCores (s : State) : List Nat := (List.range 8).filter (fun c => !s.ctl.coreOff.contains c)
/-- Chervil checks heartbeats: a control core that missed raises HEARTBEAT once per miss, and after 100 ms without one a control restart is made (R556, R560). -/
def checkBeats (seen : List Nat) (s : State) : State :=
  let s := { s with chv := { s.chv with
    beats := seen.foldl (fun m c => mput c (now s) m) s.chv.beats
    beatRaised := s.chv.beatRaised.filter (fun c => !seen.contains c) } }
  if !s.boot.coreUp || s.ctl.restartAt.isSome then s
  else
    let missed := (beatCores s).filter (fun c => !seen.contains c)
    let s := missed.foldl (fun s c =>
      if s.chv.beatRaised.contains c then s
      else alert 8 (threadDie (32 * c)) c { s with chv := { s.chv with beatRaised := insertSet c s.chv.beatRaised } }) s
    if missed.any (fun c => passed s (mget 0 c s.chv.beats) 100000000) then
      let s := controlRestartNow s
      { s with chv := { s.chv with beats := (List.range 8).foldl (fun m c => mput c (now s) m) s.chv.beats, beatRaised := [] } }
    else s
def effHeartbeatCheck (seen : List Nat) (s : State) : State := onlyIf (chervilRuns s) s (checkBeats seen s)
/-- LEASE_STALL at 10 ms without a completed LSCAN (R560). -/
def effLeaseProgressCheck (s : State) : State :=
  let stalled := s.boot.coreUp && passed s s.chv.lscanAt 10000000
  let t := { s with chv := { s.chv with stallRaised := stalled } }
  if stalled && !s.chv.stallRaised then alert 9 wholeModule ((now s - s.chv.lscanAt) / 1000000) t else t

/-! ### Trip (R567) -/

/-- A 115 degrees C comparator trips: a core reset without departure, or, on S, a power-on reset. -/
def effThermalTrip (sensor : Nat) (s : State) : State :=
  if sensor = 50 then powerOff s
  else let s := holdNow s; { s with chv := { s.chv with trip := true } }
/-- THERMTRIP_L is released once every sensor of the port and core dies reads below 90 degrees C and MRESET_L is high. -/
def effThermalTripClear (s : State) : State :=
  onlyIf (s.chv.trip && !s.boot.mreset && (List.range 50).all (fun i => decide (sensorTemp s i < deg 90))) s
    { s with chv := { s.chv with trip := false } }

/-! ### DOZE and SLEEP (R572-R574) -/

/-- DOZE: DOZE_EN set, every slot FREE, ingress below 10 % for 100 ms. -/
def effDozeEnter (quietNs : Nat) (s : State) : State :=
  onlyIf (s.chv.dozeEn && s.chv.pstate == .run && s.boot.coreUp && s.ctl.slots.all (fun e => e.2.st == .free)
      && decide (100000000 ≤ quietNs)) s
    { s with chv := { s.chv with pstate := .doze } }
/-- The wake for ingress above 25 % of capacity over 10 us; a slot write wakes by itself, in holdSlot (R573; log 12). -/
def effDozeWake (loadPct : Nat) (s : State) : State := onlyIf (s.chv.pstate == .doze && decide (25 < loadPct)) s (wakeNow s)
/-- PSTATE is RUN. -/
def effWakeComplete (s : State) : State := onlyIf (s.chv.pstate == .waking) s { s with chv := { s.chv with pstate := .run } }
/-- A SET_POLICY has asked for SLEEP: the module departs, and sleeps once its dies are held. -/
def effSleepEnter (s : State) : State :=
  if !s.chv.sleepReq then s
  else if s.boot.held then { s with chv := { s.chv with pstate := .sleep } }
  else startDeparture s
/-- SLEEP ends when RUN is asked for or MRESET_L is low; step 5 follows. -/
def effSleepExit (s : State) : State :=
  onlyIf (s.chv.pstate == .sleep && (!s.chv.sleepReq || s.boot.mreset)) s
    { s with chv := { s.chv with pstate := .run, sleepReq := false } }

/-! ### Meanings -/

/-- TEMP_SAMPLE (R556). -/
def execTempSample (readings : List (Option Int)) (s : State) : Host.Outcome State Fault Refusal :=
  unit (readings.length == 51) s (effTempSample readings s)

/-- DELAY_CODE_APPLY (R40). -/
def execDelayCodeApply (line : Nat) (s : State) : Host.Outcome State Fault Refusal :=
  unit (isDelayLine line) s (effDelayCodeApply line s)

/-- DROOP_DETECT (R46). -/
def execDroopDetect (sensor mv : Nat) (s : State) : Host.Outcome State Fault Refusal :=
  unit (isBlock sensor) s (effDroopDetect sensor mv s)

/-- RESTORE_STEP (R47). -/
def execRestoreStep (sensor : Nat) (s : State) : Host.Outcome State Fault Refusal :=
  unit (isBlock sensor) s (effRestoreStep sensor s)

/-- POWER_CAP_TICK (R49). -/
def execPowerCapTick (s : State) : Host.Outcome State Fault Refusal :=
  unit (true) s (effPowerCapTick s)

/-- THERMAL_LIMIT_TICK (R566). -/
def execThermalLimitTick (s : State) : Host.Outcome State Fault Refusal :=
  unit (true) s (effThermalLimitTick s)

/-- THERMAL_PORT_SHED (R566). -/
def execThermalPortShed (die : Nat) (s : State) : Host.Outcome State Fault Refusal :=
  unit (isPortDie die) s (effThermalPortShed die s)

/-- THERMAL_PORT_RESTORE (R566). -/
def execThermalPortRestore (die : Nat) (s : State) : Host.Outcome State Fault Refusal :=
  unit (isPortDie die) s (effThermalPortRestore die s)

/-- HBM_TEMP_SAMPLE (R564). -/
def execHbmTempSample (readings : List (Option Int)) (s : State) : Host.Outcome State Fault Refusal :=
  unit (readings.length == 4) s (effHbmTempSample readings s)

/-- INPUT_SAMPLE (R571). -/
def execInputSample (mv da : Option Int) (s : State) : Host.Outcome State Fault Refusal :=
  unit (true) s (effInputSample mv da s)

/-- INPUT_RECOVER (R571). -/
def execInputRecover (s : State) : Host.Outcome State Fault Refusal :=
  unit (true) s (effInputRecover s)

/-- PHASE_SAMPLE (R556). -/
def execPhaseSample (phases : List (Int × Int × Bool)) (rails : List Int) (s : State) : Host.Outcome State Fault Refusal :=
  unit (phases.length == 48 && rails.length == 5) s (effPhaseSample phases rails s)

/-- HEARTBEAT_CHECK (R560). -/
def execHeartbeatCheck (seen : List Nat) (s : State) : Host.Outcome State Fault Refusal :=
  unit (seen.all (fun c => decide (c < 10))) s (effHeartbeatCheck seen s)

/-- LEASE_PROGRESS_CHECK (R560). -/
def execLeaseProgressCheck (s : State) : Host.Outcome State Fault Refusal :=
  unit (true) s (effLeaseProgressCheck s)

/-- THERMAL_TRIP (R567). -/
def execThermalTrip (sensor : Nat) (s : State) : Host.Outcome State Fault Refusal :=
  unit (decide (sensor < 51)) s (effThermalTrip sensor s)

/-- THERMAL_TRIP_CLEAR (R567). -/
def execThermalTripClear (s : State) : Host.Outcome State Fault Refusal :=
  unit (true) s (effThermalTripClear s)

/-- DOZE_ENTER (R572). -/
def execDozeEnter (quietNs : Nat) (s : State) : Host.Outcome State Fault Refusal :=
  unit (true) s (effDozeEnter quietNs s)

/-- DOZE_WAKE (R573). -/
def execDozeWake (loadPct : Nat) (s : State) : Host.Outcome State Fault Refusal :=
  unit (true) s (effDozeWake loadPct s)

/-- WAKE_COMPLETE (R573). -/
def execWakeComplete (s : State) : Host.Outcome State Fault Refusal :=
  unit (true) s (effWakeComplete s)

/-- SLEEP_ENTER (R574). -/
def execSleepEnter (s : State) : Host.Outcome State Fault Refusal :=
  unit (true) s (effSleepEnter s)

/-- SLEEP_EXIT (R574). -/
def execSleepExit (s : State) : Host.Outcome State Fault Refusal :=
  unit (true) s (effSleepExit s)


end Sys2Proof.Machine
end

