-- ==== Sys2Proof/Machine/Lanes.lean ====
section
/-!
DEFINITION. Shared operations over lanes: hot spares, positions, and a lane change taking effect at either end (R87-R91).
-/
namespace Sys2Proof.Machine

/-- Spares a port may use: those of SPARE_MAP, then restored lanes of its own. -/
def sparesOf (s : State) (p : Nat) : List Nat :=
  spareLanes s p ++ (s.lanes.filter (fun e => e.2.hot && e.2.port == some p && !(spareLanes s p).contains e.1)).map (·.1)
/-- A lane of the port's positions that is out of use. -/
def brokenLane (s : State) (x : Port) : Option Nat := x.pos.find? (fun l => decide (2 ≤ (s.lane l).cls) || (s.lane l).retired)
/-- A port claims its spares: a lane event waits on it, or it is narrowed with a lane out of use that a spare would replace (R89, R90). -/
def claimsSpare (s : State) (x : Port) : Bool := !x.laneQ.isEmpty || (x.st == .narrowed && (brokenLane s x).isSome)
/-- The Good hot spare a port takes: one that no lower-numbered port claims (R87, R90). Which of several it takes is not given: DESIGN CHOICE (log 13), the lowest SPARE_MAP bit first, restored lanes after. -/
def spareFor (s : State) (p : Nat) : Option Nat :=
  (sparesOf s p).find? (fun l => (s.lane l).hot && (s.lane l).cls == 0
    && !(s.ports.any (fun e => decide (e.1 < p) && claimsSpare s e.2 && (sparesOf s e.1).contains l)))
/-- Position mask of a port's active lanes. -/
def posMask (x : Port) : Nat := ofBitList ((List.range x.pos.length).filter (fun i => x.lanes.contains (x.pos.getD i 0)))
/-- Lanes of the mode's count. -/
def fullCount (s : State) (p : Nat) : Nat := (modeLanes s p).length
/-- The count, or its largest halving that so many healthy lanes fill; 0 if there are none. -/
def fitLanes (n healthy : Nat) : Nat := ([n, n / 2, n / 4, n / 8].find? (fun k => decide (k ≤ healthy))).getD 0
/-- Hot spares left for a port. -/
def sparesLeft (s : State) (p : Nat) : Nat := ((sparesOf s p).filter (fun l => (s.lane l).hot && (s.lane l).cls == 0)).length
/-- The lane at a position gives way to a spare. -/
def substitute (old new : Nat) (l : List Nat) : List Nat := l.map (fun x => if x = old then new else x)
/-- A spare enters service for a port, and the replaced lane is retired (R88). -/
def useSpare (p old new : Nat) (s : State) : State :=
  let s := s.modLane new (fun x => { x with hot := false, port := some p })
  s.modLane old (fun x => { x with retired := true, hot := false, port := some p, retrains := 0, retrainAt := now s, goodSince := none })
/-- Lanes of a port's positions that are healthy, without one. -/
def healthyLanes (s : State) (x : Port) (lane : Nat) : List Nat :=
  x.pos.filter (fun l => l != lane && decide ((s.lane l).cls < 2) && !(s.lane l).retired)
/-- The lowest numbers of a list, in the order of the list. -/
def lowest (n : Nat) (l : List Nat) : List Nat := l.filter (fun x => (l.filter (· < x)).length < n)
/-- A lane change takes effect: positions and active lanes, its record and its capacity report (R88, R89; log 30). Steps: 3 narrowed, 4 widened, 5 swapped. -/
def placeLanes (p lane step : Nat) (pos lanes : List Nat) (s : State) : State :=
  let s := s.modPort p (fun x => { x with pos := pos, lanes := lanes })
  let s := emit (dieOf p) 0x0101 2 p lane step 0 s
  capacity 2 step (dieOf p) lane (sparesLeft s p) lanes.length s
/-- The port can announce a lane change: it carries full-rate traffic, no change of its own or of the partner waits, and the control frame has room (R71, R90). -/
def mayChange (s : State) (p : Nat) : Bool :=
  let x := s.port p
  (x.st == .up || x.st == .narrowed) && x.partnerDue.isNone && replayRoom s p 1
/-- A lane change is announced in a control frame and takes effect behind it (R88, R89). Operations: 1 narrow, 2 widen, 3 swap. -/
def laneChange (p lane step : Nat) (pos lanes : List Nat) (s : State) : State :=
  let x := s.port p
  let y := { x with pos := pos, lanes := lanes }
  let op := if step = 3 then 1 else if step = 4 then 2 else 3
  let s := sendControl p (s.setPort p { x with change := some { op := op, mask := posMask y, seq := (x.txSeq + 1) % 4096 } })
  placeLanes p lane step pos lanes (s.modPort p (fun x => { x with laneQ := x.laneQ.drop 1 }))
/-- Lanes of positions that a mask names. -/
def maskLanes (mask : Nat) (pos : List Nat) : List Nat := ((List.range pos.length).filter (fun i => bit mask i)).map (fun i => pos.getD i 0)
/-- A broken lane among those that a mask brings into use gives way to a spare of this end. -/
def spareIn (p : Nat) (mask : Nat) (s : State) : Nat → State
  | 0 => s
  | fuel + 1 =>
    let x := s.port p
    match brokenLane s { x with pos := maskLanes mask x.pos }, spareFor s p with
    | some old, some new => spareIn p mask (useSpare p old new (s.setPort p { x with pos := substitute old new x.pos })) fuel
    | _, _ => s
/-- A lane change that the partner announced takes effect at this end (R88, R89). The announcement does not name the position of a swap: which one it is, is a free value (log 13). -/
def takeChange (p : Nat) (c : LaneChange) (s : State) : State :=
  let x := s.port p
  if !(x.st == .up || x.st == .narrowed) then s
  else if c.op = 1 then
    let lanes := maskLanes c.mask x.pos
    setLink p .narrowed (placeLanes p ((x.lanes.find? (fun l => !lanes.contains l)).getD 0) 3 x.pos lanes s)
  else if c.op = 2 then
    let t := spareIn p c.mask s 8
    let y := t.port p
    let lanes := maskLanes c.mask y.pos
    let u := placeLanes p ((lanes.find? (fun l => !x.lanes.contains l)).getD 0) 4 y.pos lanes t
    if lanes.length = fullCount s p then setLink p .up u else u
  else if c.op = 3 then
    let d := draw s
    let old := x.pos.getD (d.1 % max 1 x.pos.length) 0
    match spareFor d.2 p with
    | some new => useSpare p old new (placeLanes p old 5 (substitute old new x.pos) (substitute old new x.lanes) d.2)
    | none => d.2
  else s
/-- The partner's lane change takes effect when the next frame expected is the one it names (R88). -/
def takeDueChange (p : Nat) (s : State) : State :=
  match (s.port p).partnerDue with
  | none => s
  | some c => if c.seq = (s.port p).rxSeq then takeChange p c (s.modPort p (fun x => { x with partnerDue := none })) else s

end Sys2Proof.Machine
end

