-- ==== Sys2Proof/Machine/LinkRx.lean ====
section
/-!
DEFINITION. The receive side of a fabric link: frames, groups, tags, packet streams and credits, and what a control frame carries (R43, R64-R81, R92, R93, R523).
-/
namespace Sys2Proof.Machine

/-! ### Credits at entry (R75-R77) -/

/-- The totals restart when a port enters REDUCED or UP from DOWN, TRAIN_R or TRAIN_F, and the first control frame advertises the headroom that stands free; cells parked beyond the headroom are a debt that leaving packets pay first (R75, R112). -/
def grantInit (p : Nat) (s : State) : State :=
  let st := (s.port p).st
  let perVl (f : Nat → Nat) : SMap Nat := (List.range 8).foldl (fun m vl => if grantsVl st vl then mset 0 vl (f vl) m else m) []
  let grant := perVl (fun vl => portHeadroom s p vl - mget 0 (qkey p vl) s.sw.hrUsed)
  let debt := perVl (fun vl => mget 0 (qkey p vl) s.sw.hrUsed - portHeadroom s p vl)
  s.modPort p (fun x => { x with crGot := [], crSpent := [], crUsed := [], crHeld := [], crDebt := debt, crGiven := grant, ackDue := true })

/-! ### NAK and replay (R72, R73) -/

/-- The first SEQ of the group being received. -/
def groupFirst (x : Port) : Nat :=
  match x.rxGroup with
  | f :: _ => fhSeq (hdrOf f)
  | [] => x.rxSeq
/-- The group being received is discarded and a NAK with a reason is sent at once (R70, R72). -/
def badGroup (p reason : Nat) (s : State) : State :=
  let first := groupFirst (s.port p)
  sendControl p (s.modPort p (fun x => { x with
    rxGroup := [], rxSeq := first, nakWait := some first, nakDue := some (first, reason) }))
/-- A time kept in a list per port. -/
def keepTime (p t : Nat) (m : SMap (List Nat)) : SMap (List Nat) := mmod [] p (· ++ [t]) m
/-- The transmitter replays its buffer from a SEQ on, byte for byte (R72). -/
def replayFrom (p seq : Nat) (s : State) : State :=
  let frames := (s.port p).replay.filter (fun f => (f.seq + 4096 - seq) % 4096 < 2048)
  let s := frames.foldl (fun s f => emitFrame p f.bytes s) s
  { s with rel := { s.rel with replaysAt := keepTime p (now s) s.rel.replaysAt } }
/-- Lanes that carry the reduced service while a half trains: the other half of the positions (R84). -/
def otherHalf (half : Nat) (pos : List Nat) : List Nat :=
  if half = 0 then pos.drop (pos.length / 2) else pos.take (pos.length / 2)
/-- A port retrains by halves: its first half trains while the second carries TC0 and TC6 (R73, R84). -/
def enterTrainF (p : Nat) (fromUp : Bool) (s : State) : State :=
  (setLink p .trainF s).modPort p (fun x => { x with
    fromUp := fromUp, fullFailed := x.fullFailed && fromUp, half := 0, replays := 0, lanes := otherHalf 0 x.pos })
/-- A group is replayed, by a NAK or by the timeout; after eight replays without progress a port at full rate retrains instead (R72, R73). -/
def replayGroup (p seq : Nat) (s : State) : State :=
  let x := s.port p
  if 8 ≤ x.replays && (x.st == .up || x.st == .narrowed) then enterTrainF p true s
  else replayFrom p seq (s.setPort p { x with replays := x.replays + 1, ackAt := now s })

/-! ### Packet streams (R65, R75, R92) -/

/-- The header of a stream's next packet as a packet whose payload has its stated length. -/
def headerOf (vl : Nat) (l : List Byte) : Packet :=
  let p : Packet := { tc := vl, hdr := BitVec.ofNat 256 (bytesNat (l.take 32)) }
  { p with payload := List.replicate (pLen p) 0 }
/-- A memory-class payload above 256 B, or a length the opcode does not allow (Table 03-10). -/
def oversized (p : Packet) : Bool :=
  !lengthOk p || (decide (256 < pLen p) && (isMemReq (pOp p) || isMemRsp (pOp p)))
/-- Words of a port's receive FIFO, 32 deep: the cells of its packets that wait for the lookup, the rest behind it in the link layer; at 24 the credit return is withheld (R42, R43). -/
def fillRx (p : Nat) (s : State) : State :=
  let n := min 32 ((List.range 8).foldl (fun a vl => (mget [] (qkey p vl) s.sw.ingress).foldl (fun a e => a + pCells e.1) a) 0)
  s.modPort p (fun x => { x with rxFill := n, withhold := x.withhold || decide (24 ≤ n) })
/-- A received packet stands in the headroom of its port and class and waits for its lookup. -/
def arrive (p vl : Nat) (q : Packet) (s : State) : State :=
  let n := pCells q
  let s := s.modPort p (fun x => { x with crUsed := mmod 0 vl (fun v => wrapAdd 32 v n) x.crUsed })
  let s := if isTrunk s p && vl != 6 then { s with boot := { s.boot with trunkAt := now s } } else s
  fillRx p { s with sw := { s.sw with
    ingress := mmod [] (qkey p vl) (· ++ [(q, now s)]) s.sw.ingress
    hrUsed := mmod 0 (qkey p vl) (· + n) s.sw.hrUsed } }
/-- The stream of a VL is discarded up to the next frame with START. -/
def skipStream (p vl : Nat) (s : State) : State :=
  s.modPort p (fun x => { x with rxStream := mset [] vl [] x.rxStream, skip := insertSet vl x.skip })
/-- Whole packets of a VL's stream go to the lookup; a packet begun without credits, or of a wrong length, is discarded (Table 03-10). -/
def drainStream (p vl : Nat) : Nat → State → State
  | 0, s => s
  | fuel + 1, s =>
    let x := s.port p
    let l := mget [] vl x.rxStream
    if l.length < 32 then s
    else
      let h := headerOf vl l
      let n := pCells h
      let left := (mget 0 vl x.crGiven + 2 ^ 32 - mget 0 vl x.crUsed) % 2 ^ 32
      if left < n then skipStream p vl (violate p 2 s)
      else if oversized h then
        let s := violate p 3 (skipStream p vl s)
        let s := returnCredit p vl n (s.modPort p (fun x => { x with crUsed := mmod 0 vl (fun v => wrapAdd 32 v n) x.crUsed }))
        if isRequest (pOp h) then placeResponse p (refusal s h stViolation rsLength) s else s
      else if l.length < pBytes h then s
      else
        let q : Packet := { h with payload := (l.drop 32).take (pLen h) }
        let s := s.modPort p (fun x => { x with rxStream := mset [] vl (l.drop (pBytes h)) x.rxStream })
        drainStream p vl fuel (arrive p vl q s)
/-- The packet bytes of a data frame join their VL's stream. -/
def feed (p : Nat) (f : List Byte) (s : State) : State :=
  let h := hdrOf f
  let vl := fhVl h
  let bytes := (f.drop 4).take (4 * fhUsed h)
  let x := s.port p
  if x.skip.contains vl then
    if fhStart h = 63 then s
    else drainStream p vl 9 (s.setPort p { x with
      skip := eraseSet vl x.skip, rxStream := mset [] vl (bytes.drop (4 * fhStart h)) x.rxStream })
  else drainStream p vl 9 (s.setPort p { x with rxStream := mmod [] vl (· ++ bytes) x.rxStream })

/-! ### Control frames (R69, R75, R80, R523) -/

/-- A lane change that a word carries, none for zero. -/
def laneChangeOf (w : Nat) : Option LaneChange := if w = 0 then none else some { op := fld w 28 4, mask := fld w 0 16, seq := fld w 16 12 }
/-- Frames up to ACK_SEQ leave the replay buffer. -/
def applyAck (p ack : Nat) (s : State) : State :=
  let x := s.port p
  let rest := x.replay.filter (fun f => !decide ((ack + 4096 - f.seq) % 4096 < 2048))
  if rest.length = x.replay.length then s
  else s.setPort p { x with
    replay := rest, ackSeq := (ack + 1) % 4096, ackAt := now s, replays := 0
    txOld := x.txOld.filter (fun o => !decide ((ack + 4096 - o.2) % 4096 < 2048)) }
/-- The partner's announcement of a key update, kept as its acknowledgement; a new one names the first SEQ under the key that is then derived (R69, R80). -/
def applyKeyWord (w : Nat) (x : Port) : Port :=
  if w = 0 ∨ w = x.partnerKey then x
  else
    let x : Port := { x with partnerKey := w, ackDue := true }
    if x.keyed && bit w 0 != x.rxPhase && x.rxUpdate.isNone then
      { x with rxUpdate := some (fld w 1 12), rxKeyNext := some (rxKeyOf x (x.rxU + 1)) }
    else x
/-- The partner's announcement of a lane change, kept as its acknowledgement; a new one waits for its SEQ (R69, R88, R89). -/
def applyLaneWord (w : Nat) (x : Port) : Port :=
  if w = 0 ∨ (x.partnerChange.map laneWord).getD 0 = w then x
  else { x with partnerChange := laneChangeOf w, partnerDue := laneChangeOf w, ackDue := true }
/-- The partner's acknowledgements end the module's own announcements (R69). -/
def applyAckWords (lane key : Nat) (x : Port) : Port :=
  { x with change := x.change.filter (fun c => laneWord c != lane), keyWord := if x.keyWord = key then 0 else x.keyWord }
/-- The health block of a neighbour (Table 19-8): when it was heard, what it gossips, whether it departs or is in hold. -/
def applyHealth (p : Nat) (b : List Byte) (s : State) : State :=
  let n := byteAt b 0 2
  if !isTrunk s p || (s.port p).bound != some n then s
  else
    let old := s.nbr n
    let departing := bit (byteAt b 4 1) 0
    let nbrs := byteAt b 5 1
    let first := byteAt b 14 2
    let seen := ((List.range 8).filter (fun i => first + i < nbrs || i < nbrs)).map (fun i => fld (byteAt b (16 + 4 * i) 4) 0 14)
    let list := seen.foldl (fun l k => insertSet k l) (if nbrs < old.list.length then [] else old.list)
    s.setNbr n { old with heard := now s, departing := departing, hold := bit (byteAt b 4 1) 1, nbrs := nbrs, list := list }
/-- A control frame's body takes effect. -/
def applyControl (p : Nat) (body : List Byte) (s : State) : State :=
  let w0 := byteAt body 0 2
  let s := applyAck p (fld w0 0 12) s
  let s := if bit w0 12 then replayGroup p (fld (byteAt body 2 2) 0 12) s else s
  let s := s.modPort p (fun x =>
    applyAckWords (byteAt body 40 4) (byteAt body 48 4) (applyLaneWord (byteAt body 36 4) (applyKeyWord (byteAt body 44 4) { x with
      crGot := (List.range 8).foldl (fun m vl => mset 0 vl (byteAt body (4 + 4 * vl) 4) m) [] })))
  applyHealth p (body.drop 52) (clockAll p s)

/-! ### Frames and groups (R67, R72, R78-R81, Table 03-10) -/

/-- A health block has a reserved bit set (Table 19-8). -/
def healthBad (b : List Byte) : Bool :=
  fld (byteAt b 2 2) 10 6 != 0 || fld (byteAt b 4 1) 2 6 != 0 || fld (byteAt b 6 2) 10 6 != 0 || fld (byteAt b 8 2) 10 6 != 0
  || (List.range 8).any (fun i => let e := byteAt b (16 + 4 * i) 4; fld e 14 2 != 0 || fld e 26 6 != 0)
  || byteAt b 48 16 != 0
/-- The form of a frame is broken (first row of Table 03-10). -/
def malformed (f : List Byte) : Bool :=
  let h := hdrOf f
  let b := f.drop 4
  fhType h == 3 || fhType h == 2 || decide (62 < fhUsed h) || (fhStart h != 63 && decide (fhUsed h ≤ fhStart h))
  || (fhClose h && decide (58 < fhUsed h))
  || (fhType h == 1 && (fhVl h != 0 || !fhClose h || fhUsed h != 0 || fld (byteAt b 0 2) 13 3 != 0
        || fld (byteAt b 44 4) 13 19 != 0 || fld (byteAt b 48 4) 13 19 != 0 || healthBad (b.drop 52) || byteAt b 116 116 != 0))
/-- The receive key and counter of a group: those of the present phase, or of the phase announced for its first SEQ. -/
def groupKey (x : Port) (phase : Bool) (first : Nat) : Option (Nat × Nat × Bool) :=
  if phase == x.rxPhase then some (x.rxKey, x.rxCtr, false)
  else match x.rxKeyNext with
    | some k => if x.rxUpdate == some first then some (k, 0, true) else none
    | none => none
/-- The port after a verified group: its counter, and the key phase if it changed. -/
def groupTaken (change : Bool) (x : Port) : Port :=
  if change then
    { x with rxGroup := [], counted := none, ackDue := true, rxCtr := 1, rxPhase := !x.rxPhase, rxU := x.rxU + 1,
             rxKey := x.rxKeyNext.getD x.rxKey, rxKeyNext := some x.rxKey, rxUpdate := none }
  else { x with rxGroup := [], counted := none, ackDue := true, rxCtr := x.rxCtr + 1 }
/-- A discarded group's violation counted, but once however often the group is replayed (R92, R93). -/
def violateGroup (p row : Nat) (s : State) : State :=
  let first := groupFirst (s.port p)
  if (s.port p).counted = some first then s else violate p row (s.modPort p (fun x => { x with counted := some first }))
/-- The tag bytes of a group's closing frame. -/
def groupTag (g : List (List Byte)) : Nat := byteAt (g.getLastD []) 236 16
/-- A closed group: verified, decrypted, checked for form, and released (R72, R78, R79). -/
def closeGroup (p : Nat) (s : State) : State :=
  let x := s.port p
  let g := x.rxGroup
  let phase := fhPhase (hdrOf (g.headD []))
  let text := groupText g
  let verdict : Option (Bool × List (List Byte)) :=
    if !x.keyed then (if groupTag g = 0 then some (false, g) else none)
    else match groupKey x phase (groupFirst x) with
      | some (k, c, change) =>
        if BitVec.ofNat 128 (groupTag g) = Config.gcmTag k c (groupAad g) text then
          some (change, refill [] g (Config.gcmText k c text))
        else none
      | none => none
  match verdict with
  | none =>
    let s := violateGroup p 1 { s with rel := { s.rel with tagsAt := keepTime p (now s) s.rel.tagsAt } }
    badGroup p 3 s
  | some (change, plain) =>
    if plain.any malformed || !(g.all (fun f => fhPhase (hdrOf f) == phase)) || !fhClose (hdrOf (g.getLastD [])) then
      badGroup p 4 (violateGroup p 0 s)
    else
      plain.foldl (fun s f => if fhType (hdrOf f) = ftControl then applyControl p (f.drop 4) s else feed p f s)
        (s.modPort p (groupTaken change))
/-- A frame of 256 bytes is received whole (R64, R67, R72). -/
def rxFrame (p : Nat) (f : List Byte) (s : State) : State :=
  let x := s.port p
  let h := hdrOf f
  let seq := fhSeq h
  if byteAt f 252 4 ≠ crc32 (f.take 252) then badGroup p 1 s
  else if fhType h = ftIdle then s
  else if x.nakWait.isSome && x.nakWait != some seq then s
  else if seq ≠ x.rxSeq then
    if 2048 ≤ (seq + 4096 - x.rxSeq) % 4096 then s.setPort p { x with ackDue := true } else badGroup p 2 s
  else
    let s := s.setPort p { x with nakWait := none, rxSeq := (seq + 1) % 4096, rxGroup := x.rxGroup ++ [f] }
    takeDueChange p (if fhClose h || decide (8 ≤ (s.port p).rxGroup.length) then closeGroup p s else s)

end Sys2Proof.Machine
end

