-- ==== Sys2Proof/Machine/PeridotOps.lean ====
section
/-!
DEFINITION. Shared operations of Peridot: search table descriptors, entry images and their writes (R364-R368).
-/
namespace Sys2Proof.Machine

/-- Indices of a table that are listed: entries that differ from their reset image. -/
def listedIdx (s : State) (id : Nat) : List Nat :=
  (s.tab.live.filter (fun e => e.1 / 2 ^ 24 == id)).map (fun e => e.1 % 2 ^ 24)

/-! ### Descriptors (Table 13-1) -/

def stEn (v : Nat) : Bool := bit v 0
/-- Entry width: 0 160 bits, 1 320, 2 640. -/
def stWidth (v : Nat) : Nat := fld v 1 2
def stFirst (v : Nat) : Nat := fld v 3 17
def stRows (v : Nat) : Nat := fld v 20 18
def stOwner (v : Nat) : Nat := fld v 38 10
/-- ACCESS: 0 OWNER, 1 CTXKEY. -/
def stAccess (v : Nat) : Nat := fld v 48 2
def stCascade (v : Nat) : Bool := bit v 50
/-- The descriptor of a table ID. -/
def searchTable (s : State) (t : Nat) : Nat := entry s 0x0020 t
/-- The enabled table that holds a row. -/
def tableOfRow (s : State) (r : Nat) : Option Nat :=
  (listedIdx s 0x0020).find? (fun t => let v := searchTable s t; stEn v && decide (stFirst v ≤ r ∧ r < stFirst v + stRows v))
/-- An entry image by its first row (Table 13-2). -/
def pImage (s : State) (r : Nat) : Nat := mget 0 r s.per.rows

/-! ### Entry images (Table 13-2) -/

/-- Rows of an entry, bits of its key, the S of Table 13-2, and bits of its image. -/
def rowsOf (w : Nat) : Nat := 2 ^ w
def keyBits (w : Nat) : Nat := 160 * 2 ^ w
def halfBits (w : Nat) : Nat := 256 * 2 ^ w
def imageBits (w : Nat) : Nat := 2 * halfBits w + 64
def imKey (w v : Nat) : Nat := fld v 0 (keyBits w)
def imMask (w v : Nat) : Nat := fld v (halfBits w) (keyBits w)
def imResult (w v : Nat) : Nat := fld v (2 * halfBits w) 32
def imValid (w v : Nat) : Bool := bit v (2 * halfBits w + 32)
/-- The row is the first of an entry of its table's width. -/
def firstRow (s : State) (t r : Nat) : Bool := (r - stFirst (searchTable s t)) % rowsOf (stWidth (searchTable s t)) == 0
/-- No reserved bit of an image is set. -/
def imReservedOk (w v : Nat) : Bool :=
  fld v (keyBits w) (halfBits w - keyBits w) == 0 && fld v (halfBits w + keyBits w) (halfBits w - keyBits w) == 0
    && v >>> (2 * halfBits w + 33) == 0
/-- A context may write an entry image at a row (R368). -/
def imageOk (s : State) (ctx r v : Nat) : Bool :=
  match tableOfRow s r with
  | none => false
  | some t =>
    let d := searchTable s t
    let w := stWidth d
    (ctx == 0 || ctx == stOwner d) && firstRow s t r && imReservedOk w v && (imKey w v ||| imMask w v) == imMask w v
      && (stAccess d != 1 || fld (imMask w v) 0 10 == 1023)
/-- An entry image written in one step (R367, R368). -/
def writeImage (r v : Nat) (s : State) : State := { s with per := { s.per with rows := mset 0 r v s.per.rows } }

/-! ### Searches (R366, R369, R371, Table 08-10) -/

/-- A context may search a table (R366). -/
def maySearch (s : State) (ctx t : Nat) : Bool :=
  let d := searchTable s t
  ctx == 0 || (stEn d && (stAccess d == 1 || (stAccess d == 0 && stOwner d == ctx)))
/-- The key as it is compared: in a CTXKEY table with the context of the search in its low bits. -/
def searchKey (s : State) (ctx t key : Nat) : Nat := if stAccess (searchTable s t) = 1 then setFld key 0 10 ctx else key
/-- An entry that reaches into an entry bank that is invalid (R505). -/
def rowsGone (s : State) (w r : Nat) : Bool :=
  decide (s.rel.peridotGone ≠ []) && (List.range (rowsOf w)).any (fun i => s.rel.peridotGone.contains ((r + i) / 2048))
/-- Rows of a table that match a key and lie above a row, in order of priority (R369, R371). -/
def matchRows (s : State) (ctx t key : Nat) (above : Option Nat) : List Nat :=
  let d := searchTable s t
  let w := stWidth d
  let k := searchKey s ctx t key
  if !stEn d then []
  else (s.per.rows.filter (fun e =>
    decide (stFirst d ≤ e.1 ∧ e.1 < stFirst d + stRows d) && firstRow s t e.1 && (match above with | some a => decide (a < e.1) | none => true)
      && !rowsGone s w e.1 && imValid w e.2 && (fld k 0 (keyBits w) &&& imMask w e.2) == imKey w e.2)).map (·.1)
/-- The first match: its row, whether another follows, and its result field. -/
def firstMatch (s : State) (ctx t key : Nat) (above : Option Nat) : Option (Nat × Bool × Nat) :=
  match matchRows s ctx t key above with
  | [] => none
  | r :: rest => some (r, !rest.isEmpty, imResult (stWidth (searchTable s t)) (pImage s r))
/-- The result word. -/
def resultWord (index : Nat) (hit multi denied : Bool) (result : Nat) : Word :=
  BitVec.ofNat 64 (index + 2 ^ 19 * b2n hit + 2 ^ 20 * b2n multi + 2 ^ 21 * b2n denied + 2 ^ 32 * result)
def missWord : Word := resultWord 0 false false false 0
def deniedWord : Word := resultWord 0 false false true 0
/-- A search made by a service in a context: the result field of the entry that matches (R340, R344). -/
def findResult (s : State) (ctx t key : Nat) : Option Nat := (firstMatch s ctx t key none).map (fun r => r.2.2)

/-! ### Ports and counters (R372, R380) -/

/-- A counter of a half raised: SEARCHES, HITS, DENIED, THROTTLE_NS, QUEUE_MAX, CAS_TMO. -/
def perCount (half row : Nat) (s : State) : State :=
  { s with per := { s.per with ctr := mmod 0 (8 * half + row) (fun v => wrapAdd 64 v 1) s.per.ctr } }
/-- The halves that hold rows of a table. -/
def halvesOf (s : State) (t : Nat) : List Nat :=
  let d := searchTable s t
  (if stFirst d < 65536 then [0] else []) ++ (if 65536 < stFirst d + stRows d then [1] else [])
/-- Keys that wait at a die's port. -/
def portKeys (s : State) (die : Nat) : List PKey := (List.range 17).flatMap (fun i => mget [] (32 * die + i) s.per.queue)
/-- A key joins those of its source at a port. -/
def queueKey (die src : Nat) (k : PKey) (s : State) : State :=
  let s := { s with per := { s.per with queue := mmod [] (32 * die + src) (· ++ [k]) s.per.queue } }
  { s with per := { s.per with ctr := mmod 0 (8 * die + 4) (fun v => max v (portKeys s die).length) s.per.ctr } }
/-- A key reaches the port of its tile's die, from its cluster port. -/
def sendKey (k : PKey) (s : State) : State := queueKey (k.src / 128) (k.src / 8 % 16) k s
/-- The source whose turn it is at a port: round-robin, one key a turn. -/
def nextSource (s : State) (die : Nat) : Option Nat :=
  ((List.range 17).map (fun i => (mget 16 die s.per.turn + 1 + i) % 17)).find? (fun i => !(mget [] (32 * die + i) s.per.queue).isEmpty)
/-- The key to serve next at a port, and the port without it. -/
def takeKey (die : Nat) (s : State) : Option (PKey × State) :=
  match nextSource s die with
  | none => none
  | some i =>
    match mget [] (32 * die + i) s.per.queue with
    | [] => none
    | k :: rest => some (k, { s with per := { s.per with queue := mset [] (32 * die + i) rest s.per.queue, turn := mset 16 die i s.per.turn } })
/-- The other die's port that a key must go to: its table has rows on that die alone. -/
def otherPort (s : State) (die : Nat) (k : PKey) : Option Nat :=
  if !stCascade (searchTable s k.table) && halvesOf s k.table == [1 - die] then some (1 - die) else none
/-- An answer goes to the tile that waits for it, to its key slot. -/
def answerKey (src slot : Nat) (w : Word) (s : State) : State :=
  if 256 ≤ src then s
  else
    let half := src / 128
    let s := if w.toNat.testBit 19 then perCount half 1 s else if w.toNat.testBit 21 then perCount half 2 s else s
    { s with per := { s.per with answers := s.per.answers ++ [(src, slot, w)] } }

end Sys2Proof.Machine
end

