-- ==== Sys2Proof/Machine/Numbers.lean ====
section
/-!
DEFINITION. Number formats and exact arithmetic: decoding, rounding, conversion and comparison of the formats of Table 08-3 (R229, R266-R285).
-/
namespace Sys2Proof.Machine

/-! ### Formats (Tables 08-3, 09-1, 09-3) -/

/-- Bits of an element; raw counts bytes. -/
def fmtBits (f : Nat) : Nat :=
  if f = 0 ∨ f = 9 ∨ f = 13 then 64
  else if f = 1 ∨ f = 10 then 32
  else if f = 2 ∨ f = 3 ∨ f = 11 then 16
  else if f = 6 ∨ f = 7 then 6
  else if f = 8 then 4
  else 8
/-- Elements of a register (Table 09-3). -/
def fmtElems (f : Nat) : Nat := if f = 6 ∨ f = 7 then 160 else 1024 / fmtBits f
def isFp (f : Nat) : Bool := decide (f ≤ 8)
def isInt (f : Nat) : Bool := decide (9 ≤ f ∧ f ≤ 13)
/-- Formats that carry block scales (R230). -/
def isMx (f : Nat) : Bool := decide (4 ≤ f ∧ f ≤ 8) || f == 12
/-- Mantissa bits of a floating-point format. -/
def mantBits (f : Nat) : Nat := [52, 23, 7, 10, 3, 2, 2, 3, 1].getD f 0
def expBits (f : Nat) : Nat := [11, 8, 8, 5, 4, 5, 3, 2, 2].getD f 0
def expBias (f : Nat) : Nat := [1023, 127, 127, 15, 7, 15, 3, 1, 1].getD f 0
/-- Formats with infinities, whose NaNs are those of IEEE 754 (Table 09-2). -/
def hasInf (f : Nat) : Bool := decide (f ≤ 3) || f == 5
/-- The canonical NaN; a format without NaNs takes +0 (Table 09-2). -/
def canonNan (f : Nat) : Nat :=
  if hasInf f then (2 ^ (expBits f + 1) - 1) * 2 ^ (mantBits f - 1) else if f = 4 then 0x7F else 0
/-- EMAX of an MX format (R278). -/
def mxEmax (f : Nat) : Int := if f = 4 then 8 else if f = 5 then 15 else if f = 6 then 4 else if f = 12 then 0 else 2
/-- Byte lane whose predicate bit governs an element (R238, R273). -/
def elemLane (f i : Nat) : Nat := if f = 6 ∨ f = 7 then 3 * (i / 4) else if f = 8 then i / 2 else i * (fmtBits f / 8)
/-- Element i of a register (R271, R272). -/
def elem (f w i : Nat) : Nat := fld w (fmtBits f * i) (fmtBits f)
/-- A register of elements, element 0 lowest. -/
def ofElems (f : Nat) : List Nat → Nat
  | [] => 0
  | x :: rest => x % 2 ^ fmtBits f + 2 ^ fmtBits f * ofElems f rest
/-- All elements of a register. -/
def elemsOf (f w : Nat) : List Nat := (List.range (fmtElems f)).map (elem f w)

/-! ### Exact values -/

/-- The value of a floating-point element: finite values are (-1)^neg x m x 2^e. -/
inductive Num where
  | nan
  | inf (neg : Bool)
  | fin (neg : Bool) (m : Nat) (e : Int)
  deriving DecidableEq, Repr

/-- The value of a floating-point element (R266, R268). -/
def numOf (f w : Nat) : Num :=
  let mb := mantBits f
  let neg := bit w (fmtBits f - 1)
  let ex := fld w mb (expBits f)
  let m := fld w 0 mb
  let top := 2 ^ expBits f - 1
  if hasInf f && ex == top then (if m = 0 then .inf neg else .nan)
  else if f == 4 && ex == top && m == 7 then .nan
  else if ex = 0 then .fin neg m (1 - (expBias f : Int) - mb)
  else .fin neg (2 ^ mb + m) ((ex : Int) - expBias f - mb)
/-- The value of an integer element (R267). -/
def intOf (f w : Nat) : Int := if f = 13 then (w : Int) else sextN (fmtBits f) w
/-- An integer as a value. -/
def numInt (x : Int) : Num := .fin (decide (x < 0)) x.natAbs 0
/-- A magnitude over a power of two as a whole number of units of it. -/
def inUnits (m : Nat) (e q : Int) : Nat := m * 2 ^ (e - q).toNat
/-- One magnitude is above another. -/
def magGt (m : Nat) (e : Int) (m' : Nat) (e' : Int) : Bool :=
  decide (inUnits m' e' (min e e') < inUnits m e (min e e'))
/-- A finite value in units of a power of two at or below its own. -/
def signedUnits (neg : Bool) (m : Nat) (e q : Int) : Int := if neg then -(inUnits m e q : Int) else inUnits m e q
/-- Exact sum; infinity minus infinity is invalid, and a zero sum is -0 only of two -0 (R269). -/
def numAdd : Num → Num → Num
  | .nan, _ => .nan
  | _, .nan => .nan
  | .inf a, .inf b => if a = b then .inf a else .nan
  | .inf a, _ => .inf a
  | _, .inf b => .inf b
  | .fin a m e, .fin b n g =>
    let q := min e g
    let x := signedUnits a m e q + signedUnits b n g q
    if x = 0 then .fin (a && b) 0 q else .fin (decide (x < 0)) x.natAbs q
def numNeg : Num → Num
  | .nan => .nan
  | .inf a => .inf (!a)
  | .fin a m e => .fin (!a) m e
/-- Exact product; zero times infinity is invalid (R269). -/
def numMul : Num → Num → Num
  | .nan, _ => .nan
  | _, .nan => .nan
  | .inf a, .inf b => .inf (a != b)
  | .inf a, .fin b n _ => if n = 0 then .nan else .inf (a != b)
  | .fin a m _, .inf b => if m = 0 then .nan else .inf (a != b)
  | .fin a m e, .fin b n g => .fin (a != b) (m * n) (e + g)
/-- Order of two values, none with a NaN; zeros are equal (R242). -/
def numCmp : Num → Num → Option Ordering
  | .nan, _ => none
  | _, .nan => none
  | .inf a, .inf b => some (if a = b then .eq else if a then .lt else .gt)
  | .inf a, _ => some (if a then .lt else .gt)
  | _, .inf b => some (if b then .gt else .lt)
  | .fin a m e, .fin b n g =>
    let q := min e g
    some (compare (signedUnits a m e q) (signedUnits b n g q))
def numIsNeg : Num → Bool
  | .nan => false
  | .inf a => a
  | .fin a _ _ => a
/-- Maximum and minimum; the maximum of +0 and -0 is +0 (R270). -/
def numMax (x y : Num) : Num :=
  match numCmp x y with
  | none => .nan
  | some .lt => y
  | some .gt => x
  | some .eq => if numIsNeg x then y else x
def numMin (x y : Num) : Num :=
  match numCmp x y with
  | none => .nan
  | some .lt => x
  | some .gt => y
  | some .eq => if numIsNeg x then x else y

/-! ### Rounding (R280, R281) -/

/-- A magnitude in units of 2^q: nearest with ties to even, or away from zero when the 24-bit draw is below the fraction truncated to 24 bits. -/
def roundUnits (m : Nat) (e q : Int) (r : Option Nat) : Nat :=
  if q ≤ e then inUnits m e q
  else
    let u := 2 ^ (q - e).toNat
    let n := m / u
    let rem := m % u
    let up := match r with
      | none => decide (u < 2 * rem) || (2 * rem == u && n % 2 == 1)
      | some v => decide (v < rem * 2 ^ 24 / u)
    if up then n + 1 else n
/-- Mantissa and exponent of the largest finite magnitude (Table 09-1). -/
def maxFinite (f : Nat) : Nat × Int :=
  let top := if hasInf f then 2 ^ expBits f - 2 else 2 ^ expBits f - 1
  (if f = 4 then 14 else 2 ^ (mantBits f + 1) - 1, (top : Int) - expBias f - mantBits f)
/-- A magnitude n x 2^q of a format as its exponent and mantissa fields. -/
def packMag (f n : Nat) (q : Int) : Nat :=
  let mb := mantBits f
  if n < 2 ^ mb then n else (q + mb + expBias f).toNat * 2 ^ mb + n % 2 ^ mb
/-- What overflow gives: infinity where the format has it and the result does not saturate, else the largest finite value. -/
def overflowBits (f : Nat) (sat : Bool) : Nat :=
  if hasInf f && !sat then (2 ^ expBits f - 1) * 2 ^ mantBits f else packMag f (maxFinite f).1 (maxFinite f).2
/-- A value rounded to a format (R268, R280, R281); `sat` makes every overflow saturate (R278). -/
def roundNum (f : Nat) (sat : Bool) (r : Option Nat) (x : Num) : Nat :=
  let sg := fun (neg : Bool) => if neg then 2 ^ (fmtBits f - 1) else 0
  match x with
  | .nan => canonNan f
  | .inf neg => sg neg + overflowBits f sat
  | .fin neg m e =>
    if m = 0 then sg neg
    else
      let q := max ((Nat.log2 m : Int) + e - mantBits f) (1 - (expBias f : Int) - mantBits f)
      let n := roundUnits m e q r
      let z := if n = 2 ^ (mantBits f + 1) then (n / 2, q + 1) else (n, q)
      let big := maxFinite f
      if magGt z.1 z.2 big.1 big.2 || (r.isSome && magGt m e big.1 big.2) then sg neg + overflowBits f sat
      else sg neg + packMag f z.1 z.2
/-- An integer result wrapped to its format, or saturated (R232, R275). -/
def fitInt (f : Nat) (sat : Bool) (x : Int) : Nat :=
  let n := fmtBits f
  let lo : Int := if f = 13 then 0 else -(2 ^ (n - 1) : Nat)
  let hi : Int := if f = 13 then (2 ^ 64 : Nat) - 1 else (2 ^ (n - 1) : Nat) - 1
  if sat then intBits n (max lo (min hi x)) else intBits n x
/-- A value converted to an integer format (R283). -/
def toInt (f : Nat) (sat : Bool) (x : Num) : Nat :=
  match x with
  | .nan => 0
  | .inf neg => fitInt f true (if neg then -(2 ^ 70 : Nat) else (2 ^ 70 : Nat))
  | .fin neg m e => fitInt f sat (let n : Int := roundUnits m e 0 none; if neg then -n else n)

/-! ### Microscaling (R276-R278, R612) -/

/-- Value of an element under an MX format without its scale: INT8 counts 2^-6. -/
def mxElem (f w : Nat) : Num :=
  if f = 12 then numMul (numInt (intOf 12 w)) (.fin false 1 (-6)) else numOf f w
/-- A source element read through its scale byte, rounded to FP32 where it is not exact there (R276, R277). -/
def mxRead (f scale w : Nat) : Num :=
  if scale = 255 then .nan
  else numOf 1 (roundNum 1 false none (numMul (mxElem f w) (.fin false 1 ((scale : Int) - 127))))
/-- Step 4 of R278: a result over its scale, rounded to the element format with saturation. -/
def mxWrite (f scale : Nat) (r : Option Nat) (x : Num) : Nat :=
  let y := numMul x (.fin false 1 (127 - (scale : Int)))
  if f = 12 then toInt 12 true (numMul y (.fin false 1 6)) else roundNum f true r y
/-- Floor of the base-2 logarithm of a finite non-zero magnitude. -/
def numLog (x : Num) : Option Int :=
  match x with
  | .fin _ m e => if m = 0 then none else some ((Nat.log2 m : Int) + e)
  | _ => none
def numFinite (x : Num) : Bool :=
  match x with
  | .fin _ _ _ => true
  | _ => false
/-- The scale byte of a block of results (R278). -/
def mxScale (f : Nat) (l : List Num) : Nat :=
  if l.any (fun x => !numFinite x) then 255
  else match l.filterMap numLog with
    | [] => 127
    | a :: rest => ((max (-127) (min 127 (rest.foldl max a - mxEmax f))) + 127).toNat

end Sys2Proof.Machine
end

