-- ==== Sys2Proof/Machine/Yarpin.lean ====
section
/-!
DEFINITION. How a site issues a Yarpin instruction: registers, the fetched word and its reserved encodings, faults and stopped threads, scratch and data memory, and what a vector row reads and writes (R209-R213, R222, R225-R240, R263).
-/
namespace Sys2Proof.Machine

/-! ### Sites -/

/-- What one issue does: a next state, a fault with its cause of Table 07-8, a stall that leaves the instruction to be issued again, or nothing. -/
inductive YOut where
  | next (s : State)
  | fault (cause : Nat)
  | stall
  /-- The word is another row's to issue. -/
  | other
  deriving DecidableEq, Repr

/-- Thread number of a site; Chervil is 256. -/
def siteThread : Site → Nat
  | .tile _ => 0
  | .thread h => h
  | .chervil => 256
/-- Control core of a thread; Chervil's memories are the ninth. -/
def threadCore (h : Nat) : Nat := h / 32
/-- A scalar register of a site (R211, R222). -/
def sreg (s : State) (x : Site) (i : Nat) : Word :=
  match x with
  | .tile t => match (s.tile t).run with
    | some h => mget 0 i h.s
    | none => 0
  | _ => mget 0 i (s.thread (siteThread x)).s
/-- The running handler of a tile changed. -/
def modRun (t : Nat) (f : Handler → Handler) (s : State) : State := s.modTile t (fun x => { x with run := x.run.map f })
/-- A scalar register written. -/
def setS (x : Site) (i : Nat) (v : Word) (s : State) : State :=
  match x with
  | .tile t => modRun t (fun h => { h with s := mset 0 i v h.s }) s
  | _ => s.modThread (siteThread x) (fun t => { t with s := mset 0 i v t.s })
/-- The number that names a site in a stalled send; a tile's has the slot of the operation that sends above it. -/
def siteOwner : Site → Nat
  | .tile t => 1 + t
  | x => 257 + siteThread x
def sendOwner (s : State) (x : Site) : Nat :=
  siteOwner x + 1024 * (match x with
    | .tile t => (match (s.tile t).run with
      | some h => h.slot + 1
      | none => 0)
    | _ => 0)
/-- A SEND or FWD of the site has not been admitted yet (R253). -/
def siteWaits (s : State) (x : Site) : Bool := s.sw.stalled.any (fun e => e.2.any (fun k => k.owner % 1024 == siteOwner x))
/-- A thread could issue: it runs and waits for nothing. -/
def threadReady (s : State) (x : Site) : Bool := (s.thread (siteThread x)).running && !(s.thread (siteThread x)).waiting && !siteWaits s x
/-- The turn of a control thread: threads of one core are scheduled round-robin among those that are ready, an instruction at a time (R222; log 72). -/
def myTurn (s : State) (h : Nat) : Bool :=
  let last := mget 31 (h / 32) s.ctl.turn
  ((List.range 32).map (fun i => 32 * (h / 32) + (last + 1 + i) % 32)).find? (fun k => threadReady s (.thread k)) == some h
/-- A control thread has had its turn. -/
def passTurn (x : Site) (s : State) : State :=
  match x with
  | .thread h => { s with ctl := { s.ctl with turn := mset 31 (h / 32) (h % 32) s.ctl.turn } }
  | _ => s
/-- The site can issue: its handler or thread runs and waits for nothing, and a control thread has its turn. -/
def siteReady (s : State) (x : Site) : Bool :=
  match x with
  | .tile t => (match (s.tile t).run with
     | some h => decide (h.count < 256)
     | none => false) && !siteWaits s x
  | .thread h => threadReady s x && myTurn s h
  | .chervil => threadReady s x
/-- Context of the operation or thread at a site (R219, R220). -/
def siteCtx (s : State) (x : Site) : Nat :=
  match x with
  | .tile t => match (s.tile t).run with
    | some h => (s.slot (4096 * t + h.slot)).ctx
    | none => 0
  | _ => (s.thread (siteThread x)).ctx
/-- Endpoint of a site's packets (R24). -/
def siteEp : Site → Nat
  | .tile t => 416 + clusterOf t
  | x => 448 + siteThread x / 32
/-- Word address of the next instruction. -/
def sitePc (s : State) (x : Site) : Nat :=
  match x with
  | .tile t => match (s.tile t).run with
    | some h => h.pc
    | none => 0
  | _ => (s.thread (siteThread x)).pc
def setPc (x : Site) (pc : Nat) (s : State) : State :=
  match x with
  | .tile t => modRun t (fun h => { h with pc := pc }) s
  | _ => s.modThread (siteThread x) (fun t => { t with pc := pc })
/-- Program image a handler runs. -/
def runImage (s : State) (t : Nat) (h : Handler) : Option Nat := findProg s (clusterOf t) (s.slot (4096 * t + h.slot)).prog h.ver
/-- First word and end of the instruction range of a site: words 8 to length - 1 of its program (R240). -/
def siteRange (s : State) (x : Site) : Nat × Nat :=
  match x with
  | .tile t => match (s.tile t).run with
    | some h => match runImage s t h with
      | some v => (8, ptLen v)
      | none => (0, 0)
    | none => (0, 0)
  | _ => ((s.thread (siteThread x)).lo, (s.thread (siteThread x)).hi)
/-- The word a site issues next, none past its range or where the store's word is uncorrectable (R240, R500). -/
def fetchWord (s : State) (x : Site) : Option Nat :=
  let pc := sitePc s x
  let r := siteRange s x
  if pc < r.1 ∨ r.2 ≤ pc then none
  else match x with
    | .tile t => match (s.tile t).run with
      | some h => match runImage s t h with
        | some v =>
          let k := 8192 * clusterOf t + ptBase v + pc
          if s.ctl.storeBad.contains k then none else some (mget (0 : Word) k s.ctl.store).toNat
        | none => none
      | none => none
    | _ => some (mget (0 : Word) (65536 * threadCore (siteThread x) + pc) s.ctl.prog).toNat

/-! ### Stopped threads (R263, R322) -/

/-- The open commit group of a thread is gone, a pending epoch group with it (R260, R263, R411). -/
def dropGroup (h : Nat) (s : State) : State :=
  let s := s.modThread h (fun t => { t with group := [], groupOpen := false, check := none })
  if s.tab.pending && s.tab.pendThread == h then { s with tab := { s.tab with pend := [], pending := false } } else s
/-- Operations that the threads of a service created. -/
def serviceOps (s : State) (v : Nat) : List Nat :=
  (s.ctl.slots.filter (fun e => e.2.st == .live && (s.thread e.2.creator).svc == v)).map (·.1)
/-- A service fails: FAILED, its critical record, FAULT CLOSING to its operations, BUSY_RETRY to its open requests (R322). -/
def failService (v : Nat) (s : State) : State :=
  if svcState s v = 0 ∨ svcState s v = 4 then s
  else
    let s := emit (threadDie (mboxThread s v)) 0x0602 4 v (fld (svcEntry s v) 19 16) 0 0 (setSvcState v 4 s)
    flushOpen v ((serviceOps s v).foldl (fun s n => closingFault n s) s)
/-- The tickets of a thread complete to nobody. -/
def orphanTickets (h : Nat) (s : State) : State :=
  let f := fun (d : Dma) => if d.thread = h then { d with orphan := true } else d
  let s := [0, 1].foldl (fun s k => s.modHport k (fun p => { p with rdq := p.rdq.map f, wrq := p.wrq.map f })) s
  { s with sec := { s.sec with kreqs := s.sec.kreqs.map (fun q => if q.thread = h then { q with orphan := true } else q) } }
/-- A thread stops: its record with the cause of Table 07-8 and the word address, its commit group discarded, its tickets nobody's, its service FAILED (R263, R322). -/
def threadStop (h cause : Nat) (s : State) : State :=
  let t := s.thread h
  let s := emit (threadDie h) 0x0501 3 h cause t.pc 0 (orphanTickets h (dropGroup h s))
  let s := s.modThread h (fun t => { t with running := false, waiting := false, events := [] })
  if t.svc = 0 then s else failService t.svc s

/-! ### Steps and faults -/

/-- The instruction at a site faults: the handler ends, or the thread stops (R209, R263). -/
def siteFault (x : Site) (cause : Nat) (s : State) : State :=
  match x with
  | .tile t => faultHandler t cause s
  | _ => threadStop (siteThread x) cause s
/-- The instruction counts, and the next word follows it. -/
def siteStep (x : Site) (s : State) : State :=
  match x with
  | .tile t => modRun t (fun h => { h with pc := h.pc + 1, count := h.count + 1 }) s
  | _ => passTurn x (s.modThread (siteThread x) (fun t => { t with pc := t.pc + 1 }))
/-- Assigned opcodes (R228). -/
def assignedOpc (c : Nat) : Bool :=
  decide (0x01 ≤ c ∧ c ≤ 0x11) || decide (0x20 ≤ c ∧ c ≤ 0x2A) || decide (0x40 ≤ c ∧ c ≤ 0x53) || decide (0x60 ≤ c ∧ c ≤ 0x62)
    || decide (0x68 ≤ c ∧ c ≤ 0x6A) || decide (0x80 ≤ c ∧ c ≤ 0x82) || decide (0xA0 ≤ c ∧ c ≤ 0xA4) || decide (0xC0 ≤ c ∧ c ≤ 0xC4)
    || decide (0xE0 ≤ c ∧ c ≤ 0xEB)
/-- Profiles (Table 07-11). -/
def onAll (_ : Site) : Bool := true
def onTile : Site → Bool
  | .tile _ => true
  | _ => false
def onControl : Site → Bool
  | .thread _ => true
  | _ => false
def onTileControl : Site → Bool
  | .chervil => false
  | _ => true
def onControlChervil : Site → Bool
  | .tile _ => false
  | _ => true
/-! ### Fields of the word (Table 08-1) -/

def wFmt (w : Nat) : Nat := fld w 8 4
def wMx (w : Nat) : Bool := bit w 12
def wRnd (w : Nat) : Bool := bit w 13
def wSat (w : Nat) : Bool := bit w 14
def wWide (w : Nat) : Bool := bit w 15
def wD (w : Nat) : Nat := fld w 16 4
def wA (w : Nat) : Nat := fld w 20 4
def wB (w : Nat) : Nat := fld w 24 4
def wP (w : Nat) : Nat := fld w 28 2
def wPen (w : Nat) : Bool := bit w 30
def wImmf (w : Nat) : Bool := bit w 31
def wImm (w : Nat) : Nat := fld w 32 32
/-- IMM sign-extended to 64 bits. -/
def wSimm (w : Nat) : Word := BitVec.ofInt 64 (sextN 32 (wImm w))
/-- Masks of the fields. -/
def fOpc : Nat := 0xFF
def fFmt : Nat := 0xF00
/-- MX, RND and SAT of a row that has a format. -/
def fMode : Nat := 0x7000
/-- W, of VRED and VWSUM alone (R233). -/
def fW : Nat := 0x8000
def fD : Nat := 0xF0000
def fA : Nat := 0xF00000
def fB : Nat := 0xF000000
def fP : Nat := 0x30000000
def fPen : Nat := 0x40000000
def fImmf : Nat := 0x80000000
def fImm : Nat := 0xFFFFFFFF00000000
/-- P stands in a word whose PEN is set. -/
def fPred (w : Nat) : Nat := if wPen w then fPen + fP else 0
/-- The last source operand: B, or IMM where IMMF is set. -/
def fLast (w : Nat) : Nat := if wImmf w then fImmf + fImm else fB
/-- A register code names a scalar register (R227). -/
def okS (i : Nat) : Bool := decide (i < 8)
def okP (i : Nat) : Bool := decide (i < 4)
/-- The register-or-immediate operand (R239). -/
def lastOp (s : State) (x : Site) (w : Nat) : Word := if wImmf w then wSimm w else sreg s x (wB w)
/-- The register it names is a scalar register. -/
def okLast (w : Nat) : Bool := wImmf w || okS (wB w)
/-- A register plus the signed displacement, not reduced modulo 2^64: a sum below zero lies outside every window, as 2^64 does (R236, log 69). -/
def dispAddr (base : Word) (w : Nat) : Nat :=
  let z : Int := base.toNat + sextN 32 (wImm w)
  if z < 0 then 2 ^ 64 else z.toNat
/-- The address of a memory operand (R236). -/
def memAddr (s : State) (x : Site) (w : Nat) : Nat := dispAddr (sreg s x (wA w)) w

/-! ### Scratch and data memory (R213, R236, R237) -/

/-- The tile's window: its first byte in program scratch, and its size. -/
def windowOf (s : State) (t : Nat) : Nat × Nat :=
  match (s.tile t).run with
  | some h => (1024 * (s.slot (4096 * t + h.slot)).wbase, 1024 * (s.slot (4096 * t + h.slot)).wsize)
  | none => (0, 0)
/-- An access lies in what the site may address, and is aligned: the window on a tile, the core's 4 MiB on a control core (R222, R236). -/
def memOk (s : State) (x : Site) (a n align : Nat) : Bool :=
  a % align == 0 && match x with
    | .tile t => decide (a + n ≤ (windowOf s t).2)
    | _ => decide (a + n ≤ 4194304)
/-- Lines of scratch that bytes of the window touch. -/
def memLinesOf (s : State) (t a n : Nat) : List Nat :=
  let b := (windowOf s t).1 + a
  (List.range ((b + n + 127) / 128 - b / 128)).map (fun i => b / 128 + i)
/-- A line of scratch has a word with the poison syndrome. -/
def linePoison (y : Tile) (l : Nat) : Bool := (List.range 4).any (fun i => y.poison.contains (4 * l + i))
/-- A read meets a line that holds the poison syndrome, be the line written or not (log 66). -/
def readPoison (s : State) (x : Site) (a n : Nat) : Bool :=
  match x with
  | .tile t => (memLinesOf s t a n).any (linePoison (s.tile t))
  | _ => false
/-- Bytes read; an unwritten line of scratch reads as zeros. -/
def readMem (s : State) (x : Site) (a n : Nat) : List Byte :=
  match x with
  | .tile t =>
    let y := s.tile t
    let b := (windowOf s t).1 + a
    (List.range n).map (fun i => if y.valid.contains ((b + i) / 128) then memByte y.scratch (b + i) else 0)
  | _ => memRead s.ctl.data (4194304 * threadCore (siteThread x) + a) n
/-- The mask covers the whole word that holds byte i of a line. -/
def wholeWord (mask : Nat → Bool) (i : Nat) : Bool := (List.range 32).all (fun k => mask (32 * (i / 32) + k))
/-- One line of scratch written where the mask is set: an unwritten line becomes zero elsewhere. A write of a whole word ends its poison; a merge into a poisoned word leaves it as it is (R213, R237, R501). -/
def writeLine (t l : Nat) (data : List Byte) (mask : Nat → Bool) (s : State) : State :=
  s.modTile t (fun y =>
    let old := if y.valid.contains l then memRead y.scratch (128 * l) 128 else List.replicate 128 0
    let new := (List.range 128).map (fun i =>
      if mask i && (wholeWord mask i || !y.poison.contains (4 * l + i / 32)) then data.getD i 0 else old.getD i 0)
    { y with
      scratch := memWrite y.scratch (128 * l) new
      valid := insertSet l y.valid
      poison := y.poison.filter (fun k => !(k / 4 == l && wholeWord mask (32 * (k % 4)))) })
/-- Bytes written within one line of scratch, or in data memory. -/
def writeMem (x : Site) (a : Nat) (data : List Byte) (s : State) : State :=
  match x with
  | .tile t =>
    let b := (windowOf s t).1 + a
    writeLine t (b / 128) (List.replicate (b % 128) 0 ++ data) (fun i => decide (b % 128 ≤ i ∧ i < b % 128 + data.length)) s
  | _ => { s with ctl := { s.ctl with data := memWrite s.ctl.data (4194304 * threadCore (siteThread x) + a) data } }

/-! ### Sending with an owner (R109, R253) -/

/-- The last stalled send of a list gets an owner. -/
def ownLast (o : Nat) (l : List Parked) : List Parked :=
  match l.reverse with
  | y :: rest =>
    let y : Parked := { y with owner := o }
    (y :: rest).reverse
  | [] => []
/-- A packet of a site enters the crossbar; while it stands among the stalled sends the site waits with it. -/
def sendOwned (x : Site) (p : Packet) (s : State) : State :=
  let k := qkey (siteEp x) p.tc
  let t := sendFrom (siteEp x) p (noteBlock p s)
  if (mget [] k s.sw.stalled).length < (mget [] k t.sw.stalled).length then
    { t with sw := { t.sw with stalled := mmod [] k (ownLast (sendOwner s x)) t.sw.stalled } }
  else t

/-! ### Lengths of scratch accesses -/

/-- The accumulator format, none where W or MX is not allowed. -/
def accFmt (f : Nat) (wide mx : Bool) : Option Nat :=
  if mx then (if wide then some 1 else none)
  else if !wide then some f
  else if decide (2 ≤ f ∧ f ≤ 8) then some 1
  else if f = 1 then some 0
  else if f = 11 ∨ f = 12 then some 10
  else if f = 10 then some 9
  else none
/-- Lines of an accumulator of E elements. -/
def accLines (f af : Nat) : Nat := ceilDiv (fmtElems f) (fmtElems af)
/-- LEN of a SEND: 8 x LCODE, 0 standing for 1,024; a MAPMSG has none (log 39). -/
def sendLen (dw : Nat) : Nat := if fld dw 0 8 = opMAPMSG then 0 else if fld dw 25 7 = 0 then 1024 else 8 * fld dw 25 7

/-! ### Shadow records (R517) -/

/-- The record in the making of a site gets an item. -/
def traceItem (x : Site) (i : Traced) (s : State) : State :=
  match x with
  | .tile t => match mfind? t s.ctl.tracing with
    | some r => { s with ctl := { s.ctl with tracing := mput t { r with items := r.items ++ [i] } s.ctl.tracing } }
    | none => s
  | _ => s
/-- An ARM, TIMER, DONE, FAIL or YIELD, with the registers that its word names. -/
def noteEffect (x : Site) (w : Nat) (s : State) : State :=
  if inRange 0xC0 0xC4 (w % 256) then traceItem x (.effect w (sreg s x (wD w)).toNat (sreg s x (wA w)).toNat (sreg s x (wB w)).toNat) s else s
/-- Bytes of scratch that a row reads, and whether it writes them as well: none for a row that touches no scratch. -/
def scratchSpan (s : State) (x : Site) (w : Nat) : Option (Nat × Bool × Bool) :=
  match w % 256 with
  | 0x0E => some (8, true, false)
  | 0x0F => some (8, false, true)
  | 0x4F => some (128, true, false)
  | 0x50 => some (128, false, true)
  | 0x51 => some (8, true, false)
  | 0x52 => some (8, false, true)
  | 0x60 => some (128 * accLines (wFmt w) ((accFmt (wFmt w) (wWide w) (wMx w)).getD (wFmt w)), true, true)
  | 0x61 => some (128 * (1 + ceilDiv (fmtElems (wFmt w)) 32), true, true)
  | 0x62 => some (128 * accLines (wFmt w) ((accFmt (wFmt w) (wWide w) (wMx w)).getD (wFmt w)), true, true)
  | 0xA1 => some (sendLen (sreg s x (wD w)).toNat, true, false)
  | 0xA3 => some (64 * (fld (sreg s x (wD w)).toNat 56 2 + 1), true, false)
  | _ => none
/-- The predicate a row writes under. -/
def writePred (s : State) (x : Site) (w : Nat) : Option Nat :=
  match x with
  | .tile t => match (s.tile t).run with
    | some h => if wPen w then (mfind? (wP w) h.p).map (·.toNat) else none
    | none => none
  | _ => none
/-- The result that a search or SEXT has left in its register. -/
def traceResult (x : Site) (w : Nat) (t : State) : State :=
  match x with
  | .tile k => match (t.tile k).run with
    | some h =>
      if w % 256 = 0x82 then traceItem x (.result ((mfind? (wD w) h.p).map (·.toNat) |>.getD 0)) t else traceItem x (.result (mget 0 (wD w) h.s).toNat) t
    | none => t
  | _ => t
/-- What a row has read and written, from the state before it to the state it leaves: a search that only waits has no result yet. -/
def noteIssue (x : Site) (w : Nat) (s t : State) : State :=
  match scratchSpan s x w with
  | some (n, r, wr) =>
    let a := memAddr s x w
    let t := if r then traceItem x (.read a (readMem s x a n)) t else t
    if wr then traceItem x (.write a (readMem t x a n) (writePred s x w)) t else t
  | none =>
    if (w % 256 = 0x10 ∨ inRange 0x80 0x82 (w % 256)) ∧ sitePc t x = sitePc s x then traceResult x w t else t

/-! ### Issue -/

/-- A site issues the word at its program counter if the word is of this row. A word that is of no row, has a bit set outside the fields the row uses, or is outside the profile faults with ILLEGAL; a word of another row is that row's to issue (R222, R226). -/
def issue (opc : Nat) (prof : Site → Bool) (used : Nat → Nat) (body : Site → Nat → State → YOut) (x : Site) (s : State) : State :=
  if !siteReady s x then s
  else match fetchWord s x with
    | none => siteFault x 4 (passTurn x s)
    | some w =>
      if w % 256 = opc then
        if !prof x || (w &&& used w) != w then siteFault x 4 (passTurn x s)
        else match body x w (noteEffect x w (siteStep x s)) with
          | .next t => noteIssue x w (siteStep x s) t
          | .fault c => siteFault x c (passTurn x s)
          | .stall => passTurn x s
          | .other => s
      else if assignedOpc (w % 256) then s
      else siteFault x 4 (passTurn x s)

end Sys2Proof.Machine
end

