-- ==== Sys2Proof/Machine/Tables.lean ====
section
/-!
DEFINITION. The tables that TRD, TWR and TSTAGE reach: their IDs, sizes and kinds, what a read returns and clears, and the authority of each thread (R132, R402-R405, R409, R504, R559, R582).
-/
namespace Sys2Proof.Machine

/-! ### IDs, sizes and kinds (Tables 15-1, 21-3, 22-2) -/

/-- Table ID, entries and bits of an entry. 0x0021 counts its widest entry; 0x0101 to 0x0102 have rows of classes and units. -/
def tblRows : List (Nat × Nat × Nat) := [
  (0x0001, 96, 32), (0x0002, 192, 64), (0x0003, 3760, 64), (0x0004, 24576, 128), (0x0005, 49152, 16), (0x0006, 32, 64),
  (0x0007, 384, 128), (0x0008, 24576, 64), (0x0010, 16384, 32), (0x0011, 4096, 128), (0x0012, 262144, 64), (0x0013, 65536, 256),
  (0x0014, 256, 32), (0x0015, 64, 32), (0x0018, 4096, 128), (0x0019, 65536, 64), (0x001A, 4096, 64), (0x001B, 65536, 32),
  (0x0020, 4096, 64), (0x0021, 131072, 2112), (0x0022, 1, 32), (0x0028, 1024, 256), (0x0029, 1, 64), (0x002A, 2, 128),
  (0x0030, 1024, 256), (0x0031, 1, 64), (0x0032, 1, 128), (0x0040, 1048576, 768), (0x0042, 2048, 128), (0x0043, 262144, 64),
  (0x0048, 4096, 1088), (0x0049, 32, 256), (0x004A, 16, 256), (0x004C, 16777216, 128), (0x004D, 16777216, 128),
  (0x004E, 16777216, 128), (0x004F, 16777216, 128), (0x0050, 2097152, 24), (0x0051, 256, 64), (0x0052, 8388608, 64),
  (0x0100, 3760, 960), (0x0101, 1536, 192), (0x0102, 16896, 64)]
/-- Chervil's tables: the counters of 0x0204 lie as log 33 states. -/
def chervilRows : List (Nat × Nat × Nat) := [
  (0x0200, 1, 256), (0x0201, 64, 64), (0x0202, 53, 64), (0x0203, 2320, 64), (0x0204, 2594, 64), (0x0205, 25600, 64),
  (0x0206, 290, 64), (0x0207, 448, 64), (0x0210, 8, 128), (0x0211, 458752, 256),
  (0x0212, 8388608, 256), (0x0213, 8388608, 256), (0x0214, 8388608, 256), (0x0215, 8388608, 256),
  (0x0216, 8388608, 256), (0x0217, 8388608, 256), (0x0218, 8388608, 256), (0x0219, 8388608, 256), (0x021A, 4096, 256)]
/-- Entries and bits of a table, none for a reserved ID. -/
def tblSize (id : Nat) : Option (Nat × Nat) := ((tblRows ++ chervilRows).find? (fun r => r.1 == id)).map (·.2)
/-- The table belongs to Chervil's range. -/
def isChervilTable (id : Nat) : Bool := decide (0x0200 ≤ id ∧ id < 0x0300)
/-- E tables: the fabric map. -/
def isFabric (id : Nat) : Bool := [0x0010, 0x0011, 0x0018, 0x0019, 0x001A, 0x001B].contains id
/-- Committed tables, E tables included. -/
def isCommitted (id : Nat) : Bool :=
  isFabric id || decide (1 ≤ id ∧ id ≤ 8) || [0x0012, 0x0013, 0x0014, 0x0015, 0x0020, 0x0022, 0x0028, 0x0029, 0x002A, 0x0030, 0x0031].contains id
/-- Direct tables. -/
def isDirect (id : Nat) : Bool := [0x0021, 0x0040, 0x0042, 0x0043, 0x0048, 0x0049, 0x004A, 0x0052].contains id
/-- Counter rows of a unit of 0x0102. -/
def unitRows (u : Nat) : Nat := if u < 2 then 3 else if u < 4 then 7 else if u < 8 then 6 else if u < 264 then 10 else 0
/-- The table has an entry of that index. -/
def tblHas (s : State) (id idx : Nat) : Bool :=
  match tblSize id with
  | none => false
  | some (n, _) => decide (idx < n)
    && (if id = 0x0003 ∨ id = 0x0100 then isEp (idx / 8)
        else if id = 0x0102 then decide (idx % 64 < unitRows (idx / 64))
        else if id = 0x0021 then match tableOfRow s idx with
          | some t => firstRow s t idx
          | none => false
        else true)
/-- Bits of an entry: an entry image has those of its table's width. -/
def tblBits (s : State) (id idx : Nat) : Nat :=
  if id = 0x0021 then match tableOfRow s idx with
    | some t => imageBits (stWidth (searchTable s t))
    | none => 0
  else ((tblSize id).map (·.2)).getD 0
/-- 64-bit words of an entry. -/
def tblWords (s : State) (id idx : Nat) : Nat := ceilDiv (tblBits s id idx) 64

/-! ### RO fields (R403) -/

/-- RO fields of a committed table: lowest bit and width. A thread's write of RUN takes effect by a write of its own (R298). -/
def roFields (id : Nat) : List (Nat × Nat) :=
  match id with
  | 0x0013 => [(192, 20)]
  | 0x0015 => [(16, 2)]
  | 0x0028 => [(128, 22), (150, 32), (182, 32), (214, 42)]
  | 0x0030 => [(0, 2), (86, 21), (107, 6), (113, 4)]
  | 0x001A => [(37, 8)]
  | _ => []
/-- A written image with the RO fields of the live one. -/
def keepRo (id live v : Nat) : Nat := (roFields id).foldl (fun v f => setFld v f.1 f.2 (fld live f.1 f.2)) v
/-- What a live entry shows: the fields that are counted, not stored (log 27). -/
def shown (s : State) (id idx v : Nat) : Nat :=
  match id with
  | 0x0013 => setFld v 192 20 (inflight s idx)
  | 0x0028 => setFld (setFld (setFld v 128 22 (nearUsed s idx)) 150 32 (poolUsedBy s idx)) 182 32 (hostUsedBy s idx)
  | 0x0030 => setFld v 86 21 (opUsed s idx)
  | _ => v
/-- The map state entry (Table 15-3). -/
def mapState (s : State) : Nat :=
  s.tab.cur + 4 * b2n s.tab.oldLive + 8 * b2n s.tab.pending + 16 * s.tab.mseq + 2 ^ 64 * s.tab.eflipt
/-- A slot number's descriptor and record (Table 07-2, R192). -/
def slotCode : SlotState → Nat
  | .free => 0 | .live => 1 | .ending => 2 | .cooling => 3
def slotWords (s : State) (n : Nat) : Nat :=
  let x := s.slot n
  slotCode x.st + 2 ^ 2 * x.ctx + 2 ^ 12 * x.gen + 2 ^ 24 * x.prog + 2 ^ 40 * x.ver + 2 ^ 56 * x.wbase + 2 ^ 66 * x.wsize
    + 2 ^ 76 * x.cbase + 2 ^ 90 * x.ccount + 2 ^ 103 * x.creator + 2 ^ 111 * x.outst + 2 ^ 128 * x.seed + 2 ^ 160 * x.hseq
    + 2 ^ 192 * x.deadline
    + 2 ^ 256 * ((List.range 8).foldr (fun i a => 2 ^ 64 * a + (mget (0 : Word) i x.regs).toNat) 0)
/-- A program table entry with REFS (Table 07-10). -/
def progShown (s : State) (k : Nat) : Nat :=
  let v := mget 0 k s.ctl.ptab
  if ptState v = 0 then v else setFld v 77 16 (refs s (k / 64) (ptProg v) (ptVer v))

/-! ### Telemetry (Tables 04-13, 06-8, 07-12, 13-8, R318) -/

/-- Words in order, low word first. -/
def packWords (l : List Nat) : Nat := l.foldr (fun w a => w % 2 ^ 64 + 2 ^ 64 * a) 0
/-- The queue rows of Table 04-13. -/
def queueWords (s : State) (k : Nat) : Nat := 
  let x := s.queue k
  packWords ((List.range 15).map (fun i => if i = 12 then max (depth x) (qctr s k i) else qctr s k i))
/-- Time parked now, of a FIFO that is not empty. -/
def parkTime (s : State) (q : ParkQ) : Nat := q.parkNs + match q.since with
  | some t => now s - t
  | none => 0
/-- The park rows of a port position and class: its half-ports' counts together. -/
def parkWords (s : State) (idx : Nat) : Nat :=
  let a := s.park idx
  let b := s.park (8 * 192 + idx)
  packWords [wrapAdd 64 (parkTime s a) (parkTime s b), max (max a.parkMax b.parkMax) (max (parkedCells a.pkts) (parkedCells b.pkts)), wrapAdd 64 a.holdPolice b.holdPolice]
/-- A unit counter. -/
def unitWord (s : State) (idx : Nat) : Nat :=
  let u := idx / 64
  let row := idx % 64
  if u < 2 then
    let b := s.buf u
    match row with
    | 0 => poolFree s u
    | 1 => min (b.poolMin.getD (poolFree s u)) (poolFree s u)
    | _ => min (b.resMin.getD (b.resSize - b.resUsed)) (b.resSize - b.resUsed)
  else if u < 4 then
    max (mget 0 (8 * (u - 2) + row) s.coh.ctr)
      (if row = 0 then (txnsOf s (u - 2)).length else if row = 1 then (waitsOf s (u - 2)).length else 0)
  else if u < 6 then mget 0 row (s.buf (u - 4)).lookup
  else if u < 8 then
    max (mget 0 (8 * (u - 6) + row) s.per.ctr) (if row = 4 then (portKeys s (u - 6)).length else 0)
      + (if row = 3 then match mfind? (u - 6) s.per.throttleSince with
          | some t => if perLevel s (u - 6) = 0 then 0 else now s - t
          | none => 0
        else 0)
  else max (mget 0 row (s.tile (u - 8)).ctr) (if row = 8 then (s.tile (u - 8)).evq else 0)
    + (if row = 7 then match (s.tile (u - 8)).fullSince with
        | some t => now s - t
        | none => 0
      else 0)

/-! ### Chervil's tables (R559, R504, R582) -/

/-- PSTATE (Table 21-4). -/
def pstateCode : PState → Nat
  | .run => 0 | .doze => 1 | .waking => 2 | .sleep => 3
/-- Power and thermal status (Table 21-4). -/
def statusImage (s : State) : Nat :=
  let c := s.chv
  let l0 := s.limit 0
  let l1 := s.limit 1
  pstateCode c.pstate + 2 ^ 2 * b2n (throttle s) + 2 ^ 3 * b2n c.capLimited
    + 2 ^ 4 * min l0.capT l0.thT + 2 ^ 11 * min l1.capT l1.thT + 2 ^ 18 * min l0.capL l0.thL + 2 ^ 25 * min l1.capL l1.thL
    + 2 ^ 32 * c.cap + 2 ^ 43 * c.capMax + 2 ^ 64 * (powerW s % 2 ^ 11) + 2 ^ 75 * (vinCode s % 2 ^ 8)
    + 2 ^ 83 * coreRail s 0 + 2 ^ 93 * coreRail s 1 + 2 ^ 103 * intBits 12 (maxOf 0 (allDies.map (dieTemp s))) + 2 ^ 115 * workingPhases s
    + 2 ^ 121 * perLevel s 0 + 2 ^ 123 * perLevel s 1 + 2 ^ 128 * (c.energyNj / 1000000 % 2 ^ 64)
/-- Kind of a sensor: 0 temperature, 1 voltage, 2 current (log 42). -/
def sensorKind (i : Nat) : Nat := if i = 55 then 1 else if i = 56 then 2 else 0
/-- A sensor entry. -/
def sensorImage (s : State) (i : Nat) : Nat :=
  let x := s.sensor i
  intBits 16 (filtered x) + 2 ^ 16 * intBits 16 (x.hist.headD 0) + 2 ^ 32 * intBits 16 (max (x.peak.getD (filtered x)) (filtered x)) + 2 ^ 48 * sensorKind i + 2 ^ 56 * b2n x.failed
/-- A phase entry, or a rail's: the sum of its phases' currents and the hottest of them (log 42). -/
def phaseImage (s : State) (i : Nat) : Nat :=
  if i < 48 then
    let x := s.phase i
    intBits 10 (filtered x.cur) + 2 ^ 10 * intBits 8 (filtered x.tmp) + 2 ^ 18 * railOf s i
      + 2 ^ 24 * (if x.failed then 2 else if 44 ≤ i ∧ x.rail = 5 then 1 else 0)
  else
    let l := (List.range 48).filter (fun k => railOf s k == i - 48 && !(s.phase k).failed)
    min 1023 (l.foldl (fun a k => a + (filtered (s.phase k).cur).toNat) 0)
      + 2 ^ 10 * intBits 8 (maxOf 0 (l.map (fun k => filtered (s.phase k).tmp))) + 2 ^ 18 * (i - 48)
/-- Delay code and offset of a block or tile in a bin (log 42). -/
def codeImage (s : State) (i : Nat) : Nat := codeFor s (i / 8) (i % 8) + 2 ^ 8 * mget 0 i s.chv.offsets
/-- Spare rows used by the eight macros of a buffer bank (R507). -/
def bankRows (s : State) (b : Nat) : Nat := (List.range 8).foldl (fun a i => a + mget 0 (8 * b + i) s.rel.rows) 0
/-- Remap frames of a stack at manufacture (R509). -/
def remapFrames (m : Nat) : Nat := [53120, 45040, 59264, 45056].getD m 0
/-- A counter of Table 19-2; those that count what is left are computed (log 33). -/
def relImage (s : State) (i : Nat) : Nat :=
  if i < 512 ∧ i % 4 = 2 then bankRows s (i / 4)
  else if i < 512 ∧ i % 4 = 3 then 32 - bankRows s (i / 4)
  else if 2560 ≤ i ∧ i < 2592 ∧ i % 8 = 4 then 
    remapFrames ((i - 2560) / 8) - mget 0 ((i - 2560) / 8) s.tier.remapUsed
      + (s.tier.remapFree.filter (fun k => k / 1048576 == (i - 2560) / 8)).length
  else if 2560 ≤ i ∧ i < 2592 ∧ i % 8 = 6 then (s.rel.ppr.filter (fun k => k / 1048576 == (i - 2560) / 8)).length
  else mget 0 i s.rel.ctr
/-- A word of a lane's monitor, in the order of Table 03-7 (log 42). -/
def monWord (s : State) (i : Nat) : Nat :=
  let m := (s.lane (i / 32)).mon
  match i % 32 with
  | 0 => m.eyeU
  | 1 => m.eyeM
  | 2 => m.eyeL
  | 3 => m.width
  | 4 => m.errors
  | 22 => b2n m.cdrLock + 2 * b2n m.amLock
  | 23 => m.ctle
  | k => if k < 22 then m.hist.getD (k - 5) 0 else m.dfe.getD (k - 24) 0
/-- A replica margin, or the shadow rate of a tile: 0 for none taken, else n of 1/n (log 42). -/
def marginImage (s : State) (i : Nat) : Nat :=
  if i < 34 then intBits 16 (s.block i).margin
  else
    let t := i - 34
    if (s.tile t).quarUntil.any (fun u => decide (now s < u)) then 1
    else if (s.block (clusterOf t)).boostUntil.any (fun u => decide (now s < u)) then 64 else mget 1024 t s.chv.shadowRate
/-- Link scores by port position, then neighbours in order of node: score and node (log 42). -/
def scoreImage (s : State) (i : Nat) : Nat :=
  if i < 192 then mget 0 i s.rel.linkScore
  else match (s.rel.nbrs.drop (i - 192)).head? with
    | some (n, x) => x.score + 2 ^ 16 * n
    | none => 0
/-- The 32 bytes of a stored record (Table 22-1). -/
def recordBytes (x : Stored) : Nat :=
  let r := x.r
  if x.mark = 0 then 0
  else x.mark + 2 ^ 8 * r.sev + 2 ^ 12 * r.die + 2 ^ 16 * r.code + 2 ^ 32 * r.time + 2 ^ 80 * r.seq
    + 2 ^ 96 * r.p0 + 2 ^ 128 * r.p1 + 2 ^ 160 * r.p2 + 2 ^ 192 * r.p3
/-- A recorder status entry (Table 22-3). -/
def recStatus (s : State) (i : Nat) : Nat :=
  if i < 7 then
    let d := s.recDie i
    d.nextSeq + 2 ^ 16 * d.wpos + 2 ^ 32 * b2n d.lap + 2 ^ 33 * b2n s.evr.frozen + 2 ^ 34 * d.lost + 2 ^ 64 * d.apos
      + 2 ^ 87 * b2n d.alap + 2 ^ 88 * b2n d.afail
  else 2 ^ 16 * s.evr.critPos + 2 ^ 32 * b2n s.evr.critLap + 2 ^ 33 * b2n s.evr.frozen + 2 ^ 34 * s.evr.nvLost
/-- An archive area lies on a failed stack and cannot be read: M1 holds areas 0-3, M3 areas 4-7 (R512, R580, R581). -/
def archiveFailed (s : State) (area : Nat) : Bool := s.tier.stacksFailed.contains (if area < 4 then 1 else 3)
/-- An entry of Chervil's tables; what a read of an unreadable archive area gives is free (log 62). -/
def chervilImage (s : State) (id idx : Nat) : Nat :=
  match id with
  | 0x0200 => statusImage s
  | 0x0201 => sensorImage s idx
  | 0x0202 => phaseImage s idx
  | 0x0203 => codeImage s idx
  | 0x0204 => relImage s idx
  | 0x0205 => monWord s idx
  | 0x0206 => marginImage s idx
  | 0x0207 => scoreImage s idx
  | 0x0210 => recStatus s idx
  | 0x0211 => recordBytes (mget {} idx s.evr.rings)
  | 0x021A => recordBytes (mget {} idx s.evr.crit)
  | _ => if archiveFailed s (id - 0x0212) then Config.archiveWord (id - 0x0212) idx % 2 ^ 256 else recordBytes (mget {} (8388608 * (id - 0x0212) + idx) s.evr.arch)

/-! ### Reads (R402, R403, R405, R132) -/

/-- The live image of an entry. -/
def tblImage (s : State) (id idx : Nat) : Nat :=
  if isChervilTable id then chervilImage s id idx
  else if isCommitted id then shown s id idx (entry s id idx)
  else match id with
    | 0x0021 => pImage s idx
    | 0x0032 => mapState s
    | 0x0040 => slotWords s idx
    | 0x0042 => progShown s idx
    | 0x0043 => (mget (0 : Word) idx s.ctl.store).toNat
    | 0x0048 => slotImage s idx
    | 0x0049 => codecJob s idx
    | 0x004A => tierJob s idx
    | 0x0050 => if fent s idx = 0 then 0 else fent s idx + 2 ^ 23 * b2n (pinned s (idx / 1048576) idx)
    | 0x0051 => svcEntry s idx
    | 0x0052 => kvWord s idx
    | 0x0100 => queueWords s idx
    | 0x0101 => parkWords s idx
    | 0x0102 => unitWord s idx
    | _ => page s (4 * idx + (id - 0x004C))
/-- The image a thread reads: its own staged value where it asks for the shadow and has staged one, else the live image (R405). -/
def threadImage (s : State) (h : Nat) (shadow : Bool) (id idx : Nat) : Nat :=
  match if shadow && isCommitted id then mfind? (tkey id idx) (s.thread h).group else none with
  | some v => shown s id idx (keepRo id (entry s id idx) v)
  | none => tblImage s id idx
/-- A coherence counter set. -/
def setCoh (k n : Nat) (s : State) : State := { s with coh := { s.coh with ctr := mset 0 k n s.coh.ctr } }
/-- The RC fields in a word of a live entry are cleared by its reading; a greatest or least level since the last read then reads as the level there is until it moves (R7, R132, R402, R559, R582; log 41). -/
def readClears (id idx word : Nat) (s : State) : State :=
  match id with
  | 0x0100 => if word = 12 ∨ word = 14 then s.modQueue idx (fun q => { q with ctr := mset 0 word 0 q.ctr }) else s
  | 0x0101 => if word = 1 then
      (s.modPark idx (fun q => { q with parkMax := 0 })).modPark (8 * 192 + idx) (fun q => { q with parkMax := 0 }) else s
  | 0x0102 =>
    let u := idx / 64
    let row := idx % 64
    if u < 2 then
      if row = 1 then s.modBuf u (fun b => { b with poolMin := none })
      else if row = 2 then s.modBuf u (fun b => { b with resMin := none })
      else s
    else if u < 4 then (if row = 0 ∨ row = 1 then setCoh (8 * (u - 2) + row) 0 s else s)
    else if u < 6 then s
    else if u < 8 then (if row = 4 then { s with per := { s.per with ctr := mset 0 (8 * (u - 6) + 4) 0 s.per.ctr } } else s)
    else if row = 8 then s.modTile (u - 8) (fun t => { t with ctr := mset 0 8 0 t.ctr })
    else s
  | 0x0201 => s.modSensor idx (fun x => { x with peak := none })
  | 0x0210 => if word ≠ 0 then s else if idx < 7 then s.modRecDie idx (fun d => { d with lost := 0 }) else { s with evr := { s.evr with nvLost := 0 } }
  | _ => s

/-! ### Authority (R259, R403) -/

/-- Thread 256: Chervil. -/
def chervilThread : Nat := 256
/-- A thread may read an entry. -/
def mayRead (s : State) (h id idx : Nat) : Bool :=
  let c := (s.thread h).ctx
  if h = chervilThread then isChervilTable id
  else if c = 0 then true
  else match id with
    | 0x0021 => match tableOfRow s idx with
      | some t => stOwner (searchTable s t) == c
      | none => false
    | 0x0028 => idx == c
    | 0x0032 => true
    | 0x0040 => (s.slot idx).st != .free && (s.slot idx).ctx == c
    | 0x0049 => (mfind? idx s.cod.runs).any (fun r => r.ctx == c)
    | 0x004A => jobState (tierJob s idx) != 0 && fld (tierJob s idx) 17 10 == c
    | _ => false
/-- A thread may write an entry: tables with writer 0 by context 0, the entry of context 1023 by none, jobs and slots by every context under their own rules (Table 15-1, R446). -/
def mayWrite (s : State) (h id idx : Nat) : Bool :=
  let c := (s.thread h).ctx
  if h = chervilThread then isChervilTable id
  else if isCommitted id then c == 0 && !(id == 0x0030 && idx == 1023)
  else match id with
    | 0x0021 => true
    | 0x0040 => true
    | 0x0042 => c == 0
    | 0x0043 => c == 0
    | 0x0048 => c == 0
    | 0x0049 => true
    | 0x004A => true
    | 0x0052 => c == 0 && (s.thread h).svc == 4
    | _ => false

/-! ### The table address word (Table 08-19) -/

def taTable (a : Nat) : Nat := fld a 0 16
def taIndex (a : Nat) : Nat := fld a 16 24
def taCount (a : Nat) : Nat := fld a 40 24

end Sys2Proof.Machine
end

