-- ==== Sys2Proof/Machine/TCheck.lean ====
section
/-!
DEFINITION. TCHECK: the state a commit group would leave, every check that a chapter gives, and the report word (R406, R407, R411, Tables 15-4 and 15-5).
-/
namespace Sys2Proof.Machine

/-! ### Groups -/

/-- A staged entry put in place of the live one, with the RO fields of the live one. -/
def mergeEntry (k v : Nat) (s : State) : State :=
  setEntry s (k / 2 ^ 24) (k % 2 ^ 24) (keepRo (k / 2 ^ 24) (entry s (k / 2 ^ 24) (k % 2 ^ 24)) v)
/-- The state after the flip of a group, as far as tables go (R406). -/
def afterFlip (s : State) (g : SMap Nat) : State := g.foldl (fun s e => mergeEntry e.1 e.2 s) s
/-- A failure: table, index, check code of Table 15-5. -/
abbrev Fail := Nat × Nat × Nat
/-- Codes that a list of conditions raises. -/
def codes (l : List (Bool × Nat)) : List Nat := (l.filter (·.1)).map (·.2)
/-- Reserved RW bits of an entry: lowest bit and width. -/
def reservedBits (id : Nat) : List (Nat × Nat) :=
  match id with
  | 0x0001 => [(16, 16)] | 0x0002 => [(60, 4)] | 0x0003 => [(49, 15)] | 0x0004 => [(81, 47)] | 0x0005 => [(12, 4)]
  | 0x0007 => [(104, 24)] | 0x0008 => [(40, 24)] | 0x0010 => [(15, 17)] | 0x0011 => [(83, 45)] | 0x0012 => [(43, 21)]
  | 0x0013 => [(121, 7), (244, 12)] | 0x0014 => [(17, 15)] | 0x0015 => [(18, 14)] | 0x0018 => [(39, 25), (110, 18)]
  | 0x0019 => [(57, 7)] | 0x001A => [(45, 19)] | 0x0020 => [(51, 13)] | 0x0022 => [(5, 27)] | 0x0028 => [(87, 41)]
  | 0x0029 => [(32, 32)] | 0x002A => [(97, 31)] | 0x0030 => [(117, 11), (244, 12)] | 0x0031 => [(50, 14)]
  | _ => []
def reservedSet (id v : Nat) : Bool := (reservedBits id).any (fun f => fld v f.1 f.2 != 0)

/-! ### Switch tables -/

/-- The reservations of a context are frozen: from CLOSING until the flip that releases them (R458). -/
def frozenCtx (s : State) (c : Nat) : Bool := ctxState s c == 2 || ctxState s c == 3 || s.cx.release.contains c
/-- SPARE_MAP of the board profile in force: the lanes wired to a partner (R20, R63). -/
def wiredSpares (s : State) (j : Nat) : Nat :=
  match s.boot.inForce with
  | some _ => fld (profilePair s j) 6 8
  | none => 0
/-- Stretches of a cycle: the mask open and its length; the remainder of the cycle is open (R125). -/
def gateRuns (hdr : Nat) (ents : List Nat) : List (Nat × Nat) :=
  let l : List (Nat × Nat) := ents.map (fun v => (fld v 0 8, fld v 8 32))
  let used := l.foldl (fun a (x : Nat × Nat) => a + x.2) 0
  (l ++ [(255, gateCycle hdr - used)]).filter (fun (x : Nat × Nat) => x.2 != 0)
/-- The longest run of open stretches of a class over a list. -/
def longestOpen (c : Nat) (l : List (Nat × Nat)) : Nat :=
  (l.foldl (fun (a : Nat × Nat) x => if bit x.1 c then (max a.1 (a.2 + x.2), a.2 + x.2) else (a.1, 0)) (0, 0)).1
/-- A class that a list opens has 43 ns of continuous open time; TC6 is opened (R127). -/
def classGateOk (c : Nat) (l : List (Nat × Nat)) : Bool :=
  if l.all (fun x => !bit x.1 c) then c != 6
  else l.all (fun x => bit x.1 c) || decide (43 ≤ longestOpen c (l ++ l))
/-- A gate list breaks no rule of R127. -/
def gateListOk (g : State) (ep : Nat) : Bool :=
  let h := entry g 0x0007 ep
  let n := fld h 96 7
  let ents := gateEntries g ep n
  decide (ents.foldl (fun a v => a + fld v 8 32) 0 ≤ gateCycle h)
    && !(gateEn h && (n == 0 || gateCycle h == 0))
    && (gateCycle h == 0 || (List.range 8).all (fun c => classGateOk c (gateRuns h ents)))
/-- Failures of an entry of a switch table. -/
def switchFails (s g : State) (id idx v : Nat) : List Nat :=
  match id with
  | 0x0001 => codes [(fld v 0 2 == 3 || fld v 2 2 == 3, 1), (fld v 6 8 &&& wiredSpares s idx != fld v 6 8, 3)]
  | 0x0002 => codes [((List.range 6).any (fun i => fld v (10 * i) 10 == 0), 2)]
  | 0x0003 => codes [(decide (9 < fld v 0 4), 1), (fld v 8 8 == 0 || (fld v 16 20 != 0 && fld v 36 12 == 0), 2)]
  | 0x0004 => codes [(bit v 80 && (decide (fld v 20 20 < fld v 0 20) || decide (fld v 60 20 < fld v 40 20) || decide (fld v 40 20 < 17)), 2)]
  | 0x0005 => codes [(v != entry s id idx && frozenCtx s (idx % 8192 / 8), 8)]
  | 0x0006 => codes [((fld v 14 14 != 0 && decide (fld v 14 14 ≤ fld v 0 14)) || (fld v 42 14 != 0 && decide (fld v 42 14 ≤ fld v 28 14)), 2)]
  | 0x0007 => codes [(decide (64 < fld v 96 7), 2), (decide (fld v 96 7 ≤ 64) && !gateListOk g idx, 7)]
  | _ => []
/-- Dies whose partitions leave less than 131,072 cells shared (R112). -/
def poolFails (g : State) : List Fail :=
  ([0, 1].filter (fun d => (listedIdx g 0x0002).any (fun i => i / 96 == d) && decide (poolSize g d < 131072))).map (fun d => (0x0002, 96 * d, 6))

/-! ### Routing tables -/

/-- Endpoint codes in use of a route. -/
def routeEps (v : Nat) : List Nat := (List.range (fld v 80 3 + 1)).map (fun i => fld v (10 * i) 10)
/-- Endpoint code of a leg that Table 10-2 defines. -/
def legCodeOk (e : Nat) : Bool := decide (e < 384) || inRange 512 777 e || inRange 780 783 e
/-- Legs of a group: their indices. -/
def groupRange (v : Nat) : List Nat := (List.range (fld v 16 11)).map (fld v 0 16 + ·)
/-- Ranges that meet: start and length; an empty one meets none. -/
def rangesMeet (a n b m : Nat) : Bool := decide (0 < n) && decide (0 < m) && decide (a < b + m) && decide (b < a + n)
/-- Two legs name one endpoint; tile legs with different OPSLOT do not (R292). -/
def sameLeg (x y : Nat) : Bool := fld x 0 10 == fld y 0 10 && (!isTileLeg x || fld x 25 20 == fld y 25 20)
/-- Failures of a leg of an enabled group. -/
def legFails (g : State) (group li : Nat) : List Fail :=
  let v := entry g 0x0019 li
  let e := fld v 0 10
  (codes [(!legCodeOk e, 1), (decide (e < 384) && !portExists g e, 2),
    ((groupRange (entry g 0x0018 group)).any (fun k => decide (li < k) && sameLeg (entry g 0x0019 k) v), 3),
    (bit v 10 && fld (entry g 0x0010 (fld v 11 14)) 0 3 == 0, 4),
    (isTileLeg v && e != 512 + fld v 37 8, 2)]).map (fun c => (0x0019, li, c))
/-- Failures of an entry of the fabric map. -/
def mapFails (g : State) (id idx v : Nat) : List Nat :=
  match id with
  | 0x0010 =>
    let kind := fld v 0 3
    codes [(kind == 2 || decide (4 < kind), 1), (kind == 3 && idx != g.boot.node, 2),
      (kind == 1 && !(edgesOf g idx).isEmpty && !(routeEps (entry g 0x0011 (fld v 3 12))).all (fun p => (edgesOf g idx).contains p), 5)]
  | 0x0011 => codes [((routeEps v).any (fun e => decide (384 ≤ e)), 1), ((routeEps v).any (fun e => decide (e < 384) && !portExists g e), 2)]
  | 0x0018 =>
    if !bit v 27 then []
    else codes [(decide (1024 < fld v 16 11) || decide (65536 < fld v 0 16 + fld v 16 11), 2),
      ((listedIdx g 0x0018).any (fun k => decide (idx < k) && bit (entry g 0x0018 k) 27
        && rangesMeet (fld v 0 16) (fld v 16 11) (fld (entry g 0x0018 k) 0 16) (fld (entry g 0x0018 k) 16 11)), 3),
      (bit v 38 && fld (entry g 0x0010 (fld v 64 14)) 0 3 == 0, 4)]
  | 0x001A => codes [(bit v 0 && decide (65536 < fld v 21 16 + fld v 11 10 + 1), 2)]
  | _ => []
/-- Failures of the legs of enabled groups. -/
def legsFails (g : State) : List Fail :=
  ((listedIdx g 0x0018).filter (fun k => bit (entry g 0x0018 k) 27 && decide (fld (entry g 0x0018 k) 16 11 ≤ 1024))).flatMap
    (fun k => ((groupRange (entry g 0x0018 k)).flatMap (legFails g k)))

/-! ### Memory tables -/

/-- The key slot of an extent counts as loaded (R153, R482). -/
def keyCounts (g : State) (v : Nat) : Bool :=
  match fld (keySlot g (exKeyslot v)) 0 2 with
  | 1 => true
  | 2 => exState v == 3 || exState v == 4
  | _ => false
/-- Every write of an extent's scrub is done, and none failed (R464, R465). -/
def scrubDone (s : State) (e : Nat) : Bool :=
  let v := mget 0 e s.svc.scrubs
  v != 0 && decide (v < 8192) && !s.mf.own.any (fun x => x.2.user == 6 && x.2.unit == e) && !s.svc.backlog.any (fun x => x.2.user == 6 && x.2.unit == e)
/-- A transition that a commit may make (Table 05-10): GRACE goes back to ACTIVE by a renewal alone, and a SCRUBBING extent becomes ACTIVE for a new owner. -/
def extentMove (s g : State) (e old new : Nat) : Bool :=
  old == new || (old == 0 && new == 1) || ((old == 1 || old == 2) && new == 3)
    || (old == 3 && new == 4 && s.mf.drained.contains e)
    || (old == 4 && (!exLeased (extent s e) || scrubDone s e)
      && (new == 0 || (new == 1 && exOwner (extent g e) != exOwner (extent s e))))
/-- Two pages' runs on one node meet. -/
def extentsMeet (v w : Nat) : Bool := exNode v == exNode w && rangesMeet (exBase v) (exSize v) (exBase w) (exSize w)
/-- A grant of a tier-space extent (R385). -/
def isGrant (s g : State) (e : Nat) : Bool :=
  exState (extent g e) == 1 && (exState (extent s e) == 0 || exState (extent s e) == 4) && exNode (extent g e) == s.boot.node
/-- Grants of a group. -/
def grants (s g : State) : List Nat := (listedExtents g).filter (isGrant s g)
/-- Pages that grants place in a tier. -/
def granted (s g : State) (tier : Nat) (ok : Nat → Bool) : Nat :=
  (grants s g).foldl (fun a e => if exTier (extent g e) = tier ∧ ok e then a + exSize (extent g e) else a) 0
/-- Pages of a run on a home stack. -/
def pagesOn (m base n : Nat) : Nat := (n + (base + 3 - m) % 4) / 4
/-- Pages that grants place on a stack. -/
def grantedOn (s g : State) (m : Nat) : Nat :=
  (grants s g).foldl (fun a e => if exTier (extent g e) = 0 then a + pagesOn m (exBase (extent g e)) (exSize (extent g e)) else a) 0
/-- Frames of a stack that are free. -/
def framesFree (s : State) (m : Nat) : Nat :=
  524288 - ((s.tier.retired.foldl (fun l f => insertSet f l) s.tier.frames).filter (fun k => k / 1048576 == m && decide (k % 1048576 < 524288))).length
/-- Backing pages in all, and window pages in all. -/
def backingPages (g : State) : Nat := (listedExtents g).foldl (fun a e => if isBacking g (extent g e) then a + exSize (extent g e) else a) 0
def windowPages (g : State) : Nat := [0, 1].foldl (fun a p => if bit (entry g 0x002A p) 96 then a + fld (entry g 0x002A p) 64 32 else a) 0
/-- A grant passes its owner's quota, or finds no place (R395, R397). -/
def grantFails (s g : State) (e : Nat) : Bool :=
  let v := extent g e
  let c := exOwner v
  let tier := exTier v
  let mine := granted s g tier (fun k => exOwner (extent g k) == c)
  match tier with
  | 0 => (if qShared g c then decide (sharedFrames g < sharedUsed s + granted s g 0 (fun k => qShared g (exOwner (extent g k))))
          else decide (fld (quota g c) 0 22 < nearUsed s c + mine))
      || (List.range 4).any (fun m => decide (framesFree s m < grantedOn s g m))
  | 1 => decide (fld (quota g c) 22 32 < poolUsedBy s c + mine) || decide (backingPages g < s.tier.poolUsed.length + granted s g 1 (fun _ => true))
  | _ => decide (fld (quota g c) 54 32 < hostUsedBy s c + mine) || decide (windowPages g < s.tier.hostUsed.length + granted s g 2 (fun _ => true))
/-- Failures of an entry of a memory table. -/
def memFails (s g : State) (id idx v : Nat) : List Nat :=
  match id with
  | 0x0012 =>
    let x := extent g (fld v 27 16)
    codes [(fld v 25 2 == 0, 2), (exState x == 0, 4),
      ((listedIdx g 0x0012).any (fun k => decide (idx < k) && (let w := entry g 0x0012 k
        fld w 0 10 == fld v 0 10 && (bit v 24 || bit w 24 || fld w 10 14 == fld v 10 14)
          && extentsMeet x (extent g (fld w 27 16)))), 3)]
  | 0x0013 =>
    let st := exState v
    let own := exNode v == g.boot.node
    codes [(decide (4 < st) || exTier v == 3, 1), (!extentMove s g idx (exState (extent s idx)) st, 8),
      ((st != 0 && exSize v == 0)
        || (st != 0 && own && decide (67108864 < exBase v + exSize v)) || (st != 0 && !own && exTier v != 1)
        || (exOwner v != 0 && decide (exTier v < 2) && !exXts v)
        || (exLeased v && (!inRange 500 60000 (fld v 212 16) || !inRange 100 (fld v 212 16) (fld v 228 16))), 2),
      (st != 0 && (listedExtents g).any (fun k => decide (idx < k) && exState (extent g k) != 0 && extentsMeet v (extent g k)), 3),
      (st != 0 && exXts v && !keyCounts g v, 4),
      (isGrant s g idx && grantFails s g idx, 6)]
  | 0x0014 =>
    let x := extent g (fld v 0 16)
    if !bit v 16 then [] else
      codes [(exNode x != g.boot.node || exTier x != 0, 2), (exState x == 0, 4),
        ((listedIdx g 0x0014).any (fun k => decide (idx < k) && bit (entry g 0x0014 k) 16 && fld (entry g 0x0014 k) 0 16 == fld v 0 16), 3)]
  | 0x0015 =>
    if !bit v 14 then [] else
      codes [((listedIdx g 0x0015).any (fun k => decide (idx < k) && bit (entry g 0x0015 k) 14 && fld (entry g 0x0015 k) 0 14 == fld v 0 14), 3),
        ((edgesOf g (fld v 0 14)).isEmpty, 4)]
  | 0x0020 =>
    if !stEn v then [] else
      let n := rowsOf (stWidth v)
      let others := (listedIdx g 0x0020).filter (fun k => decide (idx < k) && stEn (searchTable g k))
      codes [(stWidth v == 3 || decide (1 < stAccess v), 1),
        (stFirst v % n != 0 || stRows v % n != 0 || stRows v == 0 || decide (131072 < stFirst v + stRows v), 2),
        (others.any (fun k => let w := searchTable g k
          rangesMeet (stFirst v) (stRows v) (stFirst w) (stRows w)
            || (stWidth w != stWidth v && rangesMeet (stFirst v / 2048) ((stFirst v + stRows v + 2047) / 2048 - stFirst v / 2048)
                (stFirst w / 2048) ((stFirst w + stRows w + 2047) / 2048 - stFirst w / 2048))), 3)]
  | 0x0022 => codes [(bit v 0 && (fld v 3 2 == 0 || decide (fld v 3 2 < fld v 1 2)), 2)]
  | 0x0029 => codes [(!inRange 10 1000 (fld v 22 10), 2)]
  | 0x002A => codes [(fld v 0 16 != 0, 2),
      (s.tier.hostUsed.any (fun k => k / 2 ^ 32 == idx && (!bit v 96 || decide (fld v 64 32 ≤ k % 2 ^ 32))), 8)]
  | _ => []
/-- Sums of the quotas, named at the first entry listed (R394, log 40). -/
def quotaFails (g : State) : List Fail :=
  let l := listedIdx g 0x0028
  let sum := fun (f : Nat → Nat) => l.foldl (fun a c => a + f (quota g c)) 0
  let near := sum (fun v => if bit v 86 then 0 else fld v 0 22) + sharedFrames g
  (codes [(decide (2097152 - g.tier.retired.length < near), 6), (decide (backingPages g < sum (fun v => fld v 22 32)), 6),
    (decide (windowPages g < sum (fun v => fld v 54 32)), 6)]).map (fun c => (0x0028, l.headD 0, c))

/-! ### Contexts and fabric control -/

/-- Carnelian has loaded the data key of a context for its next generation (R447, R478). -/
def dataKeyLoaded (s : State) (c : Nat) : Bool :=
  s.sec.slots.any (fun e => fld e.2 0 2 == 1 && fld e.2 2 10 == c && fld e.2 18 2 == 0 && fld e.2 12 6 == nextKgen s c)
/-- An entry of context 0 with its changeable fields cleared (R446). -/
def fixedOf0 (v : Nat) : Nat := [(48, 14), (62, 3), (18, 2), (20, 14), (34, 14), (65, 21)].foldl (fun v f => setFld v f.1 f.2 0) v
/-- Contexts whose VF of a port is this one, in the state a group leaves. -/
def vfTaken (g : State) (c lo vf : Nat) : Bool :=
  vf != 0 && (listedIdx g 0x0030).any (fun k => decide (c < k) && fld (entry g 0x0030 k) lo 7 == vf)
/-- Failures of a context entry (R446, R447, R455, R540). -/
def ctxFails (s g : State) (c v : Nat) : List Nat :=
  let old := entry s 0x0030 c
  let st := ctxState s c
  let vfs := fld v 4 14
  if c = 0 then codes [(fld v 18 2 == 3, 1), (fixedOf0 v != fixedOf0 old, 8),
      (!inRange 1 10000 (fld v 48 14) || decide (fld v 34 14 < fld v 20 14), 2), (decide (fld v 65 21 < opUsed s 0), 6)]
  else codes [
    (fld v 18 2 == 3, 1),
    (!inRange 1 10000 (fld v 48 14) || decide (fld v 34 14 < fld v 20 14) || decide (8 < fld v 240 4)
      || decide ((s.hport 0).numVfs < fld v 4 7) || decide ((s.hport 1).numVfs < fld v 11 7) || (c == 1023 && vfs != 0), 2),
    (vfTaken g c 4 (fld v 4 7) || vfTaken g c 11 (fld v 11 7), 3),
    (!bit v 3 && (vfs != 0 || fld v 240 4 != 0), 8),
    (decide (fld v 65 21 < opUsed s c) && c != 1023, 6),
    (vfs != fld old 4 14 && !(st == 0 && bit v 2), 8),
    (bit v 2 && st == 0 && !dataKeyLoaded s c, 4),
    (bit v 2 && !bit old 2 && decide (s.boot.stage < 5) && c != 1023, 8),
    (bit v 2 && (st == 2 || st == 3), 8)]
/-- The sum of OPQUOTA over contexts 1-1022, named at the first that has one (R447, log 40). -/
def opQuotaFails (g : State) : List Fail :=
  let l := (listedIdx g 0x0030).filter (fun c => inRange 1 1022 c && fld (entry g 0x0030 c) 65 21 != 0)
  if 1048576 < l.foldl (fun a c => a + fld (entry g 0x0030 c) 65 21) 0 then [(0x0030, l.headD 1, 6)] else []
/-- Failures of a listed entry. -/
def entryFails (s g : State) (id idx : Nat) : List Fail :=
  let v := entry g id idx
  let l := codes [(reservedSet id v, 1)] ++ (
    if id ≤ 8 then switchFails s g id idx v
    else if isFabric id then mapFails g id idx v
    else if id = 0x0028 then codes [(v != entry s id idx && frozenCtx s idx, 8)]
    else if id = 0x0030 then ctxFails s g idx v
    else if id = 0x0031 then codes [(!inRange 10 1000 (fld v 2 10) || !inRange 10 1000 (fld v 12 10) || !inRange 2 1000 (fld v 22 10)
      || !inRange 2 1000 (fld v 32 10) || decide (10 < fld v 42 4) || decide (10 < fld v 46 4), 2)]
    else memFails s g id idx v)
  l.map (fun c => (id, idx, c))

/-! ### The check and its report (R406, R411) -/

/-- Entries judged: those the flip leaves listed, and those the group names. -/
def judged (g : State) (grp : SMap Nat) : List Nat :=
  (grp.map (·.1)).foldl (fun l k => insertSet k l) ((mkeys g.tab.live).filter (fun k => isCommitted (k / 2 ^ 24)))
/-- Every failure of the state that a group would leave. -/
def failsOf (s : State) (grp : SMap Nat) : List Fail :=
  let g := afterFlip s grp
  (judged g grp).flatMap (fun k => entryFails s g (k / 2 ^ 24) (k % 2 ^ 24))
    ++ poolFails g ++ legsFails g ++ quotaFails g ++ opQuotaFails g
/-- Every failure of a thread's group. -/
def groupFails (s : State) (h : Nat) (epoch : Bool) : List Fail :=
  let grp := (s.thread h).group
  failsOf s grp
    ++ (if epoch then
        (grp.filter (fun e => !isFabric (e.1 / 2 ^ 24))).map (fun e => (e.1 / 2 ^ 24, e.1 % 2 ^ 24, 9))
        ++ (if s.tab.oldLive || (s.tab.pending && s.tab.pendThread != h) then [(0x0032, 0, 10)] else [])
      else [])
/-- A failure comes before another: lower table, then lower index, then lower code (R406, log 40). -/
def failBefore (a b : Fail) : Bool := decide (tkey a.1 a.2.1 < tkey b.1 b.2.1) || (tkey a.1 a.2.1 == tkey b.1 b.2.1 && decide (a.2.2 < b.2.2))
/-- The report word (Table 15-4), with its status in [3:0]. -/
def reportOf (l : List Fail) : Nat :=
  let hard := l.filter (fun f => f.2.2 != 10)
  match if hard.isEmpty then l else hard with
  | [] => 0
  | f :: rest =>
    let m := rest.foldl (fun b x => if failBefore x b then x else b) f
    (if hard.isEmpty then stBusy else stViolation) + 2 ^ 8 * m.2.2 + 2 ^ 16 * m.1 + 2 ^ 32 * m.2.1 + 2 ^ 56 * min 255 (l.length - 1)

end Sys2Proof.Machine
end

