-- ==== Sys2Proof/Machine/Flip.lean ====
section
/-!
DEFINITION. The flip of a commit group: every staged entry live at one module time, and what the change of an entry does (R63, R112, R118, R128, R154, R170-R172, R296, R379, R385, R408, R411, R448, R458).
-/
namespace Sys2Proof.Machine

/-! ### Links and switch -/

/-- A pair's ports go to DOWN when MODE or PMD changes, or ADMIN_UP is clear (R63, Table 03-2). -/
def flipPair (old : Nat) (j : Nat) (s : State) : State :=
  let v := entry s 0x0001 j
  if fld v 0 4 ≠ fld old 0 4 ∨ !bit v 14 then
    [2 * j, 2 * j + 1, 192 + 2 * j, 193 + 2 * j].foldl (fun s p => if (s.port p).st == .down then s else portToDown p s) s
  else s
/-- Ports whose headroom a position's entry gives. -/
def portsOfPosition (s : State) (pos : Nat) : List Nat :=
  match modeOf s pos with
  | 0 => [pos]
  | 1 => [pos / 2 * 2]
  | _ => [pos, 192 + pos]
/-- A port's credits follow its headroom: an increase is granted, a reduction keeps credits back as they return (R112). -/
def flipCredits (before : State) (s : State) (p : Nat) : State :=
  if countsDown (s.port p).st then s
  else [0, 1, 2, 3, 4, 6].foldl (fun s tc =>
    if !grantsVl (s.port p).st tc then s
    else
      let a := portHeadroom before p tc
      let b := portHeadroom s p tc
      if a = b then s
      else if b < a then s.modPort p (fun x => { x with crDebt := mmod 0 tc (· + (a - b)) x.crDebt })
      else s.modPort p (fun x =>
        let k := min (b - a) (mget 0 tc x.crDebt)
        { x with
          crDebt := mmod 0 tc (· - k) x.crDebt
          crGiven := mmod 0 tc (fun v => wrapAdd 32 v (b - a - k)) x.crGiven
          ackDue := true })) s
/-- Both buckets of a changed policer are full (R118). -/
def refillPolicer (k : Nat) (s : State) : State :=
  let v := entry s 0x0004 k
  s.setBucket k { c := fld v 40 20 * 512000, p := fld v 60 20 * 512000, at_ := now s }
/-- A gate list that has taken over is the running one. -/
def settleGate (g : Gate) (t : Nat) : Gate :=
  match g.next with
  | some (h, e, flip) => if switchAt g h flip ≤ t then { hdr := h, ents := e } else g
  | none => g
/-- End of the running list's current cycle; a list that runs no cycle ends at once (R128). -/
def cycleEnd (g : Gate) (t : Nat) : Nat :=
  if !gateEn g.hdr || gateCycle g.hdr == 0 || decide (t < gateBase g.hdr) then t
  else gateBase g.hdr + ((t - gateBase g.hdr) / gateCycle g.hdr + 1) * gateCycle g.hdr
/-- A committed gate list waits for its first cycle (R128). -/
def flipGate (s : State) (ep : Nat) : State :=
  let g := settleGate (s.gate ep) (now s)
  let h := entry s 0x0007 ep
  let e := gateEntries s ep (min 64 (fld h 96 7))
  s.setGate ep { g with next := some (h, e, now s), oldEnd := if g.next.isSome then g.oldEnd else cycleEnd g (now s) }
/-- Notices for a committed watched group with legs on ports that are down (R296). -/
def flipGroup (s : State) (g : Nat) : State :=
  let v := entry s 0x0018 g
  if bit v 27 && bit v 38 then
    ((legsOf s g).filter (fun li => epDown s (fld (entry s 0x0019 li) 0 10))).foldl (fun s li => pruneNotice g li s) s
  else s

/-! ### Memory and coherence -/

/-- An extent in its new state: the record, pages placed or freed, the scrub's count gone, and pages lost with a backing extent (R154, R385, R390). -/
def flipExtent (before : State) (die : Nat) (s : State) (e : Nat) : State :=
  let old := extent before e
  let new := extent s e
  let s := setExtState e (exState new) die (setEntryFld s 0x0013 e 88 3 (exState old))
  let s := if exState old = exState new then s else { s with svc := { s.svc with scrubs := mdel e s.svc.scrubs } }
  let s := if exState new = 0 ∧ exState old ≠ 0 ∧ exNode old = s.boot.node then
      ((List.range (exSize old)).map (exBase old + ·)).foldl (fun s p => freePage p s) s
    else if exState new = 1 ∧ (exState old = 0 ∨ exState old = 4) ∧ exNode new = s.boot.node then placeExtent e s
    else s
  if isBacking before old && !isBacking s new then (pagesBackedBy s e).foldl (fun s p => losePage p s) s else s
/-- An agent's moves at a commit: ABSENT to ATTACHED, dead by KILL, DEAD to ABSENT (R172). -/
def flipAgent (s : State) (a : Nat) : State :=
  let v := entry s 0x0015 a
  let s := if bit v 14 && agentState s a == 0 then agentRecord a 1 s else s
  let s := if bit v 15 then killAgent a s else s
  if !bit v 14 && agentState s a == 3 && !s.coh.reclaim.contains a then agentRecord a 0 s else s

/-! ### Contexts -/

/-- A context opens, or enters CLOSING, as OPEN says (R448). -/
def flipContext (s : State) (c : Nat) : State :=
  let v := entry s 0x0030 c
  match fld v 0 2 with
  | 0 => if bit v 2 && c != 0 && c != 1023 then openContext c s else s
  | 1 => if bit v 2 then s else closeContext c 1 s
  | _ => s

/-! ### The flip (R408) -/

/-- Indices of a table that a group stages. -/
def stagedIdx (grp : SMap Nat) (id : Nat) : List Nat := (grp.filter (fun e => e.1 / 2 ^ 24 == id)).map (fun e => e.1 % 2 ^ 24)
/-- A commit sets EN of the cascade entry again: a broken cascade is restored if every ring link is UP, which no command tells and is free (R379, log 48). -/
def mendCascade (s : State) : State :=
  if !bit (entry s 0x0022 0) 0 || !s.per.broken then s
  else
    let r := drawCoin s
    { r.2 with per := { r.2.per with broken := !r.1 } }
/-- What the changed entries do, each kind once every entry is live. -/
def flipEffects (before : State) (die : Nat) (grp : SMap Nat) (s : State) : State :=
  let at_ := stagedIdx grp
  let s := (at_ 0x0001).foldl (fun s j => flipPair (entry before 0x0001 j) j s) s
  let s := (distinct ((at_ 0x0002).flatMap (portsOfPosition s))).foldl (flipCredits before) s
  let s := (at_ 0x0004).foldl (fun s k => if entry s 0x0004 k = entry before 0x0004 k then s else refillPolicer k s) s
  let s := (distinct (at_ 0x0007 ++ (at_ 0x0008).map (· / 64))).foldl flipGate s
  let s := (at_ 0x0013).foldl (flipExtent before die) s
  let s := (distinct ((at_ 0x0014).flatMap (fun k => [fld (entry before 0x0014 k) 0 16, fld (entry s 0x0014 k) 0 16]))).foldl (fun s e => fixExtent e s) s
  let s := (at_ 0x0015).foldl flipAgent s
  let s := (distinct (at_ 0x0018 ++ (listedGroups s).filter (fun g => (legsOf s g).any ((at_ 0x0019).contains ·)))).foldl flipGroup s
  let s := (at_ 0x0022).foldl (fun s _ => mendCascade s) s
  (at_ 0x0030).foldl flipContext s
/-- Table parts of the flip: the fabric map's old bank keeps what an epoch flip replaces, and takes what an ordinary commit writes (R411). -/
def flipTables (before : State) (grp : SMap Nat) (epoch : Bool) (s : State) : State :=
  let map_ := grp.filter (fun e => isFabric (e.1 / 2 ^ 24))
  if epoch then
    let m := (s.tab.mseq + 1) % 2 ^ 32
    { s with tab := { s.tab with
      old := map_.map (fun e => (e.1, entry before (e.1 / 2 ^ 24) (e.1 % 2 ^ 24)))
      pend := [], pending := false, mseq := m, cur := m % 4, oldLive := true, eflipt := now s } }
  else { s with tab := { s.tab with old := map_.foldl (fun o e => mdel e.1 o) s.tab.old } }
/-- A group applied in one flip, for records of a die; reservations of FREE contexts go with it, and removals and key slots follow (R408, R458, R460, R482). -/
def applyGroup (grp : SMap Nat) (die : Nat) (epoch : Bool) (before : State) : State :=
  let s := flipTables before grp epoch (afterFlip before grp)
  let s := flipEffects before die grp s
  let s := noteCommit (settleKeys (releaseAll s))
  (mkeys s.cx.removals).foldl (fun s c => noteClosing c s) s

end Sys2Proof.Machine
end

