-- ==== Sys2Proof/Machine/DirectWrites.lean ====
section
/-!
DEFINITION. What a TWR does to each table: staging, and the direct tables' own rules (R196, R197, R216-R218, R298, R357, R358, R361, R367, R368, R398, R405, R411).
-/
namespace Sys2Proof.Machine

/-! ### Staging (R260, R405, R411) -/

/-- A key is staged in the open group of another thread. -/
def stagedElsewhere (s : State) (h k : Nat) : Bool := s.ctl.threads.any (fun e => e.1 != h && mhas k e.2.group)
/-- Most entries of a group. -/
def groupMax : Nat := 1048576
/-- The checked epoch group of a thread is no longer checked: its pending bank is withdrawn (R411). -/
def withdraw (h : Nat) (s : State) : State :=
  let s := s.modThread h (fun t => { t with check := none })
  if s.tab.pending && s.tab.pendThread == h then { s with tab := { s.tab with pend := [], pending := false } } else s
/-- Entries staged in a thread's group, all or none. -/
def stage (h id : Nat) (l : List (Nat × Nat)) (s : State) : Nat × State :=
  let g := (s.thread h).group
  if l.any (fun e => stagedElsewhere s h (tkey id e.1)) then (stBusy, s)
  else if isFabric id && s.tab.pending && s.tab.pendThread != h then (stBusy, s)
  else
    let g' := l.foldl (fun g e => mput (tkey id e.1) e.2 g) g
    if groupMax < g'.length then (stViolation, s)
    else (stOK, withdraw h (s.modThread h (fun t => { t with group := g', groupOpen := true })))

/-! ### Which row a TWR is -/

/-- The rows that a TWR can be. -/
inductive TwrCase where
  | create | rebind | image | retire | codecClear | tierStop | tierAck | plain
  deriving DecidableEq, Repr

/-- RW fields of a tier job that an ACK write leaves as they are (Table 14-6). -/
def tierSame (old v : Nat) : Bool :=
  [(2, 4), (10, 7), (64, 128)].all (fun f => fld v f.1 f.2 == fld old f.1 f.2)
/-- A written descriptor gives a slot's RW fields but for VER; what it holds in RO and reserved fields is ignored (R5, R193, R218). -/
def sameButVer (s : State) (n v : Nat) : Bool :=
  [(2, 10), (24, 16), (56, 55), (128, 32)].all (fun f => fld v f.1 f.2 == fld (slotWords s n) f.1 f.2)
/-- The row of a write of an entry. -/
def twrCase (s : State) (id idx v : Nat) : TwrCase :=
  match id with
  | 0x0040 => if (s.slot idx).st == .live && sameButVer s idx v then .rebind else .create
  | 0x0021 => .image
  | 0x0048 => if bit v 2 then .retire else .plain
  | 0x0049 => if jobState (codecJob s idx) == 2 && jobOp v == 0 then .codecClear else .plain
  | 0x004A =>
    let o := tierJob s idx
    if jobOp v = 0 ∧ jobState o ≠ 0 then .tierStop
    else if jobState o = 1 ∧ tierSame o v then .tierAck
    else .plain
  | _ => .plain

/-! ### Operations (R196-R198, R218, R220) -/

/-- Ranges of units that meet. -/
def meets (a n b m : Nat) : Bool := rangesMeet a n b m
/-- Operations of a tile in given states. -/
def tileOps (s : State) (t : Nat) (ok : SlotState → Bool) : List Slot :=
  (s.ctl.slots.filter (fun e => slotTile e.1 == t && ok e.2.st)).map (·.2)
/-- A program version is RESIDENT in a cluster: its image. -/
def residentProg (s : State) (cl prog ver : Nat) : Option Nat :=
  ((List.range 64).map (ptab s cl)).find? (fun v => ptProg v == prog && ptVer v == ver && ptState v == 2)
/-- A version is admitted for a context: a bundle that carries it serves that context (R31, R490). -/
def admittedFor (s : State) (prog ver c : Nat) : Bool := (carriedBy s prog ver).any (fun b => decide (b.svc < 0x40) || b.ctxs.contains c)
/-- A thread may create operations in a context (R220). -/
def mayCreate (s : State) (h c : Nat) : Bool :=
  ctxState s c == 1 && (c == (s.thread h).ctx || ((s.thread h).ctx == 0 && (s.thread h).svc != 0))
/-- The status of a creation (R196, R452, R511). -/
def createStatus (s : State) (h n v : Nat) : Nat :=
  let t := slotTile n
  let c := fld v 2 10
  let wb := fld v 56 10
  let ws := fld v 66 10
  let cb := fld v 76 14
  let cc := fld v 90 13
  if (s.tile t).retired then stViolation
  else if (s.slot n).st != .free then stBusy
  else if (residentProg s (clusterOf t) (fld v 24 16) (fld v 40 16)).isNone || !admittedFor s (fld v 24 16) (fld v 40 16) c then stViolation
  else if !mayCreate s h c then stViolation
  else if decide (704 < wb + ws) || (tileOps s t (· != .free)).any (fun x => meets wb ws x.wbase x.wsize) then stBusy
  else if decide (16384 < cb + cc) || decide (4096 < cc)
      || (tileOps s t (fun st => st == .live || st == .ending)).any (fun x => meets cb cc x.cbase x.ccount) then stBusy
  else if fld (entry s 0x0030 c) 65 21 ≤ opUsed s c then stBusy
  else stOK
/-- An accepted creation: LIVE, counters zero, the window's lines not valid, START raised, whose event word names no packet (R197, R204; log 63). -/
def createOp (n v : Nat) (s : State) : State :=
  let t := slotTile n
  let x : Slot := {
    st := .live, ctx := fld v 2 10, gen := (s.slot n).gen, prog := fld v 24 16, ver := fld v 40 16
    wbase := fld v 56 10, wsize := fld v 66 10, cbase := fld v 76 14, ccount := fld v 90 13, creator := fld v 103 8
    seed := fld v 128 32
    regs := (List.range 8).foldl (fun m i => mset (0 : Word) i (BitVec.ofNat 64 (fld v (256 + 64 * i) 64)) m) [] }
  let inWin := fun l => decide (8 * x.wbase ≤ l) && decide (l < 8 * (x.wbase + x.wsize))
  let s := (s.setSlot n x).modTile t (fun y => { y with
    arrived := y.arrived.filter (fun e => !(decide (x.cbase ≤ e.1) && decide (e.1 < x.cbase + x.ccount)))
    expected := y.expected.filter (fun e => !(decide (x.cbase ≤ e.1) && decide (e.1 < x.cbase + x.ccount)))
    valid := y.valid.filter (fun l => !inWin l) })
  raiseEvent n { ev := 3 } s
/-- OP_CREATE (R196, R197). -/
def writeCreate (h n v : Nat) (s : State) : Nat × State :=
  let st := createStatus s h n v
  (st, if st = stOK then createOp n v s else s)
/-- OP_REBIND: a LIVE operation of the thread's authority takes another RESIDENT version that adopts its own (R218). -/
def writeRebind (h n v : Nat) (s : State) : Nat × State :=
  let x := s.slot n
  if !mayCreate s h x.ctx then (stViolation, s)
  else match residentProg s (clusterOf (slotTile n)) x.prog (fld v 40 16) with
    | none => (stViolation, s)
    | some p =>
      if x.ver < ptCompat p || !admittedFor s x.prog (fld v 40 16) x.ctx then (stViolation, s)
      else if x.events.any (fun e => e.ev == 5) then (stBusy, s)
      else (stOK, retirePrograms (clusterOf (slotTile n)) (s.setSlot n { x with ver := fld v 40 16 }))

/-! ### Programs (R215-R217) -/

/-- Program table entries of a cluster that are not EMPTY, but for one. -/
def otherProgs (s : State) (k : Nat) : List Nat :=
  (((List.range 64).filter (· != k % 64)).map (ptab s (k / 64))).filter (fun v => ptState v != 0)
/-- A write of a program table entry: a load begun, given up, or a version set to RETIRING (R216, R217). -/
def writeProg (k v : Nat) (s : State) : Nat × State :=
  let o := mget 0 k s.ctl.ptab
  let put_ := fun (x : Nat) (s : State) => { s with ctl := { s.ctl with ptab := mset 0 k x s.ctl.ptab } }
  match ptState o with
    | 0 =>
      if ptLen v < 8 ∨ 8192 < ptBase v + ptLen v
        ∨ (otherProgs s k).any (fun w => (ptProg w == ptProg v && ptVer w == ptVer v) || meets (ptBase v) (ptLen v) (ptBase w) (ptLen w)) then (stViolation, s)
      else (stOK, put_ (setFld (fld v 0 59) 59 2 1) s)
    | 1 => if fld v 59 2 = 0 then (stOK, put_ 0 s) else (stViolation, s)
    | 2 => if fld v 59 2 = 3 then (stOK, retirePrograms (k / 64) (put_ (setFld o 59 2 3) s)) else (stViolation, s)
    | _ => (stViolation, s)
/-- A word of the program store, only of a LOADING entry (Table 15-1). -/
def writeStore (k v : Nat) (s : State) : Nat × State :=
  let w := k % 8192
  if ((List.range 64).map (ptab s (k / 8192))).any (fun p => ptState p == 1 && decide (ptBase p ≤ w) && decide (w < ptBase p + ptLen p)) then
    (stOK, { s with ctl := { s.ctl with
      store := mset (0 : Word) k (BitVec.ofNat 64 v) s.ctl.store
      storeBad := eraseSet k s.ctl.storeBad } })
  else (stViolation, s)

/-! ### Jobs (R361, R398) and table slots (R358) -/

/-- A write with OP non-zero starts an IDLE codec job in the thread's context; anything else is refused (R361). -/
def writeCodecJob (h j v : Nat) (s : State) : Nat × State :=
  if jobState (codecJob s j) ≠ 0 then (stBusy, s)
  else if jobOp v = 0 then (stOK, s)
  else
    let x := setFld (setFld (setFld (setFld (setFld v 0 2 1) 20 4 0) 24 4 0) 42 22 0) 224 32 0
    let s := setCodecJob j x s
    (stOK, { s with cod := { s.cod with runs := mput j { ctx := (s.thread h).ctx } s.cod.runs } })
/-- A job of another context is not a thread's to clear or stop; context 0 may act on every job (R403). -/
def jobMine (s : State) (h ctx : Nat) : Bool := (s.thread h).ctx == 0 || (s.thread h).ctx == ctx
/-- OP zero returns a DONE codec job to IDLE (R361). -/
def clearCodecJob (h j : Nat) (s : State) : Nat × State :=
  if jobMine s h (mget {} j s.cod.runs).ctx then
    let s := setCodecJob j 0 s
    (stOK, { s with cod := { s.cod with runs := mdel j s.cod.runs } })
  else (stViolation, s)
/-- A write with OP non-zero starts an IDLE tier job; a RUNNING or DONE entry refuses it (R398). -/
def writeTierJob (h j v : Nat) (s : State) : Nat × State :=
  if jobState (tierJob s j) ≠ 0 then (stBusy, s)
  else if jobOp v = 3 ∨ (jobOp v = 2 ∧ !inRange 1 64 (fld v 10 7)) then (stViolation, s)
  else if jobOp v = 0 then (stOK, s)
  else (stOK, setTierRun j {} (setTierJob j (setFld (setFld (setFld (setFld (setFld v 0 2 1) 6 4 0) 17 10 (s.thread h).ctx) 27 37 0) 224 32 0) s))
/-- OP zero stops a RUNNING tier job with OK, and returns a DONE one to IDLE; moves it began run on by themselves (R398). -/
def stopTierJob (h j : Nat) (s : State) : Nat × State :=
  let o := tierJob s j
  if !jobMine s h (fld o 17 10) then (stViolation, s)
  else if jobState o = 1 then (stOK, setTierJob j (setFld (setFld o 0 2 2) 6 4 stOK) s)
  else (stOK, setTierJob j 0 s)
/-- A write that changes only ACK (R398). -/
def ackTierJob (h j v : Nat) (s : State) : Nat × State :=
  let o := tierJob s j
  if jobMine s h (fld o 17 10) then (stOK, setTierJob j (setFld o 192 32 (fld v 192 32)) s) else (stViolation, s)
/-- RETIRE written to a CURRENT or PREVIOUS slot (R358). -/
def writeRetire (n : Nat) (s : State) : Nat × State :=
  let st := tsState (tslot s n)
  if st = 1 ∨ st = 2 then (stOK, retireSlot n s) else (stViolation, s)

/-! ### The write itself -/

/-- RUN of a spray entry written by its service: at once, in every bank that holds the entry (R298). -/
def writeRun (idx run : Nat) (s : State) : State :=
  let k := tkey 0x001A idx
  let f := fun (m : SMap Nat) => match mfind? k m with
    | some v => mput k (setFld v 37 8 run) m
    | none => m
  let s := setEntryFld s 0x001A idx 37 8 run
  { s with tab := { s.tab with old := f s.tab.old, pend := f s.tab.pend } }
/-- Words of a list with the n-th one written, zeros before it where there were none. -/
def setWord (n v : Nat) (l : List Nat) : List Nat := (l ++ List.replicate (n + 1 - l.length) 0).set n v
/-- A lane monitor with a word written (Table 03-7). -/
def setMonWord (n v : Nat) (m : LaneMon) : LaneMon :=
  match n with
  | 0 => { m with eyeU := v }
  | 1 => { m with eyeM := v }
  | 2 => { m with eyeL := v }
  | 3 => { m with width := v }
  | 4 => { m with errors := v }
  | 22 => { m with cdrLock := v.testBit 0, amLock := v.testBit 1 }
  | 23 => { m with ctle := v }
  | k => if k < 22 then { m with hist := setWord (k - 5) v m.hist } else { m with dfe := setWord (k - 24) v m.dfe }
/-- Chervil's own write of its tables: what an entry holds takes the value written, what it computes from other state is ignored (R259, R559, log 43). -/
def writeChervil (id idx v : Nat) (s : State) : State :=
  match id with
  | 0x0200 => { s with chv := { s.chv with cap := fld v 32 11, capMax := fld v 43 11 } }
  | 0x0201 =>
    let x := s.sensor idx
    s.setSensor idx { x with
      y := sextN 16 (fld v 0 16) * 65536, hist := sextN 16 (fld v 16 16) :: x.hist.drop 1
      peak := some (sextN 16 (fld v 32 16)), failed := v.testBit 56 }
  | 0x0202 =>
    if 48 ≤ idx then s
    else
      s.modPhase idx (fun x => { x with
        cur := { x.cur with y := (fld v 0 10 : Nat) * 65536 }, tmp := { x.tmp with y := (fld v 10 8 : Nat) * 65536 }
        rail := if 44 ≤ idx then (if fld v 24 2 = 1 then 5 else fld v 18 6) else x.rail, failed := fld v 24 2 == 2 })
  | 0x0203 => { s with chv := { s.chv with offsets := mset 0 idx (fld v 8 8) s.chv.offsets } }
  | 0x0204 => { s with rel := { s.rel with ctr := mset 0 idx v s.rel.ctr } }
  | 0x0205 => s.modLane (idx / 32) (fun x => { x with mon := setMonWord (idx % 32) v x.mon })
  | 0x0206 =>
    if idx < 34 then s.modBlock idx (fun b => { b with margin := sextN 16 (fld v 0 16) })
    else { s with chv := { s.chv with shadowRate := mset 1024 (idx - 34) v s.chv.shadowRate } }
  | 0x0207 =>
    if idx < 192 then { s with rel := { s.rel with linkScore := mset 0 idx (fld v 0 16) s.rel.linkScore } }
    else match (s.rel.nbrs.drop (idx - 192)).head? with
      | some (n, _) => s.modNbr n (fun x => { x with score := fld v 0 16 })
      | none => s
  | _ => s
/-- A collective service's write that changes RUN alone. -/
def isRunWrite (s : State) (h idx v : Nat) : Bool :=
  (s.thread h).svc == 1 && setFld v 37 8 0 == setFld (entry s 0x001A idx) 37 8 0
/-- A plain write: staged if the table is committed, else by the table's own rule. -/
def writePlain (h id idx v : Nat) (s : State) : Nat × State :=
  if isChervilTable id then (stOK, writeChervil id idx v s)
  else if isCommitted id then
    if id = 0x001A ∧ isRunWrite s h idx v then (stOK, writeRun idx (fld v 37 8) s)
    else stage h id [(idx, v)] s
  else match id with
    | 0x0042 => writeProg idx v s
    | 0x0043 => writeStore idx v s
    | 0x0048 => (stOK, s)
    | 0x0049 => writeCodecJob h idx v s
    | 0x004A => writeTierJob h idx v s
    | 0x0052 => (stOK, { s with svc := { s.svc with kv := mset 0 idx (v % 2 ^ 62) s.svc.kv } })
    | _ => (stViolation, s)
/-- A write of an entry by a thread, of the case it is. -/
def writeEntry (h id idx v : Nat) (c : TwrCase) (s : State) : Nat × State :=
  match c with
  | .create => writeCreate h idx v s
  | .rebind => writeRebind h idx v s
  | .image => if imageOk s (s.thread h).ctx idx v then (stOK, writeImage idx v s) else (stViolation, s)
  | .retire => writeRetire idx s
  | .codecClear => clearCodecJob h idx s
  | .tierStop => stopTierJob h idx s
  | .tierAck => ackTierJob h idx v s
  | .plain => writePlain h id idx v s

end Sys2Proof.Machine
end

