-- ==== Sys2Proof/Machine/ServiceCommits.lean ====
section
/-!
DEFINITION. Shared operations of services that change tables: their commits, free entries, operations they create, and the plans of collectives (R220, R294, R298, R304-R313, R405-R408).
-/
namespace Sys2Proof.Machine

/-! ### Commits -/

/-- A group of entries: table, index, image. -/
def groupOf (l : List (Nat × Nat × Nat)) : SMap Nat := l.foldl (fun g e => mput (tkey e.1 e.2.1) e.2.2 g) []
/-- A commit of a service's thread, checked and flipped in one: BUSY_RETRY while another thread has staged one of its entries, or while an epoch group is pending and it names the fabric map; VIOLATION where a check fails (R405-R408, R411). -/
def serviceCommit (h : Nat) (grp : SMap Nat) (s : State) : Nat × State :=
  if grp.any (fun e => stagedElsewhere s h e.1) || (s.tab.pending && grp.any (fun e => isFabric (e.1 / 2 ^ 24))) then (stBusy, s)
  else if (failsOf s grp).isEmpty then (stOK, applyGroup grp (threadDie h) false s)
  else (stViolation, s)

/-! ### Free entries -/

/-- The least of a list. -/
def leastOf : List Nat → Option Nat
  | [] => none
  | x :: l => some (l.foldl min x)
/-- The lowest start of a run of n below a limit that meets no run in use. -/
def firstFit (limit n : Nat) (used : List (Nat × Nat)) : Option Nat :=
  leastOf ((0 :: used.map (fun (u : Nat × Nat) => u.1 + u.2)).filter (fun b =>
    decide (b + n ≤ limit) && used.all (fun (u : Nat × Nat) => !rangesMeet b n u.1 u.2)))
/-- The lowest group, spray entry and absent node that nothing uses. -/
def freeGroup (s : State) : Option Nat := leastBelow 4096 (fun g => entry s 0x0018 g == 0)
def freeSpray (s : State) : Option Nat := leastBelow 4096 (fun g => entry s 0x001A g == 0)
def freeNode (s : State) : Option Nat := leastBelow 16384 (fun n => entry s 0x0010 n == 0 && n != s.boot.node && (edgesOf s n).isEmpty)
/-- A run of leg entries that no enabled group has. -/
def freeLegs (s : State) (n : Nat) : Option Nat :=
  firstFit 65536 n (((listedGroups s).filter (fun g => bit (entry s 0x0018 g) 27)).map (fun g => (fld (entry s 0x0018 g) 0 16, fld (entry s 0x0018 g) 16 11)))
/-- A run of target entries that no enabled spray entry has. -/
def freeTargets (s : State) (n : Nat) : Option Nat :=
  firstFit 65536 n (((listedIdx s 0x001A).filter (fun i => bit (entry s 0x001A i) 0)).map (fun i => (fld (entry s 0x001A i) 21 16, fld (entry s 0x001A i) 11 10 + 1)))

/-! ### Operations of a service (R196, R220, R307) -/

/-- A descriptor and record for OP_CREATE, with seed and registers 0. -/
def opWord (ctx prog ver wb ws cb cc creator : Nat) : Nat :=
  2 ^ 2 * ctx + 2 ^ 24 * prog + 2 ^ 40 * ver + 2 ^ 56 * wb + 2 ^ 66 * ws + 2 ^ 76 * cb + 2 ^ 90 * cc + 2 ^ 103 * creator
/-- The seed and the registers that a service gives its operation, its own choice (log 46). -/
def seedOp (n seed regs : Nat) (s : State) : State :=
  s.modSlot n (fun x => { x with
    seed := seed % 2 ^ 32
    regs := (List.range 8).foldl (fun m i => mset (0 : Word) i (BitVec.ofNat 64 (fld regs (64 * i) 64)) m) [] })
/-- The tile of target entry i (R307). -/
def targetTile (i : Nat) : Nat := 8 * (i % 32) + i / 32 % 8
/-- The program that a service's operations run: the first tile program of its bundle. -/
def serviceProg (s : State) (v : Nat) : Option (Nat × Nat) :=
  match mfind? v s.svc.bundle with
  | some b => (mget {} b s.sec.bundles).progs.head?
  | none => none
/-- An operation created on a tile in its lowest FREE slot, window and counters at their first fit. -/
def createOn (h ctx prog ver ws cc t : Nat) (s : State) : Option (Nat × State) :=
  match leastBelow 4096 (fun j => (s.slot (4096 * t + j)).st == .free),
      firstFit 704 ws ((tileOps s t (· != .free)).map (fun x => (x.wbase, x.wsize))),
      firstFit 16384 cc ((tileOps s t (fun st => st == .live || st == .ending)).map (fun x => (x.cbase, x.ccount))) with
  | some j, some wb, some cb =>
    let a := draw s
    let b := draw a.2
    let v := opWord ctx prog ver wb ws cb cc h
    let n := 4096 * t + j
    if createStatus b.2 h n v = stOK then some (n, seedOp n a.1 b.1 (createOp n v b.2)) else none
  | _, _, _ => none
/-- J operations of a service, target i on its tile: slot numbers with GEN. -/
def createTargets (h ctx prog ver ws cc j : Nat) (s : State) : Option (List (Nat × Nat) × State) :=
  (List.range j).foldl (fun r i =>
    match r with
    | none => none
    | some (l, s) => match createOn h ctx prog ver ws cc (targetTile i) s with
      | none => none
      | some (n, s) => some (l ++ [(n, (s.slot n).gen)], s)) (some ([], s))
/-- Operations that are still the plan's and LIVE go to ENDING. -/
def endTargets (l : List (Nat × Nat)) (status : Nat) (s : State) : State :=
  l.foldl (fun s o => if (s.slot o.1).st == .live && (s.slot o.1).gen == o.2 then endOp o.1 status 0 s else s) s

/-! ### Members and legs (R294, R305) -/

/-- Legs of a member list without repeats, none where a member is unknown. -/
def legsFor (s : State) (members : List Nat) : Option (List Nat) :=
  if members.any (fun n => (memberLeg s n).isNone) then none else some (distinct (members.filterMap (memberLeg s)))
/-- A pruned member stops a run of its kind (Table 10-10). -/
def stopsRun (pl : Plan) (i : Nat) : Bool := pl.kind == 0 || pl.kind == 1 || ((pl.kind == 3 || pl.kind == 4) && i == pl.root)

/-! ### Plans (R303-R307, R313, Table 10-9) -/

/-- Fields of a descriptor. -/
def cdMask (d : List Byte) : Nat := byteAt d 32 8
/-- The plan that a descriptor asks for. -/
def planFrom (ctx : Nat) (d : List Byte) (members : List Nat) : Plan :=
  let b1 := byteAt d 1 1
  { used := true, ctx := ctx, kind := fld (byteAt d 0 1) 4 4, rop := fld b1 0 3, sparse := fld b1 3 2, w := bit b1 5, staged := bit b1 6
    fmt := fld (byteAt d 2 1) 0 4, n := byteAt d 6 2, chunks := byteAt d 8 4, root := byteAt d 12 2, rootMod := byteAt d 14 2
    state := byteAt d 24 8, mask := cdMask d, cookie := byteAt d 48 16, members := members }
/-- Ranges of Table 10-9 and the rules of R303 and R305, which every descriptor keeps (R306); a staged plan is an all-reduce (log 46). -/
def planInRange (d : List Byte) (pl : Plan) : Bool :=
  decide (pl.kind ≤ 4) && decide (byteAt d 4 2 < 4096) && decide (pl.rop ≤ 4) && pl.sparse != 3 && pl.fmt != 14 && !bit (byteAt d 1 1) 7 && fld (byteAt d 2 1) 4 4 == 0
    && byteAt d 3 1 == 0 && byteAt d 44 4 == 0 && byteAt d 64 64 == 0
    && inRange 1 16384 pl.n && inRange 1 65536 pl.chunks && decide (pl.root < pl.n) && decide (pl.rootMod < 16384)
    && (pl.sparse == 0 || pl.rop == 0 || pl.rop == 4)
    && (!(pl.kind == 1 || pl.kind == 2 || pl.kind == 4) || pl.chunks % pl.n == 0)
    && (!pl.staged || pl.kind == 0)
/-- KiB of window that a chunk takes: the widened accumulator takes two (R233, R307). -/
def chunkKib (pl : Plan) : Nat := if pl.w then 2 else 1
/-- Ports by which a member's blocks enter: its edge ports, else every port of its route. -/
def memberPorts (s : State) (node : Nat) : List Nat :=
  match edgesOf s node with
  | [] => let v := entry s 0x0010 node
          if fld v 0 3 = 1 then (routeEps (entry s 0x0011 (fld v 3 12))).filter (fun e => decide (e < 384)) else []
  | l => l
/-- The highest rate of blocks into the plan's operations in GB/s: 25 for each lane of the ports its senders use (R68, R307). -/
def planRate (s : State) (pl : Plan) : Nat :=
  let senders := if pl.kind = 3 then [pl.members.getD pl.root 0] else pl.members
  let ports := distinct (senders.flatMap (memberPorts s))
  max 25 ((ports.map (fun p => 25 * (modeLanes s p).length)).sum)
/-- J: what 80 GB/s a tile calls for at that rate, and what counters and windows hold (R196, R307). -/
def planJ (pl : Plan) (rate : Nat) : Nat :=
  max (ceilDiv rate 80) (max (ceilDiv pl.chunks 4096) (ceilDiv (pl.chunks * chunkKib pl) 704))
/-- Operations for a plan. -/
def planOps (pl : Plan) (j : Nat) (s : State) : Option (List (Nat × Nat) × State) :=
  match serviceProg s 1 with
  | none => none
  | some (prog, ver) =>
    let c := ceilDiv pl.chunks j
    createTargets (collThread s) pl.ctx prog ver (c * chunkKib pl) c j s
/-- Target entries of a plan's operations. -/
def targetEntries (base : Nat) (ops : List (Nat × Nat)) : List (Nat × Nat × Nat) :=
  ops.mapIdx (fun i o => (0x001B, base + i, o.1 + 2 ^ 20 * o.2))
/-- The entries that put a plan in force: legs, group watched by the first operation, targets, spray entry, alias. -/
def planEntries (s : State) (pl : Plan) (legs : List Nat) (lbase tbase : Nat) : List (Nat × Nat × Nat) :=
  let o := pl.ops.headD (0, 0)
  legs.mapIdx (fun i v => (0x0019, lbase + i, v)) ++ targetEntries tbase pl.ops ++ [
    (0x0018, pl.group, lbase + 2 ^ 16 * legs.length + 2 ^ 27 + 2 ^ 28 * pl.ctx + 2 ^ 38 + 2 ^ 64 * s.boot.node + 2 ^ 78 * o.1 + 2 ^ 98 * o.2),
    (0x001A, pl.spray, 1 + 2 * pl.ctx + 2 ^ 11 * (pl.ops.length - 1) + 2 ^ 21 * tbase),
    (0x0010, pl.alias_, 4 + 2 ^ 3 * pl.group)]
/-- The same entries emptied. -/
def planRemoval (s : State) (pl : Plan) : List (Nat × Nat × Nat) :=
  let g := entry s 0x0018 pl.group
  let tb := fld (entry s 0x001A pl.spray) 21 16
  [(0x0010, pl.alias_, 0), (0x001A, pl.spray, 0), (0x0018, pl.group, 0)]
    ++ (List.range pl.ops.length).map (fun i => (0x001B, tb + i, 0)) ++ (groupRange g).map (fun i => (0x0019, i, 0))
/-- A plan removed: operations ended, entries emptied, staging returned (R304). -/
def removePlan (k status : Nat) (s : State) : Nat × State :=
  let pl := s.plan k
  let r := serviceCommit (collThread s) (groupOf (planRemoval s pl)) (endTargets pl.ops status s)
  if r.1 = stOK then (stOK, (dropStaging k r.2).setPlan k {}) else (r.1, s)
/-- New operations for a plan behind a run that did not end OK, their target entries committed and its group's watcher with them (R313). -/
def recreatePlan (k : Nat) (s : State) : State :=
  let pl := s.plan k
  match planOps pl pl.ops.length s with
  | none => s
  | some (ops, t) =>
    let o := ops.headD (0, 0)
    let g := setFld (setFld (entry t 0x0018 pl.group) 78 20 o.1) 98 12 o.2
    let r := serviceCommit (collThread s) (groupOf ((0x0018, pl.group, g) :: targetEntries (fld (entry t 0x001A pl.spray) 21 16) ops)) t
    if r.1 = stOK then r.2.modPlan k (fun x => { x with ops := ops, recreate := false }) else s

/-! ### Runs (R309-R314) -/

/-- The record of Table 10-12. -/
def collRecord (s : State) (k : Nat) (pl : Plan) (status : Nat) : List Byte :=
  natBytes 1 (status + 16 * pl.kind) ++ natBytes 1 (b2n pl.degraded + 2 * b2n pl.stopped) ++ natBytes 2 k ++ natBytes 2 pl.run
    ++ natBytes 2 pl.n ++ natBytes 4 pl.chunks ++ natBytes 4 (chunksDone pl) ++ natBytes 2 (membersLeft pl)
    ++ natBytes 2 (pl.pruned.headD 0xFFFF) ++ natBytes 4 0 ++ natBytes 8 pl.startAt ++ natBytes 8 (now s) ++ natBytes 16 pl.cookie ++ natBytes 8 0
/-- A phase in progress ends with its record (R315). -/
def closePhase (k status : Nat) (s : State) : State :=
  let pl := s.plan k
  if pl.staged && inRange 1 2 pl.phase && !pl.due && status != stStateLost then writeRecord k status s else s
/-- A run ends: in staged mode its last records, COMPLETE behind the results, the masks, the completion record; and with a status other than OK, or behind a stop, its operations end and are made anew (R312-R317). -/
def finishRun (k status : Nat) (s : State) : State :=
  let s := (closePhase k status s).modPlan k (fun x => { x with phase := if x.staged then 3 else 0 })
  let s := if (s.plan k).staged && status != stStateLost then writeRecord k status s else s
  let pl := s.plan k
  let s := cnote pl 2 3 pl.alias_ (natBytes 4 status ++ natBytes 4 (chunksDone pl) ++ natBytes 2 (membersLeft pl)) s
  let s := poolWrite (collThread s) 4 k pl.ctx pl.mask (masksOf pl) s
  let s := match pl.req with
    | some m => svcComplete m (collRecord s k pl status) s
    | none => s
  let s := s.modPlan k (fun x => { x with
    running := false, req := none, stopped := false, byDeadline := false, pruned := [], told := [], done := [], bad := [], phase := 0
    due := false, armed := false, recreate := status != stOK || x.stopped })
  if status = stOK ∧ !pl.stopped then s
  else if status = stContextGone then (removePlan k stContextGone s).2
  else recreatePlan k (endTargets pl.ops status s)

end Sys2Proof.Machine
end

