-- ==== Sys2Proof/Machine/Services.lean ====
section
/-!
DEFINITION. Meanings of service requests and of a change of a service's version (R319-R327).
-/
namespace Sys2Proof.Machine

/-! ### SVCREQ (R325) -/

/-- The request that a packet brings: its origin is told by its SRC and the owner of its TAG. -/
def mailOf (s : State) (p : Packet) : Mail :=
  let origin := if pSrc p ≠ s.boot.node then 0 else if pTag p < 786432 then 1 else 2
  { svc := hfld p 128 8, nocmp := hfld p 136 1 == 1, origin := origin, ctx := pCtx p, src := pSrc p, tag := pTag p, tc := p.tc
    data := p.payload, at_ := now s }
/-- The status that refuses a request, none where it is accepted. -/
def mailRefusal (s : State) (v : Nat) : Option Nat :=
  if v = 0 ∨ svcState s v = 0 then some stViolation
  else if svcState s v = 1 ∨ svcState s v = 4 then some stBusy
  else if 2 ^ fld (svcEntry s v) 51 4 ≤ (mget [] v s.svc.mail).length then some stBusy
  else none
/-- A request accepted: in the mailbox, its payload in the mailbox thread's data memory, the thread told. -/
def acceptMail (m : Mail) (s : State) : State :=
  let h := mboxThread s m.svc
  let a := stash (h / 32) m.data { s with svc := { s.svc with mail := mmod [] m.svc (· ++ [m]) s.svc.mail } }
  raiseThread h 1 (mailEvent m false a.1) a.2
def effSvcreq (s : State) : State :=
  match takeMod (fun x => pOp x.1 == opSVCREQ) s with
  | none => s
  | some ((p, _), s) =>
    let m := mailOf s p
    match mailRefusal s m.svc with
    | some st => svcAnswer m (natBytes 8 st) s
    | none => acceptMail m s

/-! ### Versions (R320, R322, R323) -/

/-- A service holds a live handle: a plan, a stream, a table or an operation. -/
def liveHandles (s : State) (v : Nat) : Bool :=
  (v == 1 && s.svc.plans.any (fun e => e.2.used)) || (v == 2 && s.svc.streams.any (fun e => e.2.used))
    || (v == 3 && s.svc.experts.any (fun e => e.2.used)) || (v == 4 && !s.svc.kvRow.isEmpty) || !(serviceOps s v).isEmpty
/-- The table entry of a bundle in a state (Table 11-2). -/
def bundleEntry (b : Bundle) (st : Nat) : Nat :=
  st + 2 ^ 3 * b.ccmask + 2 ^ 11 * (b.mbox / 32) + 2 ^ 14 * (b.mbox % 32) + 2 ^ 19 * b.bver + 2 ^ 35 * b.compat + 2 ^ 51 * b.qlog2
    + 2 ^ 55 * b2n (decide (0x40 ≤ b.svc))
/-- A bundle's control program in its cores' memories and on its mailbox thread; a thread that still runs the old version's goes on with it until the new one adopts (R323). -/
def startBundle (k st : Nat) (s : State) : State :=
  let b := mget {} k s.sec.bundles
  let s := loadBundle b s
  let t := s.thread b.mbox
  let s := if t.running && t.svc == b.svc then s else (startThread b.mbox b.base s).modThread b.mbox (fun t => { t with svc := b.svc })
  { s with svc := { s.svc with
    table := mset 0 b.svc (bundleEntry b st) s.svc.table
    bundle := mput b.svc k s.svc.bundle } }
/-- Every tile program of a bundle is RESIDENT on a cluster, and on every cluster that runs another version of it (R217, R320, R323). -/
def tilesReady (s : State) (b : Bundle) : Bool :=
  let has := fun (c : Nat) (f : Nat → Bool) => (List.range 64).any (fun i => let v := ptab s c i; ptState v == 2 && f v)
  b.progs.all (fun p =>
    let own := fun (v : Nat) => ptProg v == p.1 && ptVer v == p.2
    (List.range 32).any (fun c => has c own) && (List.range 32).all (fun c => !has c (fun v => ptProg v == p.1) || has c own))
/-- The status that turns a switch of a RUNNING service away: not a newer version of its signer, or state it does not adopt (R320, R323). -/
def switchRefused (s : State) (b o : Bundle) : Bool := b.signer != o.signer || decide (b.bver ≤ o.bver) || (decide (o.bver < b.compat) && liveHandles s b.svc)
def setSwitchStatus (v st : Nat) (s : State) : State := { s with svc := { s.svc with switched := mput v st s.svc.switched } }
/-- Carnelian starts an admitted bundle: of an ABSENT or FAILED service it is STARTING; a newer version of the same signer beside a running one is SWITCHING, and what the old mailbox holds stays the old version's, once its tile programs are RESIDENT; a switch that is refused ends VIOLATION (R320, R322, R323). -/
def effServiceSwitch (bundle : Nat) (s : State) : State :=
  match mfind? bundle s.sec.bundles with
  | none => s
  | some b =>
    let v := b.svc
    let o := mget {} (mget 0 v s.svc.bundle) s.sec.bundles
    if b.retired then s
    else match svcState s v with
      | 0 => startBundle bundle 1 s
      | 4 => startBundle bundle 1 s
      | 2 =>
        if mget 0 v s.svc.bundle = bundle then s
        else if switchRefused s b o then setSwitchStatus v stViolation s
        else if !tilesReady s b then s
        else
          let s := setSwitchStatus v stOK { s with svc := { s.svc with oldMail := mset [] v (mget [] v s.svc.mail) s.svc.oldMail, mail := mdel v s.svc.mail } }
          startBundle bundle 3 s
      | _ => s
/-- The new version adopts what the old one held once the old mailbox is empty; a STARTING service serves once its mailbox thread runs. No service runs without its tile programs (R320, R323). -/
def effServiceAdopt (svc : Nat) (s : State) : State :=
  let st := svcState s svc
  let h := mboxThread s svc
  let b := mget {} (mget 0 svc s.svc.bundle) s.sec.bundles
  if (s.thread h).running && tilesReady s b && (st == 1 || (st == 3 && (mget [] svc s.svc.oldMail).isEmpty)) then
    setSvcState svc 2 (if (s.thread h).lo = b.base + 8 then s else (startThread h b.base s).modThread h (fun t => { t with svc := svc }))
  else s

/-- SVCREQ (R325). -/
def execSvcreq (s : State) : Host.Outcome State Fault Refusal :=
  unit (true) s (effSvcreq s)

/-- SERVICE_SWITCH (R323). -/
def execServiceSwitch (bundle : Nat) (s : State) : Host.Outcome State Fault Refusal :=
  unit (true) s (effServiceSwitch bundle s)

/-- SERVICE_ADOPT (R323). -/
def execServiceAdopt (svc : Nat) (s : State) : Host.Outcome State Fault Refusal :=
  unit (isSvc svc) s (effServiceAdopt svc s)


end Sys2Proof.Machine
end

