-- ==== Sys2Proof/Machine/AdminOps.lean ====
section
/-!
DEFINITION. Shared operations of administration: admission and retirement of bundles, images and their activation, handovers of Carnelian, the board profile (R320, R322, R470-R473, R489-R492, R531-R533, R535; choices: log 53).
-/
namespace Sys2Proof.Machine

/-! ### Bundles (R320, R489-R492) -/

/-- The key number of a signer entry; entry 0 is the Tierarel signer. -/
def signerKey (s : State) (n : Nat) : Option Nat := if n = 0 then some Config.tierarelKey else mfind? n s.sec.signers
/-- Clusters whose every tile is retired (R505). -/
def clustersGone (s : State) : List Nat :=
  (List.range 32).filter (fun c => (List.range 8).all (fun i => (s.tile (8 * c + i)).retired))
/-- A claim fits what the admitted bundles and the failed units leave. -/
def claimFits (s : State) (r : BundleReq) : Bool :=
  let all := (s.sec.bundles.map (·.2)).filter (fun b => !b.retired)
  let sum := fun (f : Bundle → Nat) => (all.map f).sum
  decide (sum (·.threads) + r.threads + 32 * s.ctl.coreOff.length ≤ 256)
    && decide (sum (·.clusters) + r.clusters + (clustersGone s).length ≤ 32)
    && decide (sum (·.peridot) + r.peridot + 2048 * s.rel.peridotGone.length ≤ 131072)
    && decide (sum (·.near) + r.near + 65536 * s.tier.retired.length ≤ 2 ^ 37)
/-- Where a control program of a bundle is put: the highest words that no other bundle's take (log 4). -/
def bundleBase (s : State) (n : Nat) : Nat :=
  let held := (s.sec.bundles.filter (fun e => !e.2.retired)).map (fun e => (e.2.base, (Config.programWords e.2.digest).length))
  let ok := fun (b : Nat) => held.all (fun (u : Nat × Nat) => !rangesMeet b n u.1 u.2)
  (((65536 - n) :: held.map (fun u => u.1 - n)).filter ok).foldl max 0
/-- The bundle of a request. -/
def bundleOf (s : State) (r : BundleReq) : Bundle :=
  let d := (Config.sha384 r.body).toNat
  { base := bundleBase s (Config.programWords d).length, svc := r.svc, bver := r.bver, compat := r.compat, signer := r.signer, svn := r.svn, digest := d
    ctxs := r.ctxs, progs := r.progs, mbox := r.mbox, qlog2 := r.qlog2, ccmask := r.ccmask
    threads := r.threads, clusters := r.clusters, peridot := r.peridot, near := r.near }
/-- Both signatures verify, the signer may sign for the service, and the SVN is at or above its floor (R490). -/
def bundleSigned (s : State) (r : BundleReq) : Bool :=
  let d := Config.sha384 r.body
  ((inRange 1 0x3F r.svc && r.signer == 0) || (inRange 0x40 0xFF r.svc && inRange 1 15 r.signer))
    && decide (mget 0 (256 + r.svc) s.sec.floors ≤ r.svn)
    && decide (r.mbox < 256) && inRange 4 10 r.qlog2 && decide (r.ccmask < 256)
    && (match signerKey s r.signer with
        | some k => Config.ecdsaOk k d r.ecdsa && Config.hssOk k d r.hss
        | none => false)
/-- A service that is not ABSENT takes only a replacement: of its signer, with a higher version (R320). -/
def replaces (s : State) (r : BundleReq) : Bool :=
  svcState s r.svc == 0
    || (let o := mget {} (mget 0 r.svc s.svc.bundle) s.sec.bundles
        o.signer == r.signer && decide (o.bver < r.bver))
/-- The least bundle number that is not in use. -/
def newBundle (s : State) : Nat := ((List.range (s.sec.bundles.length + 1)).find? (fun k => !mhas k s.sec.bundles)).getD 0
def addBundle (b : Bundle) (s : State) : State := { s with sec := { s.sec with bundles := mput (newBundle s) b s.sec.bundles } }
/-- The number of an admitted bundle with a digest. -/
def admittedDigest (s : State) (svc digest : Nat) : Option Nat :=
  (s.sec.bundles.find? (fun e => e.2.svc == svc && e.2.digest == digest && !e.2.retired)).map (·.1)
/-- Admission: a bundle known by its digest gains contexts; none where it fails (R490, R491). -/
def admitBundle (r : BundleReq) (s : State) : Option State :=
  if !bundleSigned s r then none
  else match admittedDigest s r.svc (Config.sha384 r.body).toNat with
    | some k =>
      let b := mget {} k s.sec.bundles
      some { s with sec := { s.sec with bundles := mput k { b with ctxs := r.ctxs.foldl (fun l c => insertSet c l) b.ctxs } s.sec.bundles } }
    | none => if replaces s r && claimFits s r then some (addBundle (bundleOf s r) s) else none
/-- The threads of a service stop with their commit groups. -/
def stopServiceThreads (v : Nat) (s : State) : State :=
  (((List.range 256).filter (fun h => (s.thread h).svc == v))).foldl (fun s h =>
    (dropGroup h s).modThread h (fun t => { t with running := false, waiting := false, events := [], svc := 0 })) s
/-- The tile programs of a bundle set to RETIRING on every cluster (R217, R492). -/
def retireBundleProgs (b : Bundle) (s : State) : State :=
  (List.range 32).foldl (fun s cl =>
    retirePrograms cl { s with ctl := { s.ctl with
      ptab := s.ctl.ptab.map (fun e =>
        if e.1 / 64 = cl ∧ ptState e.2 = 2 ∧ b.progs.contains (ptProg e.2, ptVer e.2) then (e.1, setFld e.2 59 2 3) else e) } }) s
/-- A bundle retired: its programs retire and its control program stops; its open requests complete BUSY_RETRY and its service is ABSENT (R322, R492). -/
def retireBundle (k : Nat) (s : State) : State :=
  let b := mget {} k s.sec.bundles
  let s := retireBundleProgs b { s with sec := { s.sec with bundles := mput k { b with retired := true } s.sec.bundles } }
  if mfind? b.svc s.svc.bundle = some k then
    let s := stopServiceThreads b.svc (flushOpen b.svc s)
    { s with svc := { s.svc with table := mdel b.svc s.svc.table, bundle := mdel b.svc s.svc.bundle } }
  else s
/-- A Tierarel bundle of the control program in use: admitted and started unless it is the one in service. -/
def loadTierarel (r : BundleReq) (s : State) : State :=
  match admittedDigest s r.svc (Config.sha384 r.body).toNat with
  | some k => if svcState s r.svc = 0 then startBundle k 1 s else s
  | none =>
    let s := match mfind? r.svc s.svc.bundle with
      | some o => retireBundle o s
      | none => s
    let k := newBundle s
    startBundle k 1 (addBundle { bundleOf s r with ctxs := [] } s)
/-- The Tierarel bundles of the control program in use are admitted and start (R471, R533). -/
def loadTierarels (s : State) : State :=
  (Config.tierarelBundles (s.image (4 + mget 0 2 s.sec.inUse)).digest).foldl (fun s r =>
    if inRange 1 0x3F r.svc && decide (r.mbox < 256) then loadTierarel r s else s) s

/-! ### Images (R472, R473, R531) -/

/-- An image slot passes: both signatures verify, and its SVN is at or above the floor (R472). -/
def imagePasses (s : State) (i slot : Nat) : Bool :=
  let x := s.image (2 * i + slot)
  x.present && x.ecdsaOk && x.hssOk && decide (mget 0 i s.sec.floors ≤ x.svn)
/-- The slot of an image that the module uses at boot: the preferred one, else the other; none where neither passes. -/
def bootSlot (s : State) (i : Nat) : Option Nat :=
  let p := mget 0 i s.sec.preferred
  if imagePasses s i p then some p else if imagePasses s i (1 - p) then some (1 - p) else none
/-- A handover of the active role begins: SPDM sessions end (R470). -/
def startHandover (s : State) : State := endSessions { s with sec := { s.sec with handover := some (now s) } }
/-- Chervil restarts: each block takes the bin above its own (R532). -/
def startChervil (s : State) : State :=
  (List.range 34).foldl (fun s b => setBin b (min 7 ((s.block b).bin + 1)) s) { s with chv := { s.chv with restarting := some (now s) } }
/-- An image's other slot comes into use, in the way of its kind (R473, R531-R533). -/
def switchImage (i : Nat) (s : State) : State :=
  let s := { s with sec := { s.sec with inUse := mset 0 i (1 - mget 0 i s.sec.inUse) s.sec.inUse } }
  match i with
  | 0 => startHandover s
  | 1 => startChervil s
  | _ => if s.boot.held then s else controlRestartNow s
/-- A switch of the kind is under way already. -/
def switching (s : State) (i : Nat) : Bool :=
  match i with
  | 0 => s.sec.handover.isSome
  | 1 => s.chv.restarting.isSome
  | _ => s.ctl.restartAt.isSome

/-! ### The board profile (R535) -/

/-- Length of a profile: one word, 96 words, 96 words of 64 bits, CRC. -/
def profileLen : Nat := 1160
/-- A profile is whole and its CRC holds. -/
def profileOk (b : List Byte) : Bool := b.length == profileLen && crc32 (b.take 1156) == byteAt b 1156 4

end Sys2Proof.Machine
end

