-- ==== Sys2Proof/Machine/Spdm.lean ====
section
/-!
DEFINITION. Meanings of the SPDM messages and of large messages (R493-R495, Tables 18-9 and 18-10; message forms: log 52).
-/
namespace Sys2Proof.Machine

/-! ### Connection and identity (R494) -/

/-- The certificate chain of slot 0, ending with the Alias certificate. -/
def chainBytes (s : State) : List Byte := Config.certChain ++ aliasCert s
/-- The connection has come to a point of the exchange. -/
def connAt (s : State) (iface n : Nat) : Bool := decide (n ≤ (s.spdm iface).conn)
/-- The part of an answer that the standard alone defines: a free value. -/
def standardPart (code : Nat) (s : State) : List Byte × State :=
  let d := draw s
  (Config.spdmAnswer code d.1, d.2)
/-- GET_VERSION begins a connection: version 1.3. -/
def effGetVersion (iface : Nat) (s : State) : State :=
  onIface iface (.getVersion iface) (fun s => answer iface 0x84 [1, 0, 0x13] (s.modSpdm iface (fun x => { x with conn := 1, later := none }))) s
/-- The capabilities of Table 18-9. -/
def effGetCapabilities (iface : Nat) (s : State) : State :=
  onIface iface (.getCapabilities iface) (fun s =>
    if connAt s iface 1 then
      let r := standardPart 0xE1 s
      answer iface 0xE1 r.1 (r.2.modSpdm iface (fun x => { x with conn := max 2 x.conn }))
    else answerError iface 0xE1 s) s
/-- The algorithms of Table 18-9 and no others. -/
def effNegotiateAlgorithms (iface : Nat) (offered : Bool) (s : State) : State :=
  onIface iface (.negotiateAlgorithms iface offered) (fun s =>
    if connAt s iface 2 && offered then
      let r := standardPart 0xE3 s
      answer iface 0xE3 r.1 (r.2.modSpdm iface (fun x => { x with conn := 3 }))
    else answerError iface 0xE3 s) s
def effGetDigests (iface : Nat) (s : State) : State :=
  onIface iface (.getDigests iface) (fun s =>
    if connAt s iface 3 then answer iface 0x81 (digestBytes (Config.sha384 (chainBytes s)).toNat) s else answerError iface 0x81 s) s
/-- A portion of the chain of slot 0 and how much of it remains. -/
def effGetCertificate (iface slot off len : Nat) (s : State) : State :=
  onIface iface (.getCertificate iface slot off len) (fun s =>
    let chain := chainBytes s
    if connAt s iface 3 && slot == 0 && decide (off < chain.length) then
      let part := (chain.drop off).take len
      answer iface 0x82 (natBytes 2 part.length ++ natBytes 2 (chain.length - off - part.length) ++ part) s
    else answerError iface 0x82 s) s
/-- A challenge: the chain's digest, the nonce and what the standard adds, signed by the Alias key. -/
def effChallenge (iface slot : Nat) (nonce : List Byte) (s : State) : State :=
  onIface iface (.challenge iface slot nonce) (fun s =>
    if connAt s iface 3 && slot == 0 then
      let r := standardPart 0x83 s
      let body := digestBytes (Config.sha384 (chainBytes s)).toNat ++ padTo 32 nonce ++ r.1
      answerReady iface 0x83 (body ++ padTo 96 (Config.ecdsaSign (Config.sha384 body))) r.2
    else answerError iface 0x83 s) s

/-! ### Measurements (R495) -/

/-- A DMTF measurement block: index, specification, size, value type and size, value. -/
def measBlock (index type : Nat) (value : List Byte) : List Byte :=
  natBytes 1 index ++ natBytes 1 1 ++ natBytes 2 (3 + value.length) ++ natBytes 1 type ++ natBytes 2 value.length ++ value
/-- Digest of an image in use. -/
def imageDigest (s : State) (i : Nat) : List Byte := digestBytes (s.image (2 * i + mget 0 i s.sec.inUse)).digest
/-- A block of Table 18-10. -/
def measurement (s : State) (i : Nat) : List Byte :=
  match i with
  | 1 => measBlock 1 0 (padTo 48 (Config.bootRom.take 48))
  | 2 => measBlock 2 1 (imageDigest s 0)
  | 3 => measBlock 3 1 (imageDigest s 1)
  | 4 => measBlock 4 1 (imageDigest s 2)
  | 5 => measBlock 5 3 (digestBytes (Config.sha384 ((reportBundles s 0).flatMap bundleBytes)).toNat)
  | _ => measBlock 6 0x82 (natBytes 8 modRev)
/-- One block, every block (255), or their number (0), then what the standard adds with the signature. -/
def effGetMeasurements (iface index : Nat) (s : State) : State :=
  onIface iface (.getMeasurements iface index) (fun s =>
    if connAt s iface 3 && (decide (index ≤ 6) || index == 255) then
      let blocks := if index = 0 then [] else if index = 255 then (List.range 6).flatMap (fun i => measurement s (i + 1)) else measurement s index
      let n := if index = 0 ∨ index = 255 then 6 else 1
      let r := standardPart 0xE0 s
      answerReady iface 0xE0 (natBytes 1 n ++ natBytes 3 blocks.length ++ blocks ++ r.1) r.2
    else answerError iface 0xE0 s) s

/-! ### Sessions (R494) -/

/-- The least session number that is not in use. -/
def newSession (s : State) (iface : Nat) : Nat :=
  ((List.range 65).find? (fun i => i != 0 && !((s.spdm iface).sessions.map (·.1)).contains i)).getD 0
/-- A key exchange opens a session, as many as the interface holds. -/
def effKeyExchange (iface slot : Nat) (s : State) : State :=
  onIface iface (.keyExchange iface slot) (fun s =>
    if connAt s iface 3 && slot == 0 && decide ((s.spdm iface).sessions.length < sessionMax iface) then
      let n := newSession s iface
      let r := standardPart 0xE4 s
      answer iface 0xE4 (natBytes 2 n ++ r.1) (r.2.modSpdm iface (fun x => { x with
        sessions := x.sessions ++ [(n, false)]
        who := if iface = 3 then mput n (x.peers.headD 0) x.who else x.who }))
    else answerError iface 0xE4 s) s
/-- A session without its number. -/
def dropSession (iface sess : Nat) (s : State) : State :=
  s.modSpdm iface (fun x => { x with
    sessions := x.sessions.filter (fun e => e.1 != sess)
    who := mdel sess x.who
    updates := mdel sess x.updates
    beat := mdel sess x.beat })
/-- The handshake ends: the session is established if the verify data are those of the session, and gone if they are not. -/
def effFinish (iface sess : Nat) (verify : Bool) (s : State) : State :=
  onIface iface (.finish iface sess verify) (fun s =>
    if (s.spdm iface).sessions.contains (sess, false) && sessionMine s iface sess then
      if verify then
        answer iface 0xE5 [] (s.modSpdm iface (fun x => { x with
          sessions := x.sessions.map (fun e => if e.1 == sess then (sess, true) else e)
          beat := mput sess (now s) x.beat }))
      else answerError iface 0xE5 (dropSession iface sess s)
    else answerError iface 0xE5 s) s
def effHeartbeat (iface sess : Nat) (s : State) : State :=
  onIface iface (.heartbeat iface sess) (fun s =>
    if sessionUp s iface sess then answer iface 0xE8 [] (s.modSpdm iface (fun x => { x with beat := mput sess (now s) x.beat }))
    else answerError iface 0xE8 s) s
/-- Operations 1 and 2 update keys, 3 verifies the new one. -/
def effKeyUpdate (iface sess op : Nat) (s : State) : State :=
  onIface iface (.keyUpdate iface sess op) (fun s =>
    if sessionUp s iface sess && inRange 1 3 op then
      answer iface 0xE9 (natBytes 1 op) (s.modSpdm iface (fun x => { x with updates := mmod 0 sess (· + b2n (op != 3)) x.updates }))
    else answerError iface 0xE9 s) s
def effEndSession (iface sess : Nat) (s : State) : State :=
  onIface iface (.endSession iface sess) (fun s =>
    if sessionUp s iface sess then answer iface 0xEC [] (dropSession iface sess s) else answerError iface 0xEC s) s
/-- The answer that was not ready is given out, once; without one there is an ERROR. -/
def effRespondIfReady (iface : Nat) (s : State) : State :=
  onIface iface (.respondIfReady iface) (fun s =>
    match (s.spdm iface).later with
    | some (code, data) => answer iface code data (s.modSpdm iface (fun x => { x with later := none }))
    | none => answerError iface 0xFF s) s

/-! ### Large messages (R493) -/

/-- A chunk of a large request, in order from 0; a first chunk while another request is gathered is Busy. -/
def effChunkSend (iface seq : Nat) (last : Bool) (chunk : List Byte) (s : State) : State :=
  onIface iface (.chunkSend iface seq last chunk) (fun s =>
    let x := s.spdm iface
    if connAt s iface 3 && seq == x.gatherSeq then
      answer iface 0x85 (natBytes 2 seq) (s.modSpdm iface (fun x => { x with
        gather := (if seq = 0 then [] else x.gather) ++ chunk
        gatherSeq := if last then 0 else seq + 1
        busy := if last then eraseSet 0x85 x.busy else insertSet 0x85 x.busy }))
    else answerError iface 0x85 s) s
/-- A chunk of the large answer that is held; the last one ends it. -/
def effChunkGet (iface seq : Nat) (s : State) : State :=
  onIface iface (.chunkGet iface seq) (fun s =>
    let x := s.spdm iface
    let part := (x.give.drop (seq * Config.messageMax)).take Config.messageMax
    if part.isEmpty then answerError iface 0x86 s
    else
      let end_ := decide (x.give.length ≤ (seq + 1) * Config.messageMax)
      answer iface 0x86 (natBytes 2 seq ++ part)
        (if end_ then s.modSpdm iface (fun x => { x with give := [], busy := x.busy.filter (fun c => c == 0x85) }) else s)) s

/-- GET_VERSION (R494). -/
def execGetVersion (iface : Nat) (s : State) : Host.Outcome State Fault Refusal :=
  unit (isIface iface) s (effGetVersion iface s)

/-- GET_CAPABILITIES (R494). -/
def execGetCapabilities (iface : Nat) (s : State) : Host.Outcome State Fault Refusal :=
  unit (isIface iface) s (effGetCapabilities iface s)

/-- NEGOTIATE_ALGORITHMS (R494). -/
def execNegotiateAlgorithms (iface : Nat) (offered : Bool) (s : State) : Host.Outcome State Fault Refusal :=
  unit (isIface iface) s (effNegotiateAlgorithms iface offered s)

/-- GET_DIGESTS (R494). -/
def execGetDigests (iface : Nat) (s : State) : Host.Outcome State Fault Refusal :=
  unit (isIface iface) s (effGetDigests iface s)

/-- GET_CERTIFICATE (R494). -/
def execGetCertificate (iface slot off len : Nat) (s : State) : Host.Outcome State Fault Refusal :=
  unit (isIface iface) s (effGetCertificate iface slot off len s)

/-- CHALLENGE (R494). -/
def execChallenge (iface slot : Nat) (nonce : List Byte) (s : State) : Host.Outcome State Fault Refusal :=
  unit (isIface iface) s (effChallenge iface slot nonce s)

/-- GET_MEASUREMENTS (R495). -/
def execGetMeasurements (iface index : Nat) (s : State) : Host.Outcome State Fault Refusal :=
  unit (isIface iface) s (effGetMeasurements iface index s)

/-- KEY_EXCHANGE (R494). -/
def execKeyExchange (iface slot : Nat) (s : State) : Host.Outcome State Fault Refusal :=
  unit (isIface iface) s (effKeyExchange iface slot s)

/-- FINISH (R494). -/
def execFinish (iface sess : Nat) (verify : Bool) (s : State) : Host.Outcome State Fault Refusal :=
  unit (isIface iface) s (effFinish iface sess verify s)

/-- HEARTBEAT (R494). -/
def execHeartbeat (iface sess : Nat) (s : State) : Host.Outcome State Fault Refusal :=
  unit (isIface iface) s (effHeartbeat iface sess s)

/-- KEY_UPDATE (R494). -/
def execKeyUpdate (iface sess op : Nat) (s : State) : Host.Outcome State Fault Refusal :=
  unit (isIface iface) s (effKeyUpdate iface sess op s)

/-- END_SESSION (R494). -/
def execEndSession (iface sess : Nat) (s : State) : Host.Outcome State Fault Refusal :=
  unit (isIface iface) s (effEndSession iface sess s)

/-- RESPOND_IF_READY (R494). -/
def execRespondIfReady (iface : Nat) (s : State) : Host.Outcome State Fault Refusal :=
  unit (isIface iface) s (effRespondIfReady iface s)

/-- CHUNK_SEND (R493). -/
def execChunkSend (iface seq : Nat) (last : Bool) (chunk : List Byte) (s : State) : Host.Outcome State Fault Refusal :=
  unit (isIface iface) s (effChunkSend iface seq last chunk s)

/-- CHUNK_GET (R493). -/
def execChunkGet (iface seq : Nat) (s : State) : Host.Outcome State Fault Refusal :=
  unit (isIface iface) s (effChunkGet iface seq s)


end Sys2Proof.Machine
end

