-- ==== Sys2Proof/Machine/Admin.lean ====
section
/-!
DEFINITION. Meanings of the management requests of Table 18-8, of IDE key management, and of Carnelian's own events (R469-R477, R488-R496, R531-R533, R549, R550, R563, R574; choices: log 52, 53).
-/
namespace Sys2Proof.Machine

/-- A request only the owner may make, in a secured session (R493). -/
def ownerRequest (iface sess code : Nat) (i : Message) (f : State → State) (s : State) : State :=
  onIface iface i (fun s => if ownerSession s iface sess then f s else refuseMgmt iface code s) s

/-! ### Reports and tenant keys -/

/-- The report of a context: for the owner, for the host TSM of a TDI bound to it, over I3C for context 0. -/
def effGetReport (iface sess ctx : Nat) (nonce : List Byte) (vf : Nat) (s : State) : State :=
  onIface iface (.getReport iface sess ctx nonce vf) (fun s =>
    if ownerSession s iface sess || tsmSession s iface sess vf ctx || (iface == 2 && ctx == 0) then
      if (s.spdm iface).busy.contains 769 then answerError iface 769 s
      else match makeReport ctx nonce s with
        | some (b, t) => answerLong iface 769 b t
        | none => mgmtStatus iface 1 stStateLost s
    else refuseMgmt iface 1 s) s
/-- A tenant's XTS pair; the answer is a handle for IMPORT, valid for 10 s. -/
def effKeyUpload (iface sess ctx k1 k2 vf : Nat) (s : State) : State :=
  onIface iface (.keyUpload iface sess ctx k1 k2 vf) (fun s =>
    if tsmSession s iface sess vf ctx then
      let h := s.sec.nextHandle
      answer iface 778 (natBytes 4 h) { s with sec := { s.sec with
        nextHandle := wrapAdd 32 h 1
        imports := s.sec.imports ++ [(h, ctx, k1 % 2 ^ 256 + 2 ^ 256 * (k2 % 2 ^ 256), now s + 10000000000)] } }
    else refuseMgmt iface 10 s) s

/-! ### Bundles and signers -/

def effAdmitBundle (iface sess : Nat) (req : BundleReq) (s : State) : State :=
  ownerRequest iface sess 2 (.admitBundle iface sess req) (fun s =>
    match admitBundle req s with
    | some t => mgmtStatus iface 2 stOK t
    | none => mgmtStatus iface 2 stViolation s) s
/-- Every admitted bundle of a service. -/
def bundlesOf (s : State) (svc : Nat) : List Nat := (s.sec.bundles.filter (fun e => e.2.svc == svc && !e.2.retired)).map (·.1)
def effRetireBundle (iface sess svc : Nat) (s : State) : State :=
  ownerRequest iface sess 3 (.retireBundle iface sess svc) (fun s =>
    if (bundlesOf s svc).isEmpty then mgmtStatus iface 3 stViolation s
    else mgmtStatus iface 3 stOK ((bundlesOf s svc).foldl (fun s k => retireBundle k s) s)) s
/-- Entries of the signer table that the owner holds, and of the partner roots (R489). -/
def enrolEntry (root : Bool) (entry : Nat) : Bool := if root then decide (entry < 16) else inRange 1 15 entry
def effEnrol (iface sess : Nat) (root : Bool) (entry key : Nat) (s : State) : State :=
  ownerRequest iface sess 4 (.enrol iface sess root entry key) (fun s =>
    if !enrolEntry root entry then mgmtStatus iface 4 stViolation s
    else if root then mgmtStatus iface 4 stOK { s with sec := { s.sec with roots := mput entry key s.sec.roots } }
    else mgmtStatus iface 4 stOK { s with sec := { s.sec with signers := mput entry key s.sec.signers } }) s
def effUnenrol (iface sess : Nat) (root : Bool) (entry : Nat) (s : State) : State :=
  ownerRequest iface sess 5 (.unenrol iface sess root entry) (fun s =>
    if !enrolEntry root entry then mgmtStatus iface 5 stViolation s
    else if root then mgmtStatus iface 5 stOK { s with sec := { s.sec with roots := mdel entry s.sec.roots } }
    else mgmtStatus iface 5 stOK { s with sec := { s.sec with signers := mdel entry s.sec.signers } }) s

/-! ### Images (R472, R473, R531) -/

/-- Who may write and activate images: the owner, and I3C in recovery. -/
def imageRequest (iface sess code : Nat) (i : Message) (f : State → State) (s : State) : State :=
  onIface iface i (fun s => if ownerSession s iface sess || recoveryI3c s iface then f s else refuseMgmt iface code s) s
/-- An image written into the slot not in use and verified. -/
def effFwWrite (iface sess : Nat) (req : ImageReq) (s : State) : State :=
  imageRequest iface sess 6 (.fwWrite iface sess req) (fun s =>
    if 3 ≤ req.image then mgmtStatus iface 6 stViolation s
    else
      let d := Config.sha384 (natBytes 4 req.ver ++ natBytes 4 req.svn ++ req.body)
      let x : Image := { present := true, ver := req.ver, svn := req.svn, digest := d.toNat
                         ecdsaOk := Config.ecdsaOk Config.tierarelKey d req.ecdsa, hssOk := Config.hssOk Config.tierarelKey d req.hss }
      mgmtStatus iface 6 (if x.ecdsaOk && x.hssOk then stOK else stViolation)
        (s.setImage (2 * req.image + (1 - mget 0 req.image s.sec.inUse)) x)) s
/-- A verified image comes into use; in recovery the measured boot runs again. -/
def effFwActivate (iface sess image : Nat) (s : State) : State :=
  imageRequest iface sess 7 (.fwActivate iface sess image) (fun s =>
    if !imagePasses s image (1 - mget 0 image s.sec.inUse) then mgmtStatus iface 7 stViolation s
    else if s.sec.recovery then
      mgmtStatus iface 7 stOK { s with
        sec := { s.sec with
          recovery := false
          inUse := mset 0 image (1 - mget 0 image s.sec.inUse) s.sec.inUse
          preferred := mset 0 image (1 - mget 0 image s.sec.inUse) s.sec.preferred }
        boot := { s.boot with step := 1, stepAt := now s } }
    else if switching s image then mgmtStatus iface 7 stBusy s
    else
      let s := mgmtStatus iface 7 stOK s
      let s := { s with sec := { s.sec with activating := s.sec.activating.filter (fun x => x.1 != image) ++ [(image, now s)] } }
      switchImage image s) s
/-- When an image was activated, while its 60 s last. -/
def activatedAt (s : State) (image : Nat) : Option Nat := (s.sec.activating.find? (fun x => x.1 == image)).map (·.2)
def endActivation (image : Nat) (s : State) : State :=
  { s with sec := { s.sec with activating := s.sec.activating.filter (fun x => x.1 != image) } }
/-- A new image that has not reported itself healthy within 10 s: the previous slot again, with a critical record. -/
def effFwHealthTimeout (image : Nat) (s : State) : State :=
  match activatedAt s image with
  | none => s
  | some t =>
    onlyIf (passed s t 10000000000) s
      (let s := switchImage image (endActivation image s)
       emit 6 0x0D01 4 image (mget 0 image s.sec.inUse) 0 0 s)
/-- After 60 s of healthy service the new slot is the preferred one. -/
def effFwPrefer (image : Nat) (s : State) : State :=
  match activatedAt s image with
  | none => s
  | some t =>
    onlyIf (passed s t 60000000000) s
      (let s := endActivation image s
       { s with sec := { s.sec with preferred := mset 0 image (mget 0 image s.sec.inUse) s.sec.preferred } })

/-! ### Policy (R422, R473, R535, R563, R574) -/

/-- A policy applied, none where a value is out of range or a floor would fall. -/
def applyPolicy (p : Policy) (s : State) : Option State :=
  match p with
  | .svnFloor item svn =>
    if (item < 3 ∨ (256 ≤ item ∧ item < 512)) ∧ mget 0 item s.sec.floors ≤ svn then
      some { s with sec := { s.sec with floors := mset 0 item svn s.sec.floors } }
    else none
  | .ownLease ms => if inRange 250 10000 ms then some { s with hst := { s.hst with ownLease := ms } } else none
  | .power cap dozeEn dozeV =>
    if inRange 800 1500 cap && cap % 10 == 0 && inRange 600 700 dozeV && dozeV % 10 == 0 then
      some { s with chv := { s.chv with cap := cap, dozeEn := dozeEn, dozeV := dozeV } }
    else none
  | .sleep => some { s with chv := { s.chv with sleepReq := true } }
  | .run => some { s with chv := { s.chv with sleepReq := false } }
  | .profile b => if b.length = profileLen then some { s with boot := { s.boot with profile := some b } } else none
def effSetPolicy (iface sess : Nat) (policy : Policy) (s : State) : State :=
  ownerRequest iface sess 8 (.setPolicy iface sess policy) (fun s =>
    match applyPolicy policy s with
    | some t => mgmtStatus iface 8 stOK t
    | none => mgmtStatus iface 8 stViolation s) s

/-! ### Resets (R533, R549, R550) -/

/-- RESET_REQ: KIND 1 restarts the control threads, KIND 2 departs for a core reset, any other is an error (R549). -/
def resetReq (i : Message) (iface sess kind : Nat) (s : State) : State :=
  ownerRequest iface sess 9 i (fun s =>
    match kind with
    | 1 => mgmtStatus iface 9 stOK (if s.boot.held || s.ctl.restartAt.isSome then s else controlRestartNow s)
    | 2 => mgmtStatus iface 9 stOK (startDeparture s)
    | _ => answerError iface 777 s) s
def effControlRestart (iface sess kind : Nat) (s : State) : State := resetReq (.controlRestart iface sess kind) iface sess kind s
def effCoreReset (iface sess kind : Nat) (s : State) : State := resetReq (.coreReset iface sess kind) iface sess kind s
/-- Leases timed here are extended by the length of the restart before the next scan (R533). -/
def extendLeases (d : Nat) (s : State) : State :=
  (listedExtents s).foldl (fun s e =>
    let v := extent s e
    if exLeased v ∧ (exState v = 1 ∨ exState v = 2) then setEntryFld s 0x0013 e 128 64 (satAdd 64 (exEnd v) d) else s) s
/-- The control threads run again, with the bundles of the control program in use; services serve (R533). -/
def effControlRestartDone (s : State) : State :=
  match s.ctl.restartAt with
  | none => s
  | some t =>
    if s.boot.held then s
    else
      let s := startThreads (extendLeases (now s - t) { s with ctl := { s.ctl with restartAt := none } })
      let s := loadTierarels s
      let s := (listedServices s).foldl (fun s v =>
        if svcState s v = 1 ∧ (s.thread (mboxThread s v)).running then setSvcState v 2 s else s) s
      { s with chv := { s.chv with
        beats := (List.range 8).foldl (fun m c => mput c (now s) m) s.chv.beats
        lscanAt := now s } }

/-! ### IDE key management (R496) -/

def ideSet (stream dir set : Nat) : Nat := 8 * stream + 4 * dir + set
def effIdeKmQuery (port : Nat) (s : State) : State :=
  onIface port (.ideKmQuery port) (fun s => let r := standardPart 256 s; answer port 256 r.1 r.2) s
def effKeyProg (port stream dir set key : Nat) (s : State) : State :=
  onIface port (.keyProg port stream dir set key) (fun s => answer port 258 (natBytes 1 0)
    (s.modHport port (fun h => { h with ideKeys := mput (ideSet stream dir set) key h.ideKeys }))) s
/-- A key set goes into use once it has a key; the stream's other key set of that direction then rests. -/
def effKSetGo (port stream dir set : Nat) (s : State) : State :=
  onIface port (.kSetGo port stream dir set) (fun s =>
    if mhas (ideSet stream dir set) (s.hport port).ideKeys then
      answer port 260 [] (s.modHport port (fun h => { h with
        ideGo := insertSet (ideSet stream dir set) (eraseSet (ideSet stream dir (1 - set)) h.ideGo) }))
    else answerError port 260 s) s
def effKSetStop (port stream dir set : Nat) (s : State) : State :=
  onIface port (.kSetStop port stream dir set) (fun s => answer port 261 [] (s.modHport port (fun h => { h with ideGo := eraseSet (ideSet stream dir set) h.ideGo }))) s

/-! ### Carnelian (R469-R471, R477, R488) -/

/-- A message of another module's Carnelian: a shared key is loaded and answered, the answer to a SHARE completes it; any other message is a request on interface 3. -/
def effCrmsg (s : State) : State :=
  if !mgmtServes s then s
  else match takeMod (fun x => pOp x.1 == opCRMSG) s with
    | none => s
    | some ((p, _), s) =>
      if p.tc ≠ 6 ∨ pCtx p ≠ 0 ∨ !inRange 8 256 p.payload.length ∨ p.payload.length % 8 ≠ 0 then s
      else match (if peerSession s (pSrc p) then Config.sharedKey p.payload else none), (if peerSession s (pSrc p) then Config.shareAnswer p.payload else none) with
        | some (n, c, g, imp, k), _ =>
          if inRange 1 4031 n && ksState (keySlot s n) == 0 then
            sendCrmsg 0 (pSrc p) (padTo 64 (Config.shareReply stOK)) (loadSlot n (c % 1024) (g % 64) 0 imp true k s)
          else sendCrmsg 0 (pSrc p) (padTo 64 (Config.shareReply stBusy)) s
        | none, some st =>
          match s.sec.kreqs.find? (fun q => q.done.isNone && q.sent.isSome && byteAt q.req 8 2 == pSrc p) with
          | some q => endShare (fun x => x.thread == q.thread && x.ticket == q.ticket) (st % 16) s
          | none => s
        | none, none => s.modSpdm 3 (fun x => { x with peers := x.peers ++ [pSrc p] })
/-- The active core has not reported for 100 ms: it is held, and a handover begins. -/
def effCarnelianWatchdog (s : State) : State :=
  onlyIf (chervilRuns s && s.boot.step == 5 && s.sec.handover.isNone && passed s (mget 0 (8 + s.sec.active) s.chv.beats) 100000000) s
    (startHandover s)
/-- After 60 s of service the active core writes its identity into PREF. -/
def effPrefUpdate (s : State) : State :=
  onlyIf (s.boot.step == 5 && s.sec.handover.isNone && passed s s.sec.servingAt 60000000000) s
    { s with sec := { s.sec with pref := s.sec.active } }
/-- The core named by PREF has not reached step 2 within 150 ms: the other one boots and is preferred, with a critical record. -/
def effBootCoreTimeout (s : State) : State :=
  onlyIf (s.boot.pwrgd && s.boot.step == 1 && s.sec.active == s.sec.pref && passed s s.boot.stepAt 150000000) s
    (let a := 1 - s.sec.pref
     emit 6 0x0D00 4 a 0 0 0 { s with
       sec := { s.sec with active := a, token := a, pref := a }
       boot := { s.boot with stepAt := now s } })
/-- Once half the leaves of the bottom tree are used, the next tree is generated. -/
def effLmsTreeGenerate (s : State) : State :=
  match lmsValue s.sec with
  | none => s
  | some q =>
    onlyIf (carnelianServes s && !s.sec.lmsLost && decide (2 ^ 19 ≤ q % 2 ^ 20) && decide (q / 2 ^ 20 + 1 < 2 ^ 20)) s
      { s with sec := { s.sec with nextTree := q / 2 ^ 20 + 1 } }

/-- GET_REPORT (R493). -/
def execGetReport (iface sess : Nat) (ctx : Nat) (nonce : List Byte) (vf : Nat) (s : State) : Host.Outcome State Fault Refusal :=
  unit (isIface iface && isCtx ctx && decide (vf < 256)) s (effGetReport iface sess ctx nonce vf s)

/-- ADMIT_BUNDLE (R490). -/
def execAdmitBundle (iface sess : Nat) (req : BundleReq) (s : State) : Host.Outcome State Fault Refusal :=
  unit (isIface iface) s (effAdmitBundle iface sess req s)

/-- RETIRE_BUNDLE (R492). -/
def execRetireBundle (iface sess svc : Nat) (s : State) : Host.Outcome State Fault Refusal :=
  unit (isIface iface && isSvc svc) s (effRetireBundle iface sess svc s)

/-- ENROL (R489). -/
def execEnrol (iface sess : Nat) (root : Bool) (entry key : Nat) (s : State) : Host.Outcome State Fault Refusal :=
  unit (isIface iface) s (effEnrol iface sess root entry key s)

/-- UNENROL (R489). -/
def execUnenrol (iface sess : Nat) (root : Bool) (entry : Nat) (s : State) : Host.Outcome State Fault Refusal :=
  unit (isIface iface) s (effUnenrol iface sess root entry s)

/-- FW_WRITE (R473). -/
def execFwWrite (iface sess : Nat) (req : ImageReq) (s : State) : Host.Outcome State Fault Refusal :=
  unit (isIface iface) s (effFwWrite iface sess req s)

/-- FW_ACTIVATE (R531). -/
def execFwActivate (iface sess image : Nat) (s : State) : Host.Outcome State Fault Refusal :=
  unit (isIface iface && isImage image) s (effFwActivate iface sess image s)

/-- FW_HEALTH_TIMEOUT (R531). -/
def execFwHealthTimeout (image : Nat) (s : State) : Host.Outcome State Fault Refusal :=
  unit (isImage image) s (effFwHealthTimeout image s)

/-- FW_PREFER (R531). -/
def execFwPrefer (image : Nat) (s : State) : Host.Outcome State Fault Refusal :=
  unit (isImage image) s (effFwPrefer image s)

/-- SET_POLICY (R563). -/
def execSetPolicy (iface sess : Nat) (policy : Policy) (s : State) : Host.Outcome State Fault Refusal :=
  unit (isIface iface) s (effSetPolicy iface sess policy s)

/-- KEY_UPLOAD (R493). -/
def execKeyUpload (iface sess ctx : Nat) (k1 k2 : Nat) (vf : Nat) (s : State) : Host.Outcome State Fault Refusal :=
  unit (isIface iface && isCtx ctx && decide (vf < 256)) s (effKeyUpload iface sess ctx k1 k2 vf s)

/-- CONTROL_RESTART (R549). -/
def execControlRestart (iface sess : Nat) (kind : Nat) (s : State) : Host.Outcome State Fault Refusal :=
  unit (isIface iface) s (effControlRestart iface sess kind s)

/-- CONTROL_RESTART_DONE (R533). -/
def execControlRestartDone (s : State) : Host.Outcome State Fault Refusal :=
  unit (true) s (effControlRestartDone s)

/-- CORE_RESET (R550). -/
def execCoreReset (iface sess : Nat) (kind : Nat) (s : State) : Host.Outcome State Fault Refusal :=
  unit (isIface iface) s (effCoreReset iface sess kind s)

/-- IDE_KM_QUERY (R496). -/
def execIdeKmQuery (port : Nat) (s : State) : Host.Outcome State Fault Refusal :=
  unit (isHostPort port) s (effIdeKmQuery port s)

/-- KEY_PROG (R496). -/
def execKeyProg (port stream dir set key : Nat) (s : State) : Host.Outcome State Fault Refusal :=
  unit (isHostPort port && isStreamId stream && decide (dir < 2) && decide (set < 2)) s (effKeyProg port stream dir set key s)

/-- K_SET_GO (R496). -/
def execKSetGo (port stream dir set : Nat) (s : State) : Host.Outcome State Fault Refusal :=
  unit (isHostPort port && isStreamId stream && decide (dir < 2) && decide (set < 2)) s (effKSetGo port stream dir set s)

/-- K_SET_STOP (R496). -/
def execKSetStop (port stream dir set : Nat) (s : State) : Host.Outcome State Fault Refusal :=
  unit (isHostPort port && isStreamId stream && decide (dir < 2) && decide (set < 2)) s (effKSetStop port stream dir set s)

/-- CRMSG (R488). -/
def execCrmsg (s : State) : Host.Outcome State Fault Refusal :=
  unit (true) s (effCrmsg s)

/-- CARNELIAN_WATCHDOG (R470). -/
def execCarnelianWatchdog (s : State) : Host.Outcome State Fault Refusal :=
  unit (true) s (effCarnelianWatchdog s)

/-- PREF_UPDATE (R471). -/
def execPrefUpdate (s : State) : Host.Outcome State Fault Refusal :=
  unit (true) s (effPrefUpdate s)

/-- BOOT_CORE_TIMEOUT (R471). -/
def execBootCoreTimeout (s : State) : Host.Outcome State Fault Refusal :=
  unit (true) s (effBootCoreTimeout s)

/-- LMS_TREE_GENERATE (R477). -/
def execLmsTreeGenerate (s : State) : Host.Outcome State Fault Refusal :=
  unit (true) s (effLmsTreeGenerate s)


end Sys2Proof.Machine
end

