-- ==== Sys2Proof/Machine/Links.lean ====
section
/-!
DEFINITION. Meanings of the fabric links' commands: frames, control frames, replay, key updates, training, lane monitors and lane changes, fences (R63-R94).
-/
namespace Sys2Proof.Machine

/-! ### Frames -/

/-- A frame's CRC fails. -/
def crcBad (f : List Byte) : Bool := decide (byteAt f 252 4 ≠ crc32 (f.take 252))
/-- A data or idle frame, or one whose CRC fails, is received (R67, R72, R79). -/
def effLinkFrameReceive (port : Nat) (frame : List Byte) (s : State) : State :=
  onlyIf (linkAlive s port && (crcBad frame || fhType (hdrOf frame) != ftControl)) s (rxFrame port frame s)
/-- A control frame, or one whose CRC fails, is received (R69, R72). -/
def effControlFrameReceive (port : Nat) (frame : List Byte) (s : State) : State :=
  onlyIf (linkAlive s port && (crcBad frame || fhType (hdrOf frame) == ftControl)) s (rxFrame port frame s)
/-- Something is to be returned, announced or closed (R70). -/
def controlDue (x : Port) : Bool :=
  x.ackDue || x.nakDue.isSome || !x.txGroup.isEmpty || decide (64 ≤ x.sinceCtl)
/-- A control frame is sent (R70). -/
def effControlFrameSend (port : Nat) (s : State) : State :=
  onlyIf (linkAlive s port && controlDue (s.port port)) s (sendControl port s)
/-- The oldest unacknowledged group is replayed after 4 us; after eight replays without progress the port goes to TRAIN_F (R73). -/
def effAckTimeoutReplay (port : Nat) (s : State) : State :=
  let x := s.port port
  match x.replay with
  | [] => s
  | f :: _ =>
    onlyIf (linkAlive s port && passed s x.ackAt 4000) s (replayGroup port f.seq s)
/-- A key update is announced for the module's direction, with the SEQ behind the announcing control frame as its first (R80). -/
def effKeyUpdateStart (port : Nat) (s : State) : State :=
  onlyIf (linkAlive s port && keyIdle (s.port port) && replayRoom s port 1) s (sendControl port (s.modPort port announceKey))

/-! ### Training (R82-R84, R546) -/

/-- A port die has taken the port down for heat (R566). -/
def shedPort (s : State) (p : Nat) : Bool := (s.shed (dieOf p)).ports.contains p
/-- Signal on a DOWN port that is up for use starts training at 56 Gb/s. -/
def effSignalDetect (port : Nat) (s : State) : State :=
  onlyIf (portExists s port && adminUp s port && !s.boot.held && (s.port port).st == .down && !shedPort s port
      && !s.rel.dieFailed.contains (dieOf port)) s
    (setLink port .trainR s)
/-- 0.8 s without success. -/
def effTrainRTimeout (port : Nat) (s : State) : State :=
  onlyIf ((s.port port).st == .trainR && passed s (s.port port).since 800000000) s (portToDown port s)
/-- Full-rate training of the first half begins once the module, and on a trunk the neighbour, has reached BU4 (R546). -/
def effTrainFStart (port : Nat) (s : State) : State :=
  onlyIf ((s.port port).st == .reduced && decide (4 ≤ s.boot.stage) && (!isTrunk s port || decide (4 ≤ (s.port port).peerStage))) s
    (enterTrainF port false s)
/-- Spares wired to the port's partner that no port uses become hot spares as they train with the first half (R84, R87). -/
def warmSpares (port : Nat) (s : State) : State :=
  (spareLanes s port).foldl (fun s l =>
    if s.ports.any (fun e => e.2.pos.contains l) || (s.lane l).retired then s else s.modLane l (fun x => { x with hot := true, port := some port })) s
/-- The first half is done: traffic moves to it and the other trains; or the port is UP. -/
def effTrainFHalfDone (port : Nat) (s : State) : State :=
  let x := s.port port
  if x.st != .trainF then s
  else if x.half = 0 then warmSpares port (s.setPort port { x with half := 1, since := now s, lanes := otherHalf 1 x.pos })
  else grantInit port ((setLink port .up s).modPort port (fun x => { x with half := 0, fromUp := false, lanes := x.pos }))
/-- A half has not trained in 1.1 s: the port returns to REDUCED, and flushes six classes when it had been UP (R83). -/
def effTrainFTimeout (port : Nat) (s : State) : State :=
  let x := s.port port
  onlyIf (x.st == .trainF && passed s x.since 1100000000) s
    (grantInit port ((setLink port .reduced s).modPort port (fun y => { y with
      fromUp := false, fullFailed := true, half := 0, lanes := y.pos, flushDue := if x.fromUp then 2 else y.flushDue })))

/-! ### Lane monitors and classes (R85, R86) -/

/-- The median of the last five samples of a lane, quantity by quantity; a status bit stands as in most of them (R556, Table 21-1: k is 0). -/
def medianMon (l : List LaneMon) : LaneMon :=
  let m (f : LaneMon → Nat) : Nat := medianNat (l.map f)
  { eyeU := m (·.eyeU), eyeM := m (·.eyeM), eyeL := m (·.eyeL), width := m (·.width), errors := m (·.errors), symbols := m (·.symbols)
    hist := (List.range 17).map (fun i => m (fun x => x.hist.getD i 0))
    cdrLock := m (fun x => b2n x.cdrLock) == 1, amLock := m (fun x => b2n x.amLock) == 1
    ctle := m (·.ctle), dfe := (List.range (l.headD {}).dfe.length).map (fun i => m (fun x => x.dfe.getD i 0)) }
/-- What a monitor delivers each millisecond; the filtered samples are kept for one second (R85, R86, R556). -/
def effLaneMonitorSample (lane : Nat) (mon : LaneMon) (s : State) : State :=
  s.modLane lane (fun x =>
    let raw := (mon :: x.raw).take 5
    { x with mon := mon, raw := raw, errs := (medianMon raw :: x.errs).take 1000 })
/-- A full margin scan, once every 10 s. -/
def effMarginScan (lane : Nat) (s : State) : State :=
  let x := s.lane lane
  onlyIf (x.scans == 0 || passed s x.scanAt 10000000000) s (s.setLane lane { x with scanAt := now s, scans := x.scans + 1 })
/-- Codewords of a second with so many corrected symbols, from a row of the histogram to another. -/
def codewords (l : List LaneMon) (lo hi : Nat) : Nat :=
  l.foldl (fun a m => a + (((m.hist.drop lo).take (hi + 1 - lo)).foldl (· + ·) 0)) 0
/-- The class of a lane from its filtered samples (Table 03-8): row 16 of the histogram counts uncorrectable codewords. Chervil may tighten the thresholds (R86): DESIGN CHOICE (log 13), it keeps the defaults the table shows. -/
def laneClass (x : Lane) : Nat :=
  let e := x.errs.foldl (fun a m => a + m.errors) 0
  let n := x.errs.foldl (fun a m => a + m.symbols) 0
  let f := x.errs.headD {}
  if !f.cdrLock || !f.amLock then 3
  else if n < e * 10000 || codewords x.errs 13 15 != 0 || codewords x.errs 16 16 != 0 then 2
  else if n < e * 100000 || codewords x.errs 9 12 != 0 then 1
  else 0
/-- The port whose position a lane holds. -/
def portOfLane (s : State) (lane : Nat) : Option Nat := (s.ports.find? (fun e => e.2.pos.contains lane)).map (·.1)
/-- A lane takes a class: a change is recorded, and a worse one waits on its port for its action (Table 03-8, R90). -/
def setClass (lane cls : Nat) (s : State) : State :=
  let x := s.lane lane
  if x.cls = cls then s
  else
    let s := s.setLane lane { x with cls := cls, goodSince := if cls = 0 then x.goodSince else none }
    let s := emitClass (lane / 200) 1 lane cls 0 0 s
    match portOfLane s lane with
    | none => s
    | some p => if x.cls < cls then s.modPort p (fun y => { y with laneQ := y.laneQ ++ [(lane, cls)] }) else s
/-- Chervil classes a lane. -/
def effLaneClassify (lane : Nat) (s : State) : State :=
  onlyIf (!(s.lane lane).errs.isEmpty) s (setClass lane (laneClass (s.lane lane)) s)
/-- Loss of lock or signal for 1 us: the lane is Failed. -/
def effLaneFailed (lane : Nat) (s : State) : State := setClass lane 3 s

/-! ### Lane changes (R87-R91) -/

/-- The oldest lane event of a port, Marginal or Failing, is answered by a swap; a Marginal lane without a spare is an event only (Table 03-8, R88). -/
def effLaneSwap (port : Nat) (s : State) : State :=
  let x := s.port port
  match x.laneQ with
  | [] => s
  | (l, cls) :: rest =>
    if cls = 3 ∨ !mayChange s port then s
    else if !x.pos.contains l then s.setPort port { x with laneQ := rest }
    else match spareFor s port with
      | some n => useSpare port l n (laneChange port l 5 (substitute l n x.pos) (substitute l n x.lanes) s)
      | none => if cls = 1 then s.setPort port { x with laneQ := rest } else s
/-- A Failing lane without a spare, or a Failed one, narrows its port; with no healthy lane the port goes to DOWN (R89). -/
def effLaneNarrow (port : Nat) (s : State) : State :=
  let x := s.port port
  match x.laneQ with
  | [] => s
  | (l, cls) :: rest =>
    if cls = 1 ∨ (cls = 2 ∧ (spareFor s port).isSome) ∨ !mayChange s port then s
    else if !x.lanes.contains l then s.setPort port { x with laneQ := rest }
    else
      let healthy := healthyLanes s x l
      let n := fitLanes (max 1 (x.lanes.length / 2)) healthy.length
      if n = 0 then portToDown port s
      else setLink port .narrowed (laneChange port l 3 x.pos (lowest n healthy) s)
/-- A narrowed port widens onto a Good hot spare, and is UP when every position is healthy again (R89). -/
def effLaneWiden (port : Nat) (s : State) : State :=
  let x := s.port port
  if x.st != .narrowed ∨ !mayChange s port then s
  else match brokenLane s x with
    | none =>
      let t := laneChange port (x.pos.getD 0 0) 4 x.pos x.pos s
      setLink port .up (t.modPort port (fun y => { y with laneQ := x.laneQ }))
    | some l =>
      match spareFor s port with
      | none => s
      | some n =>
        let pos := substitute l n x.pos
        let healthy := healthyLanes s { x with pos := pos } l
        let lanes := lowest (fitLanes (fullCount s port) healthy.length) healthy
        let t := useSpare port l n (laneChange port l 4 pos lanes s)
        let t := t.modPort port (fun y => { y with laneQ := x.laneQ })
        if lanes.length = fullCount s port then setLink port .up t else t
/-- A retired lane that is not Failed is retrained, at most three times, every 10 s (R91). -/
def effRetiredLaneRetrain (lane : Nat) (trained : Bool) (s : State) : State :=
  let x := s.lane lane
  onlyIf (x.retired && decide (x.cls < 3) && decide (x.retrains < 3) && x.goodSince.isNone && passed s x.retrainAt 10000000000) s
    (s.setLane lane { x with
      retrains := x.retrains + 1, retrainAt := now s, cls := if trained then 0 else x.cls,
      goodSince := if trained then some (now s) else none })
/-- A retrained lane that has stayed Good for 60 s is a hot spare of its port (R91). -/
def effHotSpareRestore (lane : Nat) (s : State) : State :=
  let x := s.lane lane
  match x.goodSince with
  | none => s
  | some t => onlyIf (x.retired && x.cls == 0 && passed s t 60000000000) s
      (s.setLane lane { x with retired := false, hot := true, goodSince := none, retrains := 0 })

/-! ### Fences (R92-R94) -/

/-- Violations of a row in the last millisecond. -/
def inWindow (s : State) (p row : Nat) : Nat :=
  ((mget [] row (s.port p).violAt).filter (fun t => decide (now s < t + 1000000))).length
/-- A port is fenced, with its record and its announcement to a partner that can hear it; a lane change is abandoned (R90, R94). The row of Table 03-10 counts from 1. -/
def fencePort (p row n : Nat) (s : State) : State :=
  let alive := linkAlive s p
  let s := emit (dieOf p) 0x0102 3 p row n 0
    ((setLink p .fenced s).modPort p (fun x => { x with change := none, partnerDue := none, laneQ := [] }))
  if alive then sendNbr p 5 0 (natBytes 2 p ++ natBytes 1 row ++ natBytes 1 0 ++ natBytes 4 n ++ natBytes 8 (now s)) s else s
/-- A threshold is reached: the port is fenced (R92, R94). -/
def effPortFence (port row : Nat) (s : State) : State :=
  match fenceThreshold row with
  | none => s
  | some n =>
    let c := inWindow s port row
    onlyIf (linkAlive s port && (s.port port).st != .fenced && fenceEn s port && decide (n ≤ c)) s (fencePort port (row + 1) c s)

/-! ### Meanings -/

/-- LINK_FRAME_RECEIVE (R72). -/
def execLinkFrameReceive (port : Nat) (frame : List Byte) (s : State) : Host.Outcome State Fault Refusal :=
  unit (isPort port && frame.length == 256) s (effLinkFrameReceive port frame s)

/-- CONTROL_FRAME_RECEIVE (R69). -/
def execControlFrameReceive (port : Nat) (frame : List Byte) (s : State) : Host.Outcome State Fault Refusal :=
  unit (isPort port && frame.length == 256) s (effControlFrameReceive port frame s)

/-- CONTROL_FRAME_SEND (R70). -/
def execControlFrameSend (port : Nat) (s : State) : Host.Outcome State Fault Refusal :=
  unit (isPort port) s (effControlFrameSend port s)

/-- ACK_TIMEOUT_REPLAY (R73). -/
def execAckTimeoutReplay (port : Nat) (s : State) : Host.Outcome State Fault Refusal :=
  unit (isPort port) s (effAckTimeoutReplay port s)

/-- KEY_UPDATE_START (R80). -/
def execKeyUpdateStart (port : Nat) (s : State) : Host.Outcome State Fault Refusal :=
  unit (isPort port) s (effKeyUpdateStart port s)

/-- SIGNAL_DETECT (R82). -/
def execSignalDetect (port : Nat) (s : State) : Host.Outcome State Fault Refusal :=
  unit (isPort port) s (effSignalDetect port s)

/-- TRAIN_R_TIMEOUT (R82). -/
def execTrainRTimeout (port : Nat) (s : State) : Host.Outcome State Fault Refusal :=
  unit (isPort port) s (effTrainRTimeout port s)

/-- TRAIN_F_START (R84). -/
def execTrainFStart (port : Nat) (s : State) : Host.Outcome State Fault Refusal :=
  unit (isPort port) s (effTrainFStart port s)

/-- TRAIN_F_HALF_DONE (R84). -/
def execTrainFHalfDone (port : Nat) (s : State) : Host.Outcome State Fault Refusal :=
  unit (isPort port) s (effTrainFHalfDone port s)

/-- TRAIN_F_TIMEOUT (R83). -/
def execTrainFTimeout (port : Nat) (s : State) : Host.Outcome State Fault Refusal :=
  unit (isPort port) s (effTrainFTimeout port s)

/-- LANE_MONITOR_SAMPLE (R85). -/
def execLaneMonitorSample (lane : Nat) (mon : LaneMon) (s : State) : Host.Outcome State Fault Refusal :=
  unit (isLane lane) s (effLaneMonitorSample lane mon s)

/-- MARGIN_SCAN (R85). -/
def execMarginScan (lane : Nat) (s : State) : Host.Outcome State Fault Refusal :=
  unit (isLane lane) s (effMarginScan lane s)

/-- LANE_CLASSIFY (R86). -/
def execLaneClassify (lane : Nat) (s : State) : Host.Outcome State Fault Refusal :=
  unit (isLane lane) s (effLaneClassify lane s)

/-- LANE_FAILED (R86). -/
def execLaneFailed (lane : Nat) (s : State) : Host.Outcome State Fault Refusal :=
  unit (isLane lane) s (effLaneFailed lane s)

/-- LANE_SWAP (R88). -/
def execLaneSwap (port : Nat) (s : State) : Host.Outcome State Fault Refusal :=
  unit (isPort port) s (effLaneSwap port s)

/-- LANE_NARROW (R89). -/
def execLaneNarrow (port : Nat) (s : State) : Host.Outcome State Fault Refusal :=
  unit (isPort port) s (effLaneNarrow port s)

/-- LANE_WIDEN (R89). -/
def execLaneWiden (port : Nat) (s : State) : Host.Outcome State Fault Refusal :=
  unit (isPort port) s (effLaneWiden port s)

/-- RETIRED_LANE_RETRAIN (R91). -/
def execRetiredLaneRetrain (lane : Nat) (trained : Bool) (s : State) : Host.Outcome State Fault Refusal :=
  unit (isLane lane) s (effRetiredLaneRetrain lane trained s)

/-- HOT_SPARE_RESTORE (R91). -/
def execHotSpareRestore (lane : Nat) (s : State) : Host.Outcome State Fault Refusal :=
  unit (isLane lane) s (effHotSpareRestore lane s)

/-- PORT_FENCE (R94). -/
def execPortFence (port : Nat) (row : Nat) (s : State) : Host.Outcome State Fault Refusal :=
  unit (isPort port && decide (row < 9)) s (effPortFence port row s)


end Sys2Proof.Machine
end

