-- ==== Sys2Proof/Machine/MapOps.lean ====
section
/-!
DEFINITION. Messages of the map protocol (R412, Table 15-7).
-/
namespace Sys2Proof.Machine

/-- MTYPE of Table 15-7. -/
def mapStaged : Nat := 1
def mapFlip : Nat := 2
def mapFlipped : Nat := 3
def mapAbort : Nat := 4
def mapRetired : Nat := 5
/-- A MAPMSG of the map thread to a node: TC6, context 0, no payload. -/
def mapMessage (mtype mseq coord status dst : Nat) (s : State) : State :=
  sendFrom (448 + reservedCore s 0)
    (mkPkt 6 opMAPMSG 0 (ctxKgen s 0) s.tab.cur dst s.boot.node 0 0 (mtype + 2 ^ 4 * mseq + 2 ^ 36 * coord + 2 ^ 50 * status) []) s
/-- MTYPE of a message. -/
def mmType (p : Packet) : Nat := hfld p 128 4
/-- A message is an event of the map thread, of type 0x01 with SVC 0 and the 16 header bytes as its payload (R412). -/
def mapEvent (p : Packet) (s : State) : State :=
  let h := mapThread s
  let m : Mail := { origin := if pSrc p ≠ s.boot.node then 0 else 1, ctx := pCtx p, src := pSrc p, tag := pTag p, tc := p.tc, data := natBytes 16 (hfld p 128 128), at_ := now s }
  let a := stash (h / 32) m.data s
  raiseThread h 1 (mailEvent m false a.1) a.2

end Sys2Proof.Machine
end

