-- ==== Sys2Proof/Machine/RouteOps.lean ====
section
/-!
DEFINITION. Shared operations of routing between modules: the link-state record and database, shortest paths, the epoch group that the map thread stages, and edge bindings (R138, R412, R413, R530, R543-R545; log 57).
-/
namespace Sys2Proof.Machine

/-! ### The link-state record (R530, R544) -/

/-- Trunk ports with a neighbour: endpoint code, neighbour, usable. A departing module's are unusable, and so are the ports to a departing neighbour (R528, R550). -/
def ownTrunks (s : State) : List (Nat × Nat × Bool) :=
  (s.ports.filter (fun e => portExists s e.1 && isTrunk s e.1)).filterMap (fun e =>
    e.2.bound.map (fun n => (e.1, n, s.boot.depart == 0 && !portDown s e.1 && !(s.nbr n).departing)))
/-- Nodes bound to edges of this module. -/
def ownEdges (s : State) : List Nat := distinct ((s.ports.filter (fun e => portExists s e.1 && !isTrunk s e.1)).filterMap (fun e => e.2.bound))
/-- The record of this module. -/
def ownRec (s : State) (seq : Nat) : LinkRec :=
  { node := s.boot.node, seq := seq, trunks := ownTrunks s, edges := ownEdges s, discDone := s.boot.discDone }
/-- The own record in the database is not what stands now: a flood is due. -/
def floodDue (s : State) : Bool :=
  match mfind? s.boot.node s.map.db with
  | some r => decide (ownRec s r.seq ≠ r)
  | none => true
/-- A record leaves on every trunk port that carries TC6 but the one it came by. -/
def sendRecord (r : LinkRec) (but : Nat) (s : State) : State :=
  ((s.ports.filter (fun e => e.1 != but && portExists s e.1 && isTrunk s e.1 && carries e.2.st 6)).map (·.1)).foldl (fun s p => put (.linkState p r) s) s

/-! ### Shortest paths (R530) -/

/-- Modules at rising distance from those of a frontier, against the direction of travel. -/
def pathLevels (db : SMap LinkRec) : Nat → Nat → List Nat → SMap Nat → SMap Nat
  | 0, _, _, d => d
  | f + 1, k, front, d =>
    let next := (db.filter (fun e => !mhas e.1 d && e.2.trunks.any (fun (t : Nat × Nat × Bool) => t.2.2 && front.contains t.2.1))).map (·.1)
    if next.isEmpty then d else pathLevels db f (k + 1) next (next.foldl (fun d n => mput n (k + 1) d) d)
/-- Hops to a module from every module that reaches it. -/
def hopsTo (db : SMap LinkRec) (m : Nat) : SMap Nat := pathLevels db db.length 0 [m] [(m, 0)]
/-- Modules that this one reaches, itself among them. -/
def fabricMods (s : State) : List Nat :=
  (s.map.db.filter (fun e => (s.tab.mseq == 0 || e.2.discDone) && mhas s.boot.node (hopsTo s.map.db e.1))).map (·.1)
/-- The lowest-numbered module of the fabric. -/
def coordinator (s : State) : Nat := (fabricMods s).foldl min s.boot.node
/-- Up to eight trunk ports toward next hops to a module, lowest first. -/
def portsToward (s : State) (m : Nat) : List Nat :=
  let d := hopsTo s.map.db m
  match mfind? s.boot.node d with
  | none => []
  | some k => (((ownTrunks s).filter (fun (t : Nat × Nat × Bool) => t.2.2 && mfind? t.2.1 d == some (k - 1))).map (·.1)).take 8

/-! ### The change set of a module (R413, R530) -/

/-- Image of a route over ports. -/
def routeOf (l : List Nat) : Nat := (l.mapIdx (fun i p => 2 ^ (10 * i) * p)).sum + 2 ^ 80 * (l.length - 1)
/-- Nodes with an entry of their own that a route reaches. -/
def routedNodes (s : State) : List Nat := (listedIdx s 0x0010).filter (fun n => fld (entry s 0x0010 n) 0 3 == 1)
/-- Route indices that no node of a list has, in order. -/
def freeRoutes (s : State) (kept : List Nat) : List Nat :=
  let used := kept.map (fun n => fld (entry s 0x0010 n) 3 12)
  (List.range 4096).filter (fun i => !used.contains i)
/-- Nodes on other modules, each with the ports toward it. -/
def remoteNodes (s : State) : List (Nat × List Nat) :=
  let own := ownEdges s
  ((s.map.db.filter (fun e => e.1 != s.boot.node)).flatMap (fun e =>
    let l := portsToward s e.1
    ((e.1 :: e.2.edges).filter (fun n => !own.contains n && n != s.boot.node)).map (fun n => (n, l)))).filter (fun (x : Nat × List Nat) => !x.2.isEmpty)
/-- The epoch group of this module: a route for each set of ports, a node entry for each node beyond a trunk, and no entry for a node that none reaches any more. -/
def routeGroup (s : State) : SMap Nat :=
  let far := remoteNodes s
  let own := ownEdges s
  let kept := (routedNodes s).filter (fun n => own.contains n)
  let free := freeRoutes s kept
  let routes := distinct (far.map (fun (x : Nat × List Nat) => routeOf x.2))
  let at_ := fun (r : Nat) => free.getD (routes.idxOf r) 0
  let gone := (routedNodes s).filter (fun n => !own.contains n && !far.any (fun (x : Nat × List Nat) => x.1 == n))
  groupOf (routes.map (fun r => (0x0011, at_ r, r)) ++ far.map (fun (x : Nat × List Nat) => (0x0010, x.1, 1 + 2 ^ 3 * at_ (routeOf x.2))) ++ gone.map (fun n => (0x0010, n, 0)))
/-- The change set of this module: what software has staged in the map thread's group, else what the route computation gives (R412). -/
def changeSet (s : State) : SMap Nat :=
  let g := (s.thread (mapThread s)).group
  if g.isEmpty then routeGroup s else g
/-- The set would change the map, or no map has been installed yet. -/
def changeNeeded (s : State) : Bool := s.tab.mseq == 0 || (changeSet s).any (fun e => entry s (e.1 / 2 ^ 24) (e.1 % 2 ^ 24) != e.2)

/-! ### Staging, flipping, aborting (Table 15-8) -/

/-- The map thread stages its change set and checks it as an epoch group: the status of its TCHECK. -/
def stageMap (s : State) : Nat × State :=
  let h := mapThread s
  let grp := changeSet s
  if grp.any (fun e => stagedElsewhere s h e.1) then (stBusy, s)
  else
    let s := s.modThread h (fun t => { t with group := grp, groupOpen := true })
    let r := reportOf (groupFails s h true)
    let s := s.modThread h (fun t => { t with check := some { ok := r == 0, epoch := true, commits := s.tab.commits } })
    if r = 0 then (stOK, { s with tab := { s.tab with pend := grp, pendThread := h, pending := true } }) else (r % 16, s)
/-- The module has staged: its epoch group is pending. -/
def stagedMap (s : State) : Bool := s.tab.pending && s.tab.pendThread == mapThread s
/-- The pending group flips as a sequence of the map; a commit made since its TCHECK has it checked again first (R408, R411). -/
def flipMap (mseq : Nat) (s : State) : Option State :=
  let h := mapThread s
  if !stagedMap s || reportOf (groupFails s h true) != 0 then none
  else
    let s := applyGroup (s.thread h).group (threadDie h) true s
    let s := s.modThread h (fun t => { t with group := [], groupOpen := false, check := none })
    some { s with tab := { s.tab with pendThread := h, mseq := mseq, cur := mseq % 4 } }
/-- The coordinator gives a change up: every module aborts its group, and the change is tried again 10 ms later. -/
def abortChange (c : Change) (s : State) : State :=
  let s := (c.mods.filter (· != s.boot.node)).foldl (fun s m => mapMessage mapAbort c.mseq s.boot.node 0 m s) s
  let s := dropGroup (mapThread s) s
  { s with map := { s.map with change := none, abortAt := some (now s) } }
/-- The database has changed: a change that is being staged aborts, by the coordinator or by its STAGED with BUSY_RETRY. -/
def noteDb (before : State) (s : State) : State :=
  let s := { s with map := { s.map with dbAt := now s } }
  match s.map.change with
  | some c => if c.step = 1 then abortChange c s else s
  | none => if stagedMap s then mapMessage mapStaged (s.tab.mseq + 1) (coordinator before) stBusy (coordinator before) s else s

/-! ### Edge bindings (R138, R543, R545) -/

/-- A node's entry and route at an edge port, by an ordinary commit of the map thread. -/
def commitEdge (node port : Nat) (s : State) : State :=
  match (freeRoutes s ((routedNodes s).filter (· != node))).head? with
  | none => s
  | some r => (serviceCommit (mapThread s) (groupOf [(0x0011, r, routeOf [port]), (0x0010, node, 1 + 2 ^ 3 * r)]) s).2
/-- A node bound to an edge port: a binding of it on another edge of this module moves here. -/
def bindEdge (node port : Nat) (s : State) : State :=
  let s := (s.ports.filter (fun e => e.1 != port && e.2.bound == some node && !isTrunk s e.1)).foldl (fun s e =>
    s.modPort e.1 (fun x => { x with bound := none })) s
  commitEdge node port (s.modPort port (fun x => { x with bound := some node }))
/-- The binding of an edge port removed, with the node's entry. -/
def unbindEdge (port : Nat) (s : State) : State :=
  match (s.port port).bound with
  | none => s
  | some node =>
    let s := s.modPort port (fun x => { x with bound := none })
    (serviceCommit (mapThread s) (groupOf [(0x0010, node, 0)]) s).2

end Sys2Proof.Machine
end

