-- ==== Sys2Proof/Machine/DiscOps.lean ====
section
/-!
DEFINITION. Shared operations of neighbour discovery: HELLO, certificate chunks, the transcript, and how a port's discovery ends (R541-R544, R487; log 61).
-/
namespace Sys2Proof.Machine

/-- The module's HELLO payload: KIND module, the stage, a fresh key and nonce (Table 20-4). -/
def helloBytes (s : State) (key nonce : Nat) : List Byte :=
  natBytes 2 s.boot.node ++ natBytes 1 1 ++ natBytes 1 s.boot.stage ++ natBytes 4 0 ++ padTo 96 (Config.ephemeral key) ++ natBytes 32 nonce
/-- The module's certificate chunks: its Alias certificate, then its chain, the last one shorter than 1,024 B. -/
def ownChunks (s : State) : List (List Byte) :=
  let der := Config.aliasCert (s.image (mget 0 0 s.sec.inUse)).digest ++ Config.certChain
  let l := chunksOf 1024 der.length der
  let l := l.map (fun c => padTo (8 * ceilDiv c.length 8) c)
  if (l.getLastD []).length = 1024 ∨ l = [] then l ++ [List.replicate 8 0] else l
/-- The port may discover its neighbour: BU2 has begun, its link carries frames. -/
def mayDiscover (s : State) (p : Nat) : Bool := decide (2 ≤ s.boot.stage) && linkAlive s p && (s.port p).st != .fenced
/-- HELLO goes out, for the first time or again. -/
def sendHello (p : Nat) (s : State) : State :=
  sendNbr p 1 0 (s.port p).ownHello (s.modPort p (fun x => { x with helloAt := now s }))
/-- Discovery begins on a port with a new key and nonce. -/
def startDiscovery (p : Nat) (s : State) : State :=
  if !mayDiscover s p then s
  else
    let a := draw s
    let b := draw a.2
    sendHello p (b.2.modPort p (fun x => { x with
      disc := .helloSent, discAt := now s, ownHello := helloBytes s a.1 b.1, peerHello := [], peerCert := [] }))
/-- The certificate chunks go out. -/
def sendCerts (p : Nat) (s : State) : State :=
  ((ownChunks s).mapIdx (fun i c => (i, c))).foldl (fun s (c : Nat × List Byte) => sendNbr p 2 c.1 c.2 s) s
/-- Node ID and KIND that a partner claims. -/
def claimOf (hello : List Byte) : Nat := byteAt hello 0 2
def kindOf (hello : List Byte) : Nat := byteAt hello 2 1
/-- TH: the HELLO payloads and the chunks, those of the end with the lower claimed node ID first (R542). -/
def transcript (s : State) (p : Nat) : BitVec 384 :=
  let x := s.port p
  let own := (ownChunks s).flatten
  Config.sha384 (if s.boot.node ≤ claimOf x.peerHello then x.ownHello ++ x.peerHello ++ own ++ x.peerCert
    else x.peerHello ++ x.ownHello ++ x.peerCert ++ own)
/-- A port is abandoned: it has no keys; its record is written once, and again only for another cause (R542, R543). -/
def abandonPort (p cause : Nat) (s : State) : State :=
  let old := (s.port p).discCause
  let s := s.modPort p (fun x => { x with disc := .abandoned, discAt := now s, keyed := false, discCause := some cause })
  if old = some cause then s else emit (dieOf p) 0x0F02 2 p cause 0 0 s
/-- The claimed node is MODULE_NODE, or bound to another edge of this module that is not DOWN (R543). -/
def claimRefused (s : State) (p node : Nat) : Bool :=
  node == s.boot.node || s.ports.any (fun e => e.1 != p && portExists s e.1 && !isTrunk s e.1 && e.2.bound == some node && e.2.st != .down)
/-- Link keys of the hop under the transcript (R487). -/
def keyPort (p : Nat) (th : BitVec 384) (s : State) : State :=
  let dir := if s.boot.node ≤ claimOf (s.port p).peerHello then 0 else 1
  s.modPort p (fun x => { x with
    keyed := true, th := th, dir := dir, txU := 0, rxU := 0, txKey := Config.linkKey th dir 0, rxKey := Config.linkKey th (1 - dir) 0
    rxKeyNext := none, txOld := none, keyWord := 0, partnerKey := 0, rxPhase := false, txPhase := false, txUpdate := none, rxUpdate := none, txCtr := 0, rxCtr := 0, keyAt := now s
    disc := .done, discCause := none })
/-- Discovery has succeeded: keys, and the neighbour or the edge node bound (R542, R543). -/
def bindPort (p : Nat) (s : State) : State :=
  let node := claimOf (s.port p).peerHello
  let s := keyPort p (transcript s p) s
  if isTrunk s p then
    (s.modPort p (fun x => { x with bound := some node })).modNbr node (fun x => { x with heard := now s })
  else if (s.port p).bound = some node then s
  else bindEdge node p s

end Sys2Proof.Machine
end

