-- ==== Sys2Proof/Machine/HostOps.lean ====
section
/-!
DEFINITION. Shared operations of the host interface: functions and their vectors, registers, rings and completions, ownership, result windows and message FIFOs (R414-R438, R450, R451, R457; choices: log 54).
-/
namespace Sys2Proof.Machine

/-! ### Functions (R415, R416, R418, R450, R451) -/

def funcKey (port func : Nat) : Nat := 128 * port + func
/-- MSI-X vectors and result windows of a function (Tables 16-2 and 16-3). -/
def vectorCount (func : Nat) : Nat := if func = 0 then 2048 else 64
def windowCount (func : Nat) : Nat := if func = 0 then 1024 else 64
/-- The host reaches the registers of a function: link up, dies out of reset, the VF enabled, no FLR under way. -/
def funcUp (s : State) (port func : Nat) : Bool :=
  (s.hport port).linkUp && s.boot.coreUp && (s.func (funcKey port func)).flrAt.isNone
    && (func == 0 || ((s.hport port).vfEn && decide (func ≤ (s.hport port).numVfs)))
/-- The context that a function is bound to. -/
def boundTo (s : State) (port func : Nat) : Option Nat := if funcUp s port func then funcCtx s port func else none
/-- TDISP lets the function send requests: neither locked nor in error. -/
def tdiSends (s : State) (port func : Nat) : Bool :=
  (s.func (funcKey port func)).tdi == .unlocked || (s.func (funcKey port func)).tdi == .run
/-- Requests of a running TDI carry the T bit. -/
def tBit (s : State) (port func : Nat) : Bool := (s.func (funcKey port func)).tdi == .run
/-- A host's request reaches a function: one to a running TDI without the T bit is an Unsupported Request (R451). -/
def heard (s : State) (port func : Nat) (tb : Bool) : Bool := tb || !tBit s port func
/-- A function may fetch descriptors: bound to an OPEN context, its TDI lets it, in D0, not stopped. -/
def mayFetch (s : State) (port func : Nat) : Bool :=
  (boundTo s port func).any (fun c => ctxState s c == 1) && tdiSends s port func
    && !(s.func (funcKey port func)).d3
/-- Writes of a function to host memory. -/
def toHost (port func addr : Nat) (data : List Byte) (s : State) : State := put (.hostWrite port func (tBit s port func) addr data) s
/-- A read of host memory. -/
def fromHost (port func addr len : Nat) (s : State) : State := put (.hostRead port func (tBit s port func) addr len) s
/-- A function sends a vector, a VF as Table 17-5 states: none while unbound or while its context is not OPEN, and a pending bit in CONFIG_LOCKED. -/
def sendVec (port func vec : Nat) (s : State) : State :=
  if func = 0 then sendMsix port 0 vec s
  else match funcCtx s port func with
    | none => s
    | some c =>
      if ctxState s c ≠ 1 ∨ (s.func (funcKey port func)).tdi = .error then s
      else if (s.func (funcKey port func)).tdi = .locked then
        s.modFunc (funcKey port func) (fun f => { f with pba := insertSet vec f.pba })
      else sendMsix port func vec s
/-- Pending vectors that nothing holds back any more go out. -/
def sendPending (port func : Nat) (s : State) : State :=
  (s.func (funcKey port func)).pba.foldl (fun s v =>
    sendVec port func v (s.modFunc (funcKey port func) (fun f => { f with pba := eraseSet v f.pba }))) s

/-! ### Registers (R417) -/

/-- An access of 4 or 8 bytes, aligned. -/
def regAccess (off size : Nat) : Bool := (size == 4 || size == 8) && off % size == 0
/-- A 64-bit register after a write of 4 or 8 bytes. -/
def regMerge (old off size value : Nat) : Nat :=
  if size = 8 then value % 2 ^ 64 else if off % 8 = 0 then setFld old 0 32 value else setFld old 32 32 value
/-- FUNCSTAT (Table 16-7). -/
def funcStat (s : State) (port func : Nat) : Nat :=
  (funcCtx s port func).getD 0 + 2 ^ 10 * b2n (funcCtx s port func).isSome + 2 ^ 11 * func + 2 ^ 18 * port
/-- MOWN (Table 16-8). -/
def mown (s : State) : Nat :=
  s.hst.owner + 4 * b2n s.hst.waiting + 2 ^ 16 * s.hst.refused
    + 2 ^ 32 * (if s.hst.owner = 0 then 0 else (s.hst.ownEnd - now s) / 1000000)
/-- Words of the FIFO store in use. -/
def fifoWords (s : State) : Nat := (s.hst.fifos.map (fun e => e.2.words.length)).sum
/-- FIFO_ERR (Table 16-4). -/
def fifoErr (s : State) : Nat :=
  (65536 - fifoWords s) + 2 ^ 17 * s.hst.fifoCorr + 2 ^ 33 * s.hst.fifoUnc + 2 ^ 49 * b2n s.hst.cfgRefused
/-- A write only the owner's PF may make: another port's is ignored and counted (R419, R435). -/
def ownerWrite (port : Nat) (f : State → State) (s : State) : State :=
  if s.hst.owner = port + 1 then f s else { s with hst := { s.hst with refused := satAdd 16 s.hst.refused 1 } }

/-! ### Ownership (R422, R423) -/

/-- Ownership changes at one module time on both ports: OWNER_CHG, the record, and the bits of MODSTAT. -/
def setOwner (o : Nat) (s : State) : State :=
  let t := { s with hst := { s.hst with
    owner := o
    waiting := false
    ownEnd := if o = 0 then 0 else now s + 1000000 * s.hst.ownLease } }
  setModBit 8 (emitClass 6 0x0B o 0 0 0 (modEdges s t))
/-- The lease ends: a WAITING port becomes the owner, or none. -/
def endOwnership (s : State) : State := if s.hst.waiting then setOwner (3 - s.hst.owner) s else setOwner 0 s

/-! ### Rings (R424-R431) -/

def State.sq (s : State) (port func q : Nat) : SQ := mget {} q (s.func (funcKey port func)).sqs
def State.modSq (s : State) (port func q : Nat) (f : SQ → SQ) : State :=
  s.modFunc (funcKey port func) (fun x => { x with sqs := mmod {} q f x.sqs })
def State.cq (s : State) (port func q : Nat) : CQ := mget {} q (s.func (funcKey port func)).cqs
def State.modCq (s : State) (port func q : Nat) (f : CQ → CQ) : State :=
  s.modFunc (funcKey port func) (fun x => { x with cqs := mmod {} q f x.cqs })
/-- Vectors of a completion ring: at COAL_CNT unsignalled entries, at once without COAL_US (R431). -/
def signalCq (port func q : Nat) (s : State) : State :=
  let c := s.cq port func q
  if c.unsig = 0 ∨ (c.unsig < max 1 c.coalCnt ∧ c.coalUs ≠ 0) then s
  else sendVec port func c.vector (s.modCq port func q (fun c => { c with unsig := 0 }))
/-- Bytes of a completion entry (Table 16-11). -/
def cqBytes (e : CEntry) (phase : Bool) : List Byte :=
  padTo 40 e.payload ++ natBytes 8 e.cookie ++ natBytes 2 e.index ++ natBytes 1 (e.sq + 8 * b2n (e.resaddr != 0))
    ++ natBytes 1 (e.payload.length / 8) ++ natBytes 2 e.head ++ natBytes 9 0 ++ natBytes 1 (128 * b2n phase)
/-- A ring has no room for an entry. -/
def cqFull (c : CQ) : Bool := (c.tail + 1) % 2 ^ c.log2 == c.head
/-- An entry written at TAIL in two posted writes behind its payload at RESADDR (R429). -/
def writeCqEntry (port func q : Nat) (e : CEntry) (s : State) : State :=
  let c := s.cq port func q
  let b := cqBytes e c.phase
  let s := if e.resaddr = 0 then s else toHost port func e.resaddr (padTo 64 e.payload) s
  let s := toHost port func (c.base + 64 * c.tail + 60) (b.drop 60) (toHost port func (c.base + 64 * c.tail) (b.take 60) s)
  let s := s.modCq port func q (fun c => { c with
    tail := (c.tail + 1) % 2 ^ c.log2
    phase := if c.tail + 1 = 2 ^ c.log2 then !c.phase else c.phase
    unsigAt := if c.unsig = 0 then now s else c.unsigAt
    unsig := c.unsig + 1 })
  signalCq port func q s
/-- Completions that the rings of a function hold. -/
def heldCount (s : State) (port func : Nat) : Nat := ((s.func (funcKey port func)).cqs.map (fun e => e.2.held.length)).sum
/-- A completion ring can take an entry, or hold it: a function holds 256 at most (R430). -/
def cqTakes (s : State) (port func q : Nat) : Bool :=
  let c := s.cq port func q
  !c.en || (!cqFull c && c.held.isEmpty && (s.hport port).linkUp) || decide (heldCount s port func < 256)
/-- A submission ring feeds a completion ring: it names it, and is enabled or awaits completions. -/
def feedsCq (s : State) (port func q i : Nat) : Bool :=
  let x := s.sq port func i
  x.cq == q && (x.en || !x.out.isEmpty)
/-- ERR set on every submission ring that feeds a completion ring. -/
def feedErr (port func q : Nat) (s : State) : State :=
  (List.range 8).foldl (fun s i => if feedsCq s port func q i then s.modSq port func i (fun x => { x with err := true }) else s) s
/-- A completion for its ring: a disabled ring discards it, a full one, or one whose function is stopped, holds it (R430, R459). -/
def pushEntry (port func q : Nat) (e : CEntry) (s : State) : State :=
  let c := s.cq port func q
  if !c.en then (feedErr port func q s).modSq port func e.sq (fun x => { x with err := true })
  else if cqFull c || !c.held.isEmpty || !(s.hport port).linkUp then
    s.modCq port func q (fun c => { c with held := c.held ++ [e] })
  else writeCqEntry port func q e s
/-- Held completions go out while their ring has room. -/
def releaseHeld (port func q : Nat) (s : State) : State :=
  (s.cq port func q).held.foldl (fun s e =>
    let c := s.cq port func q
    if !c.en || cqFull c || !(s.hport port).linkUp then s
    else writeCqEntry port func q e (s.modCq port func q (fun c => { c with held := c.held.tail }))) s
/-- Index and expected phase of the next entry to fetch. -/
def nextEntry (x : SQ) : Nat × Bool :=
  let i := x.head + x.fetched.length
  if i < 2 ^ x.log2 then (i, x.phase) else (i - 2 ^ x.log2, !x.phase)
/-- PHASE of a descriptor. -/
def descPhase (d : List Byte) : Bool := bit (byteAt d 63 1) 7
/-- A ring may fetch: enabled, its completion ring enabled and holding no completion back (R430), the function allowed to. -/
def ringFetches (s : State) (port func sq : Nat) : Bool :=
  let x := s.sq port func sq
  x.en && (s.cq port func x.cq).en && (s.cq port func x.cq).held.isEmpty && mayFetch s port func
/-- The next descriptor as host memory holds it: fetched if its PHASE is the expected one, else read again later (R426). -/
def fetchEntry (port func sq : Nat) (d : List Byte) (s : State) : State :=
  let x := s.sq port func sq
  let n := nextEntry x
  if n.1 = x.tail ∨ !ringFetches s port func sq then s
  else
    let s := fromHost port func (x.base + 64 * n.1) 64 s
    if descPhase d == n.2 then
      s.modSq port func sq (fun x => { x with fetched := x.fetched ++ [(n.1, padTo 64 d)], repoll := 0, repollAt := 0 })
    else s.modSq port func sq (fun x => { x with repoll := x.repoll + 1, repollAt := now s })
/-- Descriptors fetched in order up to the first with another PHASE. -/
def fetchEntries (port func sq : Nat) (l : List (List Byte)) (s : State) : State :=
  l.foldl (fun s d => if (s.sq port func sq).repoll ≠ 0 then s else fetchEntry port func sq d s) s
/-- The first fetched descriptor consumed: HEAD passes it. -/
def consumeDesc (port func sq : Nat) (s : State) : State :=
  s.modSq port func sq (fun x => { x with
    fetched := x.fetched.tail
    head := (x.head + 1) % 2 ^ x.log2
    phase := if x.head + 1 = 2 ^ x.log2 then !x.phase else x.phase })
/-- A completion of the module's own for a descriptor: its status alone. -/
def descDone (port func sq idx status : Nat) (d : List Byte) (s : State) : State :=
  let x := s.sq port func sq
  pushEntry port func x.cq { payload := natBytes 8 status, cookie := byteAt d 24 8, index := idx, sq := sq, head := x.head } s
/-- A descriptor refused: VIOLATION, and ERR of its ring. -/
def descRefused (port func sq idx : Nat) (d : List Byte) (s : State) : State :=
  descDone port func sq idx stViolation d (s.modSq port func sq (fun x => { x with err := true }))
/-- A reserved field of a descriptor is set (Table 16-10). -/
def descReserved (d : List Byte) : Bool :=
  bit (byteAt d 0 1) 7 || byteAt d 6 2 != 0 || byteAt d 56 7 != 0 || fld (byteAt d 63 1) 0 7 != 0
def descType (d : List Byte) : Nat := fld (byteAt d 0 1) 0 4
/-- First tag of a submission ring (R428). -/
def ringTag (port func sq : Nat) : Nat := 786432 + 131072 * port + 1024 * func + 128 * sq
/-- Entries of NOCMP requests that were not refused in time are gone (log 54). -/
def dropAccepted (port func sq : Nat) (s : State) : State :=
  s.modSq port func sq (fun x => { x with out := x.out.filter (fun r => !(r.nocmp && passed s r.at_ (2 * pathBound s))) })
/-- A sequence of a ring that no request uses and that is not held. -/
def freeSeq (s : State) (port func sq : Nat) : Option Nat :=
  let x := s.sq port func sq
  let f := s.func (funcKey port func)
  ((List.range 128).map (fun i => (x.seq + i) % 128)).find? (fun n =>
    x.out.all (fun r => r.seq != n) && x.heldSeq.all (fun h => h.1 != n || reached s h.2)
      && f.heldTags.all (fun h => h.1 != 128 * sq + n || reached s h.2))

/-! ### Result windows (R432-R434) -/

def State.window (s : State) (port func w : Nat) : Window := mget {} w (s.func (funcKey port func)).wins
def State.setWindow (s : State) (port func w : Nat) (x : Window) : State :=
  s.modFunc (funcKey port func) (fun f => { f with wins := mset {} w x f.wins })
/-- Header of a window (Table 16-12). -/
def windowHead (x : Window) : Nat :=
  (if x.ready then stOK else stNotReady) + 2 ^ 16 * x.seq + 2 ^ 32 * x.rcount + 2 ^ 48 * x.len
/-- A post into a window, none while it is READY. -/
def postWindow (port func w : Nat) (data : List Byte) (s : State) : Option State :=
  let x := s.window port func w
  if x.ready then none
  else some (s.setWindow port func w { ready := true, seq := (x.seq + 1) % 65536, rcount := 0, len := data.length, data := data })
/-- A window EMPTY with its SEQ kept (R434, R554). -/
def emptyWindow (x : Window) : Window := { seq := x.seq }
/-- The 64 bytes of a window as a read returns them; an EMPTY one reads NOT_READY, its SEQ and zeros (R433). -/
def windowBytes (x : Window) : List Byte :=
  let x := if x.ready then x else emptyWindow x
  natBytes 8 (windowHead x) ++ padTo 56 x.data

/-! ### Message FIFOs (R435-R438) -/

def ffEn (x : Fifo) : Bool := bit x.cfg 0
def ffToHost (x : Fifo) : Bool := bit x.cfg 1
def ffPort (x : Fifo) : Nat := fld x.cfg 2 1
def ffFunc (x : Fifo) : Nat := fld x.cfg 3 7
def ffMax (x : Fifo) : Nat := fld x.cfg 10 16
def ffHigh (x : Fifo) : Nat := fld x.cfg 26 16
def ffLow (x : Fifo) : Nat := fld x.cfg 42 16
def ffVector (x : Fifo) : Nat := fld x.cfg 64 11
/-- A FIFO is in use and belongs to a function. -/
def ffOwned (x : Fifo) (port func : Nat) : Bool := ffEn x && ffPort x == port && ffFunc x == func
/-- FULL (R436). -/
def fifoFull (s : State) (f : Nat) : Bool := (s.fifo f).words.length == ffMax (s.fifo f) || decide (65536 ≤ fifoWords s)
/-- The function whose BAR0 shows a FIFO's port (R436). -/
def ffNamed (x : Fifo) (port func : Nat) : Bool := ffPort x == port && ffFunc x == func
/-- FSTAT (Table 16-15); FULL of a FIFO in use. -/
def fstat (s : State) (f : Nat) : Nat :=
  let x := s.fifo f
  x.words.length + 2 ^ 16 * b2n x.words.isEmpty + 2 ^ 17 * b2n (ffEn x && fifoFull s f) + 2 ^ 18 * b2n x.above + 2 ^ 19 * b2n x.underrun
    + 2 ^ 20 * b2n x.overflow + 2 ^ 21 * b2n x.dataerr + 2 ^ 48 * x.corr
/-- ABOVE after a change of FILL, and its interrupt, once per change (R438). -/
def watermark (f : Nat) (s : State) : State :=
  let x := s.fifo f
  let n := x.words.length
  if !x.above && decide (ffHigh x ≤ n) then
    let s := s.setFifo f { x with above := true }
    if bit x.cfg 58 then sendVec (ffPort x) (ffFunc x) (ffVector x) s else s
  else if x.above && decide (n ≤ ffLow x) then
    let s := s.setFifo f { x with above := false }
    if bit x.cfg 59 then sendVec (ffPort x) (ffFunc x) (ffVector x) s else s
  else s
/-- Words pushed, oldest first; the FIFO has room for them. -/
def fifoPush (f : Nat) (w : BitVec 64) (s : State) : State :=
  watermark f (s.modFifo f (fun x => { x with words := x.words ++ [w] }))
/-- The oldest word leaves. -/
def fifoDrop (f : Nat) (s : State) : State := watermark f (s.modFifo f (fun x => { x with words := x.words.tail }))
/-- A FIFO flushed: its words return to the store and its flags are clear; its configuration is kept. -/
def flushFifo (x : Fifo) : Fifo := { cfg := x.cfg }
/-- FCO pins asserted: FCO[n] follows ABOVE of the FIFO that FCOSEL byte n names (R438); low while PWRGD is low (R603). -/
def fcoPin (s : State) (n : Nat) : Bool := s.boot.pwrgd && bit s.hst.fcoen n && (s.fifo (fld s.hst.fcosel (8 * n) 8)).above

/-! ### Resets of functions (R553, R554) -/

/-- Outstanding requests of a function's rings with the module time until which their tags rest. -/
def heldRequests (s : State) (f : Func) : List (Nat × Nat) :=
  f.heldTags.filter (fun h => !reached s h.2)
    ++ f.sqs.flatMap (fun e => e.2.out.map (fun r => (128 * e.1 + r.seq, now s + pathBound s))
        ++ (e.2.heldSeq.filter (fun h => !reached s h.2)).map (fun h => (128 * e.1 + h.1, h.2)))
/-- A function reset: rings, MSI-X and TDI; its windows EMPTY with SEQ kept; its tags rest. -/
def resetFunc (port func : Nat) (s : State) : State :=
  let s := s.modFunc (funcKey port func) (fun f =>
    { wins := (f.wins.map (fun e => (e.1, emptyWindow e.2))).filter (fun e => decide (e.2 ≠ {})), flrAt := f.flrAt
      heldTags := heldRequests s f })
  { s with hst := { s.hst with fifos := s.hst.fifos.map (fun (e : Nat × Fifo) => if ffPort e.2 = port ∧ ffFunc e.2 = func then (e.1, flushFifo e.2) else e) } }
/-- Descriptors of a port that are not over end with one status if moving, with another if not. -/
def endDmas (port : Nat) (which : Dma → Bool) (moving other : Nat) (s : State) : State :=
  let f := fun (d : Dma) => if d.status.isNone && which d then { d with status := some (if d.moving then moving else other) } else d
  s.modHport port (fun h => { h with rdq := h.rdq.map f, wrq := h.wrq.map f })
/-- The VFs of a port reset, and the contexts bound to them close (R459, R553). -/
def resetVfs (port cause : Nat) (s : State) : State :=
  let s := (boundCtxs s port).foldl (fun s c => closeContext c cause s) s
  let s := (List.range 127).foldl (fun s i => if mhas (funcKey port (i + 1)) s.hst.funcs then resetFunc port (i + 1) s else s) s
  let s := { s with hst := { s.hst with fifos := s.hst.fifos.map (fun (e : Nat × Fifo) =>
    if ffPort e.2 = port ∧ ffFunc e.2 ≠ 0 then (e.1, flushFifo e.2) else e) } }
  s.modHport port (fun h => { h with vfEn := false, numVfs := 0, ideTdi := [] })

end Sys2Proof.Machine
end

