-- ==== Sys2Proof/Machine/LinkDown.lean ====
section
/-!
DEFINITION. Shared operations of a host link that goes down and comes back (R390, R459, Table 17-6).
-/
namespace Sys2Proof.Machine

/-- Host-tier pages behind a port are lost (R390). -/
def losePagesBehind (port : Nat) (s : State) : State := (pagesBehind s port).foldl (fun s p => losePage p s) s
/-- A host link goes down without PERST: DMA in progress completes PATH_LOST, contexts stay, vectors become pending bits (Table 17-6). -/
def hostLinkDown (port : Nat) (s : State) : State :=
  if !(s.hport port).linkUp then s
  else losePagesBehind port
    (endDmas port (fun d => d.moving) stPathLost stPathLost (s.modHport port (fun h => { h with linkUp := false })))
/-- Functions of a port with state of their own. -/
def listedFuncs (s : State) (port : Nat) : List Nat :=
  ((mkeys s.hst.funcs).filter (fun k => k / 128 == port)).map (· % 128)
/-- What a function has held back goes out: completions, then pending vectors. -/
def resumeFunc (port func : Nat) (s : State) : State :=
  sendPending port func ((mkeys (s.func (funcKey port func)).cqs).foldl (fun s q => releaseHeld port func q s) s)
/-- The link is up: rings resume (Table 17-6). -/
def hostLinkUp (port : Nat) (s : State) : State :=
  (listedFuncs s port).foldl (fun s f => resumeFunc port f s) (s.modHport port (fun h => { h with linkUp := true }))

end Sys2Proof.Machine
end

