-- ==== Sys2Proof/Machine/Codec.lean ====
section
/-!
DEFINITION. Meanings of the codec jobs (R361-R363; log 55).
-/
namespace Sys2Proof.Machine

/-! ### Job fields (Table 12-3) -/

def cjFmt (v : Nat) : Nat := fld v 4 4
def cjTid (v : Nat) : Nat := fld v 8 12
def cjAlias (v : Nat) : Nat := fld v 28 14
def cjSrc (v : Nat) : Nat := fld v 64 64
def cjDst (v : Nat) : Nat := fld v 128 64
def cjLines (v : Nat) : Nat := fld v 192 32
def codecRun (s : State) (k : Nat) : CodecRun := mget {} k s.cod.runs
def setRun (k : Nat) (r : CodecRun) (s : State) : State := { s with cod := { s.cod with runs := mput k r s.cod.runs } }
/-- The job is over with a status; the first one stands. -/
def finishJob (k st : Nat) (s : State) : State := setRun k { codecRun s k with fin := some ((codecRun s k).fin.getD st) } s
/-- A job runs with an operation and is not over. -/
def jobRuns (s : State) (k op : Nat) : Bool :=
  jobState (codecJob s k) == 1 && jobOp (codecJob s k) == op && mhas k s.cod.runs && (codecRun s k).fin.isNone
/-- The alias is a multicast alias of this module whose group has one leg, the codec port of the die (R361). -/
def aliasOk (s : State) (die a : Nat) : Bool :=
  let n := entry s 0x0010 a
  let g := entry s 0x0018 (fld n 3 12)
  fld n 0 3 == 4 && bit g 27 && fld g 16 11 == 1 && fld (entry s 0x0019 (fld g 0 16)) 0 10 == 780 + die
/-- A pool address word of a job: NL and the reserved bits are zero. -/
def wordOk (a : Nat) : Bool := fld a 56 2 == 0 && fld a 61 3 == 0
/-- Lines that the output may take. -/
def dstLines (v : Nat) : Nat := cjLines v + ceilDiv (cjLines v) 64
/-- Source and output ranges meet. -/
def jobOverlaps (v : Nat) : Bool :=
  paNode (cjSrc v) == paNode (cjDst v) && rangesMeet (paLaddr (cjSrc v)) (cjLines v) (paLaddr (cjDst v)) (dstLines v)
/-- A job that ends with VIOLATION whatever its data. -/
def jobBad (s : State) (die v : Nat) : Bool :=
  !aliasOk s die (cjAlias v) || !(cjFmt v == 2 || cjFmt v == 3) || !inRange 1 1048576 (cjLines v) || !wordOk (cjSrc v)
    || (jobOp v != 1 && (!wordOk (cjDst v) || jobOverlaps v))
/-- The table store lies on M1 and cannot be read (R401, R512). -/
def storeDown (s : State) : Bool := s.tier.stacksFailed.contains 1

/-! ### The codec's requests (R161, R163, R361) -/

/-- The next tag of a die's codec that no request uses. -/
def codecTag (die : Nat) (s : State) : Nat :=
  let c := mget 0 die s.cod.nextTag
  let used := (s.cod.runs.filter (fun e => e.1 / 8 == die)).flatMap (fun e => e.2.out.map (fun r => pTag r.pkt))
  let free := fun t => !used.contains t && (match mfind? (2 ^ 20 * die + t) s.cod.tagHold with
    | some u => reached s u
    | none => true)
  (((List.range 65536).map (fun i => (c + i) % 2 ^ 20)).find? free).getD c
/-- A request of a job goes out at the codec port and is outstanding. -/
def codecSend (k : Nat) (r : OwnReq) (s : State) : State :=
  let die := k / 8
  let t := codecTag die s
  let r := { r with pkt := setH (setH (setH r.pkt 65 20 t) 19 2 s.tab.cur) 21 6 (ctxKgen s (pCtx r.pkt)), at_ := now s, retryAt := none }
  let s := { s with cod := { s.cod with
    nextTag := mset 0 die ((t + 1) % 2 ^ 20) s.cod.nextTag
    tagHold := mdel (2 ^ 20 * die + t) s.cod.tagHold } }
  sendFrom (466 + die) r.pkt (setRun k { codecRun s k with out := (codecRun s k).out ++ [r] } s)
/-- Lines written from the next output line of a job on. -/
def codecWrite (k : Nat) (data : List Byte) (s : State) : State :=
  let v := codecJob s k
  let x := codecRun s k
  let a := cjDst v
  let s := ((poolPieces data).mapIdx (fun i d => (i, d))).foldl (fun s (y : Nat × List Byte) =>
    let n := y.2.length / 64
    let up := (paLaddr a + x.sent + 4 * y.1) % 2 ^ 42 + 2 ^ 42 * (n - 1)
    let p := mkPkt (paTc a) (if n = 1 then opWR64 else opWRN) x.ctx 0 0 (paNode a) (cjAlias v) 0 0 up y.2
    codecSend k { pkt := p } s) s
  setRun k { codecRun s k with sent := x.sent + data.length / 64 } s
/-- Source lines of the present step asked for up to a number of them. -/
def codecAsk (k n : Nat) (s : State) : State :=
  let v := codecJob s k
  let x := codecRun s k
  let a := cjSrc v
  let s := (List.range (ceilDiv (n - x.asked) 4)).foldl (fun s i =>
    let at_ := x.asked + 4 * i
    let c := min 4 (n - at_)
    let up := (paLaddr a + x.read + at_) % 2 ^ 42 + 2 ^ 42 * (c - 1)
    codecSend k { pkt := mkPkt (paTc a) (if c = 1 then opRD64 else opRDN) x.ctx 0 0 (paNode a) (cjAlias v) 0 0 up [], arg := at_ } s) s
  setRun k { codecRun s k with asked := max x.asked n } s
/-- The first n lines of the present step, once they have come; they are asked for where they have not been. -/
def codecLines (k n : Nat) (s : State) : Option (List Byte) × State :=
  let x := codecRun s k
  if x.asked < n then (none, codecAsk k n s)
  else if x.out.any (fun r => isMemRead (pOp r.pkt)) then (none, s)
  else (some ((x.buf.map (·.2)).flatten), s)
/-- The present step is over: so many source lines are done. -/
def codecNext (k n : Nat) (s : State) : State :=
  setRun k { codecRun s k with read := (codecRun s k).read + n, asked := 0, buf := [], slot := 0 } s
/-- A response at the codec port: one whose tag is not outstanding there is discarded and counted. -/
def codecResponse (die : Nat) (s : State) (p : Packet) : State :=
  let mine := fun (r : OwnReq) => pTag r.pkt == pTag p && responseOp (pOp r.pkt) == pOp p && r.retryAt.isNone
  match s.cod.runs.find? (fun e => e.1 / 8 == die && e.2.out.any mine) with
  | none =>
    if mhas (2 ^ 20 * die + pTag p) s.cod.tagHold then
      { s with cod := { s.cod with
        tagHold := mdel (2 ^ 20 * die + pTag p) s.cod.tagHold } }
    else { s with mf := { s.mf with strayTags := s.mf.strayTags + 1 } }
  | some (k, x) =>
    match popFirst mine x.out with
    | none => s
    | some (r, rest) =>
      let st := pStatus p
      if retriable st && decide (r.tries < ownRetries s x.ctx) then
        setRun k { x with out := rest ++ [{ r with last := some st, retryAt := some (retryDue s r st) }] } s
      else if st = stOK ∧ isMemRead (pOp r.pkt) then setRun k { x with out := rest, buf := mput r.arg p.payload x.buf } s
      else if st = stOK then setRun k { x with out := rest, wrote := x.wrote + r.pkt.payload.length / 64 } s
      else finishJob k st (setRun k { x with out := rest } s)
/-- The responses that stand at a die's codec port are taken. -/
def codecResponses (die : Nat) (s : State) : State :=
  let r := s.mf.modIn.partition (fun (x : Packet × Nat) => x.2 == 466 + die)
  r.1.foldl (fun s (x : Packet × Nat) => codecResponse die s x.1) { s with mf := { s.mf with modIn := r.2 } }
/-- An unanswered tag is held until PATH_BOUND from now (R161). -/
def holdCodecTag (k tag : Nat) (s : State) : State :=
  { s with cod := { s.cod with
    tagHold := mput (2 ^ 20 * (k / 8) + tag) (now s + pathBound s) s.cod.tagHold } }
/-- A write of a job that is due again goes out; one unanswered for the context's timeout is tried again when PATH_BOUND has passed, or ends the job. -/
def codecRetry (k : Nat) (r : OwnReq) (s : State) : State :=
  let x := codecRun s k
  let hold := fun (s : State) => holdCodecTag k (pTag r.pkt) s
  let rest := x.out.filter (fun q => pTag q.pkt != pTag r.pkt)
  let again := setRun k { x with out := rest ++ [{ r with lost := true, retryAt := some (r.at_ + pathBound s) }] }
  match r.retryAt with
  | some t => if reached s t then codecSend k { r with pkt := setH r.pkt 93 1 1, tries := r.tries + 1 } (setRun k { x with out := rest } s) else s
  | none =>
    if !passed s r.at_ (ownTimeout s x.ctx) then s
    else if r.tries < ownRetries s x.ctx then again (hold s)
    else finishJob k (r.last.getD stTimeout) (setRun k { x with out := rest } (hold s))
/-- What has come back for a job, and what is due. -/
def codecSettle (k : Nat) (s : State) : State :=
  let s := codecResponses (k / 8) s
  (codecRun s k).out.foldl (fun s r => codecRetry k r s) s

/-! ### The operations (R362) -/

/-- A table installed as CURRENT of its TID: the former one becomes PREVIOUS (R358). -/
def installTable (k slot : Nat) (lens : List Nat) (s : State) : State :=
  let v := codecJob s k
  let gen := mget 0 (cjTid v) s.cod.lastGen % 16
  let s := match currentSlot s (cjTid v) with
    | some o => setTslot o (setFld (tslot s o) 0 2 2) s
    | none => s
  let s := setTslot slot (1 + 2 ^ 3 * cjFmt v + 2 ^ 7 * cjTid v + 2 ^ 19 * gen) s
  setCodecJob k (setFld v 20 4 gen) { s with cod := { s.cod with
    lens := mset [] slot lens s.cod.lens
    lastGen := mset 0 (cjTid v) (gen + 1) s.cod.lastGen } }
/-- A TID has a PREVIOUS or RETIRING slot. -/
def replacing (s : State) (tid : Nat) : Bool := s.cod.slots.any (fun e => decide (2 ≤ tsState e.2) && tsTid e.2 == tid)
/-- Lines of the source that the next step of a job takes at most. -/
def nextLines (s : State) (k most : Nat) : Nat := min most (cjLines (codecJob s k) - (codecRun s k).read)
/-- A step of a job: nothing where it is over; one whose fields are bad ends; responses are taken first (R361). -/
def codecStep (die job op : Nat) (go : Nat → State → State) (s : State) : State :=
  let k := 8 * die + job
  if !jobRuns s k op then s
  else if jobBad s die (codecJob s k) then finishJob k stViolation s
  else
    let s := codecSettle k s
    if !jobRuns s k op || decide (448 < (codecRun s k).out.length) then s else go k s
/-- BUILD counts the exponents of its scope 64 lines at a time, and then installs the table (R356, R358, R362). -/
def buildStep (k : Nat) (s : State) : State :=
  let v := codecJob s k
  let n := nextLines s k 64
  if n = 0 then
    if replacing s (cjTid v) || storeDown s then finishJob k stBusy s
    else match leastBelow 4096 (fun n => tsState (tslot s n) == 0) with
      | none => finishJob k stBusy s
      | some slot => finishJob k stOK (installTable k slot (buildLens (codecRun s k).hist) s)
  else match codecLines k n s with
    | (none, s) => s
    | (some data, s) =>
      let h := expHist (cjFmt v) data
      codecNext k n (setRun k { codecRun s k with hist := (if (codecRun s k).hist.isEmpty then h else ((codecRun s k).hist.zip h).map (fun x => x.1 + x.2)) } s)
def effCodecBuild (die job : Nat) (s : State) : State := codecStep die job 1 buildStep s
/-- Raw bytes coded as one block and written; a TID without a CURRENT table ends the job, and an unreadable store leaves every block RAW. -/
def codeBlock (k take : Nat) (raw : List Byte) (s : State) : State :=
  let v := codecJob s k
  let go := fun (b : List Byte) (s : State) => codecWrite k b (codecNext k take s)
  if storeDown s then go (rawBlock (cjFmt v) raw) s
  else match currentSlot s (cjTid v) with
    | none => finishJob k stViolation s
    | some n =>
      let gen := tsGen (tslot s n)
      go (encodeBlock (cjFmt v) (cjTid v) gen (lensOf s n) raw) (setCodecJob k (setFld v 20 4 gen) s)
/-- ENCODE codes its next 64 lines (R362). -/
def encodeStep (k : Nat) (s : State) : State :=
  let n := nextLines s k 64
  if n = 0 then s
  else match codecLines k n s with
    | (none, s) => s
    | (some data, s) => codeBlock k n data s
def effCodecEncode (die job : Nat) (s : State) : State := codecStep die job 2 encodeStep s
/-- The header of the next stored block is read, and then the lines it declares; the block is decoded under its own header, its table counted on from the header's coming, and coded again (R28, R359, R362, R363). -/
def recodeStep (k : Nat) (s : State) : State :=
  let left := nextLines s k 65
  if left = 0 then s
  else match codecLines k 1 s with
    | (none, s) => s
    | (some head, s) =>
      let h := byteAt head 0 16
      let s := if (codecRun s k).asked = 1 ∧ (codecRun s k).slot = 0 then
          setRun k { codecRun s k with slot := if headerOk h && !bhRaw h then ((slotNamed s h).map (· + 1)).getD 0 else 0 } s else s
      let slot := (codecRun s k).slot
      if !headerOk h then finishJob k stViolation s
      else match codecLines k (min left (bhClen h)) s with
        | (none, s) => s
        | (some data, s) =>
          match (if slot = 0 then none else waitTable (qkey (466 + k / 8) (paTc (cjSrc (codecJob s k)))) (k / 8) (slot - 1) s) with
          | some t => t
          | none =>
            let r := decodeBlock (if slot = 0 then none else some (lensOf s (slot - 1))) data
            if r.1 ≠ stOK then settleSlots (finishJob k r.1 (setRun k { codecRun s k with slot := 0 } s)) else settleSlots (codeBlock k (bhClen h) r.2 s)
def effCodecReencode (die job : Nat) (s : State) : State := codecStep die job 3 recodeStep s
/-- The job is over, and no request of it is outstanding: DONE with its status and OUT. -/
def effCodecJobDone (die job : Nat) (s : State) : State :=
  let k := 8 * die + job
  if jobState (codecJob s k) ≠ 1 ∨ !mhas k s.cod.runs then s
  else
    let s := codecSettle k s
    let x := codecRun s k
    let ended := x.fin.isSome || (jobOp (codecJob s k) != 1 && x.read == cjLines (codecJob s k))
    if !ended || !x.out.isEmpty then s
    else setCodecJob k (setFld (setFld (setFld (codecJob s k) 0 2 2) 24 4 (x.fin.getD stOK)) 224 32 x.wrote) s

/-- CODEC_BUILD (R362). -/
def execCodecBuild (die : Nat) (job : Nat) (s : State) : Host.Outcome State Fault Refusal :=
  unit (isPortDie die && isJob job) s (effCodecBuild die job s)

/-- CODEC_ENCODE (R362). -/
def execCodecEncode (die : Nat) (job : Nat) (s : State) : Host.Outcome State Fault Refusal :=
  unit (isPortDie die && isJob job) s (effCodecEncode die job s)

/-- CODEC_REENCODE (R362). -/
def execCodecReencode (die : Nat) (job : Nat) (s : State) : Host.Outcome State Fault Refusal :=
  unit (isPortDie die && isJob job) s (effCodecReencode die job s)

/-- CODEC_JOB_DONE (R362). -/
def execCodecJobDone (die : Nat) (job : Nat) (s : State) : Host.Outcome State Fault Refusal :=
  unit (isPortDie die && isJob job) s (effCodecJobDone die job s)


end Sys2Proof.Machine
end

