-- ==== Sys2Proof/Machine/Reliability.lean ====
section
/-!
DEFINITION. Meanings of patrol, sparing, degradation, margins and shadow checks (R500-R521; log 58).
-/
namespace Sys2Proof.Machine

/-! ### Ends of operations whose tile has failed (R511) -/

/-- One operation ends at once: its creator gets STATE_LOST, its tags are outstanding no more, its slot is FREE. -/
def failSlot (n : Nat) (s : State) : State :=
  let st := (s.slot n).st
  if st == .free then s
  else
    let s := if st == .cooling then s
      else
        let t := endOp n stStateLost 0 s
        raiseThread (t.slot n).creator 2 (opCompletion n (t.slot n)) t
    let s := { s with mf := { s.mf with own := s.mf.own.filter (fun e => !(decide (e.2.user ≤ 1) && e.2.unit == n)) } }
    retirePrograms (clusterOf (slotTile n))
      (s.modSlot n (fun x => { x with st := .free, outst := 0, gen := if st == .cooling then x.gen else wrapAdd 12 x.gen 1 }))
/-- Operations of a tile that are not FREE. -/
def slotsOf (s : State) (t : Nat) : List Nat := (s.ctl.slots.filter (fun e => slotTile e.1 == t && e.2.st != .free)).map (·.1)

/-! ### Lost words of the packet buffer (R502) -/

/-- 32 B words of a packet's chain that are lost, place in the chain and word of the cell, of a map from cell index to lost words. -/
def lostWords (lost : Nat → List Nat) (cells : List Nat) : List (Nat × Nat) :=
  (List.range cells.length).flatMap (fun j => (lost (cells.getD j 0)).map (fun w => (j, w)))
/-- Lines of a payload that a word of a chain touches: word w of cell j carries its bytes 128j + 32w - 32 to 128j + 32w - 1. -/
def wordLines (p : Packet) (h : Nat × Nat) : List Nat :=
  (List.range (ceilDiv p.payload.length 64)).filter (fun l =>
    decide (64 * l < 128 * h.1 + 32 * h.2 ∧ 128 * h.1 + 32 * h.2 < 64 * l + 96))
/-- An RDRSP whose payload has lost words: the lines are marked in PMASK with zero data, and it is POISON (R502). -/
def poisonLines (hits : List (Nat × Nat)) (p : Packet) : Packet :=
  let lost := hits.flatMap (wordLines p)
  if lost.isEmpty then p
  else
  let q := setH (setH p 172 4 (lost.foldl (fun m l => m ||| 2 ^ l) (pPmask p))) 85 4 stPoison
  { q with payload := (List.range p.payload.length).map (fun i => if lost.contains (i / 64) then 0 else p.payload.getD i 0) }
/-- A packet goes on although it has lost words: none of them, or lines of an RDRSP behind its header (R502). Word 4 stands for a cell's pointer to the next. -/
def survives (hits : List (Nat × Nat)) (p : Packet) : Bool :=
  hits.isEmpty || (pOp p == opRDRSP && !hits.contains (0, 0) && hits.all (fun h => decide (h.2 < 4)))
/-- A packet lost with a word: one that has lost its header is counted; a request is answered TIMEOUT, anything else is counted (R502). -/
def loseWords (die : Nat) (hits : List (Nat × Nat)) (p : Packet) (s : State) : State :=
  if hits.contains (0, 0) then lostPacket (homeEp die) s else refuseAt (homeEp die) p stTimeout 0 s
/-- Packets of a queue with a lost word. -/
def loseInQueue (die : Nat) (lost : Nat → List Nat) (k : Nat) (s : State) : State :=
  let l := (s.queue k).pkts
  let keep := fun (x : QPkt) => survives (lostWords lost x.cells) x.pkt
  if l.all (fun x => (lostWords lost x.cells).isEmpty) then s
  else
    let s := s.modQueue k (fun q => { q with
      pkts := (l.filter keep).map (fun x => { x with pkt := poisonLines (lostWords lost x.cells) x.pkt }) })
    let s := (l.filter (fun x => !keep x)).foldl (fun s x =>
      releaseLeg die x (if x.leg = 0 then loseWords die (lostWords lost x.cells) x.pkt s else lostPacket (k / 8) s)) s
    if l.head?.any keep then s else clockQueue (k / 8) (k % 8) (tagHead (k / 8) k s)
/-- Packets of a parked FIFO with a lost word. -/
def loseInPark (die : Nat) (lost : Nat → List Nat) (k : Nat) (s : State) : State :=
  let l := (s.park k).pkts
  let keep := fun (x : Parked) => survives (lostWords lost x.cells) x.pkt
  if l.all (fun x => (lostWords lost x.cells).isEmpty) then s
  else
    let s := s.modPark k (fun q => { q with
      pkts := (l.filter keep).map (fun x => { x with pkt := poisonLines (lostWords lost x.cells) x.pkt }) })
    (l.filter (fun x => !keep x)).foldl (fun s x =>
      leaveHeadroom (k / 8) (k % 8) x.head (clearCells x.cells (loseWords die (lostWords lost x.cells) x.pkt s))) s
/-- Every packet of a die with a lost word (R502). -/
def loseCells (die : Nat) (lost : Nat → List Nat) (s : State) : State :=
  let s := ((mkeys s.sw.queues).filter (fun k => coreOfEp (k / 8) == die)).foldl (fun s k => loseInQueue die lost k s) s
  ((mkeys s.sw.parked).filter (fun k => ingDie (k / 8) == die)).foldl (fun s k => loseInPark die lost k s) s

/-! ### Patrol (R500-R504) -/

/-- A counter of Table 19-2 after what a read found: corrected at the key, uncorrectable behind it. -/
def countSeen (key : Nat) (seen : EccSeen) (s : State) : State :=
  match seen with
  | .clean => s
  | .corrected => relCount key 1 s
  | .uncorrectable => relCount (key + 1) 1 s
/-- SEC-DED words of every memory. -/
def countSecded (seen : EccSeen) (s : State) : State := countSeen 2592 seen s
/-- The home's line buffer holds the line of an HBM address. -/
def bufferedAt (s : State) (line : Nat) : Bool := s.mf.lines.any (fun e => hbmAddr s e.1 / 64 == line)
/-- A line of HBM is poisoned and holds zero data. -/
def poisonAt (line : Nat) (s : State) : State :=
  { s with mf := { s.mf with
    hbm := memWrite s.mf.hbm (64 * line) (List.replicate 64 0)
    poison := insertSet line s.mf.poison } }
/-- The last line of a stack: 36 GiB of frames (R382, R401). -/
def lastLine (line : Nat) : Bool := line % 2 ^ 30 == 603979775
/-- A line of HBM: a poisoned one is left unchanged; an uncorrectable one is poisoned unless the line buffer replaces it. -/
def patrolHbm (line : Nat) (seen : EccSeen) (s : State) : State :=
  let key := 2560 + 8 * (line / 2 ^ 30)
  let s := if lastLine line then relCount (key + 2) 1 s else s
  if s.mf.poison.contains line then s
  else
    let s := countSeen key seen s
    if seen == .uncorrectable && !bufferedAt s line then poisonAt line s else s
/-- Tables with a row in an entry bank. -/
def tablesOfBank (s : State) (b : Nat) : List Nat :=
  (listedIdx s 0x0020).filter (fun t =>
    let v := searchTable s t
    stEn v && decide (stFirst v < 2048 * (b + 1) ∧ 2048 * b < stFirst v + stRows v))
/-- Rows of an entry bank become invalid, with a record for each table affected (R505). -/
def losePeridotBank (b : Nat) (s : State) : State :=
  if s.rel.peridotGone.contains b then s
  else
    let tables := tablesOfBank s b
    let s := { s with
      rel := { s.rel with peridotGone := insertSet b s.rel.peridotGone }
      per := { s.per with rows := s.per.rows.filter (fun e => e.1 / 2048 != b) } }
    let s := if tables.isEmpty then emitClass 6 0x0E b 65535 0 0 s else tables.foldl (fun s t => emitClass 6 0x0E b t 0 0 s) s
    capacity 3 2 (4 + b / 32) b 0 (131072 - 2048 * s.rel.peridotGone.length) s
/-- An entry of a committed table is absent to lookups (R500). -/
def loseEntry (id idx : Nat) (s : State) : State := emit 6 0x0E00 4 id idx 0 0 (setEntry s id idx 0)
/-- Agents of the two entries of a snoop filter word. -/
def wordAgents (s : State) (die word : Nat) : List Nat :=
  if [2 * word, 2 * word + 1].any (fun k => fent s (1048576 * die + k) != 0) then [2 * word / 16384] else []
/-- The directory backing of a core die is on M0 or M2 (Table 14-7). -/
def backingDown (s : State) (die : Nat) : Bool := s.tier.stacksFailed.contains (2 * die)
/-- HBM line of a filter word's backing, 8 B a word from the start of its region (Table 14-7; log 29). -/
def backingLine (die word : Nat) : Nat := (2 * die * 2 ^ 36 + 0x810000000 + 8 * word) / 64
/-- A filter word is restored from its backing; where the copy is unreadable as well, every agent with an entry in the word is dead (R184). -/
def patrolFilter (die word : Nat) (s : State) : State :=
  if !backingDown s die && !s.mf.poison.contains (backingLine die word) then
    let b := mget 0 (524288 * die + word) s.coh.backing
    let k := 1048576 * die + 2 * word
    { s with coh := { s.coh with filter := mset 0 (k + 1) (fld b 32 24) (mset 0 k (fld b 0 24) s.coh.filter) } }
  else
    let agents := wordAgents s die word
    emit (4 + die) 0x0400 4 die word 0 0 (agents.foldl (fun s a => killAgent a s) s)
/-- A word of the home line buffer is lost: its line is poisoned (R500). -/
def patrolBuffer (line : Nat) (s : State) : State := if mhas line s.mf.lines then poisonLine line s else s
/-- A cell's pointer in the link table is lost: its packet is absent to the scheduler, with a critical record, and a request is answered as in R502 (R500; log 58). -/
def loseLink (c : Nat) (s : State) : State :=
  loseCells (c / 32768 / 48) (fun d => if d = c then [4] else []) (emit 6 0x0E00 4 0xFFFE c 0 0 s)
/-- A queue's pointers are lost: all of its packets are absent to the scheduler, with a critical record (R500; log 58). -/
def loseQueue (k : Nat) (s : State) : State :=
  let die := coreOfEp (k / 8)
  let pkts := (s.queue k).pkts
  let s := emit 6 0x0E00 4 0xFFFF k 0 0 (clockQueue (k / 8) (k % 8)
    (s.modQueue k (fun q => { q with pkts := [], tag := none, woke := true, blocked := false })))
  pkts.foldl (fun s x => releaseLeg die x (if x.leg = 0 then loseWords die [] x.pkt s else lostPacket (k / 8) s)) s
/-- A patrol read corrects, rewrites and counts as a demand read does. -/
def effPatrolRead (place : PatrolAt) (seen : EccSeen) (s : State) : State :=
  let ue := seen == .uncorrectable
  match place with
  | .hbm line => patrolHbm line seen s
  | .bank b => countSeen (4 * b) seen s
  | .cell c w =>
    let s := countSeen (4 * (c / 32768)) seen s
    if ue then loseCells (c / 32768 / 48) (fun d => if d = c then [w] else []) s else s
  | .link c =>
    let s := countSecded seen s
    if ue then loseLink c s else s
  | .queue k =>
    let s := countSecded seen s
    if ue then loseQueue k s else s
  | .lineBuffer line => if ue then patrolBuffer line s else s
  | .scratch t w =>
    if (s.tile t).poison.contains w then s
    else
      let s := countSeen (512 + 8 * t) seen s
      if ue then s.modTile t (fun x => { x with scratch := memWrite x.scratch (32 * w) (List.replicate 32 0), poison := insertSet w x.poison }) else s
  | .descriptor n =>
    let s := countSecded seen (countSeen (514 + 8 * slotTile n) seen s)
    if ue then failSlot n s else s
  | .table id idx =>
    if !(isCommitted id && tblHas s id idx) then s
    else
      let s := countSecded seen s
      if ue then loseEntry id idx s else s
  | .filter die word =>
    let s := countSecded seen s
    if ue then patrolFilter die word s else s
  | .peridot b => if ue then losePeridotBank b (countSecded seen s) else countSecded seen s
  | .store cl w =>
    let s := countSecded seen s
    if ue then { s with ctl := { s.ctl with storeBad := insertSet (8192 * cl + w) s.ctl.storeBad } } else s

/-! ### Rows and banks (R505-R508) -/

/-- A spare row of a macro, four in each. -/
def effRowRepair (macro_ : Nat) (s : State) : State :=
  onlyIf (chervilRuns s && decide (mget 0 macro_ s.rel.rows < 4)) s
    (emitClass 6 0x0E macro_ 0 0 0 { s with rel := { s.rel with rows := mmod 0 macro_ (· + 1) s.rel.rows } })
/-- What still has a cell in a bank is treated as R502 states for an uncorrectable word in its payload (R508). -/
def clearBank (die b : Nat) (s : State) : State := loseCells die (fun c => if c / 32768 = 48 * die + b then [1, 2, 3] else []) s
/-- Active banks of a core die. -/
def activeBanks (s : State) (die : Nat) : Nat := 48 - (s.buf die).bankRetired.length
/-- A step of R102: its record and its capacity report. -/
def poolStep (die b : Nat) (s : State) : State :=
  capacity 3 2 (4 + die) b 0 (activeBanks s die) (emitClass 6 0x02 b (s.buf die).resSize (s.buf die).hrCut 0 s)
/-- The credits of a die's ports follow its headroom. -/
def dieCredits (die : Nat) (before s : State) : State :=
  ((List.range 384).filter (fun p => portExists s p && coreOf p == die)).foldl (fun s p => flipCredits before s p) s
/-- The headroom of a die falls in steps of 64 cells until the pool is large enough (R102). -/
def lowerHeadroom (die b : Nat) : Nat → State → State
  | 0, s => s
  | f + 1, s =>
    if 131072 ≤ poolSize s die ∨ 16384 ≤ (s.buf die).hrCut then s
    else lowerHeadroom die b f (poolStep die b (dieCredits die s (s.modBuf die (fun x => { x with hrCut := x.hrCut + 64 }))))
/-- A retirement must leave 131,072 cells of the pool: the collective reserve is halved first (R102). -/
def keepPool (die b : Nat) (s : State) : State :=
  let s := if poolSize s die < 131072 ∧ (s.buf die).resSize = 65536 then
      poolStep die b (s.modBuf die (fun x => { x with resSize := 32768 })) else s
  lowerHeadroom die b 256 s
/-- The spare takes the bank's number, or the bank is retired (R508). -/
def endBankSpare (die b : Nat) (s : State) : State :=
  let n := 48 * die + b
  let s := s.modBuf die (fun x => { x with bankStop := mdel b x.bankStop })
  if 0 < (s.buf die).bankSpares then
    let s := s.modBuf die (fun x => { x with bankSpares := x.bankSpares - 1 })
    let keep : Nat × Nat → Bool := fun e => decide (1024 ≤ e.1) || e.1 / 8 != n
    let s := { s with rel := { s.rel with rows := s.rel.rows.filter keep, cols := s.rel.cols.filter keep } }
    capacity 3 1 (4 + die) n (s.buf die).bankSpares (activeBanks s die) (emitClass 6 0x0E n 0 0 0 s)
  else
    let s := notePool die (s.modBuf die (fun x => { x with bankRetired := insertSet b x.bankRetired }))
    keepPool die n (capacity 3 2 (4 + die) n 0 (activeBanks s die) (emitClass 6 0x0E n 0 0 0 s))
/-- A failing bank gives no more cells; when none is in use, or after 10 ms, its number has a spare or is retired. -/
def effBankSpare (bank : Nat) (s : State) : State :=
  let die := bank / 48
  let b := bank % 48
  if !chervilRuns s || (s.buf die).bankRetired.contains b then s
  else
    let since := (mfind? b (s.buf die).bankStop).getD (now s)
    let s := s.modBuf die (fun x => { x with bankStop := mput b since x.bankStop })
    if mget 0 b (s.buf die).inUse = 0 then endBankSpare die b s
    else if passed s since 10000000 then endBankSpare die b (clearBank die b s)
    else s

/-! ### HBM frames and stacks (R391, R509, R512) -/

/-- Bounds of the two remap areas of a stack, upper one first (R509, Table 14-7). -/
def remapAreas (m : Nat) : (Nat × Nat) × (Nat × Nat) :=
  match m with
  | 0 => ((540672, 589824), (528512, 532480))
  | 1 => ((557056, 589824), (528400, 540672))
  | 2 => ((534528, 589824), (528512, 532480))
  | _ => ((557056, 589824), (528384, 540672))
/-- A frame lies in a remap area. -/
def isRemapFrame (m f : Nat) : Bool :=
  let a := remapAreas m
  decide (a.1.1 ≤ f ∧ f < a.1.2) || decide (a.2.1 ≤ f ∧ f < a.2.2)
/-- The remap frame used after n others: from the top of the upper area down, then of the lower (log 58). -/
def nthRemap (m n : Nat) : Nat :=
  let a := remapAreas m
  if n < a.1.2 - a.1.1 then a.1.2 - 1 - n else a.2.2 - 1 - (n - (a.1.2 - a.1.1))
/-- The frame number that a frame serves, none for one that serves none. -/
def servedBy (s : State) (m f : Nat) : Option Nat :=
  let k := 1048576 * m + f
  match s.tier.remap.find? (fun e => e.2 == k) with
  | some e => some e.1
  | none => if mhas k s.tier.remap || isRemapFrame m f || s.tier.retired.contains k then none else some k
/-- A remap frame of a stack, taken. -/
def takeRemap (m : Nat) (s : State) : Option (Nat × State) :=
  let u := mget 0 m s.tier.remapUsed
  if u < remapFrames m then
    some (1048576 * m + nthRemap m u, { s with tier := { s.tier with remapUsed := mset 0 m (u + 1) s.tier.remapUsed } })
  else (s.tier.remapFree.find? (fun k => k / 1048576 == m)).map (fun k =>
    (k, { s with tier := { s.tier with remapFree := eraseSet k s.tier.remapFree } }))
/-- A frame's contents copied, poisoned lines as poison. -/
def copyFrame (src dst : Nat) (s : State) : State :=
  { s with mf := { s.mf with
    hbm := memWrite s.mf.hbm (65536 * dst) (memRead s.mf.hbm (65536 * src) 65536)
    poison := ((s.mf.poison.filter (fun l => l / 1024 == src)).map (fun l => 1024 * dst + l % 1024)).foldl (fun l x => insertSet x l)
      (s.mf.poison.filter (fun l => l / 1024 != dst)) } }
/-- Usable near frames of a stack. -/
def usableFrames (s : State) (m : Nat) : Nat := 524288 - (s.tier.retired.filter (fun k => k / 1048576 == m)).length
/-- Stack and frame as a capacity report names them. -/
def frameUnit (m f : Nat) : Nat := f + 2 ^ 30 * m
/-- Pages at rest in a frame number of a stack. -/
def pagesIn (s : State) (k : Nat) : List Nat :=
  (s.tier.pages.filter (fun e => pgState e.2 == 1 && 1048576 * stackOf s e.1 + fld (pgLoc e.2) 0 19 == k)).map (·.1)
/-- A failing frame is replaced by a remap frame and waits for repair, or is retired, and its page goes to the pool. -/
def effFrameReplace (stack frame : Nat) (s : State) : State :=
  match (if chervilRuns s && !s.tier.stacksFailed.contains stack then servedBy s stack frame else none) with
  | none => s
  | some k =>
    let old := 1048576 * stack + frame
    match takeRemap stack s with
    | some (new, t) =>
      let t := copyFrame old new t
      let t := { t with
        tier := { t.tier with remap := mput k new t.tier.remap }
        rel := { t.rel with ppr := insertSet old t.rel.ppr } }
      let t := emitClass 6 0x0E (frameUnit stack frame) 0 0 0 (relCount (2563 + 8 * stack) 1 t)
      capacity 2 1 (4 + stack / 2) (frameUnit stack frame)
        (remapFrames stack - mget 0 stack t.tier.remapUsed + (t.tier.remapFree.filter (fun k => k / 1048576 == stack)).length)
        (usableFrames t stack) t
    | none =>
      let s := { s with tier := { s.tier with retired := insertSet k s.tier.retired } }
      let s := (pagesIn s k).foldl (fun s p => (tryMove p 1 7 none true s).getD s) s
      let s := emitClass 6 0x0E (frameUnit stack frame) 0 0 0 (relCount (2565 + 8 * stack) 1 s)
      capacity 2 2 (4 + stack / 2) (frameUnit stack frame) 0 (usableFrames s stack) s
/-- A stack is failed: the archives and the phase-state shadows it held are unreadable (R316, R581). -/
def effHbmStackFail (stack : Nat) (s : State) : State :=
  if s.tier.stacksFailed.contains stack then s
  else
    let s := { s with tier := { s.tier with stacksFailed := insertSet stack s.tier.stacksFailed } }
    let s := if stack = 2 then { s with svc := { s.svc with shadows := [] } } else s
    (if stack = 1 then [0, 1, 4, 6] else if stack = 3 then [2, 3, 5] else []).foldl (fun s d =>
      s.modRecDie d (fun x => { x with afail := true })) s

/-! ### Tiles (R510, R511, R521) -/

def dayNs : Nat := 86400000000000
/-- Key of a tile's offset in a bin, and of a spare tile's (log 58). -/
def tileOffset (t bin : Nat) : Nat := 8 * (34 + t) + bin
def spareOffset (cl bin : Nat) : Nat := 8 * (290 + cl) + bin
/-- Delay line of a cluster's spare tile while it stands by. -/
def spareLine (cl : Nat) : Nat := 296 + cl
/-- Blames of a tile in the last 24 h. -/
def recentBlames (s : State) (t : Nat) : List (Nat × Nat × Nat × Nat) :=
  s.rel.blames.filter (fun b => b.1 == t && decide (now s < b.2.2.2 + dayNs))
/-- A tile that is retired for its offset, or for mismatches in several bins, still works. -/
def stillWorks (s : State) (t : Nat) : Bool :=
  (List.range 8).any (fun b => decide (4 < mget 0 (tileOffset t b) s.chv.offsets))
    || decide (3 ≤ ((List.range 8).filter (fun b => (recentBlames s t).any (fun x => x.2.1 == b))).length)
/-- Active tiles of a cluster. -/
def activeTiles (s : State) (cl : Nat) : Nat := ((List.range 8).filter (fun i => !(s.tile (8 * cl + i)).retired)).length
/-- The spare of a cluster takes a tile's number, its offsets with it. -/
def useSpareTile (t : Nat) (s : State) : State :=
  let cl := clusterOf t
  let offsets := (List.range 8).foldl (fun m b => mset 0 (tileOffset t b) (mget 0 (spareOffset cl b) m) m) s.chv.offsets
  let s := { s with
    rel := { s.rel with spareUsed := insertSet cl s.rel.spareUsed, shadows := mdel cl s.rel.shadows
                        rows := s.rel.rows.filter (fun e => e.1 != 1024 + t), cols := s.rel.cols.filter (fun e => e.1 != 1024 + t) }
    chv := { s.chv with offsets := offsets } }
  let s := (s.setLine (34 + t) (s.line (spareLine cl))).modTile t (fun x => { x with onSpare := true, quarUntil := none })
  capacity 4 1 (4 + tileCore t) t 0 (activeTiles s cl) (emitClass 6 0x0E t 0 0 0 s)
/-- A tile is retired: one that still works runs its operations to their end, of any other they end at once. -/
def retireTile (t : Nat) (s : State) : State :=
  let works := stillWorks s t
  let s := s.modTile t (fun x => { x with retired := true, off := !works })
  let s := if works then s else (slotsOf s t).foldl (fun s n => failSlot n s) s
  capacity 4 2 (4 + tileCore t) t 0 (activeTiles s (clusterOf t)) (emitClass 6 0x0E t 0 0 0 s)
/-- Once its running handler has ended, a faulty tile's spare takes its place, or the tile is retired. -/
def effTileSpare (tile : Nat) (s : State) : State :=
  let x := s.tile tile
  if !chervilRuns s || x.run.isSome || x.retired then s
  else if s.rel.spareUsed.contains (clusterOf tile) || s.rel.spareGone.contains (clusterOf tile) then retireTile tile s
  else useSpareTile tile s
/-- A macro's failing columns are on its two spare ones; with more of them its bank, or its tile, is spared as for rows (Table 19-3). -/
def spareMacro (m n : Nat) (s : State) : State :=
  let s := { s with rel := { s.rel with cols := mset 0 m (min n 2) s.rel.cols } }
  if n ≤ 2 then s
  else if m < 1024 then
    if (s.buf (m / 8 / 48)).bankRetired.contains (m / 8 % 48) then s else endBankSpare (m / 8 / 48) (m / 8 % 48) s
  else effTileSpare (m - 1024) s
/-- The built-in test at power-on: macros with failing columns, and how many each has (Table 19-3). -/
def spareColumns (cols : List (Nat × Nat)) (s : State) : State :=
  cols.foldl (fun s e => spareMacro e.1 e.2 s) { s with rel := { s.rel with cols := [] } }
/-- A retired tile whose slots are all FREE. -/
def effTilePowerOff (tile : Nat) (s : State) : State :=
  onlyIf ((s.tile tile).retired && (slotsOf s tile).isEmpty && (s.tile tile).run.isNone) s (s.modTile tile (fun x => { x with off := true }))

/-! ### Dies and control cores (R512, R514) -/

/-- A failed port die: its ports and its host port are down, and its codec's jobs are over. -/
def effPortDieFail (die : Nat) (s : State) : State :=
  if s.rel.dieFailed.contains die then s
  else
    let s := { s with rel := { s.rel with dieFailed := insertSet die s.rel.dieFailed } }
    let s := ((List.range 384).filter (fun p => dieOf p == die && (s.port p).st != .down)).foldl (fun s p => portToDown p s) s
    let s := if die = 0 then hostLinkDown 0 s else if die = 3 then hostLinkDown 1 s else s
    ((mkeys s.cod.runs).filter (fun k => k / 8 == die)).foldl (fun s k => finishJob k stPathLost s) s
/-- A failed core die stops the module: a critical record, and the dies held. -/
def effCoreDieFail (die : Nat) (s : State) : State :=
  if s.rel.dieFailed.contains (4 + die) then s
  else holdNow (emit 6 0x0E00 4 (4 + die) 0 0 0 { s with rel := { s.rel with dieFailed := insertSet (4 + die) s.rel.dieFailed } })
/-- The lowest enabled control core: of the same die, else of the other. -/
def heirOf (s : State) (c : Nat) : Nat :=
  (((List.range 4).map (fun i => c / 4 * 4 + i) ++ List.range 8).find? (fun k => !s.ctl.coreOff.contains k)).getD c
/-- Threads of a control core that are reserved: the map thread and the tier engines. -/
def reservedThreads (c : Nat) : List Nat := if c = 0 then [30] else if c = 3 ∨ c = 7 then [31] else []
/-- A service whose mailbox thread was on a core starts again on another. -/
def moveService (c v : Nat) (s : State) : State :=
  if mboxThread s v / 32 ≠ c ∨ svcState s v = 0 ∨ svcState s v = 4 then s
  else
    let b := mget {} (mget 0 v s.svc.bundle) s.sec.bundles
    let s := loadWords (heirOf s c) b.base (Config.programWords b.digest) (flushMail v stBusy s)
    let h := 32 * heirOf s c + mboxThread s v % 32
    let s := if (s.thread h).svc = 0 then (startThread h b.base s).modThread h (fun t => { t with svc := v }) else s
    { s with svc := { s.svc with table := mmod 0 v (fun e => setFld (setFld e 0 3 1) 11 3 (heirOf s c)) s.svc.table } }
/-- A control core that stopped threads for uncorrectable errors twice within one hour is disabled; with no core left nothing moves. -/
def effControlCoreDisable (core : Nat) (s : State) : State :=
  let recent := (mget [] core s.ctl.coreStops).filter (fun t => decide (now s ≤ t + 3600000000000))
  if s.ctl.coreOff.contains core || decide (recent.length < 2) then s
  else
    let s := { s with ctl := { s.ctl with coreOff := insertSet core s.ctl.coreOff } }
    let s := if s.evr.frozen && s.evr.holder / 32 == core then autoThawNow s else s
    let s := (List.range 32).foldl (fun s i => (dropGroup (32 * core + i) s).modThread (32 * core + i) threadRestart) s
    if (List.range 8).all (fun c => s.ctl.coreOff.contains c) then s
    else
      let s := (reservedThreads core).foldl (fun s i =>
        if (s.thread (32 * heirOf s core + i)).running then s else startThread (32 * heirOf s core + i) (threadBase s (32 * heirOf s core + i)) s) s
      (listedServices s).foldl (fun s v => moveService core v s) s

/-! ### Margins (R515) -/

/-- The core rail of a block rises by 10 mV, up to 0.85 V, and the droop threshold with it (R561); there a critical record is written. -/
def raiseRail (b : Nat) (s : State) : State :=
  let d := droopDie b
  if (s.limit d).vcore < 850 then 
    let v := min 850 ((s.limit d).vcore + 10)
    s.setLimit d { s.limit d with vcore := v, droopMv := droopMargin v }
  else emit 6 0x0E00 4 b (s.limit d).vcore 0 0 s
/-- The block offset in the current bin rises by one, to +4; from there the rail rises. -/
def raiseOffset (b : Nat) (s : State) : State :=
  let bin := (s.block b).bin
  let o := mget 0 (8 * b + bin) s.chv.offsets
  if 4 ≤ o then raiseRail b s
  else
    let s := { s with chv := { s.chv with offsets := mset 0 (8 * b + bin) (o + 1) s.chv.offsets } }
    pendBlock b s
/-- The filtered margin of a block, and what Chervil does about it. -/
def effReplicaMarginSample (block margin : Nat) (s : State) : State :=
  if !chervilRuns s then s
  else
    let l := ((margin : Int) :: (s.block block).margins).take 5
    let m := medianOf l
    let s := s.modBlock block (fun x => { x with margins := l, margin := m, low := decide (m ≤ 1) })
    if 3 ≤ m then s
    else
      let s := raiseOffset block s
      let s := if block < 32 then s.modBlock block (fun x => { x with boostUntil := some (now s + 1000000000) }) else s
      if m ≤ 1 then s.modDroop block (fun x => { paceDown block x with since := x.since.map (fun _ => now s) }) else s

/-! ### Shadow checks (R517-R521) -/

/-- The primary is blamed: its offset in the bin rises, it is quarantined, and the cell's rate is set. -/
def blameTile (r : Shadow) (s : State) : State :=
  let k := tileOffset r.tile r.bin
  let s := { s with
    chv := { s.chv with offsets := mset 0 k (min 8 (mget 0 k s.chv.offsets + 1)) s.chv.offsets }
    rel := { s.rel with
      blames := s.rel.blames ++ [(r.tile, r.bin, r.sigClass, now s)]
      cellRate := insertSet (128 * r.tile + 16 * r.bin + r.sigClass) s.rel.cellRate } }
  (pendLine (34 + r.tile) s).modTile r.tile (fun x => { x with quarUntil := some (now s + 10000000) })
/-- The spare is blamed: its own offset rises, and the second time within 24 h it is withdrawn. -/
def blameSpare (cl bin : Nat) (s : State) : State :=
  let k := spareOffset cl bin
  let before := s.rel.spareBlame.any (fun b => b.1 == cl && decide (now s < b.2 + dayNs))
  let s := { s with
    chv := { s.chv with offsets := mset 0 k (min 8 (mget 0 k s.chv.offsets + 1)) s.chv.offsets }
    rel := { s.rel with spareBlame := s.rel.spareBlame ++ [(cl, now s)] } }
  let s := pendLine (spareLine cl) s
  if before then
    let s := { s with rel := { s.rel with spareGone := insertSet cl s.rel.spareGone, shadows := mdel cl s.rel.shadows } }
    capacity 4 2 (4 + cl / 16) (8 * cl) 0 (activeTiles s cl) s
  else s
/-- The spare runs the oldest record of its cluster, and on a mismatch runs it again. -/
def effShadowRun (cluster : Nat) (match1 match2 : Bool) (s : State) : State :=
  match mget [] cluster s.rel.shadows with
  | [] => s
  | r :: rest =>
    let s := { s with rel := { s.rel with shadows := mset [] cluster rest s.rel.shadows } }
    let s := relCount (516 + 8 * r.tile) 1 s
    if match1 then s
    else
      let s := relCount (518 + 8 * r.tile) 1 s
      let s := emit (4 + tileCore r.tile) 0x0E02 3 (r.slot + 2 ^ 20 * r.gen) r.hseq (r.prog + 2 ^ 16 * r.ver) (r.bin + 16 * b2n (!match2)) s
      if match2 then blameTile r s else blameSpare cluster r.bin s
/-- The quarantine of a tile is over. -/
def effQuarantineEnd (tile : Nat) (s : State) : State :=
  match (s.tile tile).quarUntil with
  | none => s
  | some t => onlyIf (reached s t) s (s.modTile tile (fun x => { x with quarUntil := none }))

/-- PATROL_READ (R503). -/
def execPatrolRead (place : PatrolAt) (seen : EccSeen) (s : State) : Host.Outcome State Fault Refusal :=
  unit (isPlace place) s (effPatrolRead place seen s)

/-- ROW_REPAIR (R507). -/
def execRowRepair (macro_ : Nat) (s : State) : Host.Outcome State Fault Refusal :=
  unit (isMacro macro_) s (effRowRepair macro_ s)

/-- BANK_SPARE (R508). -/
def execBankSpare (bank : Nat) (s : State) : Host.Outcome State Fault Refusal :=
  unit (decide (bank < 96)) s (effBankSpare bank s)

/-- FRAME_REPLACE (R509). -/
def execFrameReplace (stack frame : Nat) (s : State) : Host.Outcome State Fault Refusal :=
  unit (isStack stack && decide (frame < 589824)) s (effFrameReplace stack frame s)

/-- TILE_SPARE (R510). -/
def execTileSpare (tile : Nat) (s : State) : Host.Outcome State Fault Refusal :=
  unit (isTile tile) s (effTileSpare tile s)

/-- TILE_POWER_OFF (R511). -/
def execTilePowerOff (tile : Nat) (s : State) : Host.Outcome State Fault Refusal :=
  unit (isTile tile) s (effTilePowerOff tile s)

/-- HBM_STACK_FAIL (R512). -/
def execHbmStackFail (stack : Nat) (s : State) : Host.Outcome State Fault Refusal :=
  unit (isStack stack) s (effHbmStackFail stack s)

/-- PORT_DIE_FAIL (R512). -/
def execPortDieFail (die : Nat) (s : State) : Host.Outcome State Fault Refusal :=
  unit (isPortDie die) s (effPortDieFail die s)

/-- CORE_DIE_FAIL (R512). -/
def execCoreDieFail (die : Nat) (s : State) : Host.Outcome State Fault Refusal :=
  unit (isCoreDie die) s (effCoreDieFail die s)

/-- CONTROL_CORE_DISABLE (R514). -/
def execControlCoreDisable (core : Nat) (s : State) : Host.Outcome State Fault Refusal :=
  unit (isCore core) s (effControlCoreDisable core s)

/-- REPLICA_MARGIN_SAMPLE (R515). -/
def execReplicaMarginSample (block : Nat) (margin : Nat) (s : State) : Host.Outcome State Fault Refusal :=
  unit (isBlock block) s (effReplicaMarginSample block margin s)

/-- SHADOW_RUN (R518). -/
def execShadowRun (cluster : Nat) (match1 match2 : Bool) (s : State) : Host.Outcome State Fault Refusal :=
  unit (isCluster cluster) s (effShadowRun cluster match1 match2 s)

/-- QUARANTINE_END (R519). -/
def execQuarantineEnd (tile : Nat) (s : State) : Host.Outcome State Fault Refusal :=
  unit (isTile tile) s (effQuarantineEnd tile s)


end Sys2Proof.Machine
end

