-- ==== Sys2Proof/Machine/Boot.lean ====
section
/-!
DEFINITION. Meanings of power-on and measured boot, the bring-up stages, departure and core reset, and the resets of host ports and functions (R471-R476, R512, R535-R540, R545-R555; log 60).
-/
namespace Sys2Proof.Machine

/-! ### Measured boot (R471, R472, R476, Table 18-1) -/

/-- PWRGD: module time starts at zero, and S leaves reset. -/
def effPowerOn (s : State) : State :=
  if s.boot.pwrgd then s
  else epochRecord 6 { s with clk := {}, boot := { s.boot with pwrgd := true, step := 1, stepAt := 0, gateAt := 0, gated := true } }
/-- PWRGD deasserted for 10 us or more (R538). -/
def effPowerOnReset (s : State) : State := powerOff s
/-- The slot of each image: a fallback has its critical record, and an image without a slot that passes means recovery (R472). -/
def verifyImage (s : State) (i : Nat) : State :=
  match bootSlot s i with
  | none => { s with sec := { s.sec with recovery := true } }
  | some k =>
    let s := if k = mget 0 i s.sec.preferred then s else emit 6 0x0D01 4 i k 0 0 s
    { s with sec := { s.sec with inUse := mset 0 i k s.sec.inUse } }
/-- The LMS state: the valid copy with the higher value is taken and the other rewritten from it; without one no HSS signature is made again (R476). -/
def checkLms (s : State) : State :=
  let a := s.sec.lms0
  let b := s.sec.lms1
  if !a.valid && !b.valid then emit 6 0x0D03 4 0 0 0 0 { s with sec := { s.sec with lmsLost := true } }
  else
    let c := if a.valid && (!b.valid || decide (b.val ≤ a.val)) then a else b
    { s with sec := { s.sec with lms0 := if a.valid then a else c, lms1 := if b.valid then b else c } }
/-- The board profile comes into force; one that is absent or fails its CRC means recovery (R535). -/
def loadProfile (s : State) : State :=
  match s.boot.profile with
  | none => { s with sec := { s.sec with recovery := true } }
  | some b =>
    if profileOk b then { s with boot := { s.boot with inForce := some b, node := fld (byteAt b 0 4) 0 14 } }
    else { s with sec := { s.sec with recovery := true } }
/-- Post-package repair of the frames that wait for it: one whose repair succeeds is a remap frame again (R509; log 8). -/
def repairFrames (s : State) : State :=
  let s := s.rel.ppr.foldl (fun s k =>
    let r := drawCoin s
    if r.1 then { r.2 with tier := { r.2.tier with remapFree := insertSet k r.2.tier.remapFree } } else r.2) s
  { s with rel := { s.rel with ppr := [] } }
/-- The dies leave reset, their followers aligned with the reference counter (R54): control program and bundles run, and CORE_UP is set (Table 18-1 step 5). -/
def startCore (s : State) : State :=
  let before := s
  let s := repairFrames { s with
    clk := { s.clk with offs := [], held := [] }
    boot := { s.boot with held := false, coreReset := false, stage := 0, gated := true, gateAt := now s } }
  let s := [0, 1, 2, 3, 4, 5].foldl (fun s d => epochRecord d s) s
  let s := startThreads (loadControl s)
  let s := (listedServices s).foldl (fun s v => if svcState s v = 0 then s else startBundle (mget 0 v s.svc.bundle) 1 s) s
  let s := loadTierarels s
  modEdges before { s with
    boot := { s.boot with coreUp := true }
    chv := { s.chv with
      beats := (List.range 10).foldl (fun m c => mput c (now s) m) s.chv.beats
      lscanAt := now s } }
/-- Nothing keeps the port and core dies from leaving reset (R512, R550, R567, R571). -/
def mayStart (s : State) : Bool :=
  !s.boot.mreset && !s.chv.trip && !s.chv.convStop && !s.rel.dieFailed.contains 4 && !s.rel.dieFailed.contains 5
/-- Steps 2-5 of the measured boot, with the macros whose columns the built-in test found failing (R8, Table 19-3); in recovery only the management endpoints answer. -/
def effBootComplete (cols : List (Nat × Nat)) (s : State) : State :=
  if !s.boot.pwrgd || s.boot.step ≠ 1 || !mayStart s then s
  else
    let s := loadProfile (checkLms ([1, 0, 2].foldl verifyImage s))
    if s.sec.recovery then { s with boot := { s.boot with step := 4 } }
    else
      let s := startFirmware s
      startCore (spareColumns cols { s with boot := { s.boot with step := 5 }, sec := { s.sec with servingAt := now s } })

/-! ### Stages (R539, R540, R545-R547, Table 20-3) -/

/-- Ports in service: they exist and ADMIN_UP is set. -/
def usedPorts (s : State) : List Nat := (List.range 384).filter (fun p => portExists s p && adminUp s p)
/-- A port has left the rate of a stage behind it, or has had no signal. -/
def portFinished (s : State) (p : Nat) : Bool :=
  let x := s.port p
  match s.boot.stage with
  | 1 => x.st != .trainR && (x.st != .down || passed s s.boot.gateAt 800000000)
  | 2 => countsDown x.st || x.disc == .done || x.disc == .abandoned
  | 4 => countsDown x.st || x.st == .up || x.st == .narrowed || (x.st == .reduced && x.fullFailed)
  | _ => true
/-- Tierarel services. -/
def tierarels (s : State) : List Nat := (listedServices s).filter (fun v => inRange 1 0x3F v)
/-- Every trunk neighbour has announced BU5 or is down. -/
def neighboursReady (s : State) : Bool :=
  (usedPorts s).all (fun p => !isTrunk s p || countsDown (s.port p).st || decide (5 ≤ (s.port p).peerStage))
/-- The stage in progress ends. -/
def stageOver (s : State) : Bool :=
  s.boot.gated && (match s.boot.stage with
    | 0 => s.boot.coreUp
    | 3 => s.tab.mseq != 0
    | 5 => (tierarels s).all (fun v => svcState s v == 2) && neighboursReady s
    | 6 => false
    | _ => (usedPorts s).all (portFinished s))
/-- STAGE to a trunk neighbour (Table 20-4). -/
def sendStage (p : Nat) (s : State) : State :=
  if isTrunk s p && linkAlive s p then
    sendNbr p 4 0 (natBytes 1 (min 5 s.boot.stage) ++ natBytes 3 0 ++ natBytes 4 s.tab.mseq) s
  else s
/-- STAGE to every trunk neighbour (R546). -/
def announceStage (s : State) : State := (usedPorts s).foldl (fun s p => sendStage p s) s
/-- MODULE_NODE's own node entry, by a commit of the map thread (R545). -/
def commitOwnNode (s : State) : State :=
  if entry s 0x0010 s.boot.node = 3 then s else (serviceCommit (mapThread s) (groupOf [(0x0010, s.boot.node, 3)]) s).2
/-- What the beginning of a stage does. -/
def enterStage (n : Nat) (s : State) : State :=
  let s := { s with boot := { s.boot with stage := n, gateAt := now s, gated := n != 3 } }
  match n with
  | 2 => (usedPorts s).foldl (fun s p => startDiscovery p s) (commitOwnNode s)
  | 3 => announceStage { s with boot := { s.boot with discDone := true } }
  | 4 => announceStage s
  | 5 => announceStage (extendLeases (now s - s.boot.servedAt) s)
  | 6 => modEdges s { s with boot := { s.boot with full := true } }
  | _ => s
/-- The stage ends, and the next begins; with BU5 FULL is set. -/
def effStageEnd (s : State) : State := onlyIf (s.boot.coreUp && s.boot.depart == 0 && stageOver s) s (enterStage (s.boot.stage + 1) s)
/-- Bound of a stage, ns. -/
def stageBound (n : Nat) : Nat := [1500000000, 800000000, 200000000, 50000000, 2500000000, 2000000000].getD n 0
/-- The bound ends the stage, with a record for each port that has not finished. -/
def effStageBoundExpire (s : State) : State :=
  let n := s.boot.stage
  if !s.boot.coreUp || s.boot.depart ≠ 0 || !s.boot.gated || !inRange 1 5 n || !passed s s.boot.gateAt (stageBound n) then s
  else
    let late := (usedPorts s).filter (fun p => !portFinished s p)
    enterStage (n + 1) (late.foldl (fun s p => emit (dieOf p) 0x0F01 2 p n 0 0 s) s)
/-- The gate of BU3: BU2 has ended on every module in the database (R545). -/
def effBu3Gate (s : State) : State :=
  onlyIf (s.boot.stage == 3 && !s.boot.gated && s.map.db.all (fun e => e.2.discDone)) s
    { s with boot := { s.boot with gated := true, gateAt := now s } }

/-! ### Departure and core reset (R550-R552, Table 20-7) -/

/-- MRESET_L low: a core reset with departure. -/
def effMreset (s : State) : State := startDeparture { s with boot := { s.boot with mreset := true } }
/-- MRESET_L high: step 5 may begin. -/
def effMresetRelease (s : State) : State := { s with boot := { s.boot with mreset := false } }
/-- Step 2 ends: no packet but TC6 on a trunk for 10 us, or its bound. -/
def effDepartureQuiet (s : State) : State :=
  onlyIf (s.boot.depart == 2 && passed s s.boot.departAt 10000 && (passed s s.boot.trunkAt 10000 || passed s s.boot.departAt 2000000)) s
    { s with boot := { s.boot with depart := 3, departAt := now s } }
/-- Every queue and every headroom is empty. -/
def coreEmpty (s : State) : Bool :=
  s.sw.queues.all (fun e => e.2.pkts.isEmpty) && s.sw.parked.all (fun e => e.2.pkts.isEmpty)
    && s.sw.stalled.all (fun e => e.2.isEmpty) && s.sw.ingress.all (fun e => e.2.isEmpty)
/-- Steps 3 and 4: the dies are held once the core is empty, or at the bound. -/
def effDepartureDrained (s : State) : State :=
  onlyIf (s.boot.depart == 3 && (coreEmpty s || passed s s.boot.departAt 1000000)) s (coreHold s)
/-- A page of a failed stack takes a frame of the other stack of its die; its lines, which are lost, hold poison. Without a free frame it is FREE (log 60). -/
def rehomePage (s : State) (p : Nat) : State :=
  match freeFrame s (stackOf s p) with
  | none => setPage p 0 s
  | some f =>
    let s := setPage p (setFld (page s p) 32 48 f) (takePlace 0 p f s)
    (List.range 1024).foldl (fun s i => hbmWrite (1024 * p + i) [] true s) s
/-- The pages of a failed stack move to the other one (R382, R512). -/
def moveStack (s : State) (m : Nat) : State :=
  let other := if m % 2 = 0 then m + 1 else m - 1
  if s.tier.stacksMoved.contains m || s.tier.stacksFailed.contains other then s
  else
    let pages := (s.tier.pages.filter (fun e => pgState e.2 == 1 && stackOf s e.1 == m)).map (·.1)
    pages.foldl rehomePage { s with tier := { s.tier with
      stacksMoved := insertSet m s.tier.stacksMoved, frames := s.tier.frames.filter (fun k => k / 1048576 != m) } }
/-- The snoop filter is reloaded from its backing, word by word; of a word that cannot be read every agent with an entry is dead (R184, R552). -/
def reloadFilter (s : State) (die : Nat) : State :=
  (distinct (((mkeys s.coh.filter).filter (fun k => k / 1048576 == die)).map (fun k => k % 1048576 / 2))).foldl (fun s w => patrolFilter die w s) s
/-- A committed entry found with an uncorrectable word is cleared to its reset value, with the record TABLE_CLEARED (R552, Table 22-4). -/
def clearEntry (s : State) (e : Nat × Nat) : State :=
  if isCommitted e.1 && tblHas s e.1 e.2 then emit 6 0x0F03 4 e.1 e.2 0 0 (setEntry s e.1 e.2 (resetEntry s e.1 e.2)) else s
/-- A context that is not FREE returns in CLOSING, and is removed from step 2 (Table 17-6). -/
def reopenClosing (s : State) (c : Nat) : State :=
  let s := moveCtx c 2 6 s
  { s with cx := { s.cx with removals := mput c { at_ := now s } s.cx.removals } }
/-- Step 5 is done: tables stand as checked, failed stacks are moved, contexts return, and the dies leave reset. -/
def effCoreReinitDone (bad : List (Nat × Nat)) (s : State) : State :=
  if !s.boot.held || !s.boot.coreReset || !mayStart s || s.chv.pstate == .sleep || s.chv.sleepReq then s
  else
    let s := loadProfile s
    if s.sec.recovery then s
    else
      let s := s.tier.stacksFailed.foldl moveStack (bad.foldl clearEntry s)
      let s := [0, 1].foldl reloadFilter s
      let s := (((List.range 1022).map (· + 1)).filter (fun c => ctxState s c != 0)).foldl reopenClosing s
      startCore s

/-! ### Host ports and functions (R537, R553, R554, Table 17-6) -/

/-- The functions of a port reset: contexts of its VFs close with a cause, moving descriptors end PATH_LOST, those of context 0 that wait VIOLATION, and IDE keys are gone. -/
def resetPort (port cause : Nat) (s : State) : State :=
  let s := endDmas port (fun d => d.moving || d.ctx == 0) stPathLost stViolation s
  (resetVfs port cause (resetFunc port 0 s)).modHport port (fun h => { h with ideKeys := [], ideGo := [] })
/-- The link of a port that is reset goes down, and host-tier pages behind it are lost (R390). -/
def dropLink (port : Nat) (s : State) : State :=
  losePagesBehind port (s.modHport port (fun h => { h with linkUp := false }))
/-- PERSTn_L is asserted. -/
def effPerst (port : Nat) (s : State) : State :=
  dropLink port (resetPort port 4 (s.modHport port (fun h => { h with perst := true })))
/-- PERSTn_L is deasserted: link training may begin (R537). -/
def effPerstDeassert (port : Nat) (s : State) : State := s.modHport port (fun h => { h with perst := false })
/-- A hot reset comes by the link. -/
def effHotReset (port : Nat) (s : State) : State := onlyIf (s.hport port).linkUp s (dropLink port (resetPort port 4 s))
/-- The host clears VF Enable. -/
def effVfEnableClear (port : Nat) (s : State) : State := onlyIf ((s.hport port).linkUp && (s.hport port).vfEn) s (resetPort port 3 s)
/-- An FLR of a VF closes its context; one of the PF resets the VFs too. -/
def effFlr (port func : Nat) (s : State) : State :=
  if !funcUp s port func then s
  else
    let s := s.modFunc (funcKey port func) (fun f => { f with flrAt := some (now s) })
    if func = 0 then
      let s := endDmas port (fun d => d.moving || d.ctx == 0) stPathLost stViolation s
      resetVfs port 3 (resetFunc port 0 s)
    else
      let s := resetFunc port func s
      match funcCtx s port func with
      | some c => closeContext c 2 s
      | none => s
/-- The FLR is finished, within 10 ms. -/
def effFlrComplete (port func : Nat) (s : State) : State := s.modFunc (funcKey port func) (fun f => { f with flrAt := none })
/-- The link goes down without PERST. -/
def effHostLinkDown (port : Nat) (s : State) : State := hostLinkDown port s
/-- The link is up: not before the management side serves (R11), nor while PERSTn_L is asserted, nor on a failed die. -/
def effHostLinkUp (port : Nat) (s : State) : State :=
  onlyIf (s.boot.pwrgd && decide (4 ≤ s.boot.step) && !(s.hport port).perst && !(s.hport port).linkUp && !s.rel.dieFailed.contains (3 * port)) s (hostLinkUp port s)

/-- POWER_ON (R536). -/
def execPowerOn (s : State) : Host.Outcome State Fault Refusal :=
  unit (true) s (effPowerOn s)

/-- BOOT_COMPLETE (R471). -/
def execBootComplete (cols : List (Nat × Nat)) (s : State) : Host.Outcome State Fault Refusal :=
  unit (cols.all (fun c => isMacro c.1)) s (effBootComplete cols s)

/-- POWER_ON_RESET (R538). -/
def execPowerOnReset (s : State) : Host.Outcome State Fault Refusal :=
  unit (true) s (effPowerOnReset s)

/-- STAGE_END (R539). -/
def execStageEnd (s : State) : Host.Outcome State Fault Refusal :=
  unit (true) s (effStageEnd s)

/-- STAGE_BOUND_EXPIRE (R539). -/
def execStageBoundExpire (s : State) : Host.Outcome State Fault Refusal :=
  unit (true) s (effStageBoundExpire s)

/-- BU3_GATE (R545). -/
def execBu3Gate (s : State) : Host.Outcome State Fault Refusal :=
  unit (true) s (effBu3Gate s)

/-- MRESET (R550). -/
def execMreset (s : State) : Host.Outcome State Fault Refusal :=
  unit (true) s (effMreset s)

/-- MRESET_RELEASE (R604). -/
def execMresetRelease (s : State) : Host.Outcome State Fault Refusal :=
  unit (true) s (effMresetRelease s)

/-- DEPARTURE_QUIET (R550). -/
def execDepartureQuiet (s : State) : Host.Outcome State Fault Refusal :=
  unit (true) s (effDepartureQuiet s)

/-- DEPARTURE_DRAINED (R550). -/
def execDepartureDrained (s : State) : Host.Outcome State Fault Refusal :=
  unit (true) s (effDepartureDrained s)

/-- CORE_REINIT_DONE (R552). -/
def execCoreReinitDone (bad : List (Nat × Nat)) (s : State) : Host.Outcome State Fault Refusal :=
  unit (true) s (effCoreReinitDone bad s)

/-- PERST (R553). -/
def execPerst (port : Nat) (s : State) : Host.Outcome State Fault Refusal :=
  unit (isHostPort port) s (effPerst port s)

/-- PERST_DEASSERT (R537). -/
def execPerstDeassert (port : Nat) (s : State) : Host.Outcome State Fault Refusal :=
  unit (isHostPort port) s (effPerstDeassert port s)

/-- HOT_RESET (R553). -/
def execHotReset (port : Nat) (s : State) : Host.Outcome State Fault Refusal :=
  unit (isHostPort port) s (effHotReset port s)

/-- VF_ENABLE_CLEAR (R553). -/
def execVfEnableClear (port : Nat) (s : State) : Host.Outcome State Fault Refusal :=
  unit (isHostPort port) s (effVfEnableClear port s)

/-- FLR (R554). -/
def execFlr (port func : Nat) (s : State) : Host.Outcome State Fault Refusal :=
  unit (isHostPort port && isFunc func) s (effFlr port func s)

/-- FLR_COMPLETE (R554). -/
def execFlrComplete (port func : Nat) (s : State) : Host.Outcome State Fault Refusal :=
  unit (isHostPort port && isFunc func) s (effFlrComplete port func s)

/-- HOST_LINK_DOWN (R599). -/
def execHostLinkDown (port : Nat) (s : State) : Host.Outcome State Fault Refusal :=
  unit (isHostPort port) s (effHostLinkDown port s)

/-- HOST_LINK_UP (R459). -/
def execHostLinkUp (port : Nat) (s : State) : Host.Outcome State Fault Refusal :=
  unit (isHostPort port) s (effHostLinkUp port s)


end Sys2Proof.Machine
end

