-- ==== Sys2Proof/Machine/Coherence.lean ====
section
/-!
DEFINITION. Meanings of the coherence domain's commands (R172-R189).
-/
namespace Sys2Proof.Machine

def effRds (die : Nat) (s : State) : State := homeOp opRDS die s
def effRdx (die : Nat) (s : State) : State := homeOp opRDX die s
def effWb (die : Nat) (s : State) : State := homeOp opWB die s
/-- An answer to a snoop is received (R180-R182, R186). -/
def effSnoopAnswer (die : Nat) (s : State) : State :=
  homeTake die (fun p => pOp p == opDATA || pOp p == opCMP) (fun q s => snoopAnswer die q s) s
/-- Snoops of a transaction that have gone unanswered for SNOOP_LIMIT. -/
def lateSnoops (s : State) (die : Nat) (t : Txn) : List Snoop :=
  (t.snoops ++ (match t.victim with
    | some v => [v]
    | none => [])).filter (fun n => passed s n.at_ (snoopLimit s die))
/-- An agent is SUSPECT (R182). -/
def suspect (a : Nat) (s : State) : State := if agentState s a = 1 then agentRecord a 2 s else s
/-- A snoop has had no answer for SNOOP_LIMIT: the agent is SUSPECT, the requester is answered BUSY_RETRY, the transaction closes with every record as it is (R182). -/
def effSnoopTimeout (die line : Nat) (s : State) : State :=
  match popFirst (fun t => (txnLines t).contains line) (txnsOf s die) with
  | none => s
  | some (t, rest) =>
    let late := lateSnoops s die t
    if late.isEmpty then s
    else
      let s := late.foldl (fun s n => cohCount die 5 1 (suspect n.agent s)) (setTxns die rest s)
      let out := t.snoops ++ (match t.victim with
        | some v => [v]
        | none => [])
      let s := { s with coh := { s.coh with closed := mmod [] die (· ++ out) s.coh.closed } }
      afterClose die t (refuseReq die t.pkt t.job stBusy 0 s)
/-- A request blocked by a fully pinned set is tried again, at least every 200 ns (R187). -/
def effPinRetry (die line : Nat) (s : State) : State :=
  onlyIf ((txnsOf s die).any (fun t => t.blocked && t.line == line && passed s t.pinAt 200)) s
    (drainWaits die (retryBlocked die line s))
/-- A dead agent's snoops are closed and its entries reclaimed on both homes (R189). -/
def effAgentReclaim (agent : Nat) (s : State) : State :=
  if s.coh.reclaim.contains agent then
    let s := reclaimDie 1 agent (reclaimDie 0 agent s)
    { s with coh := { s.coh with reclaim := eraseSet agent s.coh.reclaim } }
  else s

/-- RDS (R180). -/
def execRds (die : Nat) (s : State) : Host.Outcome State Fault Refusal :=
  unit (isCoreDie die) s (effRds die s)

/-- RDX (R180). -/
def execRdx (die : Nat) (s : State) : Host.Outcome State Fault Refusal :=
  unit (isCoreDie die) s (effRdx die s)

/-- WB (R180). -/
def execWb (die : Nat) (s : State) : Host.Outcome State Fault Refusal :=
  unit (isCoreDie die) s (effWb die s)

/-- SNOOP_ANSWER (R180). -/
def execSnoopAnswer (die : Nat) (s : State) : Host.Outcome State Fault Refusal :=
  unit (isCoreDie die) s (effSnoopAnswer die s)

/-- SNOOP_TIMEOUT (R182). -/
def execSnoopTimeout (die : Nat) (line : Nat) (s : State) : Host.Outcome State Fault Refusal :=
  unit (isCoreDie die) s (effSnoopTimeout die line s)

/-- PIN_RETRY (R187). -/
def execPinRetry (die : Nat) (line : Nat) (s : State) : Host.Outcome State Fault Refusal :=
  unit (isCoreDie die) s (effPinRetry die line s)

/-- AGENT_RECLAIM (R189). -/
def execAgentReclaim (agent : Nat) (s : State) : Host.Outcome State Fault Refusal :=
  unit (isAgent agent) s (effAgentReclaim agent s)


end Sys2Proof.Machine
end

