-- ==== Sys2Proof/Machine/Collective.lean ====
section
/-!
DEFINITION. Meanings of collective blocks and of the collective service (R299, R304-R317; the service's own choices: log 46).
-/
namespace Sys2Proof.Machine

/-! ### CBLK at its module (R299) -/

/-- A block checked against its spray entry in the bank of its epoch, and sent on as an OPBLK to its target operation. -/
def takeSpray (ep : Nat) (p : Packet) (s : State) : State :=
  let b := (epochBank s p).getD .cur
  let v := entryIn s b 0x001A (hfld p 128 12)
  let count := fun row => lookupCount (coreOfEp ep) row s
  if !bit v 0 then count 2
  else if fld v 1 10 ≠ pCtx p then count 3
  else if fld v 37 8 ≠ hfld p 140 8 then count 4
  else
    let j := fld v 11 10 + 1
    let c := hfld p 160 16
    let t := entryIn s b 0x001B (fld v 21 16 + c % j)
    let q := setH (setH p 128 32 t) 160 16 (c / j)
    takeIn (fun _ p s => pathLost ep p s) ep (mkParked s ep 0 q [(416 + slotTile (pOpslot q) / 8, 0)]) s
def effCblk (s : State) : State :=
  match takeMod (fun x => pOp x.1 == opCBLK) s with
  | some ((p, ep), s) => takeSpray ep p s
  | none => s

/-! ### PLAN and FREE (R304-R307) -/

/-- A descriptor without its members. -/
def bareRange (m : Mail) : Bool := planInRange m.data (planFrom m.ctx m.data [])
/-- A plan made from its descriptor and members: status and plan number, with the state it leaves. -/
def makePlan (m : Mail) (list : PoolAns) (s : State) : Nat × Nat × State :=
  let members := (List.range (byteAt m.data 6 2)).map (fun i => byteAt list.data (2 * i) 2)
  let pl := planFrom m.ctx m.data members
  if list.status ≠ stOK then (list.status, 0, s)
  else match leastBelow 4096 (fun k => !(s.plan k).used), legsFor s members with
    | none, _ => (stBusy, 0, s)
    | _, none => (stViolation, 0, s)
    | some k, some legs =>
      let j := planJ pl (planRate s pl)
      let pages := ceilDiv (1024 * pl.chunks) 65536
      if 1024 < j ∨ 1024 < legs.length then (stViolation, 0, s)
      else if pl.staged && !stagingFits s pl.ctx pages then (stViolation, 0, s)
      else match planOps pl j s, takeFrames (if pl.staged then pages else 0) s with
        | none, _ => (stBusy, 0, s)
        | _, none => (stViolation, 0, s)
        | some (ops, t), some (frames, _) =>
          match freeGroup t, freeSpray t, freeNode t, freeLegs t legs.length, freeTargets t j with
          | some g, some sp, some a, some lb, some tb =>
            let pl := { pl with ops := ops, group := g, spray := sp, alias_ := a, stagingHeld := pl.staged, frames := frames }
            let r := serviceCommit (collThread t) (groupOf (planEntries t pl legs lb tb)) t
            if r.1 = stOK then (stOK, k, holdFrames frames (r.2.setPlan k pl)) else (r.1, 0, s)
          | _, _, _, _, _ => (stBusy, 0, s)
/-- SETUP to every member (Table 10-11). -/
def sendSetup (pl : Plan) (s : State) : State :=
  (pl.members.mapIdx (fun i n => (i, n))).foldl (fun s (x : Nat × Nat) =>
    cnote pl 6 1 x.2 (natBytes 2 x.1 ++ natBytes 2 pl.n ++ natBytes 4 pl.chunks ++ natBytes 2 s.boot.node ++ natBytes 1 pl.kind ++ natBytes 1 pl.fmt) s) s
/-- The completion of a descriptor that no plan comes of, with a status. -/
def collRefuse (m : Mail) (st : Nat) (s : State) : State :=
  svcComplete m (collRecord s (byteAt m.data 4 2) (planFrom m.ctx m.data []) st) s
/-- The member list of a PLAN read, the plan is built; a descriptor out of range, or of no command, ends VIOLATION (R304, R306). -/
def effCollPlan (s : State) : State :=
  match takeMail 1 1 s with
  | none => s
  | some (m, t) =>
    if cmdUnknown m || !bareRange m then collRefuse m stViolation t
    else match poolGot s (readKey 1 0) with
      | none => askPool (readKey 1 0) (collThread s) m.ctx (byteAt m.data 16 8) (2 * byteAt m.data 6 2) s
      | some list =>
        if slotsHeld s then holdSlot s
        else
        let r := makePlan m list (dropRead (readKey 1 0) t)
        if r.1 = stOK then
          let s := sendSetup (r.2.2.plan r.2.1) r.2.2
          svcComplete m (collRecord s r.2.1 (s.plan r.2.1) stOK) s
        else collRefuse m r.1 r.2.2
/-- FREE: of a plan that runs BUSY_RETRY, of another context's or of none VIOLATION. -/
def effCollFree (s : State) : State :=
  match takeMail 1 3 s with
  | none => s
  | some (m, s) =>
    let k := byteAt m.data 4 2
    let pl := s.plan k
    let r := if !bareRange m || !pl.used || pl.ctx != m.ctx then (stViolation, s)
      else if pl.running then (stBusy, s)
      else removePlan k stOK s
    svcComplete m (collRecord s k (if pl.used then pl else planFrom m.ctx m.data []) r.1) r.2

/-! ### RUN, stop and completion (R306, R309-R314) -/

/-- Members whose legs are down, in order of index. -/
def downMembers (s : State) (pl : Plan) : List Nat :=
  (List.range pl.members.length).filter (fun i => memberDown s (pl.members.getD i 0))
/-- Chunks that a member is to send: the first and their number (Table 10-10). -/
def share (pl : Plan) (i : Nat) : Nat × Nat :=
  if pl.kind ≤ 1 then (0, pl.chunks)
  else if pl.kind = 3 then (if i = pl.root then (0, pl.chunks) else (0, 0))
  else (i * (pl.chunks / pl.n), pl.chunks / pl.n)
/-- RUN notices to every member. -/
def sendRuns (pl : Plan) (s : State) : State :=
  (pl.members.mapIdx (fun i n => (i, n))).foldl (fun s (x : Nat × Nat) =>
    cnote pl 6 2 x.2 (natBytes 4 (share pl x.1).1 ++ natBytes 4 (share pl x.1).2) s) s
/-- A run begins: RUN raised in the spray entry, legs checked, its start record written in staged mode, else members told (R298, R309, R315). -/
def startRun (k : Nat) (m : Mail) (s : State) : State :=
  let pl := s.plan k
  let run := (pl.run + 1) % 256
  let down := downMembers s pl
  let s := writeRun pl.spray run s
  let s := s.modPlan k (fun x => { x with
    running := true, run := run, req := some m, pruned := down, told := [], done := [], bad := [], stopped := false, byDeadline := false
    degraded := false, primaryLost := false, phase := 0, due := x.staged, mask := cdMask m.data, cookie := byteAt m.data 48 16
    state := byteAt m.data 24 8, startAt := now s, span := byteAt m.data 40 4, armed := false, deadline := 0 })
  let s := if pl.staged then writeRecord k stOK s else s
  if down.any (stopsRun pl) then finishRun k stIncomplete s
  else if pl.staged then s
  else sendRuns (s.plan k) s
def effCollRun (plan : Nat) (s : State) : State :=
  match takeMailIf 1 (fun m => mailCmd m == 2 && (byteAt m.data 4 2 == plan || decide (4096 ≤ byteAt m.data 4 2))) s with
  | none => s
  | some (m, t) =>
    let pl := t.plan plan
    let say := collRefuse m
    if byteAt m.data 4 2 ≠ plan ∨ !bareRange m ∨ !pl.used ∨ pl.ctx ≠ m.ctx then say stViolation t
    else if !inRange 1000 4000000000 (byteAt m.data 40 4) then say stViolation t
    else if pl.staged && !pl.stagingHeld then say stViolation t
    else if pl.running then say stBusy t
    else if pl.recreate then (if slotsHeld s then holdSlot s else say stBusy (recreatePlan plan t))
    else startRun plan m t
/-- Members that a prune notice has named to the watcher, and members whose legs here are down, beyond those known. -/
def newlyLost (s : State) (pl : Plan) : List Nat :=
  (List.range pl.members.length).filter (fun i =>
    !pl.pruned.contains i && (pl.told.contains (pl.members.getD i 0) || memberDown s (pl.members.getD i 0)))
/-- A RUN notice of a plan. -/
def isRunNotice (pl : Plan) (q : Packet) : Bool := pOp q == opCNOTE && hfld q 180 8 == 2 && hfld q 128 12 == pl.spray && hfld q 140 8 == pl.run
/-- A RUN notice of the plan has not left the module yet. -/
def noticeWaits (s : State) (pl : Plan) : Bool :=
  s.sw.queues.any (fun e => e.2.pkts.any (fun x => isRunNotice pl x.pkt))
    || s.sw.stalled.any (fun e => e.2.any (fun k => isRunNotice pl k.pkt))
/-- Chunks whose ALL has not been raised are completed no more: every counter of the operation is disarmed (R203, R310). -/
def disarm (n : Nat) (s : State) : State :=
  let x := s.slot n
  s.modTile (slotTile n) (fun t => { t with
    expected := t.expected.filter (fun e => !(decide (x.cbase ≤ e.1) && decide (e.1 < x.cbase + x.ccount))) })
/-- The deadline starts behind the last RUN notice; where all of them were dropped, now (R308). -/
def armDeadline (k : Nat) (s : State) : State :=
  let pl := s.plan k
  if pl.running && !pl.armed && !(pl.staged && pl.phase == 0) && !noticeWaits s pl then
    s.modPlan k (fun x => { x with armed := true, deadline := now s + x.span })
  else s
def effCollStop (plan : Nat) (s : State) : State :=
  let s := armDeadline plan s
  let pl := s.plan plan
  if !pl.running then s
  else
    let lost := newlyLost s pl
    let late := pl.armed && reached s pl.deadline && !noticeWaits s pl
    let s := s.modPlan plan (fun x => { x with pruned := x.pruned ++ lost })
    if pl.stopped || !(lost.any (stopsRun pl) || late) then s
    else
      let s := s.modPlan plan (fun x => { x with stopped := true, byDeadline := late && !lost.any (stopsRun pl) })
      pl.ops.foldl (fun s o => disarm o.1 s) s
/-- Every operation of a plan has nothing left to do: no handler, no event, no send that waits (R312). -/
def opsIdle (s : State) (pl : Plan) : Bool :=
  pl.ops.all (fun o => !runsSlot s o.1 && (s.slot o.1).events.isEmpty && (s.slot o.1).outst == 0 && !siteWaits s (.tile (slotTile o.1)))
def effCollComplete (plan : Nat) (s : State) : State :=
  let pl := s.plan plan
  let gone := ctxState s pl.ctx != 1
  let lost := newlyLost s pl
  let whole := runWhole { pl with pruned := pl.pruned ++ lost } && (!pl.staged || (pl.phase == 2 && !pl.due))
  if !pl.running || !(gone || pl.stopped || whole) || !opsIdle s pl || primaryOpen s plan then s
  else
    let s := s.modPlan plan (fun x => { x with pruned := x.pruned ++ lost })
    finishRun plan (runStatus s (s.plan plan)) s

/-! ### Phase state (R316, R317) -/

/-- The copy to resume from: the higher SEQ, the shadow where they are equal. -/
def pickCopy (shadow primary : Option (Nat × Nat × Nat)) : Option (Nat × Nat × Nat) :=
  match shadow, primary with
  | some a, some b => if a.1 < b.1 then some b else some a
  | some a, none => some a
  | none, b => b
/-- The phase behind a record: the first behind the start, the second behind a first whose chunks are all done, else the phase that the record names (R315, R316). -/
def phaseBehind (pl : Plan) (c : Nat × Nat × Nat) : Nat := if c.2.1 = 0 then 1 else if c.2.1 = 1 ∧ c.2.2 = pl.chunks then 2 else c.2.1
/-- A phase begins from the record to resume from: the next one, or the same again with operations made anew; it has its own record, and the first has its RUN notices (R308, R315, R316, Table 10-14). -/
def beginPhase (k : Nat) (c : Nat × Nat × Nat) (s : State) : State :=
  let pl := s.plan k
  let s := s.modPlan k (fun x => { x with phase := phaseBehind x c, seq := c.1, done := [], bad := [], due := false })
  let s := if pl.due then s else recreatePlan k (endTargets pl.ops stIncomplete (s.modPlan k (fun x => { x with recreate := true })))
  let s := writeRecord k stOK s
  if (s.plan k).phase = 1 then sendRuns (s.plan k) s else s
/-- Both copies read: the run resumes from the one to resume from, or its state is lost (R316, R317). -/
def resumeFrom (k : Nat) (primary : Option (Nat × Nat × Nat)) (s : State) : State :=
  let shadow := shadowCopy s k
  let s := s.modPlan k (fun x => { x with degraded := x.degraded || primary.isNone || shadow.isNone })
  match pickCopy shadow primary with
  | none => finishRun k stStateLost (dropStaging k s)
  | some c => beginPhase k c s
/-- At the start of a phase, and when its thread has restarted, the root reads the primary copy and the shadow (R316). -/
def effPhaseStateResume (plan : Nat) (s : State) : State :=
  let pl := s.plan plan
  let key := readKey 1 (8192 + plan)
  if !pl.running || !pl.staged || pl.stopped || primaryOpen s plan then s
  else if pl.primaryLost then resumeFrom plan none s
  else match poolGot s key with
    | none => askPool key (collThread s) pl.ctx pl.state (64 + (masksOf pl).length) s
    | some a => resumeFrom plan (if a.status = stOK then validCopy plan pl a.data else none) (dropRead key s)

/-- CBLK (R299). -/
def execCblk (s : State) : Host.Outcome State Fault Refusal :=
  unit (true) s (effCblk s)

/-- COLL_PLAN (R304). -/
def execCollPlan (s : State) : Host.Outcome State Fault Refusal :=
  unit (true) s (effCollPlan s)

/-- COLL_RUN (R309). -/
def execCollRun (plan : Nat) (s : State) : Host.Outcome State Fault Refusal :=
  unit (isPlan plan) s (effCollRun plan s)

/-- COLL_FREE (R304). -/
def execCollFree (s : State) : Host.Outcome State Fault Refusal :=
  unit (true) s (effCollFree s)

/-- COLL_STOP (R310). -/
def execCollStop (plan : Nat) (s : State) : Host.Outcome State Fault Refusal :=
  unit (isPlan plan) s (effCollStop plan s)

/-- COLL_COMPLETE (R312). -/
def execCollComplete (plan : Nat) (s : State) : Host.Outcome State Fault Refusal :=
  unit (isPlan plan) s (effCollComplete plan s)

/-- PHASE_STATE_RESUME (R316). -/
def execPhaseStateResume (plan : Nat) (s : State) : Host.Outcome State Fault Refusal :=
  unit (isPlan plan) s (effPhaseStateResume plan s)


end Sys2Proof.Machine
end

