-- ==== Sys2Proof/Machine/Commit.lean ====
section
/-!
DEFINITION. Meanings of the table, commit, lease and event instructions, and of the events of control threads (R218, R256-R263, R358, R361, R368, R398, R402-R411, R583-R585).
-/
namespace Sys2Proof.Machine

/-- A status result (R258). -/
def result (x : Site) (w st : Nat) (s : State) : YOut := .next (setS x (wD w) (BitVec.ofNat 64 st) s)
/-- The address of the memory operand of a word that names it in B. -/
def memAddrB (s : State) (x : Site) (w : Nat) : Nat := dispAddr (sreg s x (wB w)) w

/-! ### TRD (R259, R402, R405) -/

/-- TRD: a word of an entry, named by [41:40] with zero above, of the shadow with IMM[0]; a table, entry or word outside the thread's authority, and any other word, answers VIOLATION (log 41). -/
def effTrd (site : Site) (s : State) : State :=
  issue 0xE0 onControlChervil (fun _ => fOpc + fD + fA + 2 ^ 32) (fun x w s =>
    if !okS (wD w) || !okS (wA w) then .fault 4
    else
      let a := (sreg s x (wA w)).toNat
      let h := siteThread x
      let id := taTable a
      let idx := taIndex a
      if !tblHas s id idx || !mayRead s h id idx || decide (4 ≤ taCount a) || decide (tblWords s id idx ≤ taCount a) then result x w stViolation s
      else
        let v := fld (threadImage s h (bit (wImm w) 0) id idx) (64 * taCount a) 64
        .next (setS x (wD w) (BitVec.ofNat 64 v) (readClears id idx (taCount a) s))) site s

/-! ### TWR and its rows (R259) -/

/-- 64-bit words that a write of an entry takes; a table slot is written by its word 0 (R357). -/
def writeWords (s : State) (id idx : Nat) : Nat := if id = 0x0048 then 1 else tblWords s id idx
/-- The entry written: from registers, or from data memory. -/
def twrValue (s : State) (x : Site) (w n : Nat) : Nat :=
  if wImmf w then bytesNat (readMem s x (memAddrB s x w) (8 * n))
  else packWords ((List.range n).map (fun i => (sreg s x (wB w + i)).toNat))
/-- A TWR of one row; a write that is another row's is left to it. A slot write waits where it stands until PSTATE is RUN (R573). -/
def twr (want : TwrCase) (site : Site) (s : State) : State :=
  issue 0xE1 onControlChervil (fun w => fOpc + fD + fA + fB + fImmf + (if wImmf w then fImm else 0)) (fun x w s =>
    if !okS (wD w) || !okS (wA w) || !okS (wB w) then .fault 4
    else
      let a := (sreg s x (wA w)).toNat
      let h := siteThread x
      let id := taTable a
      let idx := taIndex a
      if !tblHas s id idx then (if want == (if id = 0x0021 then .image else .plain) then result x w stViolation s else .other)
      else
        let n := writeWords s id idx
        if wImmf w && !memOk s x (memAddrB s x w) (8 * n) 8 then (if want == .plain then .fault 2 else .other)
        else
          let v := fld (twrValue s x w n) 0 (if id = 0x0048 then 64 else tblBits s id idx)
          let c := twrCase s id idx v
          if c != want then .other
          else if taCount a != 0 || (!wImmf w && decide (8 < wB w + n)) || !mayWrite s h id idx then result x w stViolation s
          else
            if id = 0x0040 ∧ slotsHeld s then
              (if s.chv.pstate == .doze then .next (holdSlot (s.modThread h (fun t => { t with pc := t.pc - 1 }))) else .stall)
            else
              let r := writeEntry h id idx v c s
              result x w r.1 r.2) site s
def effTwr (site : Site) (s : State) : State := twr .plain site s
def effOpCreate (site : Site) (s : State) : State := twr .create site s
def effOpRebind (site : Site) (s : State) : State := twr .rebind site s
def effPeridotEntryWrite (site : Site) (s : State) : State := twr .image site s
def effTableRetire (site : Site) (s : State) : State := twr .retire site s
def effCodecJobClear (site : Site) (s : State) : State := twr .codecClear site s
def effTierJobStop (site : Site) (s : State) : State := twr .tierStop site s
def effTierJobAck (site : Site) (s : State) : State := twr .tierAck site s

/-! ### Groups (R258-R260, R405-R411) -/

/-- TSTAGE: COUNT consecutive entries of a committed table from data memory, all or none. -/
def effTstage (site : Site) (s : State) : State :=
  issue 0xE2 onControlChervil (fun _ => fOpc + fD + fA + fB + fImm) (fun x w s =>
    if !okS (wD w) || !okS (wA w) || !okS (wB w) then .fault 4
    else
      let a := (sreg s x (wA w)).toNat
      let h := siteThread x
      let id := taTable a
      let idx := taIndex a
      let k := taCount a
      let n := tblWords s id idx
      if k = 0 ∨ !tblHas s id idx ∨ !isCommitted id then result x w stViolation s
      else if !memOk s x (memAddrB s x w) (8 * n * k) 8 then .fault 2
      else if !(List.range k).all (fun i => tblHas s id (idx + i) && mayWrite s h id (idx + i)) then result x w stViolation s
      else
        let r := stage h id ((List.range k).map (fun i =>
          (idx + i, fld (bytesNat (readMem s x (memAddrB s x w + 8 * n * i) (8 * n))) 0 (tblBits s id idx)))) s
        result x w r.1 r.2) site s
/-- TCHECK of one kind: the report word, and what TCOMMIT will ask of it; an epoch group that passes is pending (R406, R411). -/
def tcheck (epoch : Bool) (site : Site) (s : State) : State :=
  issue 0xE3 onControlChervil (fun _ => fOpc + fD + 2 ^ 32) (fun x w s =>
    if bit (wImm w) 0 != epoch then .other
    else if !okS (wD w) then .fault 4
    else
      let h := siteThread x
      let r := reportOf (groupFails s h epoch)
      let ok := r == 0
      let s := if epoch then withdraw h s else s
      let s := s.modThread h (fun t => { t with check := some { ok := ok, epoch := epoch, commits := s.tab.commits } })
      let s := if epoch && ok then
          { s with tab := { s.tab with
            pend := (s.thread h).group.map (fun e => (e.1, keepRo (e.1 / 2 ^ 24) (entry s (e.1 / 2 ^ 24) (e.1 % 2 ^ 24)) e.2))
            pendThread := h, pending := true } }
        else s
      result x w r s) site s
def effTcheck (site : Site) (s : State) : State := tcheck false site s
def effTcheckEpoch (site : Site) (s : State) : State := tcheck true site s
/-- The open group of a thread is over, with a pending bank of it. -/
def endGroup (h : Nat) (s : State) : State :=
  let s := withdraw h s
  s.modThread h (fun t => { t with group := [], groupOpen := false })
/-- TCOMMIT of one kind (R260, R408, R411). -/
def tcommit (epoch : Bool) (site : Site) (s : State) : State :=
  issue 0xE4 onControlChervil (fun _ => fOpc + fD + 2 ^ 32) (fun x w s =>
    if bit (wImm w) 0 != epoch then .other
    else if !okS (wD w) then .fault 4
    else
      let h := siteThread x
      let t := s.thread h
      match t.check with
      | none => result x w stViolation s
      | some c =>
        if !c.ok || c.epoch != epoch then result x w stViolation s
        else if c.commits ≠ s.tab.commits then result x w stBusy s
        else
          let s := applyGroup t.group (threadDie h) epoch s
          let s := if epoch then { s with tab := { s.tab with pendThread := h } } else s
          result x w stOK (endGroup h s)) site s
def effTcommit (site : Site) (s : State) : State := tcommit false site s
def effTcommitEpoch (site : Site) (s : State) : State := tcommit true site s
/-- TABORT: the group is discarded (R260, R411). -/
def effTabort (site : Site) (s : State) : State :=
  issue 0xE5 onControlChervil (fun _ => fOpc) (fun x _ s => .next (dropGroup (siteThread x) s)) site s
/-- 1 ms after its flip the old bank is retired: OLD_LIVE clears, with the record of the thread that committed, and RETIRED goes to the coordinator that waits for it (R411, R413, R609). -/
def effOldBankRetired (s : State) : State :=
  onlyIf (s.tab.oldLive && passed s s.tab.eflipt 1000000) s
    (let t := { s with tab := { s.tab with old := [], oldLive := false } }
     let t := emit (threadDie t.tab.pendThread) 0x0A01 0 t.tab.mseq 0 0 0 t
     match t.map.retireTo with
     | some (node, mseq) => mapMessage mapRetired mseq node 0 node { t with map := { t.map with retireTo := none } }
     | none => t)

/-! ### Leases (R261) -/

/-- LRENEW: a lease renewed as a commit group of its one entry, or REVOKED. -/
def effLrenew (site : Site) (s : State) : State :=
  issue 0xE7 onControl (fun _ => fOpc + fD + fA) (fun x w s =>
    if !okS (wD w) || !okS (wA w) then .fault 4
    else
      let h := siteThread x
      let e := (sreg s x (wA w)).toNat % 65536
      let v := extent s e
      if (s.thread h).ctx != 0 || !exLeased v then result x w stViolation s
      else if (exState v != 1 && exState v != 2) || (mfind? (tkey 0x0013 e) (s.thread h).group).any (fun g => exState g == 3) then
        result x w stRevoked s
      else
        result x w stOK (applyGroup [(tkey 0x0013 e, setFld (setFld v 88 3 1) 128 64 (now s + exLease v))] (threadDie h) false s)) site s
/-- LSCAN: the next extent whose lease end has passed; sD[15:0] is open where none is found (log 8). -/
def effLscan (site : Site) (s : State) : State :=
  issue 0xE8 onControl (fun _ => fOpc + fD + fA + fB) (fun x w s =>
    if !okS (wD w) || !okS (wA w) || !okS (wB w) then .fault 4
    else
      let lo := (sreg s x (wA w)).toNat % 65536
      let bound := (sreg s x (wB w)).toNat
      let hit := if (s.thread (siteThread x)).ctx != 0 then none
        else (listedExtents s).find? (fun e => let v := extent s e
          decide (lo ≤ e) && exLeased v && (exState v == 1 || exState v == 2) && decide (exEnd v ≤ bound))
      let s := { s with chv := { s.chv with lscanAt := now s, stallRaised := false } }
      match hit with
      | some e => .next (setS x (wD w) (BitVec.ofNat 64 (65536 + e)) s)
      | none =>
        let d := draw s
        .next (setS x (wD w) (BitVec.ofNat 64 (d.1 % 65536)) d.2)) site s

/-! ### Events of a thread (R256, R262) -/

/-- A customer service's request without completion leaves its mailbox as its event is delivered (log 47). -/
def takeSilent (e : ThreadEvent) (s : State) : State :=
  let v := byteAt e.desc 0 1
  let b := byteAt e.desc 1 1
  if e.kind = 1 ∧ bit b 0 ∧ !bit b 1 ∧ 0x40 ≤ v then
    match takeMailIf v (fun m => m.nocmp && m.src == byteAt e.desc 4 2 && m.tag == byteAt e.desc 8 4) s with
    | some (_, t) => t
    | none => s
  else s
/-- The event at the head of a thread's queue is delivered by an EVWAIT word: its type to sD, its descriptor to data memory. -/
def deliverEvent (x : Site) (w : Nat) (s : State) : State :=
  let h := siteThread x
  match (s.thread h).events with
  | [] => s.modThread h (fun t => { t with waiting := true })
  | e :: rest =>
    let s := takeSilent e (s.modThread h (fun t => { t with events := rest, waiting := false }))
    setS x (wD w) (BitVec.ofNat 64 e.kind) (writeMem x (memAddr s x w) (padTo 64 e.desc) s)
/-- EVWAIT: the next event, or the thread waits for it. -/
def effEvwait (site : Site) (s : State) : State :=
  issue 0xEA onControlChervil (fun _ => fOpc + fD + fA + fImm) (fun x w s =>
    if !okS (wD w) || !okS (wA w) then .fault 4
    else if !memOk s x (memAddr s x w) 64 8 then .fault 2
    else .next (deliverEvent x w s)) site s
/-- Site of a thread. -/
def threadSite (h : Nat) : Site := if h = chervilThread then .chervil else .thread h
/-- A response for a thread's own tag that has arrived at its core. -/
def threadResponse (h : Nat) (e : Packet × Nat) : Bool :=
  isMemRsp (pOp e.1) && decide (threadTags h ≤ pTag e.1) && decide (pTag e.1 < threadTags h + 512)
/-- A MAPMSG of a reserved type, which asks nothing of the module (R412). -/
def reservedMap (thread : Nat) (s : State) (e : Packet × Nat) : Bool :=
  thread == mapThread s && pOp e.1 == opMAPMSG && !inRange 1 5 (mmType e.1)
/-- Responses to a thread's own requests become events, and the map thread's messages of reserved types; a thread that waits gets its first event by the EVWAIT it stands behind. -/
def effThreadEventDeliver (thread : Nat) (s : State) : State :=
  let s := if thread = chervilThread then s
    else match popFirst (threadResponse thread) s.mf.modIn with
      | some (e, rest) => takeResponse e.1 (fun t => { t with mf := { t.mf with modIn := rest } }) s
      | none => match popFirst (reservedMap thread s) s.mf.modIn with
        | some (e, rest) => mapEvent e.1 { s with mf := { s.mf with modIn := rest } }
        | none => drainBacklog (threadTags thread) s
  let t := s.thread thread
  onlyIf (t.waiting && t.running && !t.events.isEmpty) s
    (deliverEvent (threadSite thread) (mget (0 : Word) (65536 * threadCore thread + (t.pc - 1)) s.ctl.prog).toNat s)
/-- The single deadline of a thread is reached: a TIMER event (R256, Table 08-20). -/
def effThreadDeadline (thread : Nat) (s : State) : State :=
  let t := s.thread thread
  onlyIf (t.running && t.deadline != 2 ^ 64 - 1 && reached s t.deadline) s
    (raiseThread thread 5 (natBytes 8 t.deadline) (s.modThread thread (fun t => { t with deadline := 2 ^ 64 - 1 })))
/-- An instruction that would fault, or a word or memory that cannot be read, stops its thread; an uncorrectable word counts against the core (R263, R514). -/
def effThreadStop (thread : Nat) (ue : Bool) (s : State) : State :=
  let x := threadSite thread
  let bad := match fetchWord s x with
    | none => true
    | some w => !assignedOpc (w % 256)
  onlyIf ((s.thread thread).running && (ue || (siteReady s x && bad))) s
    (let s := if ue && thread != chervilThread then
        { s with ctl := { s.ctl with coreStops := mmod [] (thread / 32) (· ++ [now s]) s.ctl.coreStops } } else s
     threadStop thread 4 s)

/-! ### The recorder's instructions (R583-R585) -/

/-- EVPOST of one kind: 0 another code, 1 FREEZE, 2 THAW. -/
def postKind (code : Nat) : Nat := if code = 0x1101 then 1 else if code = 0x1102 then 2 else 0
/-- FREEZE by a thread (R583, R584). -/
def freezeBy (h : Nat) (s : State) : Nat × State :=
  if (s.thread h).ctx ≠ 0 ∨ h = chervilThread then (stViolation, s)
  else if s.evr.frozen then (if s.evr.holder = h then (stOK, s) else (stBusy, s))
  else
    let s := (liveDies s).foldl (fun s d => emit d 0x1101 0 h 0 0 0 s) s
    (stOK, { s with evr := { s.evr with frozen := true, holder := h, frozenAt := now s } })
/-- THAW by a thread (R583, R584). -/
def thawBy (h : Nat) (s : State) : Nat × State :=
  if (s.thread h).ctx ≠ 0 ∨ h = chervilThread then (stViolation, s)
  else if !s.evr.frozen then (stOK, s)
  else if s.evr.holder ≠ h then (stViolation, s)
  else (stOK, thawDies (liveDies s) false s)
/-- A posted record (R585). -/
def postBy (h code sev : Nat) (p : List Byte) (s : State) : Nat × State :=
  if code < 0x8000 then (stViolation, s)
  else (stOK, emit (threadDie h) code sev (byteAt p 0 4) (byteAt p 4 4) (byteAt p 8 4) (byteAt p 12 4) s)
/-- EVPOST of one row; its status goes to sD (log 44). -/
def evpost (kind : Nat) (site : Site) (s : State) : State :=
  issue 0xEB onControlChervil (fun _ => fOpc + fD + fA + fB + fImm) (fun x w s =>
    let a := (sreg s x (wA w)).toNat
    let code := a % 65536
    if kind ≠ postKind code then .other
    else if !okS (wD w) || !okS (wA w) || !okS (wB w) then .fault 4
    else if !memOk s x (memAddrB s x w) 16 8 then .fault 2
    else
      let h := siteThread x
      if 3 < fld a 16 4 then result x w stViolation s
      else
        let r := match kind with
          | 1 => freezeBy h s
          | 2 => thawBy h s
          | _ => postBy h code (fld a 16 4) (readMem s x (memAddrB s x w) 16) s
        result x w r.1 r.2) site s
def effEvpost (site : Site) (s : State) : State := evpost 0 site s
def effFreeze (site : Site) (s : State) : State := evpost 1 site s
def effThaw (site : Site) (s : State) : State := evpost 2 site s
/-- The module thaws on its own 1 s after the freeze, or when its holder has stopped (R584). -/
def effAutoThaw (s : State) : State :=
  onlyIf (s.evr.frozen && (passed s s.evr.frozenAt 1000000000 || !(s.thread s.evr.holder).running)) s (autoThawNow s)

/-! ### Meanings -/

/-- TRD (R259). -/
def execTrd (site : Site) (s : State) : Host.Outcome State Fault Refusal :=
  unit (isSite site) s (effTrd site s)

/-- TWR (R259). -/
def execTwr (site : Site) (s : State) : Host.Outcome State Fault Refusal :=
  unit (isSite site) s (effTwr site s)

/-- OP_CREATE (R196). -/
def execOpCreate (site : Site) (s : State) : Host.Outcome State Fault Refusal :=
  unit (isSite site) s (effOpCreate site s)

/-- OP_REBIND (R218). -/
def execOpRebind (site : Site) (s : State) : Host.Outcome State Fault Refusal :=
  unit (isSite site) s (effOpRebind site s)

/-- PERIDOT_ENTRY_WRITE (R368). -/
def execPeridotEntryWrite (site : Site) (s : State) : Host.Outcome State Fault Refusal :=
  unit (isSite site) s (effPeridotEntryWrite site s)

/-- TABLE_RETIRE (R358). -/
def execTableRetire (site : Site) (s : State) : Host.Outcome State Fault Refusal :=
  unit (isSite site) s (effTableRetire site s)

/-- CODEC_JOB_CLEAR (R361). -/
def execCodecJobClear (site : Site) (s : State) : Host.Outcome State Fault Refusal :=
  unit (isSite site) s (effCodecJobClear site s)

/-- TIER_JOB_STOP (R398). -/
def execTierJobStop (site : Site) (s : State) : Host.Outcome State Fault Refusal :=
  unit (isSite site) s (effTierJobStop site s)

/-- TIER_JOB_ACK (R398). -/
def execTierJobAck (site : Site) (s : State) : Host.Outcome State Fault Refusal :=
  unit (isSite site) s (effTierJobAck site s)

/-- TSTAGE (R259). -/
def execTstage (site : Site) (s : State) : Host.Outcome State Fault Refusal :=
  unit (isSite site) s (effTstage site s)

/-- TCHECK (R406). -/
def execTcheck (site : Site) (s : State) : Host.Outcome State Fault Refusal :=
  unit (isSite site) s (effTcheck site s)

/-- TCHECK_EPOCH (R411). -/
def execTcheckEpoch (site : Site) (s : State) : Host.Outcome State Fault Refusal :=
  unit (isSite site) s (effTcheckEpoch site s)

/-- TCOMMIT (R408). -/
def execTcommit (site : Site) (s : State) : Host.Outcome State Fault Refusal :=
  unit (isSite site) s (effTcommit site s)

/-- TCOMMIT_EPOCH (R411). -/
def execTcommitEpoch (site : Site) (s : State) : Host.Outcome State Fault Refusal :=
  unit (isSite site) s (effTcommitEpoch site s)

/-- TABORT (R260). -/
def execTabort (site : Site) (s : State) : Host.Outcome State Fault Refusal :=
  unit (isSite site) s (effTabort site s)

/-- OLD_BANK_RETIRED (R411). -/
def execOldBankRetired (s : State) : Host.Outcome State Fault Refusal :=
  unit (true) s (effOldBankRetired s)

/-- LRENEW (R261). -/
def execLrenew (site : Site) (s : State) : Host.Outcome State Fault Refusal :=
  unit (isSite site) s (effLrenew site s)

/-- LSCAN (R261). -/
def execLscan (site : Site) (s : State) : Host.Outcome State Fault Refusal :=
  unit (isSite site) s (effLscan site s)

/-- EVWAIT (R262). -/
def execEvwait (site : Site) (s : State) : Host.Outcome State Fault Refusal :=
  unit (isSite site) s (effEvwait site s)

/-- THREAD_EVENT_DELIVER (R262). -/
def execThreadEventDeliver (thread : Nat) (s : State) : Host.Outcome State Fault Refusal :=
  unit (isThread thread) s (effThreadEventDeliver thread s)

/-- THREAD_DEADLINE (R256). -/
def execThreadDeadline (thread : Nat) (s : State) : Host.Outcome State Fault Refusal :=
  unit (isThread thread) s (effThreadDeadline thread s)

/-- THREAD_STOP (R263). -/
def execThreadStop (thread : Nat) (ue : Bool) (s : State) : Host.Outcome State Fault Refusal :=
  unit (isThread thread) s (effThreadStop thread ue s)

/-- EVPOST (R585). -/
def execEvpost (site : Site) (s : State) : Host.Outcome State Fault Refusal :=
  unit (isSite site) s (effEvpost site s)

/-- FREEZE (R583). -/
def execFreeze (site : Site) (s : State) : Host.Outcome State Fault Refusal :=
  unit (isSite site) s (effFreeze site s)

/-- THAW (R583). -/
def execThaw (site : Site) (s : State) : Host.Outcome State Fault Refusal :=
  unit (isSite site) s (effThaw site s)

/-- AUTO_THAW (R584). -/
def execAutoThaw (s : State) : Host.Outcome State Fault Refusal :=
  unit (true) s (effAutoThaw s)


end Sys2Proof.Machine
end

