-- ==== Sys2Proof/Machine/ScrubOps.lean ====
section
/-!
DEFINITION. Shared operations of scrubs and of the end of a context's removal (R351, R462-R467; choices of the lease manager and the scrub: log 49).
-/
namespace Sys2Proof.Machine

/-- Mailbox thread of the lease manager. -/
def leaseThread (s : State) : Nat := mboxThread s 6

/-! ### Commits of the lease manager -/

/-- Range entries that name an extent. -/
def extRanges (s : State) (e : Nat) : List Nat := (listedIdx s 0x0012).filter (fun i => let r := entry s 0x0012 i; r != 0 && fld r 27 16 == e)
/-- The lowest range entries that are not used. -/
def freeRanges (s : State) (n : Nat) : List Nat :=
  let used := (listedIdx s 0x0012).filter (fun i => entry s 0x0012 i != 0)
  ((List.range (used.length + n)).filter (fun i => !used.contains i)).take n
/-- The entry of an extent in a state. -/
def extIn (s : State) (e st : Nat) : Nat × Nat × Nat := (0x0013, e, setFld (extent s e) 88 3 st)
/-- The entries of a context's closing group: OPEN clear, every owned extent that serves REVOKING, and no range entry of the context on another owner's extent (R460 step 2). -/
def closingEntries (s : State) (c : Nat) : List (Nat × Nat × Nat) :=
  [(0x0030, c, setFld (entry s 0x0030 c) 2 1 0)]
    ++ ((listedExtents s).filter (fun e => exOwner (extent s e) == c && (exState (extent s e) == 1 || exState (extent s e) == 2))).map
      (fun e => (0x0013, e, setFld (extent s e) 88 3 3))
    ++ ((listedIdx s 0x0012).filter (fun i =>
      let r := entry s 0x0012 i
      r != 0 && fld r 0 10 == c && exOwner (extent s (fld r 27 16)) != c)).map (fun i => (0x0012, i, 0))
/-- Extents made SCRUBBING, each with the range entry of context 1023 that its scrub writes through (R464). -/
def scrubbingEntries (s : State) (l : List Nat) : List (Nat × Nat × Nat) :=
  l.map (fun e => extIn s e 4) ++ (l.zip (freeRanges s l.length)).map (fun (x : Nat × Nat) =>
    (0x0012, x.2, 1023 + 2 ^ 10 * s.boot.node + 2 ^ 25 * 2 + 2 ^ 27 * x.1))

/-! ### Scrub writes (R464, R465) -/

/-- Zero lines as a scrub writes them. -/
def scrubText (s : State) (slot node laddr lines : Nat) : List Byte :=
  xtsLines true (slotKey s slot) node laddr (fun _ => false) (List.replicate (64 * lines) 0)
/-- Lines of a node written by the lease manager's thread on TC7. -/
def scrubLines (e slot c node laddr lines : Nat) (s : State) : State :=
  let h := leaseThread s
  (List.range (ceilDiv lines 4)).foldl (fun s i =>
    let n := min 4 (lines - 4 * i)
    let p := mkPkt 7 (if n = 1 then opWR64 else opWRN) c (ctxKgen s c) s.tab.cur node s.boot.node 0 0
      ((laddr + 4 * i) % 2 ^ 42 + 2 ^ 42 * (n - 1)) (scrubText s slot node (laddr + 4 * i) n)
    requestOwn (threadTags h) { pkt := p, user := 6, unit := e, arg := h } s) s
/-- A near page overwritten by its home: buffered lines and poison go. -/
def scrubNear (slot p : Nat) (s : State) : State :=
  let a := 65536 * frameKey s (stackOf s p) (fld (pgLoc (page s p)) 0 19)
  { s with mf := { s.mf with
    hbm := memWrite s.mf.hbm a (scrubText s slot s.boot.node (1024 * p) 1024)
    poison := s.mf.poison.filter (fun l => !(decide (a / 64 ≤ l) && decide (l < a / 64 + 1024)))
    lines := s.mf.lines.filter (fun x => linePage x.1 != p) } }
/-- A page overwritten in the tier where it rests; nothing is written to host memory, and a host-tier page is released as it stands. -/
def scrubPage (e slot : Nat) (s : State) (p : Nat) : State :=
  let v := page s p
  match pgState v with
  | 1 => scrubNear slot p s
  | 2 =>
    if pgTier v = 1 then
      let b := extent s (fld (pgLoc v) 0 16)
      scrubLines e slot 0 (exNode b) (1024 * (exBase b + fld (pgLoc v) 16 32)) 1024 s
    else s
  | _ => s
/-- The slot of an extent's scrub: its owner's removal has one pair for the whole scrub; another scrub takes its own. -/
def scrubSlot (e : Nat) (s : State) : Option (Nat × State) :=
  let c := exOwner (extent s e)
  match mfind? c s.cx.removals with
  | none => loadScrub c s
  | some r =>
    match r.slot with
    | some n => some (n, s)
    | none =>
      match loadScrub c s with
      | none => none
      | some (n, t) => some (n, { t with cx := { t.cx with removals := mput c { r with slot := some n, slotTry := now s } t.cx.removals } })
/-- The scrub of a SCRUBBING extent begins once a scrub slot is obtained; an extent without a lease here is scrubbed by the module that times it (R464, R465). -/
def beginScrub (s : State) (e : Nat) : State :=
  let v := extent s e
  if exState v ≠ 4 ∨ !exLeased v ∨ mhas e s.svc.scrubs then s
  else match scrubSlot e s with
    | none => s
    | some (n, t) =>
      let t := { t with svc := { t.svc with scrubs := mput e n t.svc.scrubs } }
      if exNode v = t.boot.node then (extentPages t e).foldl (scrubPage e n) t
      else scrubLines e n 1023 (exNode v) (1024 * exBase v) (1024 * exSize v) t

/-! ### The end of a removal (R458, R464, R467) -/

/-- A closure on the anchor: its records and its entry; the pages that peers scrubbed are their own to report (log 49). -/
def writeClosure (c : Nat) (r : Removal) (s : State) : State :=
  let peers := (peersOf s c).foldl (fun (a : List (Nat × Bool × Nat) × State) n =>
    if r.excluded.contains n then (a.1 ++ [(n, true, 0)], a.2)
    else
      let d := draw a.2
      (a.1 ++ [(n, false, d.1 % 2 ^ 32)], d.2)) ([], s)
  let mods := (s.boot.node, false, r.pages) :: peers.1
  let s := peers.2
  let x : Closure := { ctx := c, kgen := ctxKgen s c, time := now s, mods := mods }
  let s := emit 6 0x0C10 1 (c + 2 ^ 10 * ctxKgen s c + 2 ^ 16 * mods.length) (now s) (now s / 2 ^ 32) 0 s
  let s := mods.foldl (fun s (m : Nat × Bool × Nat) => emit 6 0x0C11 1 (m.1 + 2 ^ 16 * b2n m.2.1) m.2.2 0 0 s) s
  { s with cx := { s.cx with closures := (x :: s.cx.closures).take 64 } }
/-- A SCRUBBING context becomes FREE when every extent of it that is leased here is FREE: closure, functions unbound, reservations due for release. -/
def freeContext (c : Nat) (s : State) : State :=
  if ctxState s c ≠ 3 || (listedExtents s).any (fun e => let v := extent s e; exOwner v == c && exLeased v && exState v != 0) then s
  else
    let v := entry s 0x0030 c
    let r := mget {} c s.cx.removals
    let s := if bit v 3 then writeClosure c r s else s
    let s := match r.slot with
      | some n => destroySlot n s
      | none => s
    let s := moveCtx c 0 (fld v 113 4) s
    let s := setEntryFld s 0x0030 c 4 14 0
    { s with cx := { s.cx with removals := mdel c s.cx.removals, release := insertSet c s.cx.release } }
/-- What reserved HBM holds of a context: shadows of its plans, its KV rows, and its weight manifest (R337, R464); its services' plans go with it. -/
def scrubRecords (c : Nat) (s : State) : State :=
  let plans := (s.svc.plans.filter (fun e => e.2.ctx == c)).map (·.1)
  let rows := (s.svc.kvRow.filter (fun e => e.2.1 == c)).map (·.1)
  let s := plans.foldl (fun s k => (removePlan k stContextGone s).2) s
  { s with
    svc := { s.svc with
      shadows := plans.foldl (fun m k => memWrite m (16384 * k) (List.replicate 16384 0)) s.svc.shadows
      experts := s.svc.experts.filter (fun e => e.2.ctx != c)
      kv := s.svc.kv.filter (fun e => !rows.contains (e.1 / 64))
      kvRow := s.svc.kvRow.filter (fun e => e.2.1 != c)
      kvHand := mdel c s.svc.kvHand
      manifest := s.svc.manifest.filter (fun e => e.1 / 4096 != c) }
    per := { s.per with rows := s.per.rows.filter (fun e => !rows.contains (fld e.2 512 17) || !((tableOfRow s e.1).any (fun t =>
      let v := searchTable s t; stWidth v == 0 && stAccess v == 1 && stOwner v == 0 && fld e.2 0 10 == c))) } }

end Sys2Proof.Machine
end

