-- ==== Sys2Proof/Machine/Contexts.lean ====
section
/-!
DEFINITION. Meanings of the removal of a context: flip reports, peers that stay away, SCRUBBING and the scrub slot (R460-R465; log 51).
-/
namespace Sys2Proof.Machine

/-- A flip report: of a peer on the anchor, of the anchor on a peer. -/
def effFlipReport (ctx node : Nat) (s : State) : State :=
  noteReport ctx node s
/-- A peer that has not reported for 10 ms behind the CLOSING entry is named, and the anchor goes on without it. -/
def effPeerUnreachable (ctx node : Nat) (s : State) : State :=
  match mfind? ctx s.cx.removals with
  | none => s
  | some r =>
    if !bit (entry s 0x0030 ctx) 3 || !(peersOf s ctx).contains node || r.reports.contains node || r.excluded.contains node
        || !passed s r.at_ 10000000 then s
    else settleTr ctx (emitClass 6 0x0C ctx node 0 0 { s with cx := { s.cx with
      removals := mput ctx { r with excluded := insertSet node r.excluded } s.cx.removals } })
/-- Extents of a context that are not FREE. -/
def ctxExtents (s : State) (c : Nat) : List Nat := (listedExtents s).filter (fun e => exOwner (extent s e) == c && exState (extent s e) != 0)
/-- The conditions of R462. -/
def scrubReady (s : State) (c : Nat) (r : Removal) : Bool :=
  ctxState s c == 2
    && (match r.tr with
        | some t => passed s t (200000 + pathBound s)
        | none => false)
    && s.ctl.slots.all (fun e => e.2.ctx != c || e.2.st == .free || e.2.st == .cooling)
    && s.cx.retired.contains c
    && (ctxExtents s c).all (fun e => decide (4 ≤ exState (extent s e)) || s.mf.drained.contains e)
/-- The context becomes SCRUBBING, its extents with it in one commit, and their scrub begins; a context without extents is FREE at once (R464). -/
def effContextScrubStart (ctx : Nat) (s : State) : State :=
  match mfind? ctx s.cx.removals with
  | none => s
  | some r =>
    if !scrubReady s ctx r then s
    else
      let l := (ctxExtents s ctx).filter (fun e => exState (extent s e) == 3)
      let c := if l.isEmpty then (stOK, s) else serviceCommit (leaseThread s) (groupOf (scrubbingEntries s l)) s
      if c.1 ≠ stOK then s
      else
        let s := scrubRecords ctx (moveCtx ctx 3 (fld (entry c.2 0x0030 ctx) 113 4) c.2)
        freeContext ctx ((ctxExtents s ctx).foldl beginScrub s)
/-- Every 10 ms the scrub of a context that has no slot asks for one again (R465). -/
def effScrubSlotRetry (ctx : Nat) (s : State) : State :=
  match mfind? ctx s.cx.removals with
  | none => s
  | some r =>
    if ctxState s ctx ≠ 3 || r.slot.isSome || !passed s r.slotTry 10000000 then s
    else
      let s := { s with cx := { s.cx with removals := mput ctx { r with slotTry := now s } s.cx.removals } }
      (ctxExtents s ctx).foldl beginScrub s

/-- FLIP_REPORT (R460). -/
def execFlipReport (ctx node : Nat) (s : State) : Host.Outcome State Fault Refusal :=
  unit (isCtx ctx && isNode node) s (effFlipReport ctx node s)

/-- CONTEXT_SCRUB_START (R462). -/
def execContextScrubStart (ctx : Nat) (s : State) : Host.Outcome State Fault Refusal :=
  unit (isCtx ctx) s (effContextScrubStart ctx s)

/-- PEER_UNREACHABLE (R462). -/
def execPeerUnreachable (ctx node : Nat) (s : State) : Host.Outcome State Fault Refusal :=
  unit (isCtx ctx && isNode node) s (effPeerUnreachable ctx node s)

/-- SCRUB_SLOT_RETRY (R465). -/
def execScrubSlotRetry (ctx : Nat) (s : State) : Host.Outcome State Fault Refusal :=
  unit (isCtx ctx) s (effScrubSlotRetry ctx s)


end Sys2Proof.Machine
end

