-- ==== Sys2Proof/Machine/Discovery.lean ====
section
/-!
DEFINITION. Meanings of the link-local messages of neighbours: discovery, stages and fence notices (R94, R487, R541-R546; log 61).
-/
namespace Sys2Proof.Machine

/-- The first NBRMSG of a type that came by a port. -/
def takeNbr (port mtype : Nat) (s : State) : Option (Packet × State) :=
  (takeMod (fun m => pOp m.1 == opNBRMSG && m.2 == port && hfld m.1 128 4 == mtype) s).map (fun r => (r.1.1, r.2))
/-- Reduced-rate training is done (R82); where BU2 has begun, discovery begins on the port (R541). -/
def effTrainRDone (port : Nat) (s : State) : State :=
  if (s.port port).st != .trainR then s
  else
    let s := grantInit port ((setLink port .reduced s).modPort port (fun x => { x with lanes := modeLanes s port, pos := modeLanes s port }))
    if (s.port port).disc == .idle then startDiscovery port s else s
/-- A HELLO is answered: the module's own goes out with its certificate chunks. An abandoned port, or one that was done, begins anew. -/
def effHello (port : Nat) (s : State) : State :=
  if !mayDiscover s port then s
  else match takeNbr port 1 s with
    | none => s
    | some (p, s) =>
      if p.payload.length ≠ 136 then s
      else
        let fresh := (s.port port).disc == .helloSent || (s.port port).disc == .certs || (s.port port).disc == .proofSent
        let again := decide ((s.port port).peerHello ≠ [])
        let s := if !fresh then startDiscovery port s else if again then sendHello port s else s
        sendCerts port (s.modPort port (fun x => { x with disc := .certs, peerHello := p.payload, peerCert := [] }))
/-- A HELLO unanswered for 10 ms goes out again. -/
def effHelloResend (port : Nat) (s : State) : State :=
  let x := s.port port
  onlyIf (mayDiscover s port && x.disc == .helloSent && passed s x.helloAt 10000000) s (sendHello port s)
/-- A certificate chunk in order; with the last one PROOF goes out. -/
def effCert (port : Nat) (s : State) : State :=
  match takeNbr port 2 s with
  | none => s
  | some (p, s) =>
    let x := s.port port
    if x.disc != .certs || hfld p 132 8 != x.peerCert.length / 1024 % 256 then s
    else
      let s := s.modPort port (fun x => { x with peerCert := x.peerCert ++ p.payload })
      if p.payload.length = 1024 then s
      else
        sendNbr port 3 0 (padTo 96 (Config.ecdsaSign (transcript s port))) (s.modPort port (fun x => { x with disc := .proofSent }))
/-- A PROOF that verifies under the partner's chain: a KIND that does not fit, or a claim refused, abandons the port; else it has keys, a trunk hears the module's stage. -/
def effProof (port : Nat) (s : State) : State :=
  match takeNbr port 3 s with
  | none => s
  | some (p, s) =>
    let x := s.port port
    let ok := match Config.chainKey x.peerCert with
      | some k => Config.ecdsaOk k (transcript s port) p.payload
      | none => false
    if x.disc != .proofSent || !ok then s
    else if (kindOf x.peerHello == 1) != isTrunk s port then abandonPort port 1 s
    else if !isTrunk s port && claimRefused s port (claimOf x.peerHello) then abandonPort port 2 s
    else
      let s := bindPort port s
      if 3 ≤ s.boot.stage then sendStage port s else s
/-- A neighbour's stage and MSEQ. -/
def effNbrmsgStage (port : Nat) (s : State) : State :=
  match takeNbr port 4 s with
  | none => s
  | some (p, s) => s.modPort port (fun x => { x with peerStage := byteAt p.payload 0 1, peerMseq := byteAt p.payload 4 4 })
/-- A partner's fence notice, which the module ignores. -/
def effNbrmsgFence (port : Nat) (s : State) : State := ((takeNbr port 5 s).map (·.2)).getD s
/-- Discovery that has not succeeded in 0.2 s. -/
def effDiscoveryAbandon (port : Nat) (s : State) : State :=
  let x := s.port port
  onlyIf ((x.disc == .helloSent || x.disc == .certs || x.disc == .proofSent) && passed s x.discAt 200000000) s (abandonPort port 0 s)
/-- An abandoned port tries again after 1 s. -/
def effDiscoveryRetry (port : Nat) (s : State) : State :=
  let x := s.port port
  onlyIf (x.disc == .abandoned && passed s x.discAt 1000000000) s (startDiscovery port s)

/-- TRAIN_R_DONE (R82). -/
def execTrainRDone (port : Nat) (s : State) : Host.Outcome State Fault Refusal :=
  unit (isPort port) s (effTrainRDone port s)

/-- HELLO (R542). -/
def execHello (port : Nat) (s : State) : Host.Outcome State Fault Refusal :=
  unit (isPort port) s (effHello port s)

/-- HELLO_RESEND (R542). -/
def execHelloResend (port : Nat) (s : State) : Host.Outcome State Fault Refusal :=
  unit (isPort port) s (effHelloResend port s)

/-- CERT (R542). -/
def execCert (port : Nat) (s : State) : Host.Outcome State Fault Refusal :=
  unit (isPort port) s (effCert port s)

/-- PROOF (R487). -/
def execProof (port : Nat) (s : State) : Host.Outcome State Fault Refusal :=
  unit (isPort port) s (effProof port s)

/-- NBRMSG_STAGE (R546). -/
def execNbrmsgStage (port : Nat) (s : State) : Host.Outcome State Fault Refusal :=
  unit (isPort port) s (effNbrmsgStage port s)

/-- NBRMSG_FENCE (R94). -/
def execNbrmsgFence (port : Nat) (s : State) : Host.Outcome State Fault Refusal :=
  unit (isPort port) s (effNbrmsgFence port s)

/-- DISCOVERY_ABANDON (R542). -/
def execDiscoveryAbandon (port : Nat) (s : State) : Host.Outcome State Fault Refusal :=
  unit (isPort port) s (effDiscoveryAbandon port s)

/-- DISCOVERY_RETRY (R542). -/
def execDiscoveryRetry (port : Nat) (s : State) : Host.Outcome State Fault Refusal :=
  unit (isPort port) s (effDiscoveryRetry port s)


end Sys2Proof.Machine
end

