-- ==== Sys2Proof/Machine/YScalar.lean ====
section
/-!
DEFINITION. Meanings of the scalar and control-flow instructions (R239, R240, Tables 08-5 and 08-6).
-/
namespace Sys2Proof.Machine

/-! ### Scalar instructions -/

/-- Two operands into a register. -/
def alu (f : Word → Word → Word) (x : Site) (w : Nat) (s : State) : YOut :=
  if okS (wD w) && okS (wA w) && okLast w then .next (setS x (wD w) (f (sreg s x (wA w)) (lastOp s x w)) s) else .fault 4
/-- Fields of a row with a destination, a source and a last operand. -/
def fAlu (w : Nat) : Nat := fOpc + fD + fA + fLast w
/-- Shift amount: bits [5:0]. -/
def amount (b : Word) : Nat := b.toNat % 64
def effSmov (site : Site) (s : State) : State :=
  issue 0x01 onAll (fun w => fOpc + fD + fLast w) (fun x w s =>
    if okS (wD w) && okLast w then .next (setS x (wD w) (lastOp s x w) s) else .fault 4) site s
def effSmovh (site : Site) (s : State) : State :=
  issue 0x02 onAll (fun _ => fOpc + fD + fImm) (fun x w s =>
    if okS (wD w) then .next (setS x (wD w) (BitVec.ofNat 64 ((sreg s x (wD w)).toNat % 2 ^ 32 + 2 ^ 32 * wImm w)) s) else .fault 4) site s
def effSadd (site : Site) (s : State) : State := issue 0x03 onAll fAlu (alu (fun a b => a + b)) site s
def effSsub (site : Site) (s : State) : State := issue 0x04 onAll fAlu (alu (fun a b => a - b)) site s
def effSmul (site : Site) (s : State) : State := issue 0x05 onAll fAlu (alu (fun a b => a * b)) site s
def effSand (site : Site) (s : State) : State := issue 0x06 onAll fAlu (alu (fun a b => a &&& b)) site s
def effSor (site : Site) (s : State) : State := issue 0x07 onAll fAlu (alu (fun a b => a ||| b)) site s
def effSxor (site : Site) (s : State) : State := issue 0x08 onAll fAlu (alu (fun a b => a ^^^ b)) site s
def effSshl (site : Site) (s : State) : State := issue 0x09 onAll fAlu (alu (fun a b => a <<< amount b)) site s
def effSshr (site : Site) (s : State) : State := issue 0x0A onAll fAlu (alu (fun a b => a >>> amount b)) site s
def effSsra (site : Site) (s : State) : State := issue 0x0B onAll fAlu (alu (fun a b => a.sshiftRight (amount b))) site s
def effSmin (site : Site) (s : State) : State := issue 0x0C onAll fAlu (alu (fun a b => if b.slt a then b else a)) site s
def effSmax (site : Site) (s : State) : State := issue 0x0D onAll fAlu (alu (fun a b => if a.slt b then b else a)) site s
def effSld (site : Site) (s : State) : State :=
  issue 0x0E onAll (fun _ => fOpc + fD + fA + fImm) (fun x w s =>
    let a := memAddr s x w
    if !(okS (wD w) && okS (wA w)) then .fault 4
    else if !memOk s x a 8 8 then .fault 2
    else if readPoison s x a 8 then .fault 8
    else .next (setS x (wD w) (BitVec.ofNat 64 (bytesNat (readMem s x a 8))) s)) site s
def effSst (site : Site) (s : State) : State :=
  issue 0x0F onAll (fun _ => fOpc + fA + fB + fImm) (fun x w s =>
    let a := memAddr s x w
    if !(okS (wA w) && okS (wB w)) then .fault 4
    else if !memOk s x a 8 8 then .fault 2
    else .next (writeMem x a (natBytes 8 (sreg s x (wB w)).toNat) s)) site s
/-- A vector register of the running handler, none if it is unwritten (R212). -/
def vreg (s : State) (x : Site) (i : Nat) : Option Nat :=
  match x with
  | .tile t => ((s.tile t).run.bind (fun h => mfind? i h.v)).map (·.toNat)
  | _ => none
def effSext (site : Site) (s : State) : State :=
  issue 0x10 onTile (fun _ => fOpc + fD + fA + fImm) (fun x w s =>
    if !okS (wD w) || decide (15 < wImm w) then .fault 4
    else match vreg s x (wA w) with
      | none => .fault 3
      | some v => .next (setS x (wD w) (BitVec.ofNat 64 (fld v (64 * wImm w) 64)) s)) site s
def effStime (site : Site) (s : State) : State :=
  issue 0x11 onControlChervil (fun _ => fOpc + fD) (fun x w s =>
    if okS (wD w) then .next (setS x (wD w) (BitVec.ofNat 64 (now s)) s) else .fault 4) site s

/-! ### Control flow (R206, R240) -/

/-- The target of a branch, none outside the instruction range; the site already stands on the next word. -/
def target (s : State) (x : Site) (off : Int) : Option Nat :=
  let p : Int := (sitePc s x : Int) - 1 + off
  let r := siteRange s x
  if (r.1 : Int) ≤ p ∧ p < r.2 then some p.toNat else none
/-- A branch with its condition. -/
def jump (off : Int) (taken : Bool) (x : Site) (s : State) : YOut :=
  match target s x off with
  | none => .fault 4
  | some p => .next (if taken then setPc x p s else s)
def effBr (site : Site) (s : State) : State :=
  issue 0x20 onAll (fun _ => fOpc + fImm) (fun x w s => jump (sextN 32 (wImm w)) true x s) site s
/-- The last operand of a compare-and-branch: a register, or bits [47:32] sign-extended (R225). -/
def cmpOp (s : State) (x : Site) (w : Nat) : Word := if wImmf w then BitVec.ofInt 64 (sextN 16 (fld w 32 16)) else sreg s x (wB w)
/-- Fields of a compare-and-branch: a register form leaves bits [47:32] unused. -/
def fCmp (w : Nat) : Nat := fOpc + fA + (if wImmf w then fImmf + fImm else fB + 0xFFFF000000000000)
/-- A compare-and-branch; its offset is bits [63:48]. -/
def cmpJump (f : Word → Word → Bool) (x : Site) (w : Nat) (s : State) : YOut :=
  if okS (wA w) && okLast w then jump (sextN 16 (fld w 48 16)) (f (sreg s x (wA w)) (cmpOp s x w)) x s else .fault 4
def effBrEq (site : Site) (s : State) : State := issue 0x21 onAll fCmp (cmpJump (fun a b => a == b)) site s
def effBrNe (site : Site) (s : State) : State := issue 0x22 onAll fCmp (cmpJump (fun a b => a != b)) site s
def effBrLt (site : Site) (s : State) : State := issue 0x23 onAll fCmp (cmpJump (fun a b => a.slt b)) site s
def effBrGe (site : Site) (s : State) : State := issue 0x24 onAll fCmp (cmpJump (fun a b => !a.slt b)) site s
def effBrLtu (site : Site) (s : State) : State := issue 0x25 onAll fCmp (cmpJump (fun a b => a.ult b)) site s
def effBrGeu (site : Site) (s : State) : State := issue 0x26 onAll fCmp (cmpJump (fun a b => !a.ult b)) site s
/-- A predicate register of the running handler, none if it is unwritten. -/
def preg (s : State) (x : Site) (i : Nat) : Option Nat :=
  match x with
  | .tile t => ((s.tile t).run.bind (fun h => mfind? i h.p)).map (·.toNat)
  | _ => none
/-- A branch on a predicate register. -/
def predJump (any : Bool) (x : Site) (w : Nat) (s : State) : YOut :=
  match target s x (sextN 32 (wImm w)) with
  | none => .fault 4
  | some p =>
    match preg s x (wP w) with
    | none => .fault 3
    | some v => .next (if (v != 0) == any then setPc x p s else s)
def effBrpAny (site : Site) (s : State) : State := issue 0x27 onTile (fun _ => fOpc + fP + fImm) (predJump true) site s
def effBrpNone (site : Site) (s : State) : State := issue 0x28 onTile (fun _ => fOpc + fP + fImm) (predJump false) site s
/-- Return stack of a site. -/
def siteStack (s : State) (x : Site) : List Nat :=
  match x with
  | .tile t => match (s.tile t).run with
    | some h => h.stack
    | none => []
  | _ => (s.thread (siteThread x)).stack
def setStack (x : Site) (l : List Nat) (s : State) : State :=
  match x with
  | .tile t => modRun t (fun h => { h with stack := l }) s
  | _ => s.modThread (siteThread x) (fun t => { t with stack := l })
def effCall (site : Site) (s : State) : State :=
  issue 0x29 onAll (fun _ => fOpc + fImm) (fun x w s =>
    match target s x (sextN 32 (wImm w)) with
    | none => .fault 4
    | some p =>
      if 8 ≤ (siteStack s x).length then .fault 4
      else .next (setPc x p (setStack x (sitePc s x :: siteStack s x) s))) site s
/-- A handler ends without DONE or FAIL: one of cause CLOSING takes its operation to ENDING with CONTEXT_GONE (R206, R210). -/
def leaveHandler (t : Nat) (s : State) : State :=
  match (s.tile t).run with
  | none => s
  | some h =>
    let s := noteAll (4096 * t + h.slot) h.ev (endHandler t s)
    if h.ev.ev = 4 ∧ h.ev.code = 10 then endOp (4096 * t + h.slot) stContextGone 10 s else s
/-- RET on an empty stack ends a handler; a thread has none to end, and stops as for a reserved encoding (log 37). -/
def effRet (site : Site) (s : State) : State :=
  issue 0x2A onAll (fun _ => fOpc) (fun x _ s =>
    match siteStack s x with
    | p :: rest => .next (setPc x p (setStack x rest s))
    | [] => match x with
      | .tile t => .next (leaveHandler t s)
      | _ => .fault 4) site s

/-! ### Meanings -/

/-- SMOV (R239). -/
def execSmov (site : Site) (s : State) : Host.Outcome State Fault Refusal :=
  unit (isSite site) s (effSmov site s)

/-- SMOVH (R239). -/
def execSmovh (site : Site) (s : State) : Host.Outcome State Fault Refusal :=
  unit (isSite site) s (effSmovh site s)

/-- SADD (R239). -/
def execSadd (site : Site) (s : State) : Host.Outcome State Fault Refusal :=
  unit (isSite site) s (effSadd site s)

/-- SSUB (R239). -/
def execSsub (site : Site) (s : State) : Host.Outcome State Fault Refusal :=
  unit (isSite site) s (effSsub site s)

/-- SMUL (R239). -/
def execSmul (site : Site) (s : State) : Host.Outcome State Fault Refusal :=
  unit (isSite site) s (effSmul site s)

/-- SAND (R239). -/
def execSand (site : Site) (s : State) : Host.Outcome State Fault Refusal :=
  unit (isSite site) s (effSand site s)

/-- SOR (R239). -/
def execSor (site : Site) (s : State) : Host.Outcome State Fault Refusal :=
  unit (isSite site) s (effSor site s)

/-- SXOR (R239). -/
def execSxor (site : Site) (s : State) : Host.Outcome State Fault Refusal :=
  unit (isSite site) s (effSxor site s)

/-- SSHL (R239). -/
def execSshl (site : Site) (s : State) : Host.Outcome State Fault Refusal :=
  unit (isSite site) s (effSshl site s)

/-- SSHR (R239). -/
def execSshr (site : Site) (s : State) : Host.Outcome State Fault Refusal :=
  unit (isSite site) s (effSshr site s)

/-- SSRA (R239). -/
def execSsra (site : Site) (s : State) : Host.Outcome State Fault Refusal :=
  unit (isSite site) s (effSsra site s)

/-- SMIN (R239). -/
def execSmin (site : Site) (s : State) : Host.Outcome State Fault Refusal :=
  unit (isSite site) s (effSmin site s)

/-- SMAX (R239). -/
def execSmax (site : Site) (s : State) : Host.Outcome State Fault Refusal :=
  unit (isSite site) s (effSmax site s)

/-- SLD (R239). -/
def execSld (site : Site) (s : State) : Host.Outcome State Fault Refusal :=
  unit (isSite site) s (effSld site s)

/-- SST (R239). -/
def execSst (site : Site) (s : State) : Host.Outcome State Fault Refusal :=
  unit (isSite site) s (effSst site s)

/-- SEXT (R239). -/
def execSext (site : Site) (s : State) : Host.Outcome State Fault Refusal :=
  unit (isSite site) s (effSext site s)

/-- STIME (R239). -/
def execStime (site : Site) (s : State) : Host.Outcome State Fault Refusal :=
  unit (isSite site) s (effStime site s)

/-- BR (R240). -/
def execBr (site : Site) (s : State) : Host.Outcome State Fault Refusal :=
  unit (isSite site) s (effBr site s)

/-- BR_EQ (R240). -/
def execBrEq (site : Site) (s : State) : Host.Outcome State Fault Refusal :=
  unit (isSite site) s (effBrEq site s)

/-- BR_NE (R240). -/
def execBrNe (site : Site) (s : State) : Host.Outcome State Fault Refusal :=
  unit (isSite site) s (effBrNe site s)

/-- BR_LT (R240). -/
def execBrLt (site : Site) (s : State) : Host.Outcome State Fault Refusal :=
  unit (isSite site) s (effBrLt site s)

/-- BR_GE (R240). -/
def execBrGe (site : Site) (s : State) : Host.Outcome State Fault Refusal :=
  unit (isSite site) s (effBrGe site s)

/-- BR_LTU (R240). -/
def execBrLtu (site : Site) (s : State) : Host.Outcome State Fault Refusal :=
  unit (isSite site) s (effBrLtu site s)

/-- BR_GEU (R240). -/
def execBrGeu (site : Site) (s : State) : Host.Outcome State Fault Refusal :=
  unit (isSite site) s (effBrGeu site s)

/-- BRP_ANY (R240). -/
def execBrpAny (site : Site) (s : State) : Host.Outcome State Fault Refusal :=
  unit (isSite site) s (effBrpAny site s)

/-- BRP_NONE (R240). -/
def execBrpNone (site : Site) (s : State) : Host.Outcome State Fault Refusal :=
  unit (isSite site) s (effBrpNone site s)

/-- CALL (R240). -/
def execCall (site : Site) (s : State) : Host.Outcome State Fault Refusal :=
  unit (isSite site) s (effCall site s)

/-- RET (R240). -/
def execRet (site : Site) (s : State) : Host.Outcome State Fault Refusal :=
  unit (isSite site) s (effRet site s)


end Sys2Proof.Machine
end

