-- ==== Sys2Proof/Machine/Dma.lean ====
section
/-!
DEFINITION. Meanings of the DMA instruction, row by row of its operation: posting by a thread, the move by the engine, and the completion (R258, R439-R445, R461; choices: log 54).
-/
namespace Sys2Proof.Machine

/-! ### Descriptors (Table 16-16) -/

def dmOp (d : List Byte) : Nat := fld (byteAt d 0 1) 0 4
def dmFlush (d : List Byte) : Bool := bit (byteAt d 0 1) 4
def dmPort (d : List Byte) : Nat := byteAt d 1 1 % 2
def dmFunc (d : List Byte) : Nat := byteAt d 2 1 % 128
def dmSw (d : List Byte) : Nat := fld (byteAt d 3 1) 0 3
def dmDw (d : List Byte) : Nat := fld (byteAt d 3 1) 4 3
def dmKind (d : List Byte) : Nat := fld (byteAt d 4 1) 0 2
def dmUnit (d : List Byte) : Nat := byteAt d 6 2
def dmHaddr (d : List Byte) : Nat := byteAt d 8 8
def dmMaddr (d : List Byte) : Nat := byteAt d 16 8
def dmLen (d : List Byte) : Nat := byteAt d 24 4
/-- The write engine carries it out: what moves toward the host. -/
def dmWrites (d : List Byte) : Bool := dmOp d == 2 || dmOp d == 3 || dmOp d == 5
/-- Width of the host side in bytes. -/
def dmWidth (d : List Byte) : Nat := 2 ^ (if dmWrites d then dmDw d else dmSw d)
/-- A tier engine thread (R388, R514). -/
def tierThread (s : State) (h : Nat) : Bool := h == 32 * reservedCore s 3 + 31 || h == 32 * reservedCore s 7 + 31
/-- The module side lies where its kind says. -/
def dmSideOk (s : State) (h : Nat) (d : List Byte) : Bool :=
  let m := dmMaddr d
  match dmKind d with
  | 0 => m % (if dmOp d = 1 ∨ dmOp d = 2 then 16 else 8) == 0 && decide (m + dmLen d ≤ 4194304)
  | 1 => (dmOp d == 1 || dmOp d == 2) && dmLen d % 64 == 0 && fld m 61 3 == 0
  | 2 => (dmOp d == 1 || dmOp d == 2) && tierThread s h && decide (m < 4194304) && decide (dmLen d ≤ 65536)
  | _ => false
/-- The checks of R440 but for the function's binding. -/
def dmOk (s : State) (h : Nat) (d : List Byte) : Bool :=
  let f := s.fifo (dmUnit d)
  inRange 1 5 (dmOp d) && !bit (byteAt d 0 1) 7 && fld (byteAt d 1 1) 1 7 == 0 && !bit (byteAt d 2 1) 7
    && !bit (byteAt d 3 1) 3 && !bit (byteAt d 3 1) 7 && decide (dmSw d ≤ 4) && decide (dmDw d ≤ 4)
    && fld (byteAt d 4 1) 2 6 == 0 && byteAt d 5 1 == 0 && byteAt d 28 36 == 0 && inRange 1 16777216 (dmLen d)
    && (if dmWrites d then dmSw d else dmDw d) == 4 && dmSideOk s h d
    && (if dmOp d = 3 ∨ dmOp d = 4 then
          decide (dmUnit d < 256) && ffOwned f (dmPort d) (dmFunc d) && ffToHost f == (dmOp d == 3) && dmLen d % 8 == 0 else true)
    && (if dmOp d = 5 then decide (dmUnit d < windowCount (dmFunc d)) && decide (dmLen d ≤ 56) else true)
/-- The status a descriptor ends with before anything moves, none where it may move (R440, R445, R461). -/
def dmRefused (s : State) (x : Dma) : Option Nat :=
  let d := x.desc
  match funcCtx s (dmPort d) (dmFunc d) with
  | none => some stViolation
  | some c =>
    if !dmOk s x.thread d || (x.ctx != 0 && x.ctx != c) then some stViolation
    else if ctxState s c ≠ 1 ∨ ctxState s x.ctx ≠ 1 then some stContextGone
    else if (dmOp d = 1 ∨ dmOp d = 2) ∧ !(s.hport (dmPort d)).linkUp then some stPathLost
    else none

/-! ### Posting (R258) -/

def dmaPost (op : Nat) (site : Site) (s : State) : State :=
  issue 0xE6 onControl (fun _ => fOpc + fD + fA + fImm) (fun x w s =>
    if !okS (wD w) || !okS (wA w) then .fault 4
    else if !memOk s x (memAddr s x w) 64 8 then .fault 2
    else
      let h := siteThread x
      let d := readMem s x (memAddr s x w) 64
      if dmOp d ≠ op ∧ !(op == 1 && !inRange 1 5 (dmOp d)) then .other
      else
        let t := (s.thread h).ticket
        let q : Dma := { thread := h, ticket := t, ctx := (s.thread h).ctx, desc := d }
        let s := s.modHport (dmPort d) (fun p => if dmWrites d then { p with wrq := p.wrq ++ [q] } else { p with rdq := p.rdq ++ [q] })
        .next ((setS x (wD w) (BitVec.ofNat 64 (65536 * t)) s).modThread h (fun y => { y with ticket := (t + 1) % 65536 }))) site s

/-! ### Host requests (R442, R443) -/

/-- Largest request of a port: Max Payload Size or Max Read Request Size. -/
def maxRequest (read : Bool) (port : Nat) : Nat := 128 * 2 ^ (Config.pcieSize read port % (if read then 6 else 3))
/-- A range cut at a largest size and at 4 KiB boundaries. -/
def bursts (a n max_ : Nat) : List (Nat × Nat) :=
  ((List.range (n / max_ + n / 4096 + 2)).foldl (fun (acc : List (Nat × Nat) × Nat) _ =>
    if a + n ≤ acc.2 then acc
    else
      let e := min (a + n) (min (acc.2 + max_) ((acc.2 / 4096 + 1) * 4096))
      (acc.1 ++ [(acc.2, e - acc.2)], e)) ([], a)).1
/-- The requests of a descriptor: main path by its width, else rounded out to double words. -/
def dmRequests (d : List Byte) : List (Nat × Nat) :=
  let a := dmHaddr d
  let n := dmLen d
  let w := dmWidth d
  let max_ := maxRequest (!dmWrites d) (dmPort d)
  if a % w = 0 ∧ n % w = 0 then
    (if w = 16 then bursts a n max_ else (List.range (n / w)).map (fun i => (a + w * i, w)))
  else bursts (a / 4 * 4) (ceilDiv (a + n) 4 * 4 - a / 4 * 4) max_
/-- The bytes of a descriptor that a request writes: where it begins, and they. -/
def dmSlice (d data : List Byte) (r : Nat × Nat) : Nat × List Byte :=
  let a := max r.1 (dmHaddr d)
  (a, (data.drop (a - dmHaddr d)).take (r.1 + r.2 - a))

/-! ### Moves (R439-R444) -/

/-- Status of a host's answer (Table 16-18). -/
def ansStatus : HostEnd → Nat
  | .ok => stOK
  | .unsupported => stViolation
  | .timeout => stTimeout
  | .poisoned => stPoison
def dmUnitOf (x : Dma) : Nat := 65536 * x.thread + x.ticket
/-- Bytes that lie before the first piece that has not come back. -/
def dmReach (x : Dma) : Nat := 256 * ((List.range (dmLen x.desc / 256 + 1)).takeWhile (fun i => mhas i x.lines)).length
/-- The pool requests of a descriptor: TC0, in the thread's context, at its core's endpoint (R440). -/
def dmPool (x : Dma) (write : Bool) (data : List Byte) (s : State) : State :=
  let m := dmMaddr x.desc
  (List.range (ceilDiv data.length 256)).foldl (fun s i =>
    let b := (data.drop (256 * i)).take 256
    let n := b.length / 64
    let op := if write then (if n = 1 then opWR64 else opWRN) else (if n = 1 then opRD64 else opRDN)
    requestOwn (threadTags x.thread)
      { pkt := mkPkt 0 op x.ctx (ctxKgen s x.ctx) s.tab.cur (paNode m) s.boot.node 0 0
          ((paLaddr m + 4 * i) % 2 ^ 42 + 2 ^ 42 * (n - 1)) (if write then b else [])
        user := 8, unit := dmUnitOf x, arg := i } s) s
/-- What a move leaves: the descriptor as it stands and the state. -/
def dmEnd (x : Dma) (status moved : Nat) : Dma := { x with status := some status, moved := moved }
/-- READ: the host requests go out, and the descriptor is moving (R461). -/
def dmReadSend (x : Dma) (s : State) : Dma × State :=
  ({ x with moving := true }, (dmRequests x.desc).foldl (fun s r => fromHost (dmPort x.desc) (dmFunc x.desc) r.1 r.2 s) s)
/-- READ: the host's bytes go into data memory, a frame or the pool. -/
def dmRead (x : Dma) (ans : HostAns) (s : State) : Dma × State :=
  let d := x.desc
  let data := if ans.fin = .ok then padTo (dmLen d) ans.data else ans.data.take (dmLen d)
  let st := ansStatus ans.fin
  match dmKind d with
  | 0 => (dmEnd x st data.length, { s with ctl := { s.ctl with
      data := memWrite s.ctl.data (4194304 * (x.thread / 32) + dmMaddr d) data } })
  | 1 =>
    let data := data.take (data.length / 64 * 64)
    ({ dmEnd x st data.length with asked := true }, dmPool x true data s)
  | _ =>
    let a := 65536 * dmMaddr d
    (dmEnd x st data.length, { s with mf := { s.mf with
      hbm := memWrite s.mf.hbm a data
      poison := s.mf.poison.filter (fun l => !(decide (a ≤ 64 * l) && decide (64 * l + 64 ≤ a + data.length))) } })
/-- Bytes of the module side that are there to be written to the host, and the status they end with. -/
def dmSource (s : State) (x : Dma) : List Byte × Nat :=
  let d := x.desc
  match dmKind d with
  | 0 => (memRead s.ctl.data (4194304 * (x.thread / 32) + dmMaddr d) (dmLen d), stOK)
  | 1 => ((x.lines.flatMap (·.2)).take (min (dmReach x) (dmLen d)), x.fail.getD stOK)
  | _ => (memRead s.mf.hbm (65536 * dmMaddr d) (dmLen d), stOK)
/-- WRITE: what is there goes out in address order; behind it the read that FLUSH asks for, whose answer the descriptor then awaits. -/
def dmWrite (x : Dma) (s : State) : Dma × State :=
  let d := x.desc
  let src := dmSource s x
  let s := (dmRequests d).foldl (fun s r =>
    let b := dmSlice d src.1 r
    if b.2.isEmpty then s else toHost (dmPort d) (dmFunc d) b.1 b.2 s) s
  if dmFlush d && src.2 == stOK then
    ({ x with moving := true, moved := src.1.length }, fromHost (dmPort d) (dmFunc d) ((dmHaddr d + dmLen d - 1) / 4 * 4) 0 s)
  else ({ dmEnd x src.2 src.1.length with moving := true }, s)
/-- FIFO_PUT: words from data memory until the FIFO is full. -/
def dmPut (x : Dma) (s : State) : Dma × State :=
  let d := x.desc
  let f := dmUnit d
  let n := dmLen d / 8
  let r := (List.range n).foldl (fun (a : Nat × State) i =>
    if a.1 < i ∨ fifoFull a.2 f then a
    else (a.1 + 1, fifoPush f (BitVec.ofNat 64 (bytesNat (memRead a.2.ctl.data (4194304 * (x.thread / 32) + dmMaddr d + 8 * i) 8))) a.2)) (0, s)
  (dmEnd x (if r.1 = n then stOK else stBusy) r.1, r.2)
/-- FIFO_GET: words into data memory until the FIFO is empty. -/
def dmGet (x : Dma) (s : State) : Dma × State :=
  let d := x.desc
  let f := dmUnit d
  let r := (List.range (dmLen d / 8)).foldl (fun (a : Nat × State) i =>
    match (a.2.fifo f).words with
    | [] => a
    | w :: _ =>
      let s := fifoDrop f a.2
      (a.1 + 1, { s with ctl := { s.ctl with data := memWrite s.ctl.data (4194304 * (x.thread / 32) + dmMaddr d + 8 * i) (natBytes 8 w.toNat) } })) (0, s)
  (dmEnd x stOK r.1, r.2)
/-- RESULT: a post into a result window. -/
def dmResult (x : Dma) (s : State) : Dma × State :=
  let d := x.desc
  match postWindow (dmPort d) (dmFunc d) (dmUnit d) (memRead s.ctl.data (4194304 * (x.thread / 32) + dmMaddr d) (dmLen d)) s with
  | some t => (dmEnd x stOK (dmLen d), t)
  | none => (dmEnd x stBusy 0, s)
/-- The queue of an engine. -/
def dmQueue (s : State) (port : Nat) (write : Bool) : List Dma := if write then (s.hport port).wrq else (s.hport port).rdq
def setDmQueue (port : Nat) (write : Bool) (l : List Dma) (s : State) : State :=
  s.modHport port (fun h => if write then { h with wrq := l } else { h with rdq := l })
/-- The oldest descriptor of an engine that is not over moves, if it is of this row: refused, held while its TDI sends nothing or its pool reads are awaited, its host requests sent, or, once they are, ended by the host's answer. -/
def dmaMove (op port : Nat) (ans : HostAns) (s : State) : State :=
  let write := op == 2 || op == 3 || op == 5
  let q := dmQueue s port write
  match q.findIdx? (fun x => x.status.isNone) with
  | none => s
  | some i =>
    let x := q.getD i {}
    let d := x.desc
    let set := fun (r : Dma × State) => setDmQueue port write ((dmQueue r.2 port write).set i r.1) r.2
    if dmOp d ≠ op ∧ !(op == 1 && !inRange 1 5 (dmOp d)) then s
    else if x.moving then
      if op = 1 then set (dmRead x ans s) else set (dmEnd x (ansStatus ans.fin) x.moved, s)
    else match dmRefused s x with
      | some st => set (dmEnd x st 0, s)
      | none =>
        if (op = 1 ∨ op = 2) ∧ !tdiSends s port (dmFunc d) then s
        else match op with
          | 1 => set (dmReadSend x s)
          | 2 =>
            if dmKind d ≠ 1 then set (dmWrite x s)
            else if !x.asked then
              -- marked before its reads go out
              dmPool x false (List.replicate (dmLen d) 0) (setDmQueue port write (q.set i { x with asked := true }) s)
            else if ownOpen s 8 (dmUnitOf x) then s
            else set (dmWrite x s)
          | 3 => set (dmPut x s)
          | 4 => set (dmGet x s)
          | _ => set (dmResult x s)
def dmaStep (op : Nat) (step : DmaStep) (s : State) : State :=
  match step with
  | .post site => dmaPost op site s
  | .move port ans => dmaMove op port ans s
def effDmaRead (step : DmaStep) (s : State) : State := dmaStep 1 step s
def effDmaWrite (step : DmaStep) (s : State) : State := dmaStep 2 step s
def effFifoPut (step : DmaStep) (s : State) : State := dmaStep 3 step s
def effFifoGet (step : DmaStep) (s : State) : State := dmaStep 4 step s
def effResult (step : DmaStep) (s : State) : State := dmaStep 5 step s

/-! ### Completions (R444, R445) -/

/-- Status and amount of a descriptor that is over: a pool write that failed decides a READ that the host answered. -/
def dmOutcome (x : Dma) : Nat × Nat :=
  let st := x.status.getD 0
  if dmOp x.desc = 1 ∧ st = stOK ∧ x.fail.isSome then (x.fail.getD stOK, min x.moved (dmReach x)) else (st, x.moved)
/-- The completion descriptor (Table 16-17). -/
def dmDone (x : Dma) : List Byte :=
  let r := dmOutcome x
  let bytes := if dmOp x.desc = 3 ∨ dmOp x.desc = 4 then 8 * r.2 else r.2
  natBytes 2 x.ticket ++ natBytes 1 (r.1 + 16 * dmOp x.desc) ++ natBytes 1 0 ++ natBytes 4 r.2
    ++ natBytes 8 (if bytes = dmLen x.desc then 0 else dmHaddr x.desc + bytes)
/-- The oldest descriptor of an engine that is over, behind no earlier one of its thread, completes as an event of type 0x03. -/
def effDmaComplete (port : Nat) (write : Bool) (s : State) : State :=
  let q := dmQueue s port write
  let ended := fun (x : Dma) => x.status.isSome && !ownOpen s 8 (dmUnitOf x)
  match q.findIdx? (fun x => ended x && (q.find? (fun y => y.thread == x.thread)).any ended) with
  | none => s
  | some i =>
    let x := q.getD i {}
    let s := setDmQueue port write (q.eraseIdx i) s
    if x.orphan then s else raiseThread x.thread 3 (dmDone x) s

/-- DMA_READ (R442). -/
def execDmaRead (step : DmaStep) (s : State) : Host.Outcome State Fault Refusal :=
  unit (isDmaStep step) s (effDmaRead step s)

/-- DMA_WRITE (R443). -/
def execDmaWrite (step : DmaStep) (s : State) : Host.Outcome State Fault Refusal :=
  unit (isDmaStep step) s (effDmaWrite step s)

/-- FIFO_PUT (R441). -/
def execFifoPut (step : DmaStep) (s : State) : Host.Outcome State Fault Refusal :=
  unit (isDmaStep step) s (effFifoPut step s)

/-- FIFO_GET (R441). -/
def execFifoGet (step : DmaStep) (s : State) : Host.Outcome State Fault Refusal :=
  unit (isDmaStep step) s (effFifoGet step s)

/-- RESULT (R434). -/
def execResult (step : DmaStep) (s : State) : Host.Outcome State Fault Refusal :=
  unit (isDmaStep step) s (effResult step s)

/-- DMA_COMPLETE (R445). -/
def execDmaComplete (port : Nat) (write : Bool) (s : State) : Host.Outcome State Fault Refusal :=
  unit (isHostPort port) s (effDmaComplete port write s)


end Sys2Proof.Machine
end

