-- ==== Sys2Proof/Machine/Experts.lean ====
section
/-!
DEFINITION. Meanings of the expert service: plans, dispatch and combine (R339-R343, R352; the service's own choices: log 47).
-/
namespace Sys2Proof.Machine

def expertThread (s : State) : Nat := mboxThread s 3
/-- Job numbers of a plan's fetches and stores. -/
def fetchJob (k : Nat) : Nat := k
def storeJob (k : Nat) : Nat := 4096 + k
/-- Fetches or stores of a batch are outstanding. -/
def batchOpen (s : State) (k : Nat) : Bool := ownOpen s 12 (fetchJob k) || ownOpen s 13 (storeJob k)
/-- A plan is busy with a batch, or with requests of one that are still open (R343). -/
def expertBusy (s : State) (k : Nat) : Bool := (s.expert k).batch.isSome || ownOpen s 7 k || batchOpen s k
/-- The pieces of a batch, forgotten. -/
def dropPieces (k : Nat) (s : State) : State := dropJob (storeJob k) (dropJob (fetchJob k) s)
/-- Number of a piece: token, expert of the token, 128 B piece of its vector. -/
def pieceNo (t j i : Nat) : Nat := (t * 8 + j) * 256 + i

/-! ### PLAN and FREE (R339, R340) -/

/-- Entry i of a holder table. -/
def holderOf (d : List Byte) (i : Nat) : Holder :=
  { node := byteAt d (32 * i) 2, recv := byteAt d (32 * i + 8) 8, out := byteAt d (32 * i + 16) 8, cap := byteAt d (32 * i + 24) 4 }
/-- Fields of a PLAN request in range. -/
def expertInRange (d : List Byte) : Bool :=
  let h := byteAt d 4 2
  inRange 2 5 (byteAt d 1 1) && h % 128 == 0 && inRange 128 16384 h && inRange 1 1024 (byteAt d 6 2) && inRange 1 4096 (byteAt d 16 2)
/-- A plan made: status, number, state. -/
def makeExpert (m : Mail) (list : PoolAns) (s : State) : Nat × Nat × State :=
  let d := m.data
  let table := byteAt d 2 2
  if list.status ≠ stOK then (list.status, 0, s)
  else match leastBelow 4096 (fun k => !(s.expert k).used), serviceProg s 3 with
    | some k, some (prog, ver) =>
      match createTargets (expertThread s) m.ctx prog ver 64 1024 (byteAt d 6 2) s with
      | none => (stBusy, 0, s)
      | some (ops, t) =>
        (stOK, k, t.setExpert k
          { used := true, ctx := m.ctx, fmt := byteAt d 1 1, table := table, h := byteAt d 4 2, ops := ops
            holders := (List.range (byteAt d 16 2)).map (holderOf list.data) })
    | _, _ => (stBusy, 0, s)
/-- The status that turns a PLAN away. -/
def planRefusal (s : State) (m : Mail) : Option Nat :=
  let table := byteAt m.data 2 2
  if ctxState s m.ctx ≠ 1 then some stContextGone
  else if cmdUnknown m || !expertInRange m.data || !maySearch s m.ctx table || stWidth (searchTable s table) != 0 then some stViolation
  else none
/-- The holder table read, the plan is made (R339, R340). -/
def effExpertPlan (s : State) : State :=
  match takeMail 3 1 s with
  | none => s
  | some (m, t) =>
    match planRefusal t m with
    | some st => svcStatus m st t
    | none => match poolGot s (readKey 3 0) with
      | none => askPool (readKey 3 0) (expertThread s) m.ctx (byteAt m.data 8 8) (32 * byteAt m.data 16 2) s
      | some holders =>
        if slotsHeld s then holdSlot s
        else
        let r := makeExpert m holders (dropRead (readKey 3 0) t)
        svcComplete m (natBytes 2 r.1 ++ natBytes 2 r.2.1) r.2.2
/-- The status that turns a request to a plan away. -/
def expertRefusal (s : State) (m : Mail) (k : Nat) : Option Nat :=
  if ctxState s m.ctx ≠ 1 then some stContextGone
  else if !(s.expert k).used || (s.expert k).ctx != m.ctx then some stViolation
  else if expertBusy s k then some stBusy
  else none
def effExpertFree (s : State) : State :=
  match takeMail 3 4 s with
  | none => s
  | some (m, s) =>
    let k := byteAt m.data 2 2
    match expertRefusal s m k with
    | some st => svcStatus m st s
    | none => svcStatus m stOK ((endTargets (s.expert k).ops stOK s).setExpert k {})

/-! ### DISPATCH (R341, R343) -/

/-- What a dispatch has settled so far: placed pairs, slots used of each operation's share (key 4,096 x operation + holder), and tokens with a status. -/
structure Placing where
  placed : SMap (Nat × Nat) := []
  fill : SMap Nat := []
  tok : SMap Nat := []

/-- The first status of a token stays, and VIOLATION goes before BUSY_RETRY. -/
def markToken (t st : Nat) (r : Placing) : Placing := if mget 0 t r.tok = stViolation then r else { r with tok := mput t st r.tok }
/-- One pair of a token and an expert: the holder that the map names, and the next free slot of the operation's share of it. -/
def placePair (s : State) (x : Expert) (layer i t j eid : Nat) (r : Placing) : Placing :=
  match findResult s x.ctx x.table (x.ctx + 2 ^ 10 * layer + 2 ^ 26 * eid) with
  | none => markToken t stViolation r
  | some v =>
    let g := v % 4096
    match x.holders[g]? with
    | none => markToken t stViolation r
    | some y =>
      let share := y.cap / x.ops.length
      let n := mget 0 (4096 * i + g) r.fill
      if n < share then { r with
        placed := mput (8 * t + j) (g, i * share + n) r.placed
        fill := mput (4096 * i + g) (n + 1) r.fill }
      else markToken t stBusy r
/-- A token's pairs, in order of its experts. -/
def placeToken (s : State) (x : Expert) (layer n : Nat) (recs : List Byte) (r : Placing) (t : Nat) : Placing :=
  let k := byteAt recs (64 * t + 4) 1
  if !inRange 1 8 k then markToken t stViolation r
  else (List.range k).foldl (fun r j => placePair s x layer (t / ceilDiv n x.ops.length) t j (byteAt recs (64 * t + 8 + 2 * j) 2) r) r
/-- First tag of the tile that an operation of a plan runs on. -/
def opTags (x : Expert) (i : Nat) : Nat := 2048 * slotTile (x.ops.getD i (0, 0)).1
/-- Operation of a token. -/
def opOf (x : Expert) (n t : Nat) : Nat := t / ceilDiv n x.ops.length
/-- Experts of a token whose pair is placed. -/
def placedOf (x : Expert) (t : Nat) : List Nat := (List.range 8).filter (fun j => mhas (8 * t + j) x.placed)
/-- Status of a token: what its placing says, else that of its fetches and stores (R343). -/
def tokenStatus (s : State) (k : Nat) (x : Expert) (t : Nat) : Nat :=
  let f := jobStatus s (fetchJob k) (pieceNo t 0 0) (pieceNo (t + 1) 0 0)
  if mget 0 t x.tok ≠ 0 then mget 0 t x.tok
  else if f ≠ stOK then f
  else jobStatus s (storeJob k) (pieceNo t 0 0) (pieceNo (t + 1) 0 0)
/-- Completion of a DISPATCH or COMBINE (R343). -/
def batchRecord (st : List Nat) : List Byte :=
  let good := (st.filter (· == stOK)).length
  natBytes 4 (if good = st.length then stOK else stIncomplete) ++ natBytes 4 good ++ natBytes 4 ((st.findIdx? (· != stOK)).getD 0xFFFFFFFF)
/-- The status array written (R343). -/
def writeStatuses (k : Nat) (x : Expert) (st : List Nat) (s : State) : State :=
  patchOwn (threadTags (expertThread s)) 7 k 0 x.ctx (paTc x.stat) (paNode x.stat) (64 * paLaddr x.stat) (st.map (BitVec.ofNat 8)) s
/-- Slots used of an operation's share of a holder. -/
def fillOf (x : Expert) (n g i : Nat) : Nat := (x.placed.filter (fun e => e.2.1 == g && opOf x n (e.1 / 8) == i)).length
/-- The fill counts of every holder, J words below its receive base. -/
def writeFills (k tc : Nat) (x : Expert) (s : State) : State :=
  let j := x.ops.length
  (x.holders.mapIdx (fun g y => (g, y))).foldl (fun s (e : Nat × Holder) =>
    patchOwn (threadTags (expertThread s)) 7 k 0 x.ctx tc e.2.node (e.2.recv - 4 * j) ((List.range j).flatMap (fun i => natBytes 4 (fillOf x x.t e.1 i))) s) s
/-- A batch is over: statuses and completion; the pieces are forgotten. -/
def endBatch (k : Nat) (b : Batch) (s : State) : State :=
  let x := s.expert k
  let st := (List.range x.t).map (tokenStatus s k x)
  let s := (dropPieces k s).setExpert k { x with batch := none, dispatched := x.dispatched || !b.combine }
  let s := if b.combine then s else writeFills k (paTc (byteAt b.req.data 24 8)) x s
  svcComplete b.req (batchRecord st) (writeStatuses k x st s)
/-- A DISPATCH with its records: every pair placed, and the vectors of the tokens that have a place fetched in 128 B pieces by their operations (R341). -/
def startDispatch (k : Nat) (m : Mail) (recs : List Byte) (s : State) : State :=
  let d := m.data
  let n := byteAt d 16 4
  let a := byteAt d 24 8
  let x := s.expert k
  let r := (List.range n).foldl (placeToken s x (byteAt d 4 4) n recs) {}
  let x := { x with t := n, stat := byteAt d 32 8, tok := r.tok, placed := r.placed, recs := recs, dispatched := false, batch := some { req := m } }
  (List.range n).foldl (fun s t =>
    if (placedOf x t).isEmpty then s
    else (List.range (x.h / 128)).foldl (fun s i =>
      fetchPiece (opTags x (opOf x n t)) (fetchJob k) (pieceNo t 0 i) x.ctx (paTc a) (paNode a) (64 * paLaddr a + t * x.h + 128 * i) 2 s) s) ((dropPieces k s).setExpert k x)
/-- A piece of a token that has come is stored to the holder of each placed pair (R341). -/
def storePlaced (k : Nat) (x : Expert) (tc t i : Nat) (s : State) : State :=
  match pieceOf s (fetchJob k) (pieceNo t 0 i) with
  | some (0, data) =>
    (placedOf x t).foldl (fun s j =>
      let p := mget (0, 0) (8 * t + j) x.placed
      let y := x.holders.getD p.1 {}
      storePiece (opTags x (opOf x x.t t)) (storeJob k) (pieceNo t j i) x.ctx tc y.node (y.recv + p.2 * x.h + 128 * i) data s) (dropPiece (fetchJob k) (pieceNo t 0 i) s)
  | _ => s
/-- A DISPATCH in progress goes on: pieces that have come are stored, and behind the last store it is over (R341, R343). -/
def stepDispatch (k : Nat) (b : Batch) (s : State) : State :=
  let x := s.expert k
  let s := (List.range x.t).foldl (fun s t => (List.range (x.h / 128)).foldl (fun s i => storePlaced k x (paTc (byteAt b.req.data 24 8)) t i s) s) s
  if batchOpen s k then s else endBatch k b s
/-- A batch of a context that is closing ends (R352). -/
def goneBatch (k : Nat) (b : Batch) (s : State) : State :=
  svcStatus b.req stContextGone ((dropPieces k s).modExpert k (fun x => { x with batch := none }))
/-- The batches of a kind in progress go on. -/
def stepBatches (combine : Bool) (step : Nat → Batch → State → State) (s : State) : State :=
  (mkeys s.svc.experts).foldl (fun s k =>
    match (s.expert k).batch with
    | some b =>
      if b.combine != combine then s
      else if ctxState s (s.expert k).ctx ≠ 1 then goneBatch k b s
      else step k b s
    | none => s) s
def effExpertDispatch (s : State) : State :=
  let s := stepBatches false stepDispatch s
  match takeMail 3 2 s with
  | none => s
  | some (m, u) =>
    let k := byteAt m.data 2 2
    let key := readKey 3 (1 + k)
    match expertRefusal u m k with
    | some st => svcStatus m st u
    | none =>
      if !inRange 1 65536 (byteAt m.data 16 4) || decide (65536 ≤ byteAt m.data 4 4) then svcStatus m stViolation u
      else match poolGot s key with
        | none => askPool key (expertThread s) m.ctx (byteAt m.data 8 8) (64 * byteAt m.data 16 4) s
        | some recs =>
          if recs.status ≠ stOK then svcStatus m recs.status (dropRead key u) else startDispatch k m recs.data (dropRead key u)

/-! ### COMBINE (R342, R343) -/

/-- A weighted sum in FP32 as VWSUM makes it: each step rounded (R244). -/
def weighted (fmt : Nat) (l : List (Nat × Nat)) : Num :=
  (l.foldl (fun (acc : Option Num) e =>
    let y := numMul (numOf 1 e.1) (numOf fmt e.2)
    let y := match acc with
      | none => y
      | some a => numAdd a y
    some (numOf 1 (roundNum 1 false none y))) none).getD (.fin false 0 0)
/-- 128 B of a token's combined vector: the placed pairs in order of expert under their weights, every element converted to FMT. -/
def combineBytes (x : Expert) (t : Nat) (js : List Nat) (data : List (List Byte)) : List Byte :=
  let w := fmtBits x.fmt / 8
  (List.range (128 / w)).flatMap (fun i =>
    natBytes w (roundNum x.fmt false none (weighted x.fmt ((js.zip data).map (fun e => (byteAt x.recs (64 * t + 24 + 4 * e.1) 4, byteAt e.2 (w * i) w))))))
/-- A COMBINE: the outputs of every placed pair fetched in 128 B pieces by the tokens' operations (R342). -/
def startCombine (k : Nat) (m : Mail) (s : State) : State :=
  let x := { s.expert k with batch := some { req := m, combine := true } }
  (List.range x.t).foldl (fun s t => (placedOf x t).foldl (fun s j =>
    let p := mget (0, 0) (8 * t + j) x.placed
    let y := x.holders.getD p.1 {}
    (List.range (x.h / 128)).foldl (fun s i =>
      fetchPiece (opTags x (opOf x x.t t)) (fetchJob k) (pieceNo t j i) x.ctx (paTc (byteAt m.data 8 8)) y.node (y.out + p.2 * x.h + 128 * i) 2 s) s) s) ((dropPieces k s).setExpert k x)
/-- A piece of a token whose every output has come is combined and stored into the output area; it is done once (R342). -/
def combinePiece (k : Nat) (b : Batch) (x : Expert) (t i : Nat) (s : State) : State :=
  let js := placedOf x t
  let got := js.map (fun j => pieceOf s (fetchJob k) (pieceNo t j i))
  let a := byteAt b.req.data 8 8
  if !js.isEmpty && got.all (fun g => g.any (fun e => e.1 == stOK)) then
    let data := got.map (fun g => (g.getD (0, [])).2)
    storePiece (opTags x (opOf x x.t t)) (storeJob k) (pieceNo t 0 i) x.ctx (paTc a) (paNode a) (64 * paLaddr a + t * x.h + 128 * i)
      (combineBytes x t js data) (js.foldl (fun s j => dropPiece (fetchJob k) (pieceNo t j i) s) s)
  else s
/-- A COMBINE in progress goes on (R342, R343). -/
def stepCombine (k : Nat) (b : Batch) (s : State) : State :=
  let x := s.expert k
  let s := (List.range x.t).foldl (fun s t => (List.range (x.h / 128)).foldl (fun s i => combinePiece k b x t i s) s) s
  if batchOpen s k then s else endBatch k b s
def effExpertCombine (s : State) : State :=
  let s := stepBatches true stepCombine s
  match takeMail 3 3 s with
  | none => s
  | some (m, u) =>
    let k := byteAt m.data 2 2
    match expertRefusal u m k with
    | some st => svcStatus m st u
    | none => if (u.expert k).dispatched then startCombine k m u else svcStatus m stViolation u

/-- EXPERT_PLAN (R339). -/
def execExpertPlan (s : State) : Host.Outcome State Fault Refusal :=
  unit (true) s (effExpertPlan s)

/-- EXPERT_FREE (R339). -/
def execExpertFree (s : State) : Host.Outcome State Fault Refusal :=
  unit (true) s (effExpertFree s)

/-- EXPERT_DISPATCH (R341). -/
def execExpertDispatch (s : State) : Host.Outcome State Fault Refusal :=
  unit (true) s (effExpertDispatch s)

/-- EXPERT_COMBINE (R342). -/
def execExpertCombine (s : State) : Host.Outcome State Fault Refusal :=
  unit (true) s (effExpertCombine s)


end Sys2Proof.Machine
end

