-- ==== Sys2Proof/Machine/Filter.lean ====
section
/-!
DEFINITION. Meaning of a run of the filter and top-k service (R348, R352; the service's own choices: log 47).
-/
namespace Sys2Proof.Machine

/-- Bytes of a key of a search table. -/
def filterKeyLen (s : State) (t : Nat) : Nat := keyBits (stWidth (searchTable s t)) / 8
/-- The score formats of a RUN. -/
def filterFmt (f : Nat) : Bool := f == 1 || f == 2 || f == 3 || f == 10 || f == 11
/-- Fields of a RUN request in range; the key lies within the record. -/
def filterInRange (s : State) (d : List Byte) : Bool :=
  let t := byteAt d 2 2
  let size := byteAt d 16 2
  let f := byteAt d 22 1
  fld (byteAt d 0 1) 4 4 == 0 && fld (byteAt d 1 1) 1 7 == 0 && byteAt d 4 4 != 0 && size % 64 == 0 && inRange 64 1024 size
    && filterFmt f && byteAt d 20 2 % (fmtBits f / 8) == 0 && decide (byteAt d 20 2 + fmtBits f / 8 ≤ size)
    && byteAt d 23 1 == 0 && inRange 1 1024 (byteAt d 24 2) && inRange 1 256 (byteAt d 26 2) && byteAt d 40 24 == 0
    && (t == 0xFFFF || (byteAt d 18 2 % 32 == 0 && decide (byteAt d 18 2 + filterKeyLen s t ≤ size)))
/-- The score of a record; a number of an integer format is its value. -/
def scoreOf (f : Nat) (d : List Byte) (off : Nat) : Num :=
  let w := byteAt d off (fmtBits f / 8)
  if isInt f then numInt (intOf f w) else numOf f w
/-- A score goes before another: a NaN ranks below every number. -/
def scoreAbove (a b : Num) : Bool :=
  match a, b with
  | .nan, _ => false
  | _, .nan => true
  | _, _ => numCmp a b == some .gt
/-- A record put into the best list at its place: behind every record it does not go before. -/
def rankIn (x : Nat × Num) : List (Nat × Num) → List (Nat × Num)
  | [] => [x]
  | y :: rest => if scoreAbove x.2 y.2 then x :: y :: rest else y :: rankIn x rest
/-- A record has a hit in the predicate table, or there is none. -/
def filterHit (s : State) (c t off : Nat) (rec : List Byte) : Bool :=
  t == 0xFFFF || (findResult s c t (byteAt rec off (filterKeyLen s t))).isSome
/-- Thread of the filter service. -/
def filterThread (s : State) : Nat := mboxThread s 5
/-- RUNs of a context in progress. -/
def filterRuns (s : State) (c : Nat) : Nat := (s.svc.filters.filter (fun e => e.2.req.ctx == c)).length
/-- The status that turns a RUN away: a context runs four at most (R352). -/
def filterRefusal (s : State) (m : Mail) : Option Nat :=
  let t := byteAt m.data 2 2
  if ctxState s m.ctx ≠ 1 then some stContextGone
  else if cmdUnknown m || !filterInRange s m.data || (t != 0xFFFF && (!maySearch s m.ctx t || !stEn (searchTable s t))) then some stViolation
  else if 4 ≤ filterRuns s m.ctx then some stBusy
  else none
/-- Job number of a run's fetches. -/
def recordJob (k : Nat) : Nat := 8192 + k
/-- Pieces of at most four lines that a record takes. -/
def recordPieces (d : List Byte) : Nat := ceilDiv (byteAt d 16 2) 256
/-- A run starts: J operations and one to merge, each of the J fetching its share of the records; BUSY_RETRY where they cannot be created (R348). -/
def startFilter (m : Mail) (s : State) : State :=
  let d := m.data
  let n := byteAt d 4 4
  let size := byteAt d 16 2
  let j := byteAt d 26 2
  let a := byteAt d 8 8
  match serviceProg s 5, leastBelow 4096 (fun k => !mhas k s.svc.filters && !ownOpen s 12 (recordJob k)) with
  | some (prog, ver), some k =>
    match createTargets (filterThread s) m.ctx prog ver 1 1 (j + 1) s with
    | none => svcStatus m stBusy s
    | some (ops, s) =>
      let s := dropJob (recordJob k) { s with svc := { s.svc with filters := mput k { req := m, ops := ops } s.svc.filters } }
      (List.range n).foldl (fun s i => (List.range (recordPieces d)).foldl (fun s q =>
        fetchPiece (2048 * slotTile (ops.getD (i / ceilDiv n j) (0, 0)).1) (recordJob k) (4 * i + q) m.ctx (paTc a) (paNode a)
          (64 * paLaddr a + i * size + 256 * q) (min 4 (size / 64 - 4 * q)) s) s) s
  | _, _ => svcStatus m stBusy s
/-- A record as its operation fetched it, none where a piece of it failed. -/
def recordOf (s : State) (k : Nat) (d : List Byte) (i : Nat) : Option (List Byte) :=
  (List.range (recordPieces d)).foldl (fun r q =>
    match r, pieceOf s (recordJob k) (4 * i + q) with
    | some b, some (0, x) => some (b ++ x)
    | _, _ => none) (some [])
/-- Numbers and bytes of the records of a run that were fetched. -/
def recordsGot (s : State) (k : Nat) (d : List Byte) : List (Nat × List Byte) :=
  (List.range (byteAt d 4 4)).filterMap (fun i => (recordOf s k d i).map (fun b => (i, b)))
/-- Those that match the predicate table. -/
def recordHits (s : State) (k : Nat) (m : Mail) : List (Nat × List Byte) :=
  (recordsGot s k m.data).filter (fun x => filterHit s m.ctx (byteAt m.data 2 2) (byteAt m.data 18 2) x.2)
/-- The best of them in order: number and bytes. -/
def bestRecords (s : State) (k : Nat) (m : Mail) : List (Nat × List Byte) :=
  let d := m.data
  let hits := recordHits s k m
  (((hits.foldl (fun l x => rankIn (x.1, scoreOf (byteAt d 22 1) x.2 (byteAt d 20 2)) l) []).take (byteAt d 24 2))).map (fun x => (x.1, mget [] x.1 hits))
/-- What a run writes to its output: whole records or their numbers. -/
def filterOutput (m : Mail) (best : List (Nat × List Byte)) : List Byte :=
  best.flatMap (fun x => if bit (byteAt m.data 1 1) 0 then x.2 else natBytes 4 x.1)
/-- The completion of a run (R348). -/
def filterRecord (s : State) (k : Nat) (m : Mail) : List Byte :=
  let got := (recordsGot s k m.data).length
  natBytes 4 (if got = byteAt m.data 4 4 then stOK else stIncomplete) ++ natBytes 4 got ++ natBytes 4 (recordHits s k m).length
    ++ natBytes 4 (bestRecords s k m).length
/-- A run whose records have all been answered ends: the best k of those that match are written, its operations end, and it completes. -/
def finishFilter (k : Nat) (x : FilterJob) (s : State) : State :=
  let m := x.req
  let a := byteAt m.data 32 8
  let r := filterRecord s k m
  let s := patchOwn (threadTags (filterThread s)) 4 0 0 m.ctx (paTc a) (paNode a) (64 * paLaddr a) (filterOutput m (bestRecords s k m)) s
  let s := endTargets x.ops stOK (dropJob (recordJob k) s)
  svcComplete m r { s with svc := { s.svc with filters := mdel k s.svc.filters } }
/-- A run of a context that is closing ends (R352). -/
def goneFilter (k : Nat) (x : FilterJob) (s : State) : State :=
  let s := dropJob (recordJob k) s
  svcStatus x.req stContextGone { s with svc := { s.svc with filters := mdel k s.svc.filters } }
/-- The runs in progress go on. -/
def stepFilters (s : State) : State :=
  s.svc.filters.foldl (fun s e =>
    if ctxState s e.2.req.ctx ≠ 1 then goneFilter e.1 e.2 s
    else if ownOpen s 12 (recordJob e.1) then s
    else finishFilter e.1 e.2 s) s
/-- The runs in progress go on, and the first RUN that waits starts, once slots can be written (R573). -/
def effFilterRun (s : State) : State :=
  let s := stepFilters s
  match takeMail 5 1 s with
  | none => s
  | some (m, t) =>
    match filterRefusal t m with
    | some st => svcStatus m st t
    | none => if slotsHeld s then holdSlot s else startFilter m t

/-- FILTER_RUN (R348). -/
def execFilterRun (s : State) : Host.Outcome State Fault Refusal :=
  unit (true) s (effFilterRun s)


end Sys2Proof.Machine
end

