-- ==== Sys2Proof/Machine/Health.lean ====
section
/-!
DEFINITION. Meanings of the health protocol: scores, doubt, votes, expulsion, hold, and the return of Chervil's firmware (R522-R528, R532; log 59).
-/
namespace Sys2Proof.Machine

/-! ### Scores (R522, Table 19-7) -/

/-- Times within the last second. -/
def lastSecond (s : State) (l : List Nat) : List Nat := l.filter (fun t => decide (now s < t + 1000000000))
/-- Penalty of a lane of a port: failed or retired and not replaced, failing, marginal. -/
def lanePenalty (x : Lane) : Nat := if x.retired || x.cls == 3 then 100 else if x.cls == 2 then 200 else if x.cls == 1 then 50 else 0
/-- Halvings by narrowing in force. -/
def halvings (full active : Nat) : Nat := log2Floor full - log2Floor (max 1 active)
/-- The score of a port. -/
def linkScoreOf (s : State) (p : Nat) : Nat :=
  let x := s.port p
  if portDown s p then 0
  else
    1000 - (x.pos.foldl (fun a l => a + lanePenalty (s.lane l)) 0
      + 150 * halvings (modeLanes s p).length x.lanes.length
      + min 200 ((lastSecond s (mget [] p s.rel.replaysAt)).length / 1024)
      + min 400 (100 * (lastSecond s (mget [] p s.rel.tagsAt)).length)
      + (if x.st == .reduced || x.st == .trainF then 300 else 0))
/-- Trunk ports to a neighbour. -/
def portsTo (s : State) (n : Nat) : List Nat :=
  (s.ports.filter (fun e => portExists s e.1 && isTrunk s e.1 && e.2.bound == some n)).map (·.1)
/-- The score of a neighbour: the least of its links, 0 when it has been silent for 1 ms. -/
def nbrScoreOf (s : State) (n : Nat) : Nat :=
  if passed s (s.nbr n).heard 1000000 then 0 else (portsTo s n).foldl (fun a p => min a (mget 0 p s.rel.linkScore)) 1000
/-- The score of the module. -/
def modScoreOf (s : State) : Nat :=
  if s.boot.depart ≠ 0 then 0
  else 1000 - (25 * (distinct (s.rel.spareUsed ++ s.rel.spareGone)).length
    + 50 * ([0, 1].filter (fun d => (s.buf d).bankSpares == 0)).length + (if throttle s then 100 else 0))
/-- Every score computed anew. -/
def scoreAll (s : State) : State :=
  let rel := { s.rel with
    replaysAt := (s.rel.replaysAt.map (fun e => (e.1, lastSecond s e.2))).filter (fun e => !e.2.isEmpty)
    tagsAt := (s.rel.tagsAt.map (fun e => (e.1, lastSecond s e.2))).filter (fun e => !e.2.isEmpty) }
  let s := { s with rel := rel }
  let scores := (List.range 384).foldl (fun m p => mset 0 p (linkScoreOf s p) m) []
  let s := { s with rel := { s.rel with linkScore := scores, modScore := modScoreOf s, gseq := (s.rel.gseq + 1) % 2 ^ 32 } }
  (neighbours s).foldl (fun s n => s.modNbr n (fun x => { x with score := nbrScoreOf s n })) s

/-! ### Votes (R525-R527) -/

/-- A vote leaves for a module (Table 19-9). -/
def sendVote (kind suspect dst : Nat) (s : State) : State :=
  sendFrom 448 (mkPkt 6 opHVOTE 0 (ctxKgen s 0) s.tab.cur dst s.boot.node 0 0 0
    (natBytes 2 suspect ++ natBytes 2 s.boot.node ++ natBytes 1 kind ++ natBytes 1 0 ++ natBytes 2 (s.nbr suspect).score
      ++ natBytes 4 s.rel.gseq ++ natBytes 4 0)) s
/-- A vote to every module of the suspect's gossiped list. -/
def castVote (kind suspect : Nat) (s : State) : State :=
  ((s.nbr suspect).list.filter (fun n => n != s.boot.node && n != suspect)).foldl (fun s n => sendVote kind suspect n s) s
/-- Votes that stand on a suspect, the module's own included. -/
def standing (s : State) (suspect : Nat) : Nat :=
  (s.rel.votes.filter (fun v => v.suspect == suspect && decide (now s < v.at_ + 1000000000))).length + b2n (s.nbr suspect).voted.isSome
/-- A port to an expelled neighbour is fenced with the effects of R94; no row of Table 03-10 fences it, so row and count are zero (R526; log 32). -/
def fenceFor (s : State) (p : Nat) : State := if (s.port p).st == .fenced then s else fencePort p 0 0 s
/-- Every port to a suspect is fenced, with the record of the votes counted. -/
def expel (suspect : Nat) (s : State) : State :=
  let l := (portsTo s suspect).filter (fun p => (s.port p).st != .fenced)
  if l.isEmpty then s else emit 6 0x0E03 3 suspect (standing s suspect) 0 0 (l.foldl fenceFor s)
/-- A quorum of standing votes: the module tells the others, and fences. -/
def checkQuorum (suspect : Nat) (s : State) : State :=
  if standing s suspect < (s.nbr suspect).nbrs / 2 + 1 ∨ (portsTo s suspect).all (fun p => (s.port p).st == .fenced) then s
  else expel suspect (castVote 3 suspect s)
/-- A first vote on a doubtful neighbour: it waits inside the 50 ms gap, and the fifth within 10 s puts the module in hold instead. -/
def firstVote (n : Nat) (s : State) : State :=
  let times := s.rel.firstVotes.filter (fun t => decide (now s < t + 10000000000))
  let s := { s with rel := { s.rel with firstVotes := times } }
  if s.rel.hold || (s.nbr n).departing || (s.nbr n).voted.isSome then s.modNbr n (fun x => { x with waiting := false })
  else if times.any (fun t => decide (now s < t + 50000000)) then s.modNbr n (fun x => { x with waiting := true })
  else if 4 ≤ times.length then
    let s := { s with rel := { s.rel with hold := true } }
    let s := (neighbours s).foldl (fun s n => s.modNbr n (fun x => { x with waiting := false })) s
    emit 6 0x0E04 4 ((neighbours s).filter (fun n => (s.nbr n).doubtful)).length 0 0 0 s
  else
    let s := { s with rel := { s.rel with firstVotes := times ++ [now s] } }
    checkQuorum n (castVote 1 n (s.modNbr n (fun x => { x with voted := some (now s), waiting := false })))

/-! ### Doubt (R524) -/

/-- One neighbour evaluated: doubtful at the second score in a row below DOUBT, and no longer so after 1 s at DOUBT + 200, when a standing vote is withdrawn. -/
def evaluateNbr (s : State) (n : Nat) : State :=
  let x := s.nbr n
  let low := if x.score < s.rel.doubt then x.low + 1 else 0
  let okSince := if s.rel.doubt + 200 ≤ x.score then some (x.okSince.getD (now s)) else none
  let s := s.modNbr n (fun y => { y with low := low, okSince := okSince })
  if !x.doubtful && decide (2 ≤ low) then firstVote n (s.modNbr n (fun y => { y with doubtful := true }))
  else if x.doubtful && okSince.any (fun t => passed s t 1000000000) then
    let s := if x.voted.isSome then castVote 2 n s else s
    s.modNbr n (fun y => { y with doubtful := false, voted := none, waiting := false })
  else s
/-- Every 1 ms: scores, doubt and first votes; hold ends when no neighbour is doubtful (R522, R524, R527). -/
def effHealthEvaluate (s : State) : State :=
  if !chervilRuns s || s.boot.held then s
  else
    let s := (neighbours s).foldl evaluateNbr (scoreAll s)
    if (neighbours s).any (fun n => (s.nbr n).doubtful) then s else { s with rel := { s.rel with hold := false } }

/-! ### Votes of others -/

/-- The first HVOTE of a kind that waits, with its suspect and voter. -/
def takeVote (kind : Nat) (s : State) : Option (Nat × Nat × State) :=
  (takeMod (fun m => pOp m.1 == opHVOTE && byteAt m.1.payload 4 1 == kind) s).map (fun r =>
    (byteAt r.1.1.payload 0 2, byteAt r.1.1.payload 2 2, r.2))
/-- Votes but those of one voter on one suspect. -/
def otherVotes (suspect voter : Nat) (l : List Vote) : List Vote := l.filter (fun v => !(v.suspect == suspect && v.voter == voter))
/-- An EXPEL vote stands for 1 s, and may make the quorum. -/
def effHvoteExpel (s : State) : State :=
  match takeVote 1 s with
  | none => s
  | some (n, v, s) =>
    let s := { s with rel := { s.rel with votes := otherVotes n v s.rel.votes ++ [⟨n, v, now s⟩] } }
    if (neighbours s).contains n then checkQuorum n s else s
/-- A vote is withdrawn. -/
def effHvoteWithdraw (s : State) : State :=
  match takeVote 2 s with
  | none => s
  | some (n, v, s) => { s with rel := { s.rel with votes := otherVotes n v s.rel.votes } }
/-- EXPELLED: every port to the suspect is fenced. -/
def effHvoteExpelled (s : State) : State :=
  match takeVote 3 s with
  | none => s
  | some (n, _, s) => expel n s
/-- Every 500 ms a vote is sent again while its suspect stays doubtful. -/
def effVoteRenew (suspect : Nat) (s : State) : State :=
  match (s.nbr suspect).voted with
  | none => s
  | some t => onlyIf (chervilRuns s && (s.nbr suspect).doubtful && passed s t 500000000) s
      (castVote 1 suspect (s.modNbr suspect (fun x => { x with voted := some (now s) })))
/-- Votes that were not renewed for 1 s stand no longer. -/
def effVoteExpire (s : State) : State :=
  { s with rel := { s.rel with votes := s.rel.votes.filter (fun v => decide (now s < v.at_ + 1000000000)) } }
/-- The gap of 50 ms is over: the lowest neighbour that waits, still doubtful, is voted on. -/
def effVoteGapEnd (s : State) : State :=
  if !chervilRuns s || s.rel.firstVotes.any (fun t => decide (now s < t + 50000000)) then s
  else match (neighbours s).find? (fun n => (s.nbr n).waiting && (s.nbr n).doubtful) with
    | some n => firstVote n s
    | none => s

/-! ### Chervil (R532) -/

/-- Chervil's firmware runs again: it evaluates, from the first word behind its program's header (R240, R532). -/
def effChervilRestart (s : State) : State :=
  match s.chv.restarting with
  | none => s
  | some _ => startFirmware { s with chv := { s.chv with restarting := none } }

/-- HEALTH_EVALUATE (R522). -/
def execHealthEvaluate (s : State) : Host.Outcome State Fault Refusal :=
  unit (true) s (effHealthEvaluate s)

/-- HVOTE_EXPEL (R526). -/
def execHvoteExpel (s : State) : Host.Outcome State Fault Refusal :=
  unit (true) s (effHvoteExpel s)

/-- HVOTE_WITHDRAW (R524). -/
def execHvoteWithdraw (s : State) : Host.Outcome State Fault Refusal :=
  unit (true) s (effHvoteWithdraw s)

/-- HVOTE_EXPELLED (R526). -/
def execHvoteExpelled (s : State) : Host.Outcome State Fault Refusal :=
  unit (true) s (effHvoteExpelled s)

/-- VOTE_RENEW (R525). -/
def execVoteRenew (suspect : Nat) (s : State) : Host.Outcome State Fault Refusal :=
  unit (isNode suspect) s (effVoteRenew suspect s)

/-- VOTE_EXPIRE (R525). -/
def execVoteExpire (s : State) : Host.Outcome State Fault Refusal :=
  unit (true) s (effVoteExpire s)

/-- VOTE_GAP_END (R527). -/
def execVoteGapEnd (s : State) : Host.Outcome State Fault Refusal :=
  unit (true) s (effVoteGapEnd s)

/-- CHERVIL_RESTART (R532). -/
def execChervilRestart (s : State) : Host.Outcome State Fault Refusal :=
  unit (true) s (effChervilRestart s)


end Sys2Proof.Machine
end

