-- ==== Sys2Proof/Machine/Home.lean ====
section
/-!
DEFINITION. Meanings of the homes' memory commands and of the time limits of leases and drains (R154-R168).
-/
namespace Sys2Proof.Machine

def effRd64 (die : Nat) (s : State) : State := homeOp opRD64 die s
def effRdn (die : Nat) (s : State) : State := homeOp opRDN die s
def effWr64 (die : Nat) (s : State) : State := homeOp opWR64 die s
def effWrn (die : Nat) (s : State) : State := homeOp opWRN die s
def effWrp (die : Nat) (s : State) : State := homeOp opWRP die s
/-- A buffered line that has taken no write for 1 us is written to HBM (R167). -/
def effLineWriteback (line : Nat) (s : State) : State :=
  match mfind? line s.mf.lines with
  | none => s
  | some b => onlyIf (passed s b.at_ 1000) s (writeBack line s)
def effLeaseExpire (ext : Nat) (s : State) : State := expireLease ext s
def effLeaseLapse (ext : Nat) (s : State) : State := lapseLease ext s
/-- INFLIGHT of a REVOKING extent is zero and no page of it moves: its drain is complete (R160). -/
def effDrainComplete (ext : Nat) (s : State) : State :=
  onlyIf (exState (extent s ext) == 3 && inflight s ext == 0 && !extMigrating s ext) s
    (noteDrained ext s)
/-- PATH_BOUND after the flip the requests still open are abandoned, with their record (R160). -/
def effDrainForced (ext : Nat) (s : State) : State :=
  match mfind? ext s.mf.drainAt with
  | none => s
  | some t =>
    let n := inflight s ext
    if exState (extent s ext) == 3 && passed s t (pathBound s) && n != 0 && !extMigrating s ext then
      noteDrained ext (emit (leaseDie s) 0x0302 3 ext n 0 0 { s with mf := { s.mf with
        open_ := s.mf.open_.filter (fun r => r.ext != ext) } })
    else s

/-- RD64 (R166). -/
def execRd64 (die : Nat) (s : State) : Host.Outcome State Fault Refusal :=
  unit (isCoreDie die) s (effRd64 die s)

/-- RDN (R166). -/
def execRdn (die : Nat) (s : State) : Host.Outcome State Fault Refusal :=
  unit (isCoreDie die) s (effRdn die s)

/-- WR64 (R167). -/
def execWr64 (die : Nat) (s : State) : Host.Outcome State Fault Refusal :=
  unit (isCoreDie die) s (effWr64 die s)

/-- WRN (R167). -/
def execWrn (die : Nat) (s : State) : Host.Outcome State Fault Refusal :=
  unit (isCoreDie die) s (effWrn die s)

/-- WRP (R167). -/
def execWrp (die : Nat) (s : State) : Host.Outcome State Fault Refusal :=
  unit (isCoreDie die) s (effWrp die s)

/-- LINE_WRITEBACK (R167). -/
def execLineWriteback (line : Nat) (s : State) : Host.Outcome State Fault Refusal :=
  unit (true) s (effLineWriteback line s)

/-- LEASE_EXPIRE (R154). -/
def execLeaseExpire (ext : Nat) (s : State) : Host.Outcome State Fault Refusal :=
  unit (isExt ext) s (effLeaseExpire ext s)

/-- LEASE_LAPSE (R156). -/
def execLeaseLapse (ext : Nat) (s : State) : Host.Outcome State Fault Refusal :=
  unit (isExt ext) s (effLeaseLapse ext s)

/-- DRAIN_COMPLETE (R160). -/
def execDrainComplete (ext : Nat) (s : State) : Host.Outcome State Fault Refusal :=
  unit (isExt ext) s (effDrainComplete ext s)

/-- DRAIN_FORCED (R160). -/
def execDrainForced (ext : Nat) (s : State) : Host.Outcome State Fault Refusal :=
  unit (isExt ext) s (effDrainForced ext s)


end Sys2Proof.Machine
end

