-- ==== Sys2Proof/Machine/HostIf.lean ====
section
/-!
DEFINITION. Meanings of what a host does to the module: doorbells and descriptors, ring configuration, ownership, result windows, message FIFOs, registers, and of service completions (R326, R415-R438, R450, R451; choices: log 54).
-/
namespace Sys2Proof.Machine

/-! ### Submission rings (R424-R428) -/

/-- A tail doorbell: an index out of range, and any doorbell of an unbound VF, sets ERR; else descriptors are fetched up to it. -/
def effSqDoorbell (port func sq : Nat) (tail : Nat) (entries : List (List Byte)) (tb : Bool) (s : State) : State :=
  if !funcUp s port func || !heard s port func tb then s
  else
    let err := s.modSq port func sq (fun x => { x with err := true })
    if (boundTo s port func).isNone then err
    else
      let x := s.sq port func sq
      if !x.en then s
      else if 2 ^ x.log2 ≤ tail then err
      else fetchEntries port func sq entries (s.modSq port func sq (fun x => { x with tail := tail, repoll := 0, repollAt := 0 }))
/-- An entry read again: every 2 us, up to 16 times after the first. -/
def effSqPhaseRepoll (port func sq : Nat) (entry : List Byte) (s : State) : State :=
  let x := s.sq port func sq
  onlyIf (decide (x.repoll ≤ 16) && (x.repoll == 0 || passed s x.repollAt 2000)) s (fetchEntry port func sq entry s)
/-- The first fetched descriptor of a ring that may go on. -/
def frontDesc (s : State) (port func sq : Nat) : Option (Nat × List Byte) :=
  if ringFetches s port func sq then (s.sq port func sq).fetched.head? else none
/-- A NOP completes OK; a TYPE that the table does not have is refused with VIOLATION. -/
def effNop (port func sq : Nat) (s : State) : State :=
  match frontDesc s port func sq with
  | none => s
  | some (i, d) =>
    if descType d = 1 ∨ descType d = 2 then s
    else
      let s := consumeDesc port func sq s
      if descType d ≠ 0 || descReserved d then descRefused port func sq i d s else descDone port func sq i stOK d s
/-- A FENCE completes when every earlier descriptor of its ring has. -/
def effFence (port func sq : Nat) (s : State) : State :=
  let s := dropAccepted port func sq s
  match frontDesc s port func sq with
  | none => s
  | some (i, d) =>
    if descType d ≠ 2 ∨ !((s.sq port func sq).out.all (·.nocmp)) then s
    else
      let s := consumeDesc port func sq s
      if descReserved d then descRefused port func sq i d s else descDone port func sq i stOK d s
/-- DST of a descriptor: 0xFFFF names this module. -/
def descDst (s : State) (d : List Byte) : Nat := if byteAt d 2 2 = 0xFFFF then s.boot.node else byteAt d 2 2
/-- An SVC descriptor is refused (R427). -/
def svcRefused (s : State) (port func : Nat) (d : List Byte) : Bool :=
  let n := byteAt d 4 2
  let v := byteAt d 1 1
  let own := s.hst.owner == port + 1
  descReserved d || !(inRange 8 256 n && n % 8 == 0) || (!bit (byteAt d 0 1) 4 && decide (24 < n))
    || (bit (byteAt d 0 1) 4 && byteAt d 8 8 % 8 != 0) || byteAt d 16 8 % 64 != 0 || decide (16384 ≤ descDst s d)
    || (bit (byteAt d 0 1) 5 && (func != 0 || !own))
    || (descDst s d == s.boot.node && decide (v ≤ 0x3F) && !inRange 1 6 v && func != 0)
    || (func == 0 && !own)
/-- Status of a host read (Table 16-18). -/
def hostEndStatus : HostEnd → Nat
  | .ok => stOK
  | .unsupported => stViolation
  | .timeout => stTimeout
  | .poisoned => stPoison
/-- An SVCREQ of a function (R427, R428). -/
def sendSvcreq (port func sq i seq : Nat) (d payload : List Byte) (s : State) : State :=
  let c := (funcCtx s port func).getD 0
  let nocmp := bit (byteAt d 0 1) 6
  let s := s.modSq port func sq (fun x => { x with
    seq := (seq + 1) % 128
    out := x.out ++ [{ seq := seq, index := i, cookie := byteAt d 24 8, resaddr := byteAt d 16 8, head := x.head, at_ := now s, nocmp := nocmp }] })
  sendFrom (400 + port)
    (mkPkt (if bit (byteAt d 0 1) 5 then 6 else 4) opSVCREQ c (ctxKgen s c) s.tab.cur (descDst s d) s.boot.node (ringTag port func sq + seq) 0
      (byteAt d 1 1 + 2 ^ 8 * b2n nocmp) payload) s
/-- An SVC descriptor: refused, or its payload read and the request sent; at most 128 requests of a ring are outstanding. -/
def effSvc (port func sq : Nat) (payload : HostAns) (s : State) : State :=
  let s := dropAccepted port func sq s
  match frontDesc s port func sq with
  | none => s
  | some (i, d) =>
    if descType d ≠ 1 then s
    else if svcRefused s port func d then descRefused port func sq i d (consumeDesc port func sq s)
    else match freeSeq s port func sq with
      | none => s
      | some seq =>
        let n := byteAt d 4 2
        let s := consumeDesc port func sq s
        if bit (byteAt d 0 1) 4 then
          let s := fromHost port func (byteAt d 8 8) n s
          if payload.fin = .ok then sendSvcreq port func sq i seq d (padTo n payload.data) s
          else descDone port func sq i (hostEndStatus payload.fin) d s
        else sendSvcreq port func sq i seq d ((d.drop 32).take n) s
/-- The request of a ring with a sequence. -/
def sqReq (s : State) (port func sq seq : Nat) : Option SqReq := (s.sq port func sq).out.find? (fun r => r.seq == seq)
def dropReq (port func sq seq : Nat) (s : State) : State :=
  s.modSq port func sq (fun x => { x with out := x.out.filter (fun r => r.seq != seq) })
/-- A request outstanding for ABANDON ms completes TIMEOUT, and its sequence rests. -/
def effSqAbandon (port func sq : Nat) (seq : Nat) (s : State) : State :=
  match sqReq s port func sq seq with
  | none => s
  | some r =>
    let x := s.sq port func sq
    if x.abandon = 0 ∨ !passed s r.at_ (1000000 * x.abandon) ∨ (!r.nocmp ∧ !cqTakes s port func x.cq) then s
    else
      let s := (dropReq port func sq seq s).modSq port func sq (fun x => { x with
        heldSeq := x.heldSeq.filter (fun h => !reached s h.2) ++ [(seq, now s + pathBound s)] })
      if r.nocmp then s
      else pushEntry port func x.cq { payload := natBytes 8 stTimeout, cookie := r.cookie, index := r.index, sq := sq, head := r.head } s

/-! ### Service completions (R326, R429) -/

/-- A SVCCMP that cannot be taken yet: its ring is full, and its function holds 256 completions. -/
def cmpWaits (s : State) (p : Packet) : Bool :=
  let t := pTag p - 786432
  let port := t / 131072
  let func := t % 131072 / 1024
  let sq := t % 1024 / 128
  decide (786432 ≤ pTag p) && (sqReq s port func sq (t % 128)).isSome && !cqTakes s port func (s.sq port func sq).cq
/-- A completion of a host's request goes to the completion ring of its submission ring. -/
def hostCompletion (p : Packet) (s : State) : State :=
  let t := pTag p - 786432
  let port := t / 131072
  let func := t % 131072 / 1024
  let sq := t % 1024 / 128
  match sqReq s port func sq (t % 128) with
  | none => { s with mf := { s.mf with strayTags := s.mf.strayTags + 1 } }
  | some r =>
    let x := s.sq port func sq
    pushEntry port func x.cq { payload := p.payload, cookie := r.cookie, index := r.index, sq := sq, resaddr := r.resaddr, head := r.head }
      (dropReq port func sq (t % 128) s)
/-- A completion of a control thread's request, or the refusal of one that asked for none: an event of type 0x01 with COMPLETION (R325, R326). -/
def threadCompletion (p : Packet) (s : State) : State :=
  let h := (pTag p - 524288) / 32768 * 32 + (pTag p - 524288) % 32768 / 512
  if (s.thread h).tags.contains (pTag p) || (mfind? (pTag p) s.mf.tagHold).any (fun t => decide (now s < t)) then
    let s := (s.modThread h (fun t => { t with tags := t.tags.filter (· != pTag p) }))
    let s := { s with mf := { s.mf with tagHold := mdel (pTag p) s.mf.tagHold } }
    let a := stash (h / 32) p.payload s
    raiseThread h 1 (mailEvent (mailOf s p) true a.1) a.2
  else { s with mf := { s.mf with strayTags := s.mf.strayTags + 1 } }
/-- The oldest SVCCMP that has arrived, to the owner of its tag, a service that asked another module or a ring or thread; one of a tag that no owner has is counted (R161). -/
def effSvccmp (s : State) : State :=
  match takeMod (fun x => pOp x.1 == opSVCCMP && !cmpWaits s x.1) s with
  | none => s
  | some ((p, _), s) =>
    if mhas (pTag p) s.mf.own then takeResponse p id s
    else if 786432 ≤ pTag p then hostCompletion p s
    else if 524288 ≤ pTag p then threadCompletion p s
    else { s with mf := { s.mf with strayTags := s.mf.strayTags + 1 } }

/-! ### Completion rings (R430, R431) -/

/-- A head doorbell frees entries, and held completions go out. -/
def effCqDoorbell (port func cq : Nat) (head : Nat) (tb : Bool) (s : State) : State :=
  let c := s.cq port func cq
  onlyIf (funcUp s port func && heard s port func tb && c.en && decide (head < 2 ^ c.log2)) s
    (releaseHeld port func cq (s.modCq port func cq (fun c => { c with head := head })))
/-- The oldest unsignalled entry has waited COAL_US. -/
def effCqCoalesceTimeout (port func cq : Nat) (s : State) : State :=
  let c := s.cq port func cq
  onlyIf (c.unsig != 0 && c.coalUs != 0 && passed s c.unsigAt (1000 * c.coalUs)) s
    (sendVec port func c.vector (s.modCq port func cq (fun c => { c with unsig := 0 })))

/-! ### Ring configuration (R424) -/

/-- The configuration words as they read (Table 16-9). -/
def sqConf (x : SQ) : Nat := b2n x.en + 2 * x.log2 + 2 ^ 6 * x.cq + 2 ^ 9 * x.abandon + 2 ^ 25 * b2n x.err
def cqConf (x : CQ) : Nat := b2n x.en + 2 * x.log2 + 2 ^ 6 * x.vector + 2 ^ 17 * x.coalCnt + 2 ^ 25 * x.coalUs
/-- A submission ring's configuration written: while it is enabled only EN counts. -/
def confSq (v : Nat) (x : SQ) : SQ :=
  if x.en then (if bit v 0 then x else { x with en := false, fetched := [], repoll := 0 })
  else
    let x := { x with log2 := fld v 1 5, cq := fld v 6 3, abandon := fld v 9 16, err := x.err && !bit v 25 }
    if !bit v 0 then x
    else if inRange 4 16 x.log2 then { x with en := true, head := 0, tail := 0, phase := true, fetched := [], repoll := 0, repollAt := 0 }
    else { x with err := true }
/-- A completion ring's configuration written. -/
def confCq (func v : Nat) (x : CQ) : CQ :=
  if x.en then (if bit v 0 then x else { x with en := false })
  else
    let x := { x with log2 := fld v 1 5, vector := fld v 6 11, coalCnt := fld v 17 8, coalUs := fld v 25 10, err := false }
    if !bit v 0 then x
    else if inRange 4 16 x.log2 && decide (x.vector < vectorCount func) then
      { x with en := true, tail := 0, phase := true, head := 0, unsig := 0, held := [] }
    else { x with err := true }
/-- A write of a ring register. -/
def effRingConfigWrite (port func : Nat) (off : Nat) (size : Nat) (value : Word) (tb : Bool) (s : State) : State :=
  if !funcUp s port func || !heard s port func tb || !regAccess off size || !inRange 0x1000 0x11FF off then s
  else
    let q := off % 256 / 32
    let r := off % 32 / 8
    if off < 0x1100 then
      let x := s.sq port func q
      if r = 0 then
        if x.en then s else s.modSq port func q (fun x => { x with base := regMerge x.base off size value.toNat / 4096 * 4096 })
      else if r = 1 then
        -- a write of the high half leaves the fields of the low half, ERR among them, as they are
        if size = 4 ∧ off % 8 = 4 then s
        else s.modSq port func q (confSq value.toNat)
      else s
    else
      let x := s.cq port func q
      if r = 0 then
        if x.en then s else s.modCq port func q (fun x => { x with base := regMerge x.base off size value.toNat / 4096 * 4096 })
      else if r = 1 then
        let s := s.modCq port func q (confCq func (regMerge (cqConf x) off size value.toNat))
        if x.en && !(s.cq port func q).en && !x.held.isEmpty then
          feedErr port func q (s.modCq port func q (fun x => { x with held := [] }))
        else s
      else s

/-! ### Register reads without side effects (R416-R420, R424) -/

/-- The global register at an offset: a VF has MODID, MODREV, MODSTAT, MODTIME and FUNCSTAT alone (Tables 16-3, 16-4). -/
def globalReg (s : State) (port func off : Nat) : Nat :=
  match off with
  | 0x00 => modId
  | 0x08 => modRev
  | 0x10 => modstat s port
  | 0x20 => now s % 2 ^ 64
  | 0x28 => funcStat s port func
  | k => if func ≠ 0 then 0 else match k with
    | 0x18 => mget 0 port s.hst.modIe
    | 0x30 => mown s
    | 0x40 => s.hst.fcosel
    | 0x48 => s.hst.fcoen
    | 0x50 => fifoErr s
    | _ => 0
/-- The ring register at an offset (Table 16-9). -/
def ringReg (s : State) (port func off : Nat) : Nat :=
  let q := off % 256 / 32
  let r := off % 32 / 8
  if off < 0x1100 then
    let x := s.sq port func q
    if r = 0 then x.base else if r = 1 then sqConf x else if r = 2 then x.head + 2 ^ 16 * x.out.length else 0
  else
    let x := s.cq port func q
    if r = 0 then x.base else if r = 1 then cqConf x else if r = 2 then x.tail + 2 ^ 16 * b2n x.phase else 0
/-- The MSI-X table and its pending bits (Table 16-3). -/
def msixReg (s : State) (port func off : Nat) : Nat :=
  let f := s.func (funcKey port func)
  let v := (off - 0x40000) / 16
  if off < 0x48000 then (if v < vectorCount func then fld (mget msixReset v f.msix) (off % 16 / 8 * 64) 64 else 0)
  else ((List.range 64).map (fun i => 2 ^ i * b2n (f.pba.contains (8 * (off - 0x48000) + i)))).sum
/-- The 64-bit register of a function at an offset: the four identity and time registers and the PF's ownership register before CORE_UP, all of them behind it; any other offset reads zero (R416-R418). -/
def reg64 (s : State) (port func off : Nat) : Nat :=
  let early := off < 0x18 ∨ off = 0x20 ∨ (func = 0 ∧ off = 0x30)
  if !(s.hport port).linkUp || !s.boot.pwrgd then 0
  else if !funcUp s port func ∧ !(func = 0 ∧ early) then 0
  else if off < 0x100 then globalReg s port func off
  else if inRange 0x1000 0x11FF off then ringReg s port func off
  else if inRange 0x3000 0x3FFF off then (if func = 0 then fld (s.fifo ((off - 0x3000) / 16)).cfg (off % 16 / 8 * 64) 64 else 0)
  else if inRange 0x40000 0x480FF off then msixReg s port func off
  else 0
/-- What a host's read of a register that reaches its function returns: zero for a size or alignment that R417 does not have. Reads of windows and FIFO ports, which have effects, have rows of their own. -/
def regRead (s : State) (port func off size : Nat) : Nat :=
  if regAccess off size then reg64 s port func (off / 8 * 8) >>> (8 * (off % 8)) % 2 ^ (8 * size) else 0

/-! ### Ownership (R422, R423) -/

/-- The PF of a port reaches the ownership registers, before CORE_UP too (R418). -/
def ownReach (s : State) (port : Nat) : Bool := s.boot.pwrgd && (s.hport port).linkUp
def effMownRequest (port : Nat) (s : State) : State :=
  if !ownReach s port then s
  else if s.hst.owner = 0 then setOwner (port + 1) s
  else if s.hst.owner = port + 1 then s
  else { s with hst := { s.hst with waiting := true } }
def effMownRenew (port : Nat) (s : State) : State :=
  if !ownReach s port then s
  else ownerWrite port (fun s => { s with hst := { s.hst with ownEnd := now s + 1000000 * s.hst.ownLease } }) s
def effMownRelease (port : Nat) (s : State) : State := if !ownReach s port then s else ownerWrite port endOwnership s
/-- Module time reaches the lease's end. -/
def effOwnLeaseLapse (s : State) : State := onlyIf (s.hst.owner != 0 && reached s s.hst.ownEnd) s (endOwnership s)

/-! ### Result windows (R432-R434) -/

/-- Accesses of a window that have an effect: 4 or 8 B aligned, or the whole 64 B. -/
def windowAccess (off size : Nat) : Bool := (regAccess off size && decide (off < 64)) || (off == 0 && size == 64)
/-- A function's windows answer: a VF while it is bound (R450). -/
def windowUp (s : State) (port func win : Nat) : Bool := (boundTo s port func).isSome && decide (win < windowCount func)
/-- A read: an Unsupported Request returns no data. -/
def effResultWindowRead (port func win : Nat) (off size : Nat) (tb : Bool) (s : State) : State :=
  if !heard s port func tb then put (.hostReply port func []) s
  else if !windowUp s port func win || !windowAccess off size then put (.hostReply port func (List.replicate size 0)) s
  else
    let x := s.window port func win
    let x := if x.ready ∧ off < 8 then { x with rcount := satAdd 16 x.rcount 1 } else x
    put (.hostReply port func (((windowBytes x).drop off).take size)) (s.setWindow port func win x)
/-- A header write with the window's SEQ consumes the result. -/
def effResultWindowConsume (port func win : Nat) (value : Word) (tb : Bool) (s : State) : State :=
  let x := s.window port func win
  onlyIf (heard s port func tb && windowUp s port func win && x.ready && fld value.toNat 16 16 == x.seq) s (s.setWindow port func win (emptyWindow x))

/-! ### Message FIFOs (R435-R437) -/

/-- An entry may be enabled: LOW below HIGH, HIGH within MAXW, VECTOR below the count of FUNC. -/
def fifoConfOk (v : Nat) : Bool :=
  let x : Fifo := { cfg := v }
  decide (ffLow x < ffHigh x) && decide (ffHigh x ≤ ffMax x) && decide (ffVector x < vectorCount (ffFunc x))
def refuseConf (s : State) : State := { s with hst := { s.hst with cfgRefused := true } }
/-- A half of a configuration entry written by the owner, its reserved bits [63:60] and [127:75] ignored: EN cleared flushes; an enabled entry takes nothing else. -/
def effFifoConfigWrite (port fifo : Nat) (half : Nat) (value : Word) (s : State) : State :=
  if !funcUp s port 0 then s
  else ownerWrite port (fun s =>
    let x := s.fifo fifo
    let v := setFld (setFld x.cfg (64 * half) 64 value.toNat % 2 ^ 75) 60 4 0
    if ffEn x then
      if half = 0 ∧ !bit v 0 then s.setFifo fifo { cfg := v } else refuseConf s
    else if half = 0 ∧ bit v 0 then
      if fifoConfOk v then s.setFifo fifo { cfg := v } else refuseConf s
    else s.setFifo fifo { x with cfg := v }) s
/-- A function's BAR0 shows the FSTAT of a FIFO (R436, R450). -/
def fstatUp (s : State) (port func fifo : Nat) : Bool := (boundTo s port func).isSome && ffNamed (s.fifo fifo) port func
/-- A function owns a FIFO in use, whose DATA it reaches (R436, R450). -/
def fifoUp (s : State) (port func fifo : Nat) : Bool := (boundTo s port func).isSome && ffOwned (s.fifo fifo) port func
def replyWord (port func size : Nat) (w : Word) (s : State) : State := put (.hostReply port func (padTo size (natBytes 8 w.toNat))) s
/-- A DATA read: of a to-host FIFO it pops; an empty one repeats the last word and sets UNDERRUN; an uncorrectable word is discarded (R437). -/
def effFifoPop (port func fifo : Nat) (size : Nat) (seen : EccSeen) (tb : Bool) (s : State) : State :=
  let x := s.fifo fifo
  if !heard s port func tb then put (.hostReply port func []) s
  else if !fifoUp s port func fifo || size != 8 || !ffToHost x then replyWord port func size 0 s
  else match x.words with
    | [] => replyWord port func 8 x.last (s.setFifo fifo { x with underrun := true })
    | w :: _ =>
      match seen with
      | .clean => replyWord port func 8 w (fifoDrop fifo (s.setFifo fifo { x with last := w }))
      | .corrected =>
        let s := { s with hst := { s.hst with fifoCorr := satAdd 16 s.hst.fifoCorr 1 } }
        replyWord port func 8 w (fifoDrop fifo (s.setFifo fifo { x with last := w, corr := satAdd 16 x.corr 1 }))
      | .uncorrectable =>
        let s := { s with hst := { s.hst with fifoUnc := satAdd 16 s.hst.fifoUnc 1 } }
        replyWord port func 8 0 (emitClass 6 0x0B fifo 0 0 0 (fifoDrop fifo (s.setFifo fifo { x with dataerr := true })))
/-- A DATA write: of a to-module FIFO it pushes; a full one discards it and sets OVERFLOW. -/
def effFifoPush (port func fifo : Nat) (size : Nat) (value : Word) (tb : Bool) (s : State) : State :=
  let x := s.fifo fifo
  if !heard s port func tb || !fifoUp s port func fifo || size != 8 || ffToHost x then s
  else if fifoFull s fifo then s.setFifo fifo { x with overflow := true }
  else fifoPush fifo value s
/-- FSTAT, whole or one half of it; a read of the half that holds CORR clears it (R417, R436). -/
def effFstatRead (port func fifo : Nat) (off size : Nat) (tb : Bool) (s : State) : State :=
  if !heard s port func tb then put (.hostReply port func []) s
  else if !fstatUp s port func fifo || !regAccess off size || !decide (off < 8) then replyWord port func size 0 s
  else replyWord port func size (BitVec.ofNat 64 (fstat s fifo >>> (8 * off)))
    (if size + off = 8 then s.modFifo fifo (fun x => { x with corr := 0 }) else s)

/-! ### Registers without a row of their own (R416-R419) -/

/-- The MSI-X table entry written; a vector unmasked while pending goes out. -/
def msixWrite (port func : Nat) (off size value : Nat) (s : State) : State :=
  let v := (off - 0x40000) / 16
  let lo := off % 16 / 8 * 64
  if vectorCount func ≤ v then s
  else
    let s := s.modFunc (funcKey port func) (fun f =>
      let e := mget msixReset v f.msix
      { f with msix := mset msixReset v (setFld e lo 64 (regMerge (fld e lo 64) off size value)) f.msix })
    sendPending port func s
/-- A half of a FIFO configuration entry written by 4 or 8 bytes (R417). -/
def fifoConfWrite (port fifo half off size value : Nat) (s : State) : State :=
  effFifoConfigWrite port fifo half (BitVec.ofNat 64 (regMerge (fld (s.fifo fifo).cfg (64 * half) 64) off size value)) s
/-- The flags of an FSTAT written with ones clear. -/
def fstatWrite (port func : Nat) (off size value : Nat) (s : State) : State :=
  let f := (off - 0x20000) / 32
  let v := regMerge 0 off size value
  if fstatUp s port func f && off % 32 / 8 == 1 then
    s.modFifo f (fun x => { x with underrun := x.underrun && !bit v 19, overflow := x.overflow && !bit v 20, dataerr := x.dataerr && !bit v 21 })
  else s
/-- Configuration space stands behind BAR0: SR-IOV control at 0x8_0000, power control at 0x8_0008 (log 54). -/
def configWrite (port func : Nat) (off value : Nat) (s : State) : State :=
  if off = 0x80000 ∧ func = 0 then
    if bit value 0 && !(s.hport port).vfEn && s.boot.coreUp then
      s.modHport port (fun h => { h with vfEn := true, numVfs := min 127 (fld value 16 16) }) else s
  else if off = 0x80008 then
    sendPending port func (s.modFunc (funcKey port func) (fun f => { f with d3 := fld value 0 2 == 3 }))
  else s
/-- MODSTAT's W1C bits of a port. -/
def modstatWrite (port v : Nat) (s : State) : State :=
  { s with hst := { s.hst with modstat := s.hst.modstat.filter (fun k => !(k / 16 == port && bit v (k % 16))) } }
/-- The global registers of a PF (Table 16-4). -/
def globalWrite (port : Nat) (off size value : Nat) (s : State) : State :=
  match off / 8 * 8 with
  | 0x18 => { s with hst := { s.hst with modIe := mset 0 port (fld (regMerge (mget 0 port s.hst.modIe) off size value) 0 9) s.hst.modIe } }
  | 0x40 => ownerWrite port (fun s => { s with hst := { s.hst with fcosel := regMerge s.hst.fcosel off size value } }) s
  | 0x48 => ownerWrite port (fun s => { s with hst := { s.hst with fcoen := fld (regMerge s.hst.fcoen off size value) 0 8 } }) s
  | 0x50 => if bit (regMerge 0 off size value) 49 then { s with hst := { s.hst with cfgRefused := false } } else s
  | _ => s
/-- A write of a register: of a size or alignment that R417 does not have, or of a read-only register, it changes nothing; before CORE_UP only MODSTAT takes it. -/
def effRegisterWrite (port func : Nat) (off : Nat) (size : Nat) (value : Word) (tb : Bool) (s : State) : State :=
  let v := value.toNat
  if !heard s port func tb || !regAccess off size || !(s.hport port).linkUp || !s.boot.pwrgd then s
  else if off / 8 = 2 then
    if func = 0 || funcUp s port func then modstatWrite port (regMerge 0 off size v) s else s
  else if !funcUp s port func then s
  else if off < 0x100 then (if func = 0 then globalWrite port off size v s else s)
  else if inRange 0x3000 0x3FFF off then
    (if func = 0 then fifoConfWrite port ((off - 0x3000) / 16) (off / 8 % 2) off size v s else s)
  else if inRange 0x20000 0x21FFF off then fstatWrite port func off size v s
  else if inRange 0x40000 0x47FFF off then msixWrite port func off size v s
  else if 0x80000 ≤ off then configWrite port func off v s
  else s

/-- SVCCMP (R326). -/
def execSvccmp (s : State) : Host.Outcome State Fault Refusal :=
  unit (true) s (effSvccmp s)

/-- SQ_DOORBELL (R426). -/
def execSqDoorbell (port func sq : Nat) (tail : Nat) (entries : List (List Byte)) (tb : Bool) (s : State) : Host.Outcome State Fault Refusal :=
  unit (isHostPort port && isFunc func && isRing sq) s (effSqDoorbell port func sq tail entries tb s)

/-- SQ_PHASE_REPOLL (R426). -/
def execSqPhaseRepoll (port func sq : Nat) (entry : List Byte) (s : State) : Host.Outcome State Fault Refusal :=
  unit (isHostPort port && isFunc func && isRing sq) s (effSqPhaseRepoll port func sq entry s)

/-- NOP (R427). -/
def execNop (port func sq : Nat) (s : State) : Host.Outcome State Fault Refusal :=
  unit (isHostPort port && isFunc func && isRing sq) s (effNop port func sq s)

/-- SVC (R427). -/
def execSvc (port func sq : Nat) (payload : HostAns) (s : State) : Host.Outcome State Fault Refusal :=
  unit (isHostPort port && isFunc func && isRing sq) s (effSvc port func sq payload s)

/-- FENCE (R427). -/
def execFence (port func sq : Nat) (s : State) : Host.Outcome State Fault Refusal :=
  unit (isHostPort port && isFunc func && isRing sq) s (effFence port func sq s)

/-- SQ_ABANDON (R428). -/
def execSqAbandon (port func sq : Nat) (seq : Nat) (s : State) : Host.Outcome State Fault Refusal :=
  unit (isHostPort port && isFunc func && isRing sq) s (effSqAbandon port func sq seq s)

/-- CQ_DOORBELL (R430). -/
def execCqDoorbell (port func cq : Nat) (head : Nat) (tb : Bool) (s : State) : Host.Outcome State Fault Refusal :=
  unit (isHostPort port && isFunc func && isRing cq) s (effCqDoorbell port func cq head tb s)

/-- CQ_COALESCE_TIMEOUT (R431). -/
def execCqCoalesceTimeout (port func cq : Nat) (s : State) : Host.Outcome State Fault Refusal :=
  unit (isHostPort port && isFunc func && isRing cq) s (effCqCoalesceTimeout port func cq s)

/-- RING_CONFIG_WRITE (R424). -/
def execRingConfigWrite (port func : Nat) (off : Nat) (size : Nat) (value : Word) (tb : Bool) (s : State) : Host.Outcome State Fault Refusal :=
  unit (isHostPort port && isFunc func) s (effRingConfigWrite port func off size value tb s)

/-- MOWN_REQUEST (R422). -/
def execMownRequest (port : Nat) (s : State) : Host.Outcome State Fault Refusal :=
  unit (isHostPort port) s (effMownRequest port s)

/-- MOWN_RENEW (R422). -/
def execMownRenew (port : Nat) (s : State) : Host.Outcome State Fault Refusal :=
  unit (isHostPort port) s (effMownRenew port s)

/-- MOWN_RELEASE (R422). -/
def execMownRelease (port : Nat) (s : State) : Host.Outcome State Fault Refusal :=
  unit (isHostPort port) s (effMownRelease port s)

/-- OWN_LEASE_LAPSE (R423). -/
def execOwnLeaseLapse (s : State) : Host.Outcome State Fault Refusal :=
  unit (true) s (effOwnLeaseLapse s)

/-- RESULT_WINDOW_READ (R433). -/
def execResultWindowRead (port func win : Nat) (off size : Nat) (tb : Bool) (s : State) : Host.Outcome State Fault Refusal :=
  unit (isHostPort port && isFunc func && isWin win) s (effResultWindowRead port func win off size tb s)

/-- RESULT_WINDOW_CONSUME (R434). -/
def execResultWindowConsume (port func win : Nat) (value : Word) (tb : Bool) (s : State) : Host.Outcome State Fault Refusal :=
  unit (isHostPort port && isFunc func && isWin win) s (effResultWindowConsume port func win value tb s)

/-- FIFO_CONFIG_WRITE (R435). -/
def execFifoConfigWrite (port fifo : Nat) (half : Nat) (value : Word) (s : State) : Host.Outcome State Fault Refusal :=
  unit (isHostPort port && isFifo fifo && decide (half < 2)) s (effFifoConfigWrite port fifo half value s)

/-- FIFO_POP (R437). -/
def execFifoPop (port func fifo : Nat) (size : Nat) (seen : EccSeen) (tb : Bool) (s : State) : Host.Outcome State Fault Refusal :=
  unit (isHostPort port && isFunc func && isFifo fifo) s (effFifoPop port func fifo size seen tb s)

/-- FIFO_PUSH (R437). -/
def execFifoPush (port func fifo : Nat) (size : Nat) (value : Word) (tb : Bool) (s : State) : Host.Outcome State Fault Refusal :=
  unit (isHostPort port && isFunc func && isFifo fifo) s (effFifoPush port func fifo size value tb s)

/-- FSTAT_READ (R436). -/
def execFstatRead (port func fifo : Nat) (off size : Nat) (tb : Bool) (s : State) : Host.Outcome State Fault Refusal :=
  unit (isHostPort port && isFunc func && isFifo fifo) s (effFstatRead port func fifo off size tb s)

/-- REGISTER_WRITE (R417). -/
def execRegisterWrite (port func : Nat) (off : Nat) (size : Nat) (value : Word) (tb : Bool) (s : State) : Host.Outcome State Fault Refusal :=
  unit (isHostPort port && isFunc func) s (effRegisterWrite port func off size value tb s)


end Sys2Proof.Machine
end

