-- ==== Sys2Proof/Machine/Kreq.lean ====
section
/-!
DEFINITION. Meanings of the KREQ instruction, row by row of its operation, and of its completions (R258, R484, R485).
-/
namespace Sys2Proof.Machine

/-- A KREQ word whose request has the given OP: the ticket to sD, the request to Carnelian. An OP that the table does not have is posted with QUERY's (log 50). -/
def kreq (op : Nat) (site : Site) (s : State) : State :=
  issue 0xE9 onControl (fun _ => fOpc + fD + fA + fImm) (fun x w s =>
    if !okS (wD w) || !okS (wA w) then .fault 4
    else if !memOk s x (memAddr s x w) 64 8 then .fault 2
    else
      let h := siteThread x
      let r := readMem s x (memAddr s x w) 64
      if krOp r ≠ op ∧ !(op == 6 && !inRange 1 8 (krOp r)) then .other
      else
        let t := (s.thread h).ticket
        .next (postKey h t r ((setS x (wD w) (BitVec.ofNat 64 (65536 * t)) s).modThread h (fun y => { y with ticket := (t + 1) % 65536 })))) site s

def effKreqAlloc (site : Site) (s : State) : State := kreq 1 site s
def effKreqImport (site : Site) (s : State) : State := kreq 2 site s
def effKreqShare (site : Site) (s : State) : State := kreq 3 site s
def effKreqDestroy (site : Site) (s : State) : State := kreq 4 site s
def effKreqRetire (site : Site) (s : State) : State := kreq 5 site s
def effKreqQuery (site : Site) (s : State) : State := kreq 6 site s
def effKreqReport (site : Site) (s : State) : State := kreq 7 site s
def effKreqScrub (site : Site) (s : State) : State := kreq 8 site s
/-- The completion of the request that came first, as an event of type 0x04. -/
def effKreqComplete (s : State) : State :=
  let s := dropShares (serveKeys s)
  match popFirst (fun q => q.done.isSome && !ownOpen s 15 (reportUnit q.thread q.ticket)) s.sec.kreqs with
  | none => s
  | some (q, rest) => (if q.orphan then id else raiseThread q.thread 4 (q.done.getD [])) { s with sec := { s.sec with kreqs := rest } }

/-- KREQ_ALLOC (R484). -/
def execKreqAlloc (site : Site) (s : State) : Host.Outcome State Fault Refusal :=
  unit (isSite site) s (effKreqAlloc site s)

/-- KREQ_IMPORT (R484). -/
def execKreqImport (site : Site) (s : State) : Host.Outcome State Fault Refusal :=
  unit (isSite site) s (effKreqImport site s)

/-- KREQ_SHARE (R484). -/
def execKreqShare (site : Site) (s : State) : Host.Outcome State Fault Refusal :=
  unit (isSite site) s (effKreqShare site s)

/-- KREQ_DESTROY (R483). -/
def execKreqDestroy (site : Site) (s : State) : Host.Outcome State Fault Refusal :=
  unit (isSite site) s (effKreqDestroy site s)

/-- KREQ_RETIRE (R480). -/
def execKreqRetire (site : Site) (s : State) : Host.Outcome State Fault Refusal :=
  unit (isSite site) s (effKreqRetire site s)

/-- KREQ_QUERY (R484). -/
def execKreqQuery (site : Site) (s : State) : Host.Outcome State Fault Refusal :=
  unit (isSite site) s (effKreqQuery site s)

/-- KREQ_REPORT (R497). -/
def execKreqReport (site : Site) (s : State) : Host.Outcome State Fault Refusal :=
  unit (isSite site) s (effKreqReport site s)

/-- KREQ_SCRUB (R465). -/
def execKreqScrub (site : Site) (s : State) : Host.Outcome State Fault Refusal :=
  unit (isSite site) s (effKreqScrub site s)

/-- KREQ_COMPLETE (R485). -/
def execKreqComplete (s : State) : Host.Outcome State Fault Refusal :=
  unit (true) s (effKreqComplete s)


end Sys2Proof.Machine
end

