-- ==== Sys2Proof/Machine/KvPages.lean ====
section
/-!
DEFINITION. Meanings of the KV-page service: group rows found through Peridot, page words, the sweep and the pins (R344-R347, R352; the service's own choices: log 47).
-/
namespace Sys2Proof.Machine

/-! ### Requests and completions (R345) -/

def kvSeq (m : Mail) : Nat := byteAt m.data 4 4
def kvBlock (m : Mail) : Nat := byteAt m.data 8 4
def kvPins (m : Mail) : Bool := bit (byteAt m.data 1 1) 1
/-- The completion: status, FOUND, EXISTS, TIER, and the page's node and offset where a word is given. -/
def kvRecord (status : Nat) (found exists_ : Bool) (w : Nat) : List Byte :=
  natBytes 1 status ++ natBytes 1 (b2n found + 2 * b2n exists_) ++ natBytes 1 (fld w 2 2) ++ natBytes 5 0
    ++ natBytes 8 (fld w 16 14 + 2 ^ 14 * (65536 * kwPage w))
def kvSay (m : Mail) (status : Nat) (found exists_ : Bool) (w : Nat) (s : State) : State := svcComplete m (kvRecord status found exists_ w) s
/-- What turns a request away before its block is looked for. -/
def kvRefusal (s : State) (m : Mail) : Option Nat :=
  if ctxState s m.ctx ≠ 1 then some stContextGone else if cmdUnknown m || decide (2 ^ 20 ≤ kvBlock m) then some stViolation else none

/-! ### Group rows (R344) -/

/-- The search table of the service: the first enabled one of 160-bit entries that context 0 owns and every context may search by its own key. -/
def kvTable (s : State) : Option Nat :=
  (listedIdx s 0x0020).find? (fun t => let v := searchTable s t; stEn v && stWidth v == 0 && stAccess v == 1 && stOwner v == 0)
/-- The key of a row. -/
def kvKey (c seq hi : Nat) : Nat := c + 2 ^ 10 * seq + 2 ^ 42 * hi
/-- The group row of a context's block. -/
def kvRowOf (s : State) (c seq block : Nat) : Option Nat :=
  (kvTable s).bind (fun t => (findResult s c t (kvKey c seq (block / 64))).map (· % 131072))
/-- The word key of a block that has a row. -/
def kvFind (s : State) (m : Mail) : Option Nat := (kvRowOf s m.ctx (kvSeq m) (kvBlock m)).map (fun r => 64 * r + kvBlock m % 64)
/-- The first row of the table that holds no entry. -/
def kvFreeEntry (s : State) (t : Nat) : Option Nat :=
  let d := searchTable s t
  ((List.range (stRows d)).map (stFirst d + ·)).find? (fun r => !imValid 0 (pImage s r))
/-- A block's row, made with its entry where it has none. -/
def kvMakeRow (m : Mail) (s : State) : Option (Nat × State) :=
  match kvRowOf s m.ctx (kvSeq m) (kvBlock m) with
  | some r => some (r, s)
  | none =>
    match kvTable s with
    | none => none
    | some t =>
      match kvFreeEntry s t, leastBelow 131072 (fun r => !mhas r s.svc.kvRow) with
      | some e, some r =>
        let hi := kvBlock m / 64
        let im := kvKey m.ctx (kvSeq m) hi + 2 ^ 256 * (2 ^ 160 - 1) + 2 ^ 512 * r + 2 ^ 544
        let s := writeImage e im s
        some (r, { s with svc := { s.svc with kvRow := mput r (m.ctx, kvSeq m, hi) s.svc.kvRow } })
      | _, _ => none
/-- A row without pages goes, and its entry with it. -/
def kvDropRow (r : Nat) (s : State) : State :=
  match mfind? r s.svc.kvRow with
  | none => s
  | some (c, seq, hi) =>
    if (List.range 64).any (fun i => kwState (kvWord s (64 * r + i)) != 0) then s
    else
      let s := match (kvTable s).bind (fun t => (firstMatch s c t (kvKey c seq hi) none)) with
        | some (e, _) => writeImage e 0 s
        | none => s
      { s with svc := { s.svc with kvRow := mdel r s.svc.kvRow } }
def kvSet (k v : Nat) (s : State) : State := { s with svc := { s.svc with kv := mset 0 k v s.svc.kv } }
/-- A word is EMPTY: its page is free for another block. -/
def kvEmpty (k : Nat) (s : State) : State := kvDropRow (k / 64) (kvSet k 0 s)
/-- Words of a context's rows that are not EMPTY, in order. -/
def kvWordsOf (s : State) (c : Nat) : List Nat :=
  (s.svc.kv.map (·.1)).filter (fun k => (mfind? (k / 64) s.svc.kvRow).any (fun r => r.1 == c) && kwState (kvWord s k) != 0)

/-! ### Pages and the sweep (R346) -/

/-- Pages that a context's serving tier-space extents give it and no block has. -/
def kvFreePages (s : State) (c : Nat) : List Nat :=
  let used := (kvWordsOf s c).map (fun k => kwPage (kvWord s k))
  ((listedExtents s).filter (fun e => exOwner (extent s e) == c && (exState (extent s e) == 1 || exState (extent s e) == 2))).flatMap
    (fun e => (extentPages s e).filter (fun p => !used.contains p))
/-- One pass of the sweep over words: REF cleared on the way, the first word left is the victim. -/
def kvSweep : List Nat → State → Option Nat × State
  | [], s => (none, s)
  | k :: rest, s =>
    let v := kvWord s k
    if kwState v ≠ 1 ∨ kwPins v ≠ 0 ∨ fld v 2 2 ≠ 0 then kvSweep rest s
    else if kwRef v then kvSweep rest (kvSet k (setFld v 4 1 0) s)
    else (some k, s)
/-- The victim of a context's near-tier blocks: two passes from its hand. -/
def kvVictim (c : Nat) (s : State) : Option Nat × State :=
  let l := kvWordsOf s c
  let h := mget 0 c s.svc.kvHand
  let once := l.filter (fun k => decide (h ≤ k)) ++ l.filter (fun k => decide (k < h))
  let r := kvSweep (once ++ once) s
  match r.1 with
  | some k => (some k, { r.2 with svc := { r.2.svc with kvHand := mset 0 c (k + 1) r.2.svc.kvHand } })
  | none => r
/-- The block of an ALLOC gets a page that rests near. -/
def kvGive (m : Mail) (p : Nat) (s : State) : Option State :=
  (kvMakeRow m s).map (fun x =>
    let w := 1 + 2 ^ 5 * b2n (bit (byteAt m.data 1 1) 0) + 2 ^ 6 * b2n (kvPins m) + 2 ^ 16 * s.boot.node + 2 ^ 30 * p
    kvSay m stOK true false w (kvSet (64 * x.1 + kvBlock m % 64) w x.2))
/-- What an ALLOC of a new block does: none where it completes BUSY_RETRY; the flag tells that it waits for a move. -/
def kvAllocate (m : Mail) (s : State) : Option (Bool × State) :=
  let c := m.ctx
  let free := kvFreePages s c
  match free.find? (fun p => pgState (page s p) == 1) with
  | some p => (kvGive m p s).map (fun t => (false, t))
  | none =>
    if free.any (fun p => pgState (page s p) == 3 && pgTo (page s p) == 0) then some (true, s)
    else match free.findSome? (fun p => tryMove p 0 4 none false s) with
      | some t => some (true, t)
      | none =>
        if evicting s c && !free.isEmpty then some (true, s)
        else
          let r := kvVictim c s
          match r.1 with
          | none => none
          | some k =>
            let v := kvWord r.2 k
            if kwDrop v then (kvGive m (kwPage v) (kvEmpty k r.2)).map (fun t => (false, t))
            else if free.isEmpty then none
            else match tryMove (kwPage v) 1 4 none false r.2 with
              | some t => some (true, t)
              | none => (tryMove (kwPage v) 2 4 none false r.2).map (fun t => (true, t))
/-- ALLOC: a block that exists is returned with EXISTS; a new one takes a page near, or waits in the mailbox for the move that makes room. -/
def effKvAlloc (s : State) : State :=
  match takeMail 4 1 s with
  | none => s
  | some (m, t) =>
    match kvRefusal t m with
    | some st => kvSay m st false false 0 t
    | none =>
      match (kvFind t m).filter (fun k => kwState (kvWord t k) != 0) with
      | some k =>
        let v := kvWord t k
        if kwState v ≠ 1 ∨ (kvPins m ∧ kwPins v = 1023) then kvSay m stBusy true true v t
        else
          let v := if kvPins m then setFld v 6 10 (kwPins v + 1) else v
          kvSay m stOK true true v (kvSet k v t)
      | none =>
        match kvAllocate m t with
        | none => kvSay m stBusy false false 0 t
        | some (false, u) => u
        | some (true, u) => { u with svc := { u.svc with mail := s.svc.mail, oldMail := s.svc.oldMail } }

/-! ### LOOKUP, UNPIN, FREESEQ (R347) -/

/-- A LOOKUP of a block at rest, or of none. -/
def kvReturn (m : Mail) (k : Option Nat) (s : State) : State :=
  match k with
  | none => kvSay m stOK false false 0 s
  | some k =>
    let v := kvWord s k
    if kwState v ≠ 1 then kvSay m stOK false false 0 s
    else if kvPins m ∧ kwPins v = 1023 then kvSay m stBusy true false v s
    else
      let v := setFld v 4 1 1
      let v := if kvPins m then setFld v 6 10 (kwPins v + 1) else v
      kvSay m stOK true false v (kvSet k v s)
def effKvLookup (s : State) : State :=
  match takeMail 4 2 s with
  | none => s
  | some (m, s) =>
    match kvRefusal s m with
    | some st => kvSay m st false false 0 s
    | none =>
      match kvFind s m with
      | some k =>
        if kwState (kvWord s k) = 3 then { s with svc := { s.svc with kvWait := s.svc.kvWait ++ [(m, k, now s)] } }
        else kvReturn m (some k) s
      | none => kvReturn m none s
/-- The wait of a LOOKUP is over: its page rests, its context closes, or 50 us have passed. -/
def kvWaitOver (s : State) (x : Mail × Nat × Nat) : Bool :=
  kwState (kvWord s x.2.1) != 3 || ctxState s x.1.ctx != 1 || passed s x.2.2 50000
def effKvLookupWaitEnd (s : State) : State :=
  match popFirst (kvWaitOver s) s.svc.kvWait with
  | none => s
  | some ((m, k, _), rest) =>
    let s := { s with svc := { s.svc with kvWait := rest } }
    if ctxState s m.ctx ≠ 1 then kvSay m stContextGone false false 0 s
    else if kwState (kvWord s k) = 3 then kvSay m stBusy false false 0 s
    else kvReturn m (some k) s
def effKvUnpin (s : State) : State :=
  match takeMail 4 3 s with
  | none => s
  | some (m, s) =>
    match kvRefusal s m with
    | some st => kvSay m st false false 0 s
    | none =>
      match (kvFind s m).filter (fun k => kwPins (kvWord s k) != 0) with
      | none => kvSay m stViolation false false 0 s
      | some k =>
        let v := kvWord s k
        let w := setFld v 6 10 (kwPins v - 1)
        let s := if kwState v = 2 ∧ kwPins v = 1 then kvEmpty k s else kvSet k w s
        kvSay m stOK true false w s
/-- A sequence freed: pages without pins EMPTY, the others FREEING. -/
def kvFreeWord (s : State) (k : Nat) : State :=
  let v := kvWord s k
  if kwState v = 0 then s else if kwPins v = 0 then kvEmpty k s else kvSet k (setFld v 0 2 2) s
def effKvFreeseq (s : State) : State :=
  match takeMail 4 4 s with
  | none => s
  | some (m, s) =>
    if ctxState s m.ctx ≠ 1 then kvSay m stContextGone false false 0 s
    else
      let rows := (s.svc.kvRow.filter (fun e => e.2.1 == m.ctx && e.2.2.1 == kvSeq m)).map (·.1)
      kvSay m stOK false false 0 ((rows.flatMap (fun r => (List.range 64).map (64 * r + ·))).foldl kvFreeWord s)

/-- KV_ALLOC (R346). -/
def execKvAlloc (s : State) : Host.Outcome State Fault Refusal :=
  unit (true) s (effKvAlloc s)

/-- KV_LOOKUP (R347). -/
def execKvLookup (s : State) : Host.Outcome State Fault Refusal :=
  unit (true) s (effKvLookup s)

/-- KV_LOOKUP_WAIT_END (R347). -/
def execKvLookupWaitEnd (s : State) : Host.Outcome State Fault Refusal :=
  unit (true) s (effKvLookupWaitEnd s)

/-- KV_UNPIN (R347). -/
def execKvUnpin (s : State) : Host.Outcome State Fault Refusal :=
  unit (true) s (effKvUnpin s)

/-- KV_FREESEQ (R345). -/
def execKvFreeseq (s : State) : Host.Outcome State Fault Refusal :=
  unit (true) s (effKvFreeseq s)


end Sys2Proof.Machine
end

