-- ==== Sys2Proof/Machine/Lease.lean ====
section
/-!
DEFINITION. Meanings of the lease manager's requests and of its scan and scrubs (R153-R157, R349-R351; request layouts and other choices: log 49).
-/
namespace Sys2Proof.Machine

/-! ### The free map (R349, R351) -/

/-- A run of pages in the free map at its place, joined with the runs it touches. -/
def addRun (node base n : Nat) : List (Nat × Nat × Nat) → List (Nat × Nat × Nat)
  | [] => [(node, base, n)]
  | (m, b, k) :: rest =>
    if m = node ∧ b + k = base then addRun node b (k + n) rest
    else if m = node ∧ base + n = b then (node, base, n + k) :: rest
    else if node < m ∨ (m = node ∧ base < b) then (node, base, n) :: (m, b, k) :: rest
    else (m, b, k) :: addRun node base n rest
/-- A run meets one in the map. -/
def runMeets (l : List (Nat × Nat × Nat)) (node base n : Nat) : Bool := l.any (fun (r : Nat × Nat × Nat) => r.1 == node && rangesMeet base n r.2.1 r.2.2)
/-- Pages taken from a run of the map. -/
def takeRun (node base n : Nat) (l : List (Nat × Nat × Nat)) : List (Nat × Nat × Nat) :=
  l.flatMap (fun (r : Nat × Nat × Nat) =>
    if r.1 = node ∧ r.2.1 ≤ base ∧ base + n ≤ r.2.1 + r.2.2 then
      (if r.2.1 < base then [(node, r.2.1, base - r.2.1)] else [])
        ++ (if base + n < r.2.1 + r.2.2 then [(node, base + n, r.2.1 + r.2.2 - (base + n))] else [])
    else [r])
def setFree (l : List (Nat × Nat × Nat)) (s : State) : State := { s with svc := { s.svc with freeMap := l } }
/-- REGISTER: in context 0, pages that the map and no extent has. -/
def effLeaseRegister (s : State) : State :=
  match takeMail 6 1 s with
  | none => s
  | some (m, s) =>
    let node := byteAt m.data 2 2
    let base := byteAt m.data 4 4
    let n := byteAt m.data 8 4
    let held := (listedExtents s).any (fun e => let v := extent s e; exState v != 0 && exNode v == node && rangesMeet base n (exBase v) (exSize v))
    if cmdUnknown m ∨ m.ctx ≠ 0 ∨ n = 0 ∨ 2 ^ 32 < base + n ∨ 16384 ≤ node ∨ runMeets s.svc.freeMap node base n ∨ held then svcStatus m stViolation s
    else svcStatus m stOK (setFree (addRun node base n s.svc.freeMap) s)

/-! ### GRANT (R153, R349, R350) -/

/-- The first run of the map on a node, or with 0xFFFF on any, that has room. -/
def fitRun (s : State) (node n : Nat) : Option (Nat × Nat) :=
  (s.svc.freeMap.find? (fun (r : Nat × Nat × Nat) => (node == 0xFFFF || r.1 == node) && decide (n ≤ r.2.2))).map (fun r => (r.1, r.2.1))
/-- The entries of a grant: the extent ACTIVE with its lease begun, and its range entry for every source of its owner. -/
def grantEntries (s : State) (d : List Byte) (e i node base : Nat) : List (Nat × Nat × Nat) :=
  let lease := byteAt d 16 2
  let v := fld (byteAt d 8 2) 0 10 + 2 ^ 10 * node + 2 ^ 24 * base + 2 ^ 56 * byteAt d 4 4 + 2 ^ 88 + 2 ^ 91 * fld (byteAt d 12 1) 0 2
    + 2 ^ 93 * fld (byteAt d 13 1) 0 1 + 2 ^ 94 * fld (byteAt d 14 2) 0 12 + 2 ^ 106 + 2 ^ 107 * fld (byteAt d 10 2) 0 14
    + 2 ^ 128 * ((now s + 1000000 * lease) % 2 ^ 64) + 2 ^ 212 * lease + 2 ^ 228 * byteAt d 18 2
  [(0x0013, e, v), (0x0012, i, fld (byteAt d 8 2) 0 10 + 2 ^ 24 + 2 ^ 25 * 3 + 2 ^ 27 * e)]
/-- A peer's lease manager puts an extent of its own here: installed without a lease, SCRUBBING, or FREE without range entries; or it asks, as the anchor of a context, for the closing group of this module, or reports that every module has flipped (log 49). -/
def effLeasePeer (m : Mail) (s : State) : State :=
  let d := m.data
  let e := byteAt d 56 2
  let c := fld (byteAt d 2 2) 0 10
  if byteAt d 1 1 = 5 then svcStatus m stOK (noteReport c m.src s)
  else
  let grp := match byteAt d 1 1 with
    | 1 => (match (freeRanges s 1).head? with
      | some i => if exState (extent s e) = 0 then some ((grantEntries s d e i (byteAt d 2 2) (byteAt d 60 4)).map (fun (x : Nat × Nat × Nat) =>
          if x.1 = 0x0013 then (x.1, x.2.1, setFld (setFld x.2.2 106 1 0) 128 64 0) else x)) else none
      | none => none)
    | 2 => if exLeased (extent s e) then none else some [extIn s e 4]
    | 3 => if exLeased (extent s e) then none else some (extIn s e 0 :: (extRanges s e).map (fun i => (0x0012, i, 0)))
    | 4 => if bit (entry s 0x0030 c) 3 then none else some (closingEntries s c)
    | _ => none
  match grp with
  | none => svcStatus m stViolation s
  | some l =>
    let r := serviceCommit (leaseThread s) (groupOf l) s
    svcStatus m r.1 r.2
/-- The other modules that hold an extent are told its later state. -/
def tellState (e form : Nat) (s : State) : State :=
  (mget {} e s.svc.holds).mods.foldl (fun s n => leaseRequest e n (padTo 64 (natBytes 1 2 ++ natBytes 1 form ++ List.replicate 54 0 ++ natBytes 2 e)) s) s
/-- The modules of a GRANT's list install the extent. -/
def installAt (m : Mail) (e node base : Nat) (mods : List Nat) (s : State) : State :=
  let d := natBytes 1 2 ++ natBytes 1 1 ++ natBytes 2 node ++ ((padTo 56 m.data).take 56).drop 4 ++ natBytes 2 e ++ natBytes 2 0 ++ natBytes 4 base
  settleGrant e (mods.foldl (fun s n => leaseRequest e n d s)
    (modHold e (fun _ => { mods := mods, uninstalled := mods, grant := some m, node := node, base := base }) s))
def effLeaseGrant (s : State) : State :=
  match takeMail 6 2 s with
  | none => s
  | some (m, s) =>
    let d := m.data
    let n := byteAt d 4 4
    let k := byteAt d 20 1
    if m.ctx = 0 ∧ byteAt d 1 1 ≠ 0 then effLeasePeer m s
    else if 16 < k then svcStatus m stViolation s
    else if (m.ctx ≠ 0 ∧ m.ctx ≠ byteAt d 8 2) ∨ n = 0 ∨ 1024 ≤ byteAt d 8 2 ∨ 16384 ≤ byteAt d 10 2 then svcStatus m stViolation s
    else match fitRun s (byteAt d 2 2) n, leastBelow 65536 (fun e => exState (extent s e) == 0), (freeRanges s 1).head? with
      | some (node, base), some e, some i =>
        let r := serviceCommit (leaseThread s) (groupOf (grantEntries s d e i node base)) s
        if r.1 = stOK then
          installAt m e node base (distinct (((List.range k).map (fun i => byteAt d (24 + 2 * i) 2)).filter (· != s.boot.node)))
            (setFree (takeRun node base n r.2.svc.freeMap) r.2)
        else svcStatus m r.1 s
      | _, _, _ => svcStatus m stViolation s

/-! ### RENEW and RENEW_ALL (R157, R261) -/

/-- An extent renewed for the node that asks. -/
def renewOne (src e : Nat) (s : State) : Nat × State :=
  let v := extent s e
  if !exLeased v || exHolder v != src then (stViolation, s)
  else if exState v ≠ 1 ∧ exState v ≠ 2 then (stRevoked, s)
  else if (mfind? (tkey 0x0013 e) (s.thread (leaseThread s)).group).any (fun g => exState g == 3) then (stRevoked, s)
  else if stagedElsewhere s (leaseThread s) (tkey 0x0013 e) then (stBusy, s)
  else (stOK, applyGroup [(tkey 0x0013 e, setFld (setFld v 88 3 1) 128 64 (now s + exLease v))] (leaseDie s) false s)
/-- Extents renewed in order: those renewed, and the first refused with its status. -/
def renewList (src : Nat) (l : List Nat) (s : State) : Nat × Nat × Option (Nat × Nat) × State :=
  l.foldl (fun (a : Nat × Nat × Option (Nat × Nat) × State) e =>
    let r := renewOne src e a.2.2.2
    if r.1 = stOK then (a.1 + 1, a.2.1, a.2.2.1, r.2) else (a.1, a.2.1 + 1, (match a.2.2.1 with
      | none => some (e, r.1)
      | x => x), a.2.2.2)) (0, 0, none, s)
def effLeaseRenew (s : State) : State :=
  match takeMail 6 3 s with
  | none => s
  | some (m, s) =>
    let n := byteAt m.data 2 2
    if 30 < n ∨ n = 0 then svcStatus m stViolation s
    else
      let r := renewList m.src ((List.range n).map (fun i => byteAt m.data (4 + 2 * i) 2)) s
      let bad := r.2.2.1.getD (0xFFFFFFFF, stOK)
      svcComplete m (natBytes 4 bad.2 ++ natBytes 4 r.1 ++ natBytes 4 bad.1 ++ natBytes 4 bad.2) r.2.2.2
def effLeaseRenewAll (s : State) : State :=
  match takeMail 6 4 s with
  | none => s
  | some (m, s) =>
    let r := renewList m.src ((listedExtents s).filter (fun e => let v := extent s e; exState v != 0 && exLeased v && exHolder v == m.src)) s
    svcComplete m (natBytes 4 (r.2.2.1.map (·.2) |>.getD stOK) ++ natBytes 4 r.1 ++ natBytes 4 r.2.1) r.2.2.2

/-- The module renews the leases that it manages of its own backing extents (R155, R392; log 56). -/
def effBackingLeaseRenew (s : State) : State :=
  (renewList s.boot.node ((listedExtents s).filter (fun e => isBacking s (extent s e) && exLeased (extent s e))) s).2.2.2

/-! ### RELEASE and REVOKE (R156, R349) -/

/-- An extent that serves is committed REVOKING, on every module that holds it; another is on its way already (R157). -/
def revokeOne (e : Nat) (s : State) : Nat × State :=
  let v := extent s e
  if exState v = 1 ∨ exState v = 2 then
    let r := serviceCommit (leaseThread s) (groupOf [extIn s e 3]) s
    (r.1, if r.1 = stOK then tellHolders e r.2 else r.2)
  else (stRevoked, s)
def effLeaseRelease (s : State) : State :=
  match takeMail 6 5 s with
  | none => s
  | some (m, s) =>
    let e := byteAt m.data 2 2
    if exState (extent s e) = 0 ∨ exHolder (extent s e) ≠ m.src then svcStatus m stViolation s
    else
      let r := revokeOne e s
      svcStatus m r.1 r.2
def effLeaseRevoke (s : State) : State :=
  match takeMail 6 6 s with
  | none => s
  | some (m, s) =>
    let e := byteAt m.data 2 2
    if exState (extent s e) = 0 ∨ (m.ctx ≠ 0 ∧ m.ctx ≠ exOwner (extent s e)) then svcStatus m stViolation s
    else
      let r := revokeOne e s
      -- a peer that manages the lease has its answer behind the drain here (R351)
      if m.ctx = 0 ∧ !exLeased (extent s e) ∧ exState (extent r.2 e) = 3 ∧ !r.2.mf.drained.contains e then
        { r.2 with svc := { r.2.svc with drainWait := r.2.svc.drainWait ++ [(e, m)] } }
      else svcStatus m r.1 r.2

/-! ### Scan and scrub (R155, R350, R351) -/

/-- The scan over every extent timed here: GRACE at LEASE_END, revocation behind the grace. -/
def effLeaseScan (s : State) : State :=
  let s := { s with chv := { s.chv with lscanAt := now s, stallRaised := false } }
  ((listedExtents s).filter (fun e => exLeased (extent s e))).foldl (fun s e => lapseLease e (expireLease e s)) s
/-- Behind the drain on every module that holds it the extent is SCRUBBING, unless its owner is closing and not SCRUBBING yet; its scrub begins with a scrub slot. -/
def effScrubStart (ext : Nat) (s : State) : State :=
  let v := extent s ext
  let c := exOwner v
  if exState v = 3 ∧ s.mf.drained.contains ext ∧ (mget {} ext s.svc.holds).undrained.isEmpty ∧ (ctxState s c = 3 ∨ ctxState s c ≠ 2) then
    let r := serviceCommit (leaseThread s) (groupOf (scrubbingEntries s [ext])) s
    if r.1 = stOK then tellState ext 2 (beginScrub r.2 ext) else s
  else beginScrub s ext
/-- Behind the scrub the extent is FREE without range entries, its pages are in the free map, and the last extent of a SCRUBBING context frees the context. -/
def effScrubComplete (ext : Nat) (s : State) : State :=
  let v := extent s ext
  let c := exOwner v
  let n := fld (mget 0 ext s.svc.scrubs) 0 13
  if exState v ≠ 4 ∨ !exLeased v ∨ !scrubDone s ext then s
  else
    let r := serviceCommit (leaseThread s) (groupOf (extIn s ext 0 :: (extRanges s ext).map (fun i => (0x0012, i, 0)))) s
    if r.1 ≠ stOK then s
    else
      let s := tellState ext 3 (setFree (addRun (exNode v) (exBase v) (exSize v) r.2.svc.freeMap) r.2)
      let s := { s with svc := { s.svc with holds := mdel ext s.svc.holds } }
      match mfind? c s.cx.removals with
      | some x => freeContext c { s with cx := { s.cx with removals := mput c { x with pages := x.pages + exSize v } s.cx.removals } }
      | none => destroySlot n s

/-- BACKING_LEASE_RENEW (R392). -/
def execBackingLeaseRenew (s : State) : Host.Outcome State Fault Refusal :=
  unit (true) s (effBackingLeaseRenew s)

/-- LEASE_REGISTER (R349). -/
def execLeaseRegister (s : State) : Host.Outcome State Fault Refusal :=
  unit (true) s (effLeaseRegister s)

/-- LEASE_GRANT (R350). -/
def execLeaseGrant (s : State) : Host.Outcome State Fault Refusal :=
  unit (true) s (effLeaseGrant s)

/-- LEASE_RENEW (R349). -/
def execLeaseRenew (s : State) : Host.Outcome State Fault Refusal :=
  unit (true) s (effLeaseRenew s)

/-- LEASE_RENEW_ALL (R349). -/
def execLeaseRenewAll (s : State) : Host.Outcome State Fault Refusal :=
  unit (true) s (effLeaseRenewAll s)

/-- LEASE_RELEASE (R349). -/
def execLeaseRelease (s : State) : Host.Outcome State Fault Refusal :=
  unit (true) s (effLeaseRelease s)

/-- LEASE_REVOKE (R349). -/
def execLeaseRevoke (s : State) : Host.Outcome State Fault Refusal :=
  unit (true) s (effLeaseRevoke s)

/-- LEASE_SCAN (R350). -/
def execLeaseScan (s : State) : Host.Outcome State Fault Refusal :=
  unit (true) s (effLeaseScan s)

/-- SCRUB_START (R351). -/
def execScrubStart (ext : Nat) (s : State) : Host.Outcome State Fault Refusal :=
  unit (isExt ext) s (effScrubStart ext s)

/-- SCRUB_COMPLETE (R351). -/
def execScrubComplete (ext : Nat) (s : State) : Host.Outcome State Fault Refusal :=
  unit (isExt ext) s (effScrubComplete ext s)


end Sys2Proof.Machine
end

