-- ==== Sys2Proof/Machine/MapProto.lean ====
section
/-!
DEFINITION. Meanings of the map protocol and of link state (R409-R413, R530, R544, R545; log 57).
-/
namespace Sys2Proof.Machine

/-! ### Messages (Table 15-7) -/

def mmSeq (p : Packet) : Nat := hfld p 132 32
def mmCoord (p : Packet) : Nat := hfld p 164 14
def mmStatus (p : Packet) : Nat := hfld p 178 4
/-- The first message of a type that stands for the map thread, taken with its event. -/
def takeMap (mtype : Nat) (s : State) : Option (Packet × State) :=
  (takeMod (fun x => pOp x.1 == opMAPMSG && mmType x.1 == mtype) s).map (fun r => (r.1.1, mapEvent r.1.1 r.2))
def setChange (c : Change) (s : State) : State := { s with map := { s.map with change := some c } }
/-- FLIP to every module of a change that has not flipped. -/
def sendFlips (c : Change) (s : State) : State :=
  (c.mods.filter (fun m => m != s.boot.node && !c.flipped.contains m && !c.missing.contains m)).foldl (fun s m =>
    mapMessage mapFlip c.mseq s.boot.node 0 m s) s
/-- A change whose modules have all retired, but those that are missing, is complete. -/
def settleChange (s : State) : State :=
  match s.map.change with
  | some c =>
    if c.step = 2 ∧ c.mods.all (fun m => c.missing.contains m || (c.flipped.contains m && c.retired.contains m)) then
      { s with map := { s.map with change := none } }
    else s
  | none => s
/-- Step 2: every module has staged with OK, so FLIP goes out and the coordinator flips. -/
def startFlip (c : Change) (s : State) : State :=
  match flipMap c.mseq s with
  | none => abortChange c s
  | some s =>
    let c := { c with step := 2, flipped := [s.boot.node], flipAt := now s, repeatAt := now s }
    sendFlips c (setChange c { s with map := { s.map with change := some c, retireTo := some (s.boot.node, c.mseq) } })

/-! ### The rows (R413) -/

/-- Every module of the change has staged. -/
def allStaged (c : Change) : Bool := c.mods.all (fun m => c.staged.contains m)
/-- The core is up and stays, the database has stood for 1 ms, the modules have discovered their neighbours, and an aborted change lies 10 ms back (R413, R530, R544). -/
def changeReady (s : State) : Bool :=
  s.boot.coreUp && s.ctl.restartAt.isNone && s.boot.depart == 0 && !floodDue s && passed s s.map.dbAt 1000000
    && (s.tab.mseq != 0 || s.map.db.all (fun e => e.2.discDone)) && (match s.map.abortAt with
      | some t => passed s t 10000000
      | none => true)
/-- No change is under way on this module, and no old bank stands. -/
def changeIdle (s : State) : Bool := s.map.change.isNone && !s.tab.pending && !s.tab.oldLive && s.map.retireTo.isNone
/-- The sequence of the next map: behind the module's own and its neighbours' (log 57). -/
def nextMseq (s : State) : Nat := ((s.ports.map (fun e => e.2.peerMseq)).foldl max s.tab.mseq + 1) % 2 ^ 32
/-- A composition change begins: the coordinator starts it, and every other module stages its group and sends STAGED. -/
def effCompositionChangeStart (s : State) : State :=
  if !changeReady s || !changeIdle s || !changeNeeded s then s
  else
    let k := coordinator s
    let r := stageMap s
    let mseq := nextMseq s
    if k ≠ s.boot.node then
      let t := mapMessage mapStaged mseq k r.1 k r.2
      if r.1 = stOK then t else { t with map := { t.map with abortAt := some (now t) } }
    else if r.1 ≠ stOK then
      let t := dropGroup (mapThread s) r.2
      { t with map := { t.map with abortAt := some (now t) } }
    else
      let c : Change := { mseq := mseq, startAt := now s, mods := fabricMods s, staged := [k] }
      if allStaged c then startFlip c (setChange c r.2) else setChange c r.2
/-- STAGED at the coordinator: with the last one FLIP goes out, a failure aborts the change. -/
def effMapStaged (s : State) : State :=
  match takeMap mapStaged s with
  | none => s
  | some (p, s) =>
    match s.map.change with
    | none => s
    | some c =>
      if c.step ≠ 1 ∨ mmCoord p ≠ s.boot.node then s
      else if mmStatus p ≠ stOK then abortChange c s
      else
        let c := { c with staged := insertSet (pSrc p) c.staged }
        if allStaged c then startFlip c s else setChange c s
/-- FLIP: the epoch group is committed and FLIPPED sent; a module that has flipped to that sequence answers again. -/
def effMapFlip (s : State) : State :=
  match takeMap mapFlip s with
  | none => s
  | some (p, s) =>
    let answer := fun (s : State) => mapMessage mapFlipped (mmSeq p) (mmCoord p) 0 (mmCoord p) s
    match flipMap (mmSeq p) s with
    | some t => answer { t with map := { t.map with retireTo := some (mmCoord p, mmSeq p) } }
    | none => if s.tab.mseq = mmSeq p then answer s else s
/-- FLIPPED at the coordinator. -/
def effMapFlipped (s : State) : State :=
  match takeMap mapFlipped s with
  | none => s
  | some (p, s) =>
    match s.map.change with
    | some c => if c.mseq = mmSeq p then settleChange (setChange { c with flipped := insertSet (pSrc p) c.flipped } s) else s
    | none => s
/-- ABORT: the module aborts its group. -/
def effMapAbort (s : State) : State :=
  match takeMap mapAbort s with
  | none => s
  | some (_, s) =>
    let s := dropGroup (mapThread s) s
    { s with map := { s.map with abortAt := some (now s) } }
/-- RETIRED at the coordinator: the change is complete when all are in. -/
def effMapRetired (s : State) : State :=
  match takeMap mapRetired s with
  | none => s
  | some (p, s) =>
    match s.map.change with
    | some c => if c.mseq = mmSeq p then settleChange (setChange { c with retired := insertSet (pSrc p) c.retired } s) else s
    | none => s
/-- A STAGED is missing at 5 ms. -/
def effMapStageTimeout (s : State) : State :=
  match s.map.change with
  | some c => onlyIf (c.step == 1 && passed s c.startAt 5000000) s (abortChange c s)
  | none => s
/-- FLIP again, every 10 µs, to the modules that have not answered. -/
def effMapFlipRepeat (s : State) : State :=
  match s.map.change with
  | some c => onlyIf (c.step == 2 && passed s c.repeatAt 10000) s (sendFlips c (setChange { c with repeatAt := now s } s))
  | none => s
/-- A module that has not answered within 50 µs is named, and the change completes without it. -/
def effMapPeerMissing (s : State) : State :=
  match s.map.change with
  | some c =>
    let late := c.mods.filter (fun m => !c.flipped.contains m && !c.missing.contains m)
    onlyIf (c.step == 2 && passed s c.flipAt 50000 && !late.isEmpty) s
      (settleChange (late.foldl (fun s m => emit (threadDie (mapThread s)) 0x0A02 3 m c.mseq 0 0 s) (setChange { c with missing := c.missing ++ late } s)))
  | none => s

/-! ### Link state (R530, R544) -/

/-- The own record is flooded when it has changed, at most once in a millisecond. -/
def effLinkStateFlood (s : State) : State :=
  if !s.boot.coreUp || !floodDue s || (s.map.floodAt != 0 && !passed s s.map.floodAt 1000000) then s
  else
    let r := ownRec s (s.map.seq + 1)
    let t := { s with map := { s.map with db := mput r.node r s.map.db, seq := r.seq, floodAt := now s } }
    noteDb s (sendRecord r 384 t)
/-- Two modules have bound one node: both write the record, and the higher-numbered one removes its binding and treats the port as abandoned. -/
def settleDuplicate (r : LinkRec) (s : State) (n : Nat) : State :=
  (edgesOf s n).foldl (fun s p =>
    let s := emit (dieOf p) 0x0F02 2 p 4 0 0 s
    if r.node < s.boot.node then
      (unbindEdge p s).modPort p (fun x => { x with keyed := false, disc := .abandoned, discCause := some 4, discAt := now s })
    else s) s
/-- A record that is newer than the one known, or the first of a module that has lost its count, is kept and forwarded. -/
def effLinkStateRecord (port : Nat) (rec : LinkRec) (s : State) : State :=
  let newer := match mfind? rec.node s.map.db with
    | none => true
    | some r => decide (r.seq < rec.seq) || (rec.seq == 1 && r.seq != 1)
  let changed := match mfind? rec.node s.map.db with
    | none => true
    | some r => decide (({ r with seq := 0 } : LinkRec) ≠ { rec with seq := 0 })
  if !(portExists s port && isTrunk s port && carries (s.port port).st 6) || rec.node == s.boot.node || !newer then s
  else
    let t := sendRecord rec port { s with map := { s.map with db := mput rec.node rec s.map.db } }
    let t := if changed then noteDb s t else t
    rec.edges.foldl (settleDuplicate rec) t

/-- COMPOSITION_CHANGE_START (R530). -/
def execCompositionChangeStart (s : State) : Host.Outcome State Fault Refusal :=
  unit (true) s (effCompositionChangeStart s)

/-- MAP_STAGED (R413). -/
def execMapStaged (s : State) : Host.Outcome State Fault Refusal :=
  unit (true) s (effMapStaged s)

/-- MAP_FLIP (R413). -/
def execMapFlip (s : State) : Host.Outcome State Fault Refusal :=
  unit (true) s (effMapFlip s)

/-- MAP_FLIPPED (R413). -/
def execMapFlipped (s : State) : Host.Outcome State Fault Refusal :=
  unit (true) s (effMapFlipped s)

/-- MAP_ABORT (R413). -/
def execMapAbort (s : State) : Host.Outcome State Fault Refusal :=
  unit (true) s (effMapAbort s)

/-- MAP_RETIRED (R413). -/
def execMapRetired (s : State) : Host.Outcome State Fault Refusal :=
  unit (true) s (effMapRetired s)

/-- MAP_STAGE_TIMEOUT (R413). -/
def execMapStageTimeout (s : State) : Host.Outcome State Fault Refusal :=
  unit (true) s (effMapStageTimeout s)

/-- MAP_FLIP_REPEAT (R413). -/
def execMapFlipRepeat (s : State) : Host.Outcome State Fault Refusal :=
  unit (true) s (effMapFlipRepeat s)

/-- MAP_PEER_MISSING (R413). -/
def execMapPeerMissing (s : State) : Host.Outcome State Fault Refusal :=
  unit (true) s (effMapPeerMissing s)

/-- LINK_STATE_FLOOD (R530). -/
def execLinkStateFlood (s : State) : Host.Outcome State Fault Refusal :=
  unit (true) s (effLinkStateFlood s)

/-- LINK_STATE_RECORD (R530). -/
def execLinkStateRecord (port : Nat) (rec : LinkRec) (s : State) : Host.Outcome State Fault Refusal :=
  unit (isPort port) s (effLinkStateRecord port rec s)


end Sys2Proof.Machine
end

