-- ==== Sys2Proof/Machine/Recording.lean ====
section
/-!
DEFINITION. Meanings of the event recorder's own work, of the I3C target's addresses, and of the board profile written when the board is built (R535, R580, R581, R586, R602; log 62).
-/
namespace Sys2Proof.Machine

/-! ### Archives (R580, R581) -/

/-- Archive areas of a die, those whose stack serves. -/
def areasOf (s : State) (die : Nat) : List Nat :=
  (match die with
    | 0 => [0]
    | 1 => [1]
    | 2 => [4]
    | 3 => [5]
    | 4 => [2]
    | 5 => [6]
    | _ => [3, 7]).filter (fun a => !archiveFailed s a)
/-- Positions of an archive area. -/
def archiveSize : Nat := 8388608
/-- The oldest record that is not in the archive goes there. -/
def archiveOne (die : Nat) (areas : List Nat) (s : State) : State :=
  let d := s.recDie die
  let x := mget {} (ringSize * die + (d.wpos + ringSize - d.uncopied) % ringSize) s.evr.rings
  let s := { s with evr := { s.evr with
    arch := areas.foldl (fun m a => mput (archiveSize * a + d.apos) ⟨lapMark d.alap, x.r⟩ m) s.evr.arch } }
  s.setRecDie die { d with
    uncopied := d.uncopied - 1, apos := (d.apos + 1) % archiveSize, alap := if d.apos + 1 = archiveSize then !d.alap else d.alap }
/-- Stored records of a die go to its archive, unless the recorder is frozen, the core dies are held, or no area of it is readable. -/
def effArchiveCopy (die : Nat) (s : State) : State :=
  let areas := areasOf s die
  if s.evr.frozen || s.boot.held || areas.isEmpty then s
  else
    let s := s.modRecDie die (fun d => { d with uncopied := min ringSize d.uncopied })
    (List.range (s.recDie die).uncopied).foldl (fun s _ => archiveOne die areas s) s
/-- The oldest critical record that waits: stored, or lost when 100 have been stored within a second. -/
def effCriticalArchiveWrite (s : State) : State :=
  match s.evr.critPend with
  | [] => s
  | r :: rest =>
    let times := s.evr.critTimes.filter (fun t => decide (now s < t + 1000000000))
    if 100 ≤ times.length then
      { s with evr := { s.evr with critPend := rest, critTimes := times, nvLost := satAdd 30 s.evr.nvLost 1 } }
    else
      { s with evr := { s.evr with
        critPend := rest, critTimes := times ++ [now s]
        crit := mput s.evr.critPos ⟨lapMark s.evr.critLap, r⟩ s.evr.crit
        critPos := (s.evr.critPos + 1) % 4096
        critLap := if s.evr.critPos + 1 = 4096 then !s.evr.critLap else s.evr.critLap } }
/-- Module time has reached a further whole multiple of 2^36 ns. -/
def effEpoch (s : State) : State :=
  let n := now s / 2 ^ 36
  onlyIf (decide (s.evr.epochs < n)) s
    ((liveDies s).foldl (fun s d => epochRecord d s) { s with evr := { s.evr with epochs := n } })

/-! ### I3C and the board profile (R535, R602) -/

/-- A dynamic address is assigned while the target has none. -/
def takeAddress (addr : Nat) (s : State) : State :=
  onlyIf (s.boot.pwrgd && s.hst.i3cAddr.isNone) s { s with hst := { s.hst with i3cAddr := some addr } }
def effEntdaa (addr : Nat) (s : State) : State := takeAddress addr s
/-- SETDASA names the target by its static address. -/
def effSetdasa (static addr : Nat) (s : State) : State := onlyIf (static == s.hst.i3cStatic) s (takeAddress addr s)
/-- The profile of a board that has none that holds. -/
def effBoardProfileWrite (profile : List Byte) (s : State) : State :=
  onlyIf (s.boot.pwrgd && s.hst.i3cAddr.isSome && !(s.boot.profile.any profileOk)) s
    { s with boot := { s.boot with profile := some profile } }

/-- ARCHIVE_COPY (R580). -/
def execArchiveCopy (die : Nat) (s : State) : Host.Outcome State Fault Refusal :=
  unit (isDie die) s (effArchiveCopy die s)

/-- CRITICAL_ARCHIVE_WRITE (R581). -/
def execCriticalArchiveWrite (s : State) : Host.Outcome State Fault Refusal :=
  unit (true) s (effCriticalArchiveWrite s)

/-- EPOCH (R586). -/
def execEpoch (s : State) : Host.Outcome State Fault Refusal :=
  unit (true) s (effEpoch s)

/-- ENTDAA (R602). -/
def execEntdaa (addr : Nat) (s : State) : Host.Outcome State Fault Refusal :=
  unit (true) s (effEntdaa addr s)

/-- SETDASA (R602). -/
def execSetdasa (static addr : Nat) (s : State) : Host.Outcome State Fault Refusal :=
  unit (true) s (effSetdasa static addr s)

/-- BOARD_PROFILE_WRITE (R535). -/
def execBoardProfileWrite (profile : List Byte) (s : State) : Host.Outcome State Fault Refusal :=
  unit (true) s (effBoardProfileWrite profile s)


end Sys2Proof.Machine
end

