-- ==== Sys2Proof/Machine/Requests.lean ====
section
/-!
DEFINITION. Meanings of the timeout and the retry of the module's own requests (R161-R163).
-/
namespace Sys2Proof.Machine

/-- A tag of the same owner that is free, from the next on. -/
def nextFreeTag (s : State) (tag : Nat) : Option Nat :=
  freeTag s (tagRange tag).1 (tagRange tag).2 (tag - (tagRange tag).1 + 1)
/-- An unanswered tag is held until PATH_BOUND from now (R161). -/
def holdTag (tag : Nat) (s : State) : State :=
  { s with mf := { s.mf with tagHold := mput tag (now s + pathBound s) s.mf.tagHold } }
/-- No response within the context's timeout: a read is tried again at once, a write when PATH_BOUND has passed since it was sent, and with the retries spent the status received last, or TIMEOUT, is the outcome (R163). -/
def effRequestTimeout (tag : Nat) (s : State) : State :=
  match mfind? tag s.mf.own with
  | none => s
  | some r =>
    let c := pCtx r.pkt
    if r.retryAt.isSome || !passed s r.at_ (ownTimeout s c) then s
    else
      let r := { r with lost := true, silent := true }
      if r.tries < ownRetries s c then
        if isMemRead (pOp r.pkt) then
          match nextFreeTag s tag with
          | none => s
          | some new => reissueOwn tag new r (holdTag tag s)
        else { s with mf := { s.mf with own := mput tag { r with retryAt := some (r.at_ + pathBound s) } s.mf.own } }
      else if outcomeRoom s r 0 then finishOwn tag r (r.last.getD stTimeout) {} (holdTag tag s)
      else s
/-- The back-off or PATH_BOUND is over: the retry goes out with a new tag (R161, R163). -/
def effRequestRetry (tag : Nat) (s : State) : State :=
  match mfind? tag s.mf.own with
  | none => s
  | some r =>
    match r.retryAt with
    | none => s
    | some t =>
      if !reached s t then s
      else match nextFreeTag s tag with
        | none => s
        | some new =>
          -- an attempt that went unanswered keeps its tag until PATH_BOUND after the timeout
          let s := if r.silent then
              { s with mf := { s.mf with tagHold := mput tag (r.at_ + ownTimeout s (pCtx r.pkt) + pathBound s) s.mf.tagHold } } else s
          reissueOwn tag new r s

/-- REQUEST_TIMEOUT (R163). -/
def execRequestTimeout (tag : Nat) (s : State) : Host.Outcome State Fault Refusal :=
  unit (decide (tag < 1048576)) s (effRequestTimeout tag s)

/-- REQUEST_RETRY (R163). -/
def execRequestRetry (tag : Nat) (s : State) : Host.Outcome State Fault Refusal :=
  unit (decide (tag < 1048576)) s (effRequestRetry tag s)


end Sys2Proof.Machine
end

