-- ==== Sys2Proof/Machine/Vectors.lean ====
section
/-!
DEFINITION. Shared operations of the vector rows: what FMT, MX, RND, SAT and W allow, lanes and predication, and how results are rounded or quantised and written (R212, R229-R233, R238, R271-R284, R612).
-/
namespace Sys2Proof.Machine

/-! ### What a row allows (R229-R233) -/

/-- Format groups (R229). -/
def fAll (f : Nat) : Bool := decide (f < 14)
def fAny (f : Nat) : Bool := decide (f < 14) || f == 15
def fFp (f : Nat) : Bool := isFp f
def fByte (f : Nat) : Bool := decide (f < 6) || isInt f
/-- The fault of a word's format fields: the reserved code is ILLEGAL, a format or an MX that the row does not allow is FORMAT, and so is RND on a result that is not FP and SAT on one that is not INT. On a maximum, a minimum or a shift, which compute results, an RND or SAT that the format allows may have no effect (logs 38, 68). -/
def formatFault (w : Nat) (ok : Nat → Bool) (mxRow mxFmt : Bool) (rf : Nat) : Option Nat :=
  let f := wFmt w
  if f = 14 then some 4
  else if !ok f then some 5
  else if wMx w && !(mxRow && mxFmt) then some 5
  else if wRnd w && !isFp rf then some 5
  else if wSat w && !isInt rf then some 5
  else none
/-- The fault of the format fields of a row that moves or compares bits: RND and SAT are unused there, so one that R231 and R232 do not answer FORMAT is a reserved encoding (R226). -/
def moveFault (w : Nat) (ok : Nat → Bool) : Option Nat :=
  match formatFault w ok false false (wFmt w) with
  | some c => some c
  | none => if wRnd w || wSat w then some 4 else none
/-- A vector row issues on the running handler of a tile. -/
def onHandler (x : Site) (s : State) (f : Nat → Handler → YOut) : YOut :=
  match x with
  | .tile t => match (s.tile t).run with
    | some h => f t h
    | none => .stall
  | _ => .fault 4
/-- The handler as a row leaves it. -/
def keep (t : Nat) (h : Handler) (s : State) : YOut := .next (modRun t (fun _ => h) s)
def vOf (h : Handler) (i : Nat) : Option Nat := (mfind? i h.v).map (·.toNat)
def pOf (h : Handler) (i : Nat) : Option Nat := (mfind? i h.p).map (·.toNat)
def scaleOf (h : Handler) (i : Nat) : Option Nat := (mfind? i h.scale).map (·.toNat)
def setV (h : Handler) (i v : Nat) : Handler := { h with v := mput i (BitVec.ofNat 1024 v) h.v }
def setP (h : Handler) (i v : Nat) : Handler := { h with p := mput i (BitVec.ofNat 128 v) h.p }
def setScale (h : Handler) (i v : Nat) : Handler := { h with scale := mput i (BitVec.ofNat 64 v) h.scale }
/-- The predicate of a word: none with PEN clear, else that of P; the outer none is an unwritten register (R238). -/
def predOf (h : Handler) (w : Nat) : Option (Option Nat) :=
  if wPen w then (pOf h (wP w)).map some else some none

/-! ### Lanes (R238, R273) -/

/-- A lane is written under a predicate. -/
def laneSel (pm : Option Nat) (lane : Nat) : Bool :=
  match pm with
  | none => true
  | some p => bit p lane
/-- An element is written: the bit of its lowest byte decides. -/
def elemSel (pm : Option Nat) (f i : Nat) : Bool := laneSel pm (elemLane f i)
/-- The lane that governs a byte lane: the lowest of its element or group; bytes 120-127 of an FP6 register are of none. -/
def unitLane (f b : Nat) : Nat :=
  if f = 6 ∨ f = 7 then (if b < 120 then 3 * (b / 3) else b)
  else if f = 8 then b
  else b / (fmtBits f / 8) * (fmtBits f / 8)
/-- Elements that lie in the unit of a lane. -/
def unitElems (f b : Nat) : List Nat :=
  if f = 6 ∨ f = 7 then (if b < 120 then (List.range 4).map (fun k => 4 * (b / 3) + k) else [])
  else if f = 8 then [2 * b, 2 * b + 1]
  else [b / (fmtBits f / 8)]
/-- A register of bytes, each from one of two registers. -/
def pickBytes (sel : Nat → Bool) (a b : Nat) : Nat :=
  bytesNat ((List.range 128).map (fun i => BitVec.ofNat 8 (fld (if sel i then a else b) (8 * i) 8)))
/-- A predicate register of bits. -/
def pickBits (f : Nat → Bool) : Nat := ofBitList ((List.range 128).filter f)
/-- Elements written into a register, the others kept; bytes 120-127 of an FP6 result are zero (R212, R238, R272). -/
def putElems (f old : Nat) (new : SMap Nat) : Nat :=
  ofElems f ((List.range (fmtElems f)).map (fun i => mget (elem f old i) i new))
/-- A register's content for a result that keeps lanes: zero if it is unwritten. -/
def oldV (h : Handler) (i : Nat) : Nat := (vOf h i).getD 0

/-! ### Rounding with draws (R231, R281) -/

/-- One draw of the random source where RND is set. -/
def drawIf (rnd : Bool) (h : Handler) : Option Nat × Handler :=
  if rnd then
    let h := rndStep h
    (some (h.rw >>> 8).toNat, h)
  else (none, h)
/-- A result to be written: its element, its value, and whether it draws. -/
abbrev Res := Nat × Num × Bool
/-- Results written one after the other by a rounding, in ascending element order. -/
def roundList (enc : Option Nat → Num → Nat) (rnd : Bool) : List Res → Handler → SMap Nat × Handler
  | [], h => ([], h)
  | (i, x, d) :: rest, h =>
    let r := drawIf (rnd && d) h
    let z := roundList enc rnd rest r.2
    ((i, enc r.1 x) :: z.1, z.2)
/-- Floating-point results of an unscaled format (R280, R281). -/
def writeFp (f d : Nat) (rnd : Bool) (l : List Res) (h : Handler) : Handler :=
  let z := roundList (fun r x => roundNum f false r x) rnd l h
  setV z.2 d (putElems f (oldV h d) z.1)
/-- One block of an MX destination: quantised by its own scale where all of it is produced or no scale word is written, under the existing scale otherwise (R278, R612). -/
def writeBlock (f : Nat) (rnd full : Bool) (old : Option Nat) (l : List Res) (h : Handler) : Nat × SMap Nat × Handler :=
  let xs := l.map (·.2.1)
  let own := full || old.isNone
  let sc := if own then mxScale f xs else old.getD 127
  let zero := own && (sc == 255 || xs.all (fun x => (numLog x).isNone))
  let enc := fun (r : Option Nat) (x : Num) =>
    if zero then 0
    else if sc = 255 then Config.underNanScale f (roundNum 0 false none x) % 2 ^ fmtBits f
    else mxWrite f sc r x
  let z := roundList enc rnd l h
  (sc, z.1, z.2)
/-- The blocks of an MX destination in order: their elements, their scale bytes. -/
def writeBlocks (f : Nat) (rnd : Bool) (old : Option Nat) (l : List Res) : List Nat → Handler → SMap Nat × List Nat × Handler
  | [], h => ([], [], h)
  | j :: rest, h =>
    let mine := l.filter (fun r => r.1 / 32 == j)
    let prev := old.map (fun o => fld o (8 * j) 8)
    if mine.isEmpty then
      let z := writeBlocks f rnd old l rest h
      (z.1, prev.getD 127 :: z.2.1, z.2.2)
    else
      let b := writeBlock f rnd (mine.length == min 32 (fmtElems f - 32 * j)) prev mine h
      let z := writeBlocks f rnd old l rest b.2.2
      (b.2.1 ++ z.1, b.1 :: z.2.1, z.2.2)
/-- Results of an MX destination with its scale word; unused scale bytes are 0x7F (R276). -/
def writeMx (f d : Nat) (rnd : Bool) (l : List Res) (h : Handler) : Handler :=
  let nb := ceilDiv (fmtElems f) 32
  let z := writeBlocks f rnd (scaleOf h d) l (List.range nb) h
  let word := bytesNat ((z.2.1 ++ List.replicate (8 - nb) 127).map (BitVec.ofNat 8))
  setScale (setV z.2.2 d (putElems f (oldV h d) z.1)) d word
/-- Results written to a register. -/
def writeRes (mx : Bool) (f d : Nat) (rnd : Bool) (l : List Res) (h : Handler) : Handler :=
  if mx then writeMx f d rnd l h else writeFp f d rnd l h
/-- Integer results, wrapped or saturated by the caller. -/
def writeInt (f d : Nat) (l : SMap Nat) (h : Handler) : Handler := setV h d (putElems f (oldV h d) l)
/-- Values of a source register, none where it or its scale word is unwritten (R212, R230, R277). -/
def srcNums (h : Handler) (mx : Bool) (f i : Nat) : Option (List Num) :=
  match vOf h i, (if mx then scaleOf h i else some 0) with
  | some v, some sc =>
    some ((elemsOf f v).mapIdx (fun k w => if mx then mxRead f (fld sc (8 * (k / 32)) 8) w else numOf f w))
  | _, _ => none
/-- Integer values of a source register. -/
def srcInts (h : Handler) (f i : Nat) : Option (List Int) := (vOf h i).map (fun v => (elemsOf f v).map (intOf f))
/-- Elements selected by a predicate. -/
def selected (pm : Option Nat) (f : Nat) : List Nat := (List.range (fmtElems f)).filter (elemSel pm f)

end Sys2Proof.Machine
end

