-- ==== Sys2Proof/Machine/YVector.lean ====
section
/-!
DEFINITION. Meanings of the vector instructions (R241-R243, Table 08-7).
-/
namespace Sys2Proof.Machine

/-! ### Element-wise arithmetic -/

/-- Fields of a three-register row with a format. -/
def fVec (w : Nat) : Nat := fOpc + fFmt + fMode + fD + fA + fB + fPred w
/-- A row vD = f(vA, vB), or f(vA, vB, vD) for VFMA. An MX row with an INT8 result needs SAT (R278). -/
def arith (ok : Nat → Bool) (opN : Num → Num → Num → Num) (opI : Int → Int → Int) (readsD : Bool) (x : Site) (w : Nat) (s : State) : YOut :=
  let f := wFmt w
  match formatFault w ok true (isMx f) f with
  | some c => .fault c
  | none =>
    if wMx w && f == 12 && !wSat w then .fault 5
    else onHandler x s (fun t h =>
      match predOf h w with
      | none => .fault 3
      | some pm =>
        if isInt f && !wMx w then
          match srcInts h f (wA w), srcInts h f (wB w) with
          | some a, some b =>
            keep t (writeInt f (wD w) ((selected pm f).map (fun i => (i, fitInt f (wSat w) (opI (a.getD i 0) (b.getD i 0))))) h) s
          | _, _ => .fault 3
        else
          match srcNums h (wMx w) f (wA w), srcNums h (wMx w) f (wB w), (if readsD then srcNums h (wMx w) f (wD w) else some []) with
          | some a, some b, some c =>
            keep t (writeRes (wMx w) f (wD w) (wRnd w)
              ((selected pm f).map (fun i => (i, opN (a.getD i .nan) (b.getD i .nan) (c.getD i .nan), true))) h) s
          | _, _, _ => .fault 3)
def effVadd (site : Site) (s : State) : State := issue 0x40 onTile fVec (arith fAll (fun a b _ => numAdd a b) (· + ·) false) site s
def effVsub (site : Site) (s : State) : State := issue 0x41 onTile fVec (arith fAll (fun a b _ => numAdd a (numNeg b)) (· - ·) false) site s
def effVmul (site : Site) (s : State) : State := issue 0x42 onTile fVec (arith fAll (fun a b _ => numMul a b) (· * ·) false) site s
def effVfma (site : Site) (s : State) : State :=
  issue 0x43 onTile fVec (fun x w s =>
    arith fFp (fun a b c => numAdd (numMul a b) c) (fun _ _ => 0) true x w s) site s
def effVmax (site : Site) (s : State) : State := issue 0x44 onTile fVec (arith fAll (fun a b _ => numMax a b) max false) site s
def effVmin (site : Site) (s : State) : State := issue 0x45 onTile fVec (arith fAll (fun a b _ => numMin a b) min false) site s

/-! ### Conversion (R243, R279, R283, R284) -/

/-- The pairs of a conversion: destination element, and source element where it exists. -/
def cvtPairs (es ed part : Nat) : List (Nat × Option Nat) :=
  if ed < es then (List.range ed).map (fun j => (j, if part * ed + j < es then some (part * ed + j) else none))
  else ((List.range es).filter (fun i => decide (part * es + i < ed))).map (fun i => (part * es + i, some i))
/-- VCVT. -/
def cvt (x : Site) (w : Nat) (s : State) : YOut :=
  let f := wFmt w
  let g := wB w
  let es := fmtElems g
  let ed := fmtElems f
  let part := wImm w
  if 14 ≤ f ∨ 14 ≤ g ∨ 8 ≤ part ∨ max es ed ≤ part * min es ed then .fault 4
  else match formatFault w fAll true (isMx f || isMx g) f with
    | some c => .fault c
    | none =>
      let smx := wMx w && isMx g
      let dmx := wMx w && isMx f
      if dmx && f == 12 && !wSat w then .fault 5
      else onHandler x s (fun t h =>
        match predOf h w, vOf h (wA w) with
        | some pm, some v =>
          let pairs := (cvtPairs es ed part).filter (fun z => elemSel pm f z.1)
          if isInt f && !dmx then
            if isInt g && !smx then
              keep t (writeInt f (wD w) (pairs.map (fun z => (z.1, match z.2 with
                | some i => fitInt f (wSat w) (intOf g (elem g v i))
                | none => 0))) h) s
            else match srcNums h smx g (wA w) with
              | none => .fault 3
              | some a => keep t (writeInt f (wD w) (pairs.map (fun z => (z.1, match z.2 with
                  | some i => toInt f (wSat w) (a.getD i .nan)
                  | none => 0))) h) s
          else
            match (if isInt g && !smx then some ((elemsOf g v).map (fun e => numInt (intOf g e))) else srcNums h smx g (wA w)) with
            | none => .fault 3
            | some a => keep t (writeRes dmx f (wD w) (wRnd w) (pairs.map (fun z => match z.2 with
                | some i => (z.1, a.getD i .nan, true)
                | none => (z.1, .fin false 0 0, false))) h) s
        | _, _ => .fault 3)
def effVcvt (site : Site) (s : State) : State := issue 0x46 onTile (fun w => fVec w + fImm) cvt site s

/-! ### Bits, shifts, comparison, selection -/

/-- A bitwise row; the unit of predication is the element of its format. -/
def bitwise (op : Nat → Nat → Nat) (x : Site) (w : Nat) (s : State) : YOut :=
  let f := wFmt w
  match moveFault w (fun f => isInt f || f == 15) with
  | some c => .fault c
  | none => onHandler x s (fun t h =>
    match predOf h w, vOf h (wA w), vOf h (wB w) with
    | some pm, some a, some b => keep t (setV h (wD w) (pickBytes (fun l => laneSel pm (unitLane f l)) (op a b) (oldV h (wD w)))) s
    | _, _, _ => .fault 3)
def effVand (site : Site) (s : State) : State := issue 0x47 onTile fVec (bitwise (· &&& ·)) site s
def effVor (site : Site) (s : State) : State := issue 0x48 onTile fVec (bitwise (· ||| ·)) site s
def effVxor (site : Site) (s : State) : State := issue 0x49 onTile fVec (bitwise (· ^^^ ·)) site s
/-- A shift by IMM, which must be below the element width. -/
def shift (op : Int → Nat → Int) (x : Site) (w : Nat) (s : State) : YOut :=
  let f := wFmt w
  if isInt f && decide (fmtBits f ≤ wImm w) then .fault 4
  else match formatFault w isInt false false f with
  | some c => .fault c
  | none => onHandler x s (fun t h =>
      match predOf h w, srcInts h f (wA w) with
      | some pm, some a =>
        keep t (writeInt f (wD w) ((selected pm f).map (fun i => (i, fitInt f (wSat w) (op (a.getD i 0) (wImm w))))) h) s
      | _, _ => .fault 3)
/-- Fields of a shift. -/
def fShift (w : Nat) : Nat := fOpc + fFmt + fMode + fD + fA + fImm + fPred w
def effVshl (site : Site) (s : State) : State := issue 0x4A onTile fShift (shift (fun a k => a * (2 ^ k : Nat))) site s
def effVshr (site : Site) (s : State) : State := issue 0x4B onTile fShift (shift (fun a k => a / (2 ^ k : Nat))) site s
/-- A condition of R242 on an order; none is a comparison with a NaN. -/
def condOk (cc : Nat) (o : Option Ordering) : Bool :=
  match o with
  | none => cc == 1
  | some .eq => cc == 0 || cc == 3 || cc == 5
  | some .lt => cc == 1 || cc == 2 || cc == 3
  | some .gt => cc == 1 || cc == 4 || cc == 5
/-- The order of element i of two registers. -/
def elemCmp (f a b i : Nat) : Option Ordering :=
  if isInt f then some (compare (intOf f (elem f a i)) (intOf f (elem f b i))) else numCmp (numOf f (elem f a i)) (numOf f (elem f b i))
/-- VCMP: the lanes of each unit in which an element satisfies the condition (R242, R273). -/
def compareLanes (x : Site) (w : Nat) (s : State) : YOut :=
  let f := wFmt w
  if 5 < wImm w ∨ !okP (wD w) then .fault 4
  else match moveFault w fAll with
  | some c => .fault c
  | none => onHandler x s (fun t h =>
    match predOf h w, vOf h (wA w), vOf h (wB w) with
    | some pm, some a, some b =>
      let old := (pOf h (wD w)).getD 0
      keep t (setP h (wD w) (pickBits (fun l =>
        if laneSel pm (unitLane f l) then (unitElems f l).any (fun i => condOk (wImm w) (elemCmp f a b i)) else bit old l))) s
    | _, _, _ => .fault 3)
def effVcmp (site : Site) (s : State) : State :=
  issue 0x4C onTile (fun w => fOpc + fFmt + fMode + fD + fA + fB + fImm + fPred w) compareLanes site s
def effVsel (site : Site) (s : State) : State :=
  issue 0x4D onTile (fun _ => fOpc + fFmt + fMode + fD + fA + fB + fP + fPen) (fun x w s =>
    if !wPen w then .fault 4
    else match moveFault w fAny with
      | some c => .fault c
      | none => onHandler x s (fun t h =>
        match vOf h (wA w), vOf h (wB w), pOf h (wP w) with
        | some a, some b, some p => keep t (setV h (wD w) (pickBytes (bit p) a b)) s
        | _, _, _ => .fault 3)) site s
def effVbcast (site : Site) (s : State) : State :=
  issue 0x4E onTile (fun w => fOpc + fFmt + fMode + fD + fA + fPred w) (fun x w s =>
    let f := wFmt w
    if !okS (wA w) then .fault 4
    else match moveFault w fAll with
      | some c => .fault c
      | none => onHandler x s (fun t h =>
        match predOf h w with
        | some pm => keep t (writeInt f (wD w) ((selected pm f).map (fun i => (i, (sreg s x (wA w)).toNat % 2 ^ fmtBits f))) h) s
        | none => .fault 3)) site s

/-! ### Loads and stores (R236-R238) -/

/-- A vector access: WINDOW where it is misaligned or leaves the window, POISON where it reads a poisoned line. -/
def accessFault (s : State) (x : Site) (a n align : Nat) (reads : Bool) : Option Nat :=
  if !memOk s x a n align then some 2 else if reads && readPoison s x a n then some 8 else none
def effVld (site : Site) (s : State) : State :=
  issue 0x4F onTile (fun w => fOpc + fFmt + fMode + fD + fA + fImm + fPred w) (fun x w s =>
    let f := wFmt w
    let a := memAddr s x w
    if !okS (wA w) then .fault 4
    else match moveFault w fAny with
      | some c => .fault c
      | none => onHandler x s (fun t h =>
        match predOf h w with
        | none => .fault 3
        | some pm =>
          match accessFault s x a 128 128 true with
          | some c => .fault c
          | none => keep t (setV h (wD w) (pickBytes (fun l => laneSel pm (unitLane f l)) (bytesNat (readMem s x a 128)) (oldV h (wD w)))) s)) site s
def effVst (site : Site) (s : State) : State :=
  issue 0x50 onTile (fun w => fOpc + fFmt + fMode + fA + fB + fImm + fPred w) (fun x w s =>
    let f := wFmt w
    let a := memAddr s x w
    if !okS (wA w) then .fault 4
    else match moveFault w fAny with
      | some c => .fault c
      | none => onHandler x s (fun t h =>
        match predOf h w, vOf h (wB w) with
        | some pm, some v =>
          match accessFault s x a 128 128 false with
          | some c => .fault c
          | none => .next (writeLine t (((windowOf s t).1 + a) / 128) (natBytes 128 v) (fun l => laneSel pm (unitLane f l)) s)
        | _, _ => .fault 3)) site s
/-- Formats of VLDS and VSTS. -/
def fScale (f : Nat) : Bool := isMx f
def effVlds (site : Site) (s : State) : State :=
  issue 0x51 onTile (fun _ => fOpc + fFmt + fMode + fD + fA + fImm) (fun x w s =>
    let a := memAddr s x w
    if !okS (wA w) then .fault 4
    else match moveFault w fScale with
      | some c => .fault c
      | none => onHandler x s (fun t h =>
        match accessFault s x a 8 8 true with
        | some c => .fault c
        | none => keep t (setScale h (wD w) (bytesNat (readMem s x a 8))) s)) site s
def effVsts (site : Site) (s : State) : State :=
  issue 0x52 onTile (fun _ => fOpc + fFmt + fMode + fA + fB + fImm) (fun x w s =>
    let a := memAddr s x w
    if !okS (wA w) then .fault 4
    else match moveFault w fScale with
      | some c => .fault c
      | none => onHandler x s (fun _ h =>
        match scaleOf h (wB w) with
        | none => .fault 3
        | some v =>
          match accessFault s x a 8 8 false with
          | some c => .fault c
          | none => .next (writeMem x a (natBytes 8 v) s))) site s
/-- PLOG: the predicates an operation reads, and its result; its one format is code 0 (R229, R242). -/
def plog (x : Site) (w : Nat) (s : State) : YOut :=
  let op := wImm w
  if 6 < op ∨ !okP (wD w) ∨ !okP (wA w) ∨ !okP (wB w) ∨ (4 ≤ op ∧ wB w ≠ 0) ∨ (5 ≤ op ∧ wA w ≠ 0) then .fault 4
  else match moveFault w (· == 0) with
  | some c => .fault c
  | none => onHandler x s (fun t h =>
    match predOf h w, (if op ≤ 4 then pOf h (wA w) else some 0), (if op ≤ 3 then pOf h (wB w) else some 0) with
    | some pm, some a, some b =>
      let old := (pOf h (wD w)).getD 0
      keep t (setP h (wD w) (pickBits (fun l =>
        if laneSel pm l then
          let p := bit a l
          let q := bit b l
          if op = 0 then p && q else if op = 1 then p || q else if op = 2 then p != q
          else if op = 3 then p && !q else if op = 4 then !p else op == 5
        else bit old l))) s
    | _, _, _ => .fault 3)
def effPlog (site : Site) (s : State) : State := issue 0x53 onTile (fun w => fOpc + fFmt + fMode + fD + fA + fB + fImm + fPred w) plog site s

/-! ### Meanings -/

/-- VADD (R241). -/
def execVadd (site : Site) (s : State) : Host.Outcome State Fault Refusal :=
  unit (isSite site) s (effVadd site s)

/-- VSUB (R241). -/
def execVsub (site : Site) (s : State) : Host.Outcome State Fault Refusal :=
  unit (isSite site) s (effVsub site s)

/-- VMUL (R241). -/
def execVmul (site : Site) (s : State) : Host.Outcome State Fault Refusal :=
  unit (isSite site) s (effVmul site s)

/-- VFMA (R241). -/
def execVfma (site : Site) (s : State) : Host.Outcome State Fault Refusal :=
  unit (isSite site) s (effVfma site s)

/-- VMAX (R270). -/
def execVmax (site : Site) (s : State) : Host.Outcome State Fault Refusal :=
  unit (isSite site) s (effVmax site s)

/-- VMIN (R270). -/
def execVmin (site : Site) (s : State) : Host.Outcome State Fault Refusal :=
  unit (isSite site) s (effVmin site s)

/-- VCVT (R243). -/
def execVcvt (site : Site) (s : State) : Host.Outcome State Fault Refusal :=
  unit (isSite site) s (effVcvt site s)

/-- VAND (R241). -/
def execVand (site : Site) (s : State) : Host.Outcome State Fault Refusal :=
  unit (isSite site) s (effVand site s)

/-- VOR (R241). -/
def execVor (site : Site) (s : State) : Host.Outcome State Fault Refusal :=
  unit (isSite site) s (effVor site s)

/-- VXOR (R241). -/
def execVxor (site : Site) (s : State) : Host.Outcome State Fault Refusal :=
  unit (isSite site) s (effVxor site s)

/-- VSHL (R241). -/
def execVshl (site : Site) (s : State) : Host.Outcome State Fault Refusal :=
  unit (isSite site) s (effVshl site s)

/-- VSHR (R241). -/
def execVshr (site : Site) (s : State) : Host.Outcome State Fault Refusal :=
  unit (isSite site) s (effVshr site s)

/-- VCMP (R242). -/
def execVcmp (site : Site) (s : State) : Host.Outcome State Fault Refusal :=
  unit (isSite site) s (effVcmp site s)

/-- VSEL (R238). -/
def execVsel (site : Site) (s : State) : Host.Outcome State Fault Refusal :=
  unit (isSite site) s (effVsel site s)

/-- VBCAST (R241). -/
def execVbcast (site : Site) (s : State) : Host.Outcome State Fault Refusal :=
  unit (isSite site) s (effVbcast site s)

/-- VLD (R241). -/
def execVld (site : Site) (s : State) : Host.Outcome State Fault Refusal :=
  unit (isSite site) s (effVld site s)

/-- VST (R241). -/
def execVst (site : Site) (s : State) : Host.Outcome State Fault Refusal :=
  unit (isSite site) s (effVst site s)

/-- VLDS (R241). -/
def execVlds (site : Site) (s : State) : Host.Outcome State Fault Refusal :=
  unit (isSite site) s (effVlds site s)

/-- VSTS (R241). -/
def execVsts (site : Site) (s : State) : Host.Outcome State Fault Refusal :=
  unit (isSite site) s (effVsts site s)

/-- PLOG (R242). -/
def execPlog (site : Site) (s : State) : Host.Outcome State Fault Refusal :=
  unit (isSite site) s (effPlog site s)


end Sys2Proof.Machine
end

