-- ==== Sys2Proof/Machine/YReduce.lean ====
section
/-!
DEFINITION. Meanings of the reduce-into and sparse instructions (R244-R247, R285, R286, Tables 08-4, 08-8 and 08-9).
-/
namespace Sys2Proof.Machine

/-! ### Accumulators (Table 08-4) -/

/-- A line of the accumulator as a register. -/
def accLine (s : State) (x : Site) (a j : Nat) : Nat := bytesNat (readMem s x (a + 128 * j) 128)
/-- The accumulator line is unwritten (R213). -/
def accFresh (s : State) (t a j : Nat) : Bool := !(s.tile t).valid.contains (((windowOf s t).1 + a) / 128 + j)
/-- Accumulator lines written, as far as its bytes reach. -/
def putLines (t a bytes : Nat) (lines : List Nat) (s : State) : State :=
  (lines.mapIdx (fun j v => (j, v))).foldl (fun s z =>
    writeLine t (((windowOf s t).1 + a) / 128 + z.1) (natBytes 128 z.2) (fun i => decide (128 * z.1 + i < bytes)) s) s
/-- New elements put into the accumulator, and its lines written (R244). -/
def storeAcc (x : Site) (t a f af : Nat) (new : SMap Nat) (h : Handler) (s : State) : YOut :=
  let per := fmtElems af
  let lines := (List.range (accLines f af)).map (fun j =>
    ofElems af ((List.range per).map (fun k => mget (elem af (accLine s x a j) k) (per * j + k) new)))
  .next (modRun t (fun _ => h) (putLines t a (128 * lines.length) lines s))
/-- Operand i of the accumulator. -/
def accElem (s : State) (x : Site) (a af i : Nat) : Nat := elem af (accLine s x a (i / fmtElems af)) (i % fmtElems af)
/-- A reduction of floating-point or MX values, each element rounded once (R285). -/
def reduceFp (op : Num → Num → Num) (first : Num → Num) (x : Site) (w af : Nat) (pm : Option Nat) (v : List Num) (t : Nat) (h : Handler) (s : State) : YOut :=
  let f := wFmt w
  let a := memAddr s x w
  let l : List Res := (selected pm f).map (fun i =>
    (i, if accFresh s t a (i / fmtElems af) then first (v.getD i .nan) else op (numOf af (accElem s x a af i)) (v.getD i .nan), true))
  let z := roundList (fun r y => roundNum af false r y) (wRnd w) l h
  storeAcc x t a f af z.1 z.2 s
/-- A reduction of integers (R275). -/
def reduceInt (op : Int → Int → Int) (x : Site) (w af : Nat) (pm : Option Nat) (v : List Int) (t : Nat) (h : Handler) (s : State) : YOut :=
  let f := wFmt w
  let a := memAddr s x w
  let new : SMap Nat := (selected pm f).map (fun i =>
    (i, fitInt af (wSat w) (if accFresh s t a (i / fmtElems af) then v.getD i 0 else op (intOf af (accElem s x a af i)) (v.getD i 0))))
  storeAcc x t a f af new h s
/-- An integer operator on the bits of the accumulator format. -/
def onBits (op : Nat → Nat → Nat) (af : Nat) (a b : Int) : Int := intOf af (op (intBits (fmtBits af) a) (intBits (fmtBits af) b))
/-- Fields of a reduce-into row. -/
def fAcc (w : Nat) : Nat := fOpc + fFmt + fMode + fD + fA + fB + fImm + fPred w
/-- VRED. -/
def vred (x : Site) (w : Nat) (s : State) : YOut :=
  let f := wFmt w
  let rop := wD w
  if 4 < rop ∨ !okS (wA w) then .fault 4
  else match formatFault w (fun f => fAll f && (decide (rop < 3) || isInt f)) (rop < 3) (isMx f) ((accFmt f (wWide w) (wMx w)).getD f) with
    | some c => .fault c
    | none =>
      match accFmt f (wWide w) (wMx w) with
      | none => .fault 5
      | some af => onHandler x s (fun t h =>
        match predOf h w with
        | none => .fault 3
        | some pm =>
          let acc := accessFault s x (memAddr s x w) (128 * accLines f af) 128 true
          if isInt f && !wMx w then
            match srcInts h f (wB w), acc with
            | none, _ => .fault 3
            | _, some c => .fault c
            | some v, none =>
              reduceInt (if rop = 0 then (· + ·) else if rop = 1 then max else if rop = 2 then min
                else if rop = 3 then onBits (· &&& ·) af else onBits (· ||| ·) af) x w af pm v t h s
          else
            match srcNums h (wMx w) f (wB w), acc with
            | none, _ => .fault 3
            | _, some c => .fault c
            | some v, none => reduceFp (if rop = 0 then numAdd else if rop = 1 then numMax else numMin) id x w af pm v t h s)
def effVred (site : Site) (s : State) : State := issue 0x60 onTile (fun w => fAcc w + fW) vred site s
/-- VWSUM: the weight is FP32, or FP64 for FP64 operands; W is required for operands of 16 bits or less. -/
def vwsum (x : Site) (w : Nat) (s : State) : YOut :=
  let f := wFmt w
  if !okS (wA w) || !okS (wD w) then .fault 4
  else match formatFault w fFp true (isMx f) ((accFmt f (wWide w) (wMx w)).getD f) with
    | some c => .fault c
    | none =>
      match (if fmtBits f ≤ 16 ∧ !wWide w then none else accFmt f (wWide w) (wMx w)) with
      | none => .fault 5
      | some af => onHandler x s (fun t h =>
        match predOf h w, srcNums h (wMx w) f (wB w) with
        | some pm, some v =>
          match accessFault s x (memAddr s x w) (128 * accLines f af) 128 true with
          | some c => .fault c
          | none =>
            let g := (sreg s x (wD w)).toNat
            let k := if f = 0 then numOf 0 g else numOf 1 (g % 2 ^ 32)
            reduceFp (fun a b => numAdd a (numMul k b)) (numMul k) x w af pm v t h s
        | _, _ => .fault 3)
def effVwsum (site : Site) (s : State) : State := issue 0x62 onTile (fun w => fAcc w + fW) vwsum site s

/-! ### VMAXL (R245) -/

/-- How an operand stands to an accumulator value: a NaN never replaces, and a number replaces a NaN. -/
def maxlCmp (f b a : Nat) : Ordering :=
  if isInt f then compare (intOf f b) (intOf f a)
  else match numOf f b, numOf f a with
    | .nan, _ => .lt
    | _, .nan => .gt
    | p, q => (numCmp p q).getD .lt
/-- A NaN element as the canonical NaN of its format (R269). -/
def canonElem (f v : Nat) : Nat := if !isInt f && numOf f v == .nan then canonNan f else v
/-- Value and index of one element: taken where the operand is greater or the line is unwritten, the smaller index kept at equality; a NaN is kept as the canonical one. -/
def maxlElem (f : Nat) (fresh : Bool) (b a ix old : Nat) : Nat × Nat :=
  if fresh then (canonElem f b, ix)
  else match maxlCmp f b a with
    | .lt => (canonElem f a, old)
    | .eq => (canonElem f a, min ix old)
    | .gt => (canonElem f b, ix)
/-- Draws taken and discarded. -/
def discard (n : Nat) (h : Handler) : Handler := (List.range n).foldl (fun h _ => rndStep h) h
/-- VMAXL: one line of values, then the lines of 32-bit indices. -/
def vmaxl (x : Site) (w : Nat) (s : State) : YOut :=
  let f := wFmt w
  if !okS (wA w) || !okS (wD w) then .fault 4
  else match formatFault w fAll false false f with
    | some c => .fault c
    | none => onHandler x s (fun t h =>
      match predOf h w, vOf h (wB w) with
      | some pm, some v =>
        let a := memAddr s x w
        let n := ceilDiv (fmtElems f) 32
        let fresh := accFresh s t a 0
        if !memOk s x a (128 * (n + 1)) 128 then .fault 2
        else if readPoison s x a (if fresh then 128 else 128 * (n + 1)) then .fault 8
        else
          let ix := (sreg s x (wD w)).toNat % 2 ^ 32
          let old := accLine s x a 0
          let idx := fun (i : Nat) => if fresh then 0 else fld (accLine s x a (1 + i / 32)) (32 * (i % 32)) 32
          let new := (List.range (fmtElems f)).map (fun i =>
            if elemSel pm f i then maxlElem f fresh (elem f v i) (elem f old i) ix (idx i) else (elem f old i, idx i))
          let lines := ofElems f (new.map (·.1)) :: (chunksOf 32 n (new.map (·.2))).map (ofElems 10)
          let h := if wRnd w then discard (selected pm f).length h else h
          .next (modRun t (fun _ => h) (putLines t a (128 + 4 * fmtElems f) lines s))
      | _, _ => .fault 3)
def effVmaxl (site : Site) (s : State) : State := issue 0x61 onTile fAcc vmaxl site s

/-! ### Sparse rows (R246, R247, R274) -/

/-- VCMPZ: the non-zero elements packed, their bitmap and count. -/
def vcmpz (x : Site) (w : Nat) (s : State) : YOut :=
  let f := wFmt w
  if !okS (wB w) then .fault 4
  else match moveFault w fByte with
    | some c => .fault c
    | none => onHandler x s (fun t h =>
      match vOf h (wA w) with
      | none => .fault 3
      | some v =>
        let hit := (List.range (fmtElems f)).filter (fun i => elem f v i != 0)
        .next (setS x (wB w) (BitVec.ofNat 64 hit.length)
          (modRun t (fun _ => setP (setV h (wD w) (ofElems f (hit.map (elem f v)))) (wP w) (ofBitList hit)) s)))
def effVcmpz (site : Site) (s : State) : State := issue 0x68 onTile (fun _ => fOpc + fFmt + fMode + fD + fA + fB + fP) vcmpz site s
/-- Packed elements spread to the set bits of a bitmap. -/
def spread (p : Nat) : List Nat → List Nat → List Nat
  | [], _ => []
  | i :: rest, src => if bit p i then src.headD 0 :: spread p rest src.tail else 0 :: spread p rest src
def vexp (x : Site) (w : Nat) (s : State) : YOut :=
  let f := wFmt w
  match moveFault w fByte with
  | some c => .fault c
  | none => onHandler x s (fun t h =>
    match vOf h (wA w), pOf h (wP w) with
    | some v, some p => keep t (setV h (wD w) (ofElems f (spread p (List.range (fmtElems f)) (elemsOf f v)))) s
    | _, _ => .fault 3)
def effVexp (site : Site) (s : State) : State := issue 0x69 onTile (fun _ => fOpc + fFmt + fMode + fD + fA + fP) vexp site s
/-- Element i ranks before element j: greater value, numbers before NaNs, then the lower index. -/
def ranksBefore (f v i j : Nat) : Bool :=
  let n := fun (k : Nat) => !isInt f && numOf f (elem f v k) == .nan
  if n i then n j && decide (i < j)
  else if n j then true
  else match (if isInt f then some (compare (intOf f (elem f v i)) (intOf f (elem f v j))) else numCmp (numOf f (elem f v i)) (numOf f (elem f v j))) with
    | some .gt => true
    | some .eq => decide (i < j)
    | _ => false
/-- An element put into a list in order of rank. -/
def rankInsert (f v i : Nat) : List Nat → List Nat
  | [] => [i]
  | j :: rest => if ranksBefore f v i j then i :: j :: rest else j :: rankInsert f v i rest
/-- VTOPK: the indices of the k largest elements, the unused slots 0xFFFF, and their bitmap. -/
def vtopk (x : Site) (w : Nat) (s : State) : YOut :=
  let f := wFmt w
  let k := wImm w
  if k = 0 ∨ 64 < k then .fault 4
  else match moveFault w fAll with
    | some c => .fault c
    | none => onHandler x s (fun t h =>
      match vOf h (wA w) with
      | none => .fault 3
      | some v =>
        let top := ((List.range (fmtElems f)).foldl (fun l i => (rankInsert f v i l).take k) []).take k
        keep t (setP (setV h (wD w) (ofElems 11 (top ++ List.replicate (64 - top.length) 0xFFFF))) (wP w)
          (ofBitList (top.filter (fun i => decide (i < 128))))) s)
def effVtopk (site : Site) (s : State) : State := issue 0x6A onTile (fun _ => fOpc + fFmt + fMode + fD + fA + fP + fImm) vtopk site s

/-! ### Meanings -/

/-- VRED (R244). -/
def execVred (site : Site) (s : State) : Host.Outcome State Fault Refusal :=
  unit (isSite site) s (effVred site s)

/-- VMAXL (R245). -/
def execVmaxl (site : Site) (s : State) : Host.Outcome State Fault Refusal :=
  unit (isSite site) s (effVmaxl site s)

/-- VWSUM (R244). -/
def execVwsum (site : Site) (s : State) : Host.Outcome State Fault Refusal :=
  unit (isSite site) s (effVwsum site s)

/-- VCMPZ (R246). -/
def execVcmpz (site : Site) (s : State) : Host.Outcome State Fault Refusal :=
  unit (isSite site) s (effVcmpz site s)

/-- VEXP (R246). -/
def execVexp (site : Site) (s : State) : Host.Outcome State Fault Refusal :=
  unit (isSite site) s (effVexp site s)

/-- VTOPK (R247). -/
def execVtopk (site : Site) (s : State) : Host.Outcome State Fault Refusal :=
  unit (isSite site) s (effVtopk site s)


end Sys2Proof.Machine
end

