-- ==== Sys2Proof/Machine/Search.lean ====
section
/-!
DEFINITION. Meanings of the searches of Peridot, local and in the cascade (R248, R249, R366-R379).
-/
namespace Sys2Proof.Machine

/-! ### SRCH, SRCHNEXT, SRCHP (R248, R249) -/

/-- IMM[11:0], the search table. -/
def fTable : Nat := 2 ^ 32 * 4095
def wTable (w : Nat) : Nat := wImm w % 4096
/-- The instruction stands where it was, and waits. -/
def waitHere (x : Site) (s : State) : State :=
  match x with
  | .tile t => modRun t (fun h => { h with pc := h.pc - 1, count := h.count - 1 }) s
  | _ => s
/-- Keys of a tile that wait at the port or in the cascade. -/
def keysOut (s : State) (t : Nat) : Nat :=
  (((portKeys s 0) ++ (portKeys s 1)).filter (fun k => k.src == t)).length + (s.per.cas.filter (fun c => c.src == t)).length
/-- The answers a tile has got, in order of its key slots (R249). -/
def answersOf (s : State) (t : Nat) : List Word :=
  (List.range 4).filterMap (fun i => (s.per.answers.find? (fun a => a.1 == t && a.2.1 == i)).map (fun a => a.2.2))
/-- The tile has keys on their way, or answers to take. -/
def searching (s : State) (t : Nat) : Bool := keysOut s t != 0 || s.per.answers.any (fun a => a.1 == t)
/-- The tile takes its answers. -/
def takeAnswers (t : Nat) (s : State) : State := { s with per := { s.per with answers := s.per.answers.filter (fun a => a.1 != t) } }
/-- Keys sent and awaited: with every answer there the row goes on, with none asked for the keys are sent. -/
def awaitKeys (x : Site) (t : Nat) (keys : List PKey) (k : List Word → State → YOut) (s : State) : YOut :=
  let a := answersOf s t
  if keysOut s t = 0 ∧ a.length = keys.length then k a (takeAnswers t s)
  else if keysOut s t = 0 ∧ a.isEmpty then .next (waitHere x (keys.foldl (fun s q => sendKey q s) s))
  else .stall
/-- A table in a context: DENIED without a search, or the keys; keys already sent are awaited, whatever a commit has made of the table since. -/
def searchRow (x : Site) (t tab ctx : Nat) (keys : List PKey) (k : List Word → State → YOut) (s : State) : YOut :=
  if searching s t || maySearch s ctx tab then awaitKeys x t keys k s
  else k (keys.map (fun _ => deniedWord)) (perCount (t / 128) 2 s)
def effSrch (site : Site) (s : State) : State :=
  issue 0x80 onTile (fun _ => fOpc + fD + fA + fTable) (fun x w s => onHandler x s (fun t h =>
    if !okS (wD w) then .fault 4
    else match vOf h (wA w) with
      | none => .fault 3
      | some v =>
        searchRow x t (wTable w) (siteCtx s x) [{ src := t, table := wTable w, ctx := siteCtx s x, key := BitVec.ofNat 640 v }]
          (fun a s => .next (setS x (wD w) (a.headD missWord) s)) s)) site s
def effSrchnext (site : Site) (s : State) : State :=
  issue 0x81 onTile (fun _ => fOpc + fD + fA + fB + fTable) (fun x w s => onHandler x s (fun t h =>
    let b := (sreg s x (wB w)).toNat
    if !okS (wD w) || !okS (wB w) then .fault 4
    else match vOf h (wA w) with
      | none => .fault 3
      | some v =>
        if !bit b 19 && maySearch s (siteCtx s x) (wTable w) then .next (setS x (wD w) missWord s)
        else
          searchRow x t (wTable w) (siteCtx s x)
            [{ src := t, table := wTable w, ctx := siteCtx s x, key := BitVec.ofNat 640 v, after := some (fld b 0 19) }]
            (fun a s => .next (setS x (wD w) (a.headD missWord) s)) s)) site s
/-- SRCHP: every key slot is a search of its own; a slot with a hit has its byte lanes set, as far as PEN lets them be written (R238, R249). -/
def effSrchp (site : Site) (s : State) : State :=
  issue 0x82 onTile (fun w => fOpc + fD + fA + fTable + fPred w) (fun x w s => onHandler x s (fun t h =>
    if !okP (wD w) then .fault 4
    else match vOf h (wA w), predOf h w with
      | none, _ => .fault 3
      | _, none => .fault 3
      | some v, some pm =>
        let size := 32 * rowsOf (stWidth (searchTable s (wTable w)))
        let keys := (List.range (128 / size)).map (fun i =>
          ({ src := t, table := wTable w, ctx := siteCtx s x, key := BitVec.ofNat 640 (v >>> (8 * size * i)), slot := i } : PKey))
        let old := (pOf h (wD w)).getD 0
        searchRow x t (wTable w) (siteCtx s x) keys (fun a s =>
          .next (modRun t (fun h => setP h (wD w) (pickBits (fun l =>
            if laneSel pm l then (a.getD (l / size) missWord).toNat.testBit 19 else bit old l))) s)) s)) site s

/-! ### The port (R371-R373) and the cascade (R375-R379) -/

def casEntry (s : State) : Nat := entry s 0x0022 0
def casEn (s : State) : Bool := bit (casEntry s) 0
def casPos (s : State) : Nat := fld (casEntry s) 1 2
def casSize (s : State) : Nat := fld (casEntry s) 3 2 + 1
/-- The row above which a position compares, none for all its rows; the outer none is a position below the INDEX (R377). -/
def casAbove (pos : Nat) (after : Option Nat) : Option (Option Nat) :=
  match after with
  | none => some none
  | some i => if pos < i / 131072 then none else if pos = i / 131072 then some (some (i % 131072)) else some none
/-- This module's own result of a cascade search, its compare slots counted. -/
def casOwn (s : State) (c : CasSearch) : Option (Nat × Bool × Nat) :=
  match casAbove (casPos s) c.after with
  | none => none
  | some a => if maySearch s c.ctx c.table then firstMatch s c.ctx c.table c.key.toNat a else none
def countSearch (t : Nat) (s : State) : State := (halvesOf s t).foldl (fun s h => perCount h 0 s) s
/-- A match word (Table 13-6). -/
def mwWord (c : CasSearch) : Nat :=
  c.origin + 2 ^ 2 * c.oseq + 2 ^ 10 * b2n c.own.isSome + 2 ^ 11 * b2n ((c.own.map (fun r => r.2.1)).getD false)
/-- The key of another module's or the own search is compared here: the match word goes out. -/
def compareCas (c : CasSearch) (s : State) : CasSearch × State :=
  let c := { c with own := casOwn s c, searched := true }
  (c, put (.matchWord (mwWord c)) (countSearch c.table s))
/-- A cascade search is off the list. -/
def dropCas (origin oseq : Nat) (s : State) : State :=
  { s with per := { s.per with cas := s.per.cas.filter (fun c => !(c.origin == origin && c.oseq == oseq)) } }
def findCas (s : State) (origin oseq : Nat) : Option CasSearch := s.per.cas.find? (fun c => c.origin == origin && c.oseq == oseq)
/-- A cascade search put in place of the one with its number, or behind the others. -/
def putCas (c : CasSearch) (s : State) : State :=
  if (findCas s c.origin c.oseq).isSome then
    { s with per := { s.per with cas := s.per.cas.map (fun d => if d.origin == c.origin && d.oseq == c.oseq then c else d) } }
  else { s with per := { s.per with cas := s.per.cas ++ [c] } }
/-- Once every other member's match word is there: the lowest position with a hit sends its result word to the issuer, or is the issuer; without a hit the issuer answers (R377). -/
def settleCas (c : CasSearch) (s : State) : State :=
  let pos := casPos s
  if !c.searched || decide (c.words.length + 1 < casSize s) then putCas c s
  else
    let hits := c.words.filter (fun (x : Nat × Bool × Bool) => x.2.1)
    match c.own with
    | some (row, multi, result) =>
      if hits.any (fun (x : Nat × Bool × Bool) => decide (x.1 < pos)) then (if c.origin = pos then putCas c s else dropCas c.origin c.oseq s)
      else
        let w := resultWord (131072 * pos + row) true (multi || !hits.isEmpty) false result
        let s := dropCas c.origin c.oseq s
        if c.origin = pos then answerKey c.src c.slot w s else put (.casResult c.origin c.oseq w) s
    | none =>
      if c.origin ≠ pos then dropCas c.origin c.oseq s
      else if hits.isEmpty then answerKey c.src c.slot missWord (dropCas c.origin c.oseq s)
      else putCas c s
/-- A search of a cascade table is issued: own rows compared, the key on the ring (R377, R378). -/
def issueCas (k : PKey) (s : State) : State :=
  let c : CasSearch := { origin := casPos s, oseq := s.per.oseq, table := k.table, key := k.key, ctx := k.ctx, after := k.after, src := k.src, slot := k.slot, at_ := now s }
  let s := { s with per := { s.per with oseq := (s.per.oseq + 1) % 256 } }
  let old := ((findCas s c.origin c.oseq).map (·.words)).getD []
  let r := compareCas { c with words := old } (put (.casKey c.origin c.oseq c.table c.ctx c.key c.after) s)
  settleCas r.1 r.2
/-- Own cascade searches outstanding. -/
def ownCas (s : State) : Nat := (s.per.cas.filter (fun c => c.origin == casPos s && c.searched)).length
/-- The port of a die serves the key of the source whose turn it is: one of a table that lies on the other die alone goes on to that die's port, any other is compared in the halves that hold the table (R372). -/
def effPeridotSearch (die : Nat) (s : State) : State :=
  match takeKey die s with
  | none => s
  | some (k, t) =>
    if stCascade (searchTable s k.table) && casEn s then
      if s.per.broken then answerKey k.src k.slot deniedWord t
      else if 256 ≤ ownCas s then s
      else issueCas k t
    else match otherPort s die k with
    | some d => queueKey d 16 k t
    | none =>
      let t := countSearch k.table t
      answerKey k.src k.slot (match firstMatch s k.ctx k.table k.key.toNat k.after with
        | some (row, multi, result) => resultWord row true multi false result
        | none => missWord) t
/-- A key comes on CAS_RX: its own has gone round; another's goes on, unless the next position issued it, and is compared. -/
def effCascadeKey (origin oseq table ctx : Nat) (key : BitVec 640) (after : Option Nat) (s : State) : State :=
  let pos := casPos s
  if !casEn s || origin == pos then s
  else
    let s := if (pos + 1) % casSize s = origin then s else put (.casKey origin oseq table ctx key after) s
    let old := ((findCas s origin oseq).map (·.words)).getD []
    let r := compareCas { origin := origin, oseq := oseq, table := table, key := key, ctx := ctx, after := after, at_ := now s, words := old } s
    settleCas r.1 r.2
/-- A match word comes in on a pin: that of the module at position (p + 1 + pin) mod 4 (R374). -/
def effMatchWord (pin word : Nat) (s : State) : State :=
  let from_ := (casPos s + 1 + pin) % 4
  let origin := fld word 0 2
  let oseq := fld word 2 8
  if !casEn s || decide (casSize s ≤ from_) then s
  else
    let c := (findCas s origin oseq).getD { origin := origin, oseq := oseq, at_ := now s }
    if c.words.any (fun (x : Nat × Bool × Bool) => x.1 == from_) then s
    else settleCas { c with words := c.words ++ [(from_, bit word 10, bit word 11)] } s
/-- A result word on the ring: the issuer's answer, or passed on. -/
def effCascadeResult (origin oseq : Nat) (result : Word) (s : State) : State :=
  if !casEn s then s
  else if origin ≠ casPos s then put (.casResult origin oseq result) s
  else match findCas s origin oseq with
    | some c => if c.searched then answerKey c.src c.slot result (dropCas origin oseq s) else s
    | none => s
/-- An own search without a result after 5 us: DENIED, and the cascade is broken (R379). -/
def effCascadeTimeout (oseq : Nat) (s : State) : State :=
  match findCas s (casPos s) oseq with
  | none => s
  | some c =>
    if !c.searched || !passed s c.at_ 5000 then s
    else
      let half := if c.src < 256 then c.src / 128 else 0
      let s := perCount half 5 (answerKey c.src c.slot deniedWord (dropCas (casPos s) oseq s))
      if s.per.broken then s else emitClass (4 + half) 8 (casPos s) c.table 0 0 { s with per := { s.per with broken := true } }

/-- SRCH (R248). -/
def execSrch (site : Site) (s : State) : Host.Outcome State Fault Refusal :=
  unit (isSite site) s (effSrch site s)

/-- SRCHNEXT (R248). -/
def execSrchnext (site : Site) (s : State) : Host.Outcome State Fault Refusal :=
  unit (isSite site) s (effSrchnext site s)

/-- SRCHP (R249). -/
def execSrchp (site : Site) (s : State) : Host.Outcome State Fault Refusal :=
  unit (isSite site) s (effSrchp site s)

/-- PERIDOT_SEARCH (R372). -/
def execPeridotSearch (die : Nat) (s : State) : Host.Outcome State Fault Refusal :=
  unit (isCoreDie die) s (effPeridotSearch die s)

/-- CASCADE_KEY (R377). -/
def execCascadeKey (origin oseq table ctx : Nat) (key : BitVec 640) (after : Option Nat) (s : State) : Host.Outcome State Fault Refusal :=
  unit (isCtx ctx) s (effCascadeKey origin oseq table ctx key after s)

/-- MATCH_WORD (R377). -/
def execMatchWord (pin : Nat) (word : Nat) (s : State) : Host.Outcome State Fault Refusal :=
  unit (decide (pin < 3)) s (effMatchWord pin word s)

/-- CASCADE_RESULT (R377). -/
def execCascadeResult (origin oseq : Nat) (result : Word) (s : State) : Host.Outcome State Fault Refusal :=
  unit (true) s (effCascadeResult origin oseq result s)

/-- CASCADE_TIMEOUT (R379). -/
def execCascadeTimeout (oseq : Nat) (s : State) : Host.Outcome State Fault Refusal :=
  unit (true) s (effCascadeTimeout oseq s)


end Sys2Proof.Machine
end

