-- ==== Sys2Proof/Machine/StreamOps.lean ====
section
/-!
DEFINITION. Shared operations of weight streams: the fetcher's requests and blocks, what responses do at the legs, digests, and the end of a stream (R328-R338).
-/
namespace Sys2Proof.Machine

/-- Endpoint number of a stream's fetcher: its control core's (R331). -/
def fetcherEp (k : Nat) : Nat := 448 + k / 16
/-- Legs that have gone down are out of the stream for good. -/
def noteLost (s : State) (x : WStream) : WStream :=
  let gone := (List.range x.consumers.length).filter (fun i => !legUp s x i && !x.lost.contains i)
  { x with
    lost := gone.foldl (fun l i => insertSet i l) x.lost
    legData := x.legData.filter (fun e => !gone.contains e.1) }

/-! ### The order and what may be issued (R328, R331) -/

/-- The 32 B order entry read. -/
def orderEnt (d : List Byte) : OrderEnt :=
  { comp := bit (byteAt d 2 1) 0, layerEnd := bit (byteAt d 2 1) 1, layer := byteAt d 4 4, ext := byteAt d 0 2, first := byteAt d 8 8
    lines := byteAt d 16 4, raw := byteAt d 20 4 }
/-- An entry names 1 to 4,194,304 stored lines within its extent (R328). -/
def entOk (s : State) (e : OrderEnt) : Bool :=
  inRange 1 4194304 e.lines && exState (extent s e.ext) != 0 && decide (e.first + e.lines ≤ 1024 * exSize (extent s e.ext))
/-- Stored lines from the first entry through the end of those before an entry. -/
def linesBefore (x : WStream) (ent : Nat) : Nat := (x.ents.filter (fun e => decide (e.1 < ent))).foldl (fun a e => a + e.2.lines) 0
/-- Stored lines that may be issued: DEPTH x 64 KiB past the end of the lowest entry acknowledged by a consumer whose leg is up; no bound where no leg is up any more (R331, R336). -/
def issueBound (s : State) (x : WStream) : Option Nat :=
  (leastOf ((legsUp s x).map (fun i => mget 0 i x.acked))).map (fun a => linesBefore x a + 1024 * x.depth)
/-- One RDN of a stream. -/
def sendFetch (k : Nat) (f : Fetch) (bstart : Bool) (s : State) : State :=
  let x := s.stream k
  let f := { f with tag := fetchTag k x.seq bstart, at_ := now s }
  let s := s.modStream k (fun x => { x with seq := (x.seq + 1) % 512, out := x.out ++ [f] })
  sendFrom (fetcherEp k) (mkPkt 3 opRDN x.ctx (ctxKgen s x.ctx) s.tab.cur f.node x.alias_ f.tag 0 (f.laddr + 2 ^ 42 * (f.lines - 1)) []) s

/-! ### Blocks that failed (R335) -/

/-- A block failed at the fetcher: none of its requests is awaited any more, no leg holds a part of it, and it is fetched again; the third time it is FAILED. -/
def blockFailed (key : Nat) (x : WStream) : WStream :=
  let b := mget {} key x.blks
  let x := { x with
    out := x.out.filter (fun f => blkKey f.ent f.bidx != key)
    legData := x.legData.map (fun (e : Nat × List LegBlock) => (e.1, e.2.filter (fun c => legWhole c || blkKey c.ent c.bidx != key))) }
  if b.tries < 2 then
    { x with
      blks := mput key { b with tries := b.tries + 1 } x.blks
      redo := x.redo ++ [key] }
  else
    { x with
      failed := x.failed + 1
      firstFailed := some (x.firstFailed.getD (key / 2 ^ 20)) }

/-! ### The end (R338) -/

/-- Copies of a stream's responses that stand in a queue, in headroom or before the fetcher's check. -/
def copiesLeft (s : State) (x : WStream) (ent : Option Nat) : Bool :=
  let mine := fun (p : Packet) (b : Option (Nat × Nat × Nat)) => pDst p == x.alias_ && pOp p == opRDRSP && (ent.isNone || b.any (fun y => some y.1 == ent))
  s.sw.queues.any (fun e => e.2.pkts.any (fun q => mine q.pkt q.blk)) || s.sw.stalled.any (fun e => e.2.any (fun q => mine q.pkt q.blk))
    || s.sw.parked.any (fun e => e.2.pkts.any (fun q => mine q.pkt q.blk)) || (ent.isNone && s.mf.streamIn.any (fun e => pDst e.1 == x.alias_))
/-- Raw data of an entry, or of the whole stream, that its legs' pipelines still hold. -/
def rawLeft (s : State) (k : Nat) (ent : Option Nat) : Bool :=
  s.sw.queues.any (fun e => e.2.pkts.any (fun q => q.piped && pOp q.pkt == opWSDATA && hfld q.pkt 128 12 == k
    && ent.all (fun n => hfld q.pkt 140 20 == n % 2 ^ 20)))
/-- Order entries delivered: all their lines issued, nothing of them awaited, to be fetched again, on its way to a leg or held at one. -/
def entsDelivered (s : State) (k : Nat) (x : WStream) : Nat :=
  ((List.range x.ent).filter (fun e => !x.out.any (fun f => f.ent == e) && !x.redo.any (fun k => k / 2 ^ 20 == e)
    && !(x.legData.flatMap (·.2)).any (fun b => b.ent == e) && !copiesLeft s x (some e) && !rawLeft s k (some e))).length
/-- The last entry has been delivered: no leg holds a whole block, and nothing is on its way to one. -/
def streamDone (s : State) (k : Nat) (x : WStream) : Bool :=
  decide (x.entries ≤ x.ent) && x.out.isEmpty && x.redo.isEmpty && !(x.legData.flatMap (·.2)).any legWhole && !copiesLeft s x none && !rawLeft s k none
/-- The completion of Table 11-8. -/
def streamRecord (s : State) (k : Nat) (x : WStream) (status : Nat) : List Byte :=
  natBytes 2 status ++ natBytes 2 k ++ natBytes 4 (entsDelivered s k x) ++ natBytes 4 x.failed ++ natBytes 4 (x.firstFailed.getD 0xFFFFFFFF)
    ++ natBytes 2 x.lost.length ++ natBytes 2 x.decodeFail.length ++ natBytes 4 x.digests ++ natBytes 8 0 ++ natBytes 16 x.cookie ++ natBytes 16 0
/-- The status of a stream that ends. -/
def streamStatus (s : State) (k : Nat) (x : WStream) : Nat :=
  if ctxState s x.ctx ≠ 1 then stContextGone
  else if x.mismatch then stViolation
  else if x.stop.isSome then x.stop.getD stOK
  else if streamDone s k x && x.failed == 0 && x.lost.isEmpty && x.decodeFail.isEmpty then stOK
  else stIncomplete
/-- The entries of a stream's group emptied. -/
def streamRemoval (s : State) (x : WStream) : List (Nat × Nat × Nat) :=
  [(0x0010, x.alias_, 0), (0x0018, x.group, 0)] ++ (groupRange (entry s 0x0018 x.group)).map (fun i => (0x0019, i, 0))
/-- A stream ends: its completion to the OPEN, and to a CLOSE that ends it; its group is removed. It waits while its group cannot be committed. -/
def endStream (k : Nat) (close : Option Mail) (s : State) : Option State :=
  let s := s.modStream k (noteLost s)
  let x := s.stream k
  let st := streamStatus s k x
  let d := streamRecord s k x st
  let r := serviceCommit (streamThread s) (groupOf (streamRemoval s x)) s
  if r.1 ≠ stOK then none
  else
    let s := r.2.setStream k {}
    let s := match x.req with
      | some m => svcComplete m d s
      | none => s
    some (match close with
      | some m => svcComplete m d s
      | none => s)

end Sys2Proof.Machine
end

