-- ==== Sys2Proof/Machine/Streams.lean ====
section
/-!
DEFINITION. Meanings of weight streaming (R328-R338; log 47).
-/
namespace Sys2Proof.Machine

/-! ### OPEN, ADVANCE, CLOSE (R329, R330) -/

/-- Ranges of an OPEN (Table 11-6). -/
def openInRange (d : List Byte) : Bool :=
  decide (byteAt d 1 1 < 4) && inRange 1 64 (byteAt d 2 1) && inRange 1 1048576 (byteAt d 4 4) && inRange 1 1024 (byteAt d 24 2)
/-- A stream number: the lowest free one of the service's control cores. -/
def freeStream (s : State) : Option Nat :=
  let cores := (List.range 8).filter (fun c => bit (fld (svcEntry s 2) 3 8) c || c == streamThread s / 32)
  (cores.flatMap (fun c => (List.range 16).map (16 * c + ·))).find? (fun k => !(s.stream k).used)
/-- The stream, and the entries of its group and alias. -/
def openStream (m : Mail) (list : PoolAns) (s : State) : Nat × Nat × State :=
  let d := m.data
  let n := byteAt d 24 2
  let consumers := (List.range n).map (fun i => byteAt list.data (2 * i) 2)
  if list.status ≠ stOK then (list.status, 0, s)
  else if consumers.any (fun c => (edgesOf s c).isEmpty) then (stViolation, 0, s)
  else
    let legs := consumers.filterMap (memberLeg s)
    match freeStream s, freeGroup s, freeNode s, freeLegs s n with
    | some k, some g, some a, some lb =>
      let es := legs.mapIdx (fun i v => (0x0019, lb + i, v)) ++ [
        (0x0018, g, lb + 2 ^ 16 * n + 2 ^ 27 + 2 ^ 28 * m.ctx), (0x0010, a, 4 + 2 ^ 3 * g)]
      let r := serviceCommit (streamThread s) (groupOf es) s
      if r.1 ≠ stOK then (r.1, 0, s)
      else
        let x : WStream := {
          used := true, ctx := m.ctx, verify := bit (byteAt d 1 1) 0, decode := bit (byteAt d 1 1) 1, depth := byteAt d 2 1
          entries := byteAt d 4 4, order := byteAt d 8 8, consumers := consumers, cookie := byteAt d 32 16, req := some m, group := g, alias_ := a }
        (stOK, k, r.2.setStream k x)
    | _, _, _, _ => (stBusy, 0, s)
/-- The consumer list read, the stream is opened; an OPEN out of range, or a request of no command, ends VIOLATION. -/
def effWsOpen (s : State) : State :=
  match takeMail 2 1 s with
  | none => s
  | some (m, t) =>
    if cmdUnknown m || !openInRange m.data then svcComplete m (natBytes 8 stViolation) t
    else match poolGot s (readKey 2 0) with
      | none => askPool (readKey 2 0) (streamThread s) m.ctx (byteAt m.data 16 8) (2 * byteAt m.data 24 2) s
      | some list =>
        let r := openStream m list (dropRead (readKey 2 0) t)
        svcComplete m (natBytes 2 r.1 ++ natBytes 6 r.2.1) r.2.2
/-- ADVANCE of a consumer; of any other SRC it is discarded and counted. -/
def effWsAdvance (s : State) : State :=
  match takeMail 2 2 s with
  | none => s
  | some (m, s) =>
    let k := byteAt m.data 2 2
    let x := s.stream k
    match x.consumers.findIdx? (· == m.src) with
    | some i =>
      if x.ctx = m.ctx then
        svcStatus m stOK (s.setStream k { x with acked := mmod 0 i (fun a => max a (byteAt m.data 4 4 + 1)) x.acked })
      else svcStatus m stViolation { s with svc := { s.svc with advDropped := s.svc.advDropped + 1 } }
    | none => svcStatus m stViolation { s with svc := { s.svc with advDropped := s.svc.advDropped + 1 } }
/-- CLOSE of a stream of the request's context. -/
def effWsClose (s : State) : State :=
  match takeMail 2 3 s with
  | none => s
  | some (m, t) =>
    let k := byteAt m.data 2 2
    if !(t.stream k).used || (t.stream k).ctx != m.ctx then svcStatus m stViolation t
    else match endStream k (some m) t with
      | some u => settleSlots u
      | none => s

/-! ### The fetcher (R331, R335) -/

/-- Job number of a stream's read of its order. -/
def orderKey (k : Nat) : Nat := readKey 2 (1 + k)
/-- The order entry that the fetcher stands at is asked of the pool, in its line. -/
def askEntry (k : Nat) (s : State) : State :=
  let x := s.stream k
  let a := setFld x.order 14 42 ((paLaddr x.order + x.ent / 2) % 2 ^ 42)
  askPool (orderKey k) (streamThread s) x.ctx a 64 s
/-- The order entry as the pool answered: kept, or the stream stops where it could not be read or is out of range (R328, R352). -/
def takeEntry (k : Nat) (a : PoolAns) (s : State) : State :=
  let e := orderEnt (a.data.drop (32 * ((s.stream k).ent % 2)))
  (dropRead (orderKey k) s).modStream k (fun x =>
    if a.status ≠ stOK then { x with stop := some stIncomplete }
    else if !entOk s e then { x with stop := some stViolation }
    else { x with ents := mput x.ent e x.ents })
/-- Stored lines of the block that begins here: 64 of raw data, or of stored lines that are sent as they are; of a compressed block, whose bounds the order does not tell, a free value up to 65 (R328, R334; log 47). -/
def blockLen (x : WStream) (e : OrderEnt) (s : State) : Nat × State :=
  let left := e.lines - x.line
  if e.comp && x.decode then let d := draw s; (min left (1 + d.1 % 65), d.2) else (min left 64, s)
/-- One request issued: four lines, fewer at the end of a block, with BSTART where it begins one. -/
def fetchNext (k : Nat) (e : OrderEnt) (s : State) : State :=
  let x := s.stream k
  let cur := mget ({} : StreamBlk) (blkKey x.ent x.bidx) x.blks
  let bstart := x.line == 0 || decide (cur.len ≤ cur.lines)
  let d := if bstart then blockLen x e s else (cur.len, s)
  let bidx := if bstart then (if x.line = 0 then 0 else x.bidx + 1) else x.bidx
  let v := extent s e.ext
  let laddr := 1024 * exBase v + e.first + x.line
  let b : StreamBlk := if bstart then { node := exNode v, laddr := laddr, line := x.line, len := d.1 } else cur
  let n := min 4 (b.len - b.lines)
  let ended := decide (e.lines ≤ x.line + n)
  let s := d.2.modStream k (fun x => { x with
    bidx := bidx, blks := mput (blkKey x.ent bidx) { b with lines := b.lines + n } x.blks
    ent := if ended then x.ent + 1 else x.ent, line := if ended then 0 else x.line + n })
  sendFetch k { node := exNode v, laddr := laddr, lines := n, ent := x.ent, bidx := bidx, line := x.line } bstart s
/-- The room that ADVANCE gives does not reach the next request. -/
def overBound (s : State) (x : WStream) (e : OrderEnt) : Bool :=
  (issueBound s x).any (fun b => decide (b < linesBefore x x.ent + x.line + min 4 (e.lines - x.line)))
def effStreamFetchIssue (stream : Nat) (s : State) : State :=
  let s := s.modStream stream (noteLost s)
  let x := s.stream stream
  if !x.used || x.entries ≤ x.ent || 511 ≤ x.out.length || x.mismatch || x.stop.isSome then s
  else match mfind? x.ent x.ents with
    | none => match poolGot s (orderKey stream) with
      | none => askEntry stream s
      | some a => takeEntry stream a s
    | some e => if x.out.any (fun f => f.node != exNode (extent s e.ext)) || overBound s x e then s else fetchNext stream e s
/-- A request without a response for the residence limit fails its block; a failed block is issued again, with a new BSTART. -/
def effStreamBlockRefetch (stream : Nat) (s : State) : State :=
  let x := s.stream stream
  let limit := resLimit s (stream / 64)
  let s := match x.out.find? (fun f => passed s f.at_ limit) with
    | some f => s.modStream stream (blockFailed (blkKey f.ent f.bidx))
    | none => s
  let x := s.stream stream
  match x.redo with
  | [] => s
  | key :: rest =>
    let b := mget ({} : StreamBlk) key x.blks
    let current := decide (b.lines < b.len)
    if !x.used || current || x.out.any (fun f => f.node != b.node) || decide (511 < x.out.length + ceilDiv b.len 4) then s
    else
      let s := s.modStream stream (fun x => { x with redo := rest })
      (List.range (ceilDiv b.len 4)).foldl (fun s i =>
        sendFetch stream { node := b.node, laddr := b.laddr + 4 * i, lines := min 4 (b.len - 4 * i), ent := key / 2 ^ 20, bidx := key % 2 ^ 20, line := b.line + 4 * i } (i == 0) s) s

/-! ### Responses and legs (R333-R335, R359) -/

/-- The open record of a response is closed (R148, R333). -/
def closeOpen (p : Packet) (s : State) : State :=
  match popFirst (fun r => r.ctx == pCtx p && r.src == pDst p && r.tag == pTag p) s.mf.open_ with
  | some (_, rest) => { s with mf := { s.mf with open_ := rest } }
  | none => s
/-- A stream's response stands no longer where it entered. -/
def leaveIn (p : Packet) (ep head : Nat) (s : State) : State := if head = 0 then s else leaveHeadroom ep p.tc head s
/-- A response of a stream: checked against the fetcher's tags, and taken into copies for every leg that is up (R16, R333). -/
def takeStreamResponse (k : Nat) (p : Packet) (ep head : Nat) (s : State) : State :=
  let s := (closeOpen p s).modStream k (noteLost s)
  let x := s.stream k
  match x.out.find? (fun f => f.tag == pTag p) with
  | none => leaveIn p ep head { s with mf := { s.mf with strayTags := s.mf.strayTags + 1 } }
  | some f =>
    let l := (groupLegs s .cur ep x.group p).1.filter (fun l => !x.lost.contains ((x.consumers.findIdx? (· == fld (legImage l.2) 11 14)).getD 0))
    let s := s.modStream k (fun x => { x with out := x.out.filter (fun g => g.tag != f.tag) })
    let s := if l.isEmpty then leaveIn p ep head s
      else takeIn (fun _ _ s => lostPacket ep s) ep { mkParked s ep head p l with blk := some (f.ent, f.bidx, f.line) } s
    settleSlots (if pStatus p = stOK then s else s.modStream k (blockFailed (blkKey f.ent f.bidx)))
def effStreamResponse (s : State) : State :=
  match s.mf.streamIn with
  | [] => s
  | (p, ep, head) :: rest =>
    let t := { s with mf := { s.mf with streamIn := rest } }
    match streamOf s (pDst p) with
    | some k => takeStreamResponse k p ep head t
    | none => leaveIn p ep head { t with mf := { t.mf with strayTags := t.mf.strayTags + 1 } }
/-- WSDATA of a block's raw bytes to the consumer of a leg (Table 11-7). -/
def wsdataOf (s : State) (k : Nat) (x : WStream) (i : Nat) (b : LegBlock) (raw : List Byte) : List Packet :=
  let parts := chunksOf 1024 (ceilDiv raw.length 1024) raw
  parts.mapIdx (fun q d =>
    let up := k + 2 ^ 12 * (b.ent % 2 ^ 20) + 2 ^ 32 * (b.bidx % 2 ^ 16) + 2 ^ 48 * (q % 4) + 2 ^ 50 * b2n (b.last && q + 1 == parts.length)
    mkPkt 3 opWSDATA x.ctx (ctxKgen s x.ctx) s.tab.cur (x.consumers.getD i 0) s.boot.node 0 0 up (padTo (64 * ceilDiv d.length 64) d))
/-- Raw data behind a leg's decoder goes before what waits in its queue, behind raw data of earlier blocks (R291, R334). -/
def pipeOut (ep k : Nat) (l : List Packet) (s : State) : State :=
  let key := qkey ep 3
  let new := l.map (fun p => ({ pkt := p, src := fetcherEp k, takeAt := now s % 2 ^ 32, wroteAt := now s, piped := true } : QPkt))
  let s := s.modQueue key (fun q => { q with pkts := q.pkts.takeWhile (·.piped) ++ new ++ q.pkts.dropWhile (·.piped) })
  clockQueue ep 3 (tagHead ep key s)
/-- The egress pipeline of a leg decodes the first block whose every line is there; one that fails is counted for its consumer (R334, R335, R363). -/
def effWsdataDecode (stream leg : Nat) (s : State) : State :=
  let s := s.modStream stream (noteLost s)
  let x := s.stream stream
  match mget [] leg x.legData, edgesOf s (x.consumers.getD leg 0) with
  | b :: rest, ep :: _ =>
    if !x.used || !legWhole b then s
    else
      let r := if x.decode && (mget {} b.ent x.ents).comp then
          decodeBlock (if b.slot = 0 then none else some (lensOf s (b.slot - 1))) b.data
        else (stOK, b.data)
      let s := s.modStream stream (fun x => { x with
        legData := mset [] leg rest x.legData, decodeFail := if r.1 = stOK then x.decodeFail else insertSet leg x.decodeFail })
      settleSlots (if r.1 = stOK then pipeOut ep stream (wsdataOf s stream x leg b r.2) s else s)
  | _, _ => s
/-- The stream's last entry is delivered, its context closes, or a digest differs: it ends. -/
def effStreamEnd (stream : Nat) (s : State) : State :=
  let x := s.stream stream
  if x.used && (streamDone s stream x || ctxState s x.ctx != 1 || x.mismatch || x.stop.isSome) then
    match endStream stream none s with
    | some t => settleSlots t
    | none => s
  else s

/-- WS_OPEN (R330). -/
def execWsOpen (s : State) : Host.Outcome State Fault Refusal :=
  unit (true) s (effWsOpen s)

/-- WS_ADVANCE (R331). -/
def execWsAdvance (s : State) : Host.Outcome State Fault Refusal :=
  unit (true) s (effWsAdvance s)

/-- WS_CLOSE (R338). -/
def execWsClose (s : State) : Host.Outcome State Fault Refusal :=
  unit (true) s (effWsClose s)

/-- STREAM_FETCH_ISSUE (R331). -/
def execStreamFetchIssue (stream : Nat) (s : State) : Host.Outcome State Fault Refusal :=
  unit (isStream stream) s (effStreamFetchIssue stream s)

/-- STREAM_RESPONSE (R333). -/
def execStreamResponse (s : State) : Host.Outcome State Fault Refusal :=
  unit (true) s (effStreamResponse s)

/-- WSDATA_DECODE (R334). -/
def execWsdataDecode (stream : Nat) (leg : Nat) (s : State) : Host.Outcome State Fault Refusal :=
  unit (isStream stream && decide (leg < 1024)) s (effWsdataDecode stream leg s)

/-- STREAM_BLOCK_REFETCH (R335). -/
def execStreamBlockRefetch (stream : Nat) (s : State) : Host.Outcome State Fault Refusal :=
  unit (isStream stream) s (effStreamBlockRefetch stream s)

/-- STREAM_END (R338). -/
def execStreamEnd (stream : Nat) (s : State) : Host.Outcome State Fault Refusal :=
  unit (isStream stream) s (effStreamEnd stream s)


end Sys2Proof.Machine
end

