-- ==== Sys2Proof/Machine/Switch.lean ====
section
/-!
DEFINITION. Meanings of the switch core's commands: lookup, takes, stalled sends, egress, gates, flushes, samples, decode table loads.
-/
namespace Sys2Proof.Machine

/-! ### Effects -/

/-- Credits withheld for a full receive FIFO are returned once it holds 8 words or fewer (R43). -/
def releaseWithheld (p : Nat) (s : State) : State :=
  let x := s.port p
  if x.withhold && decide (x.rxFill ≤ 8) then
    x.crHeld.foldl (fun s e => returnCredit p e.1 e.2 s) (s.setPort p { x with withhold := false, crHeld := [] })
  else s
/-- The oldest packet of an ingress and class is looked up (R95, R96). -/
def effIngressLookup (ep vl : Nat) (s : State) : State :=
  match mget [] (qkey ep vl) s.sw.ingress with
  | [] => s
  | (p, _) :: rest =>
    let s := { s with sw := { s.sw with ingress := mset [] (qkey ep vl) rest s.sw.ingress } }
    let s := if ep < 384 then releaseWithheld ep (fillRx ep s) else s
    lookup ep (if stalls ep then 0 else pCells p) p s
/-- Ingresses of a die with a head packet of a class bound for a queue, from the round-robin position on (R106). -/
def takers (s : State) (ep tc : Nat) : List Nat :=
  let die := coreOfEp ep
  let all := (s.sw.parked.filter (fun e => e.1 % 8 == tc && ingDie (e.1 / 8) == die &&
    match e.2.pkts with
    | k :: _ => (localLegs die k.legs).any (fun l => l.1 == ep)
    | [] => false)).map (fun e => e.1 / 8)
  let from_ := mget 0 (qkey ep tc) s.sw.rr
  all.filter (fun i => decide (from_ ≤ i)) ++ all.filter (fun i => decide (i < from_))
/-- The first of the ingresses whose head can be taken gives it, and the turn passes to the next. -/
def takeFirst (ep tc : Nat) : List Nat → State → State
  | [], s => s
  | i :: rest, s =>
    let r := takeParked (fun i p s => pathLost i p s) i tc s
    if r.1 then { r.2 with sw := { r.2.sw with rr := mset 0 (qkey ep tc) (i + 1) r.2.sw.rr } } else takeFirst ep tc rest r.2
/-- An egress queue takes one parked head packet (R105-R107). -/
def effParkedTake (ep cls : Nat) (s : State) : State := takeFirst ep cls (takers s ep cls) s
/-- A red head of a parked FIFO is evaluated again (R117). -/
def effPolicerRetest (ep cls : Nat) (s : State) : State :=
  match (s.park (qkey ep cls)).pkts with
  | k :: _ => if k.red then (takeParked (fun i p s => pathLost i p s) ep cls s).2 else s
  | [] => s
/-- The oldest stalled send of an internal source is admitted if it may be (R109). -/
def effInternalSendAdmit (ep cls : Nat) (s : State) : State :=
  match mget [] (qkey ep cls) s.sw.stalled with
  | [] => s
  | k :: rest =>
    let r := tryTake (fun i p s => pathLost i p s) (coreOfEp ep) ep k s
    if r.1 then { r.2 with sw := { r.2.sw with stalled := mset [] (qkey ep cls) rest r.2.sw.stalled } } else r.2
/-- An endpoint sends one packet (R121). -/
def effEgressSend (ep : Nat) (s : State) : State := egressSend ep s
/-- A decode table is loaded into a port die's cache of 64, and the queue that waited for it goes on (R28). -/
def effDecodeTableLoad (die slot : Nat) (s : State) : State :=
  onlyIf (s.cod.waits.any (fun w => w.2.1 == die && w.2.2 == slot)) s
    { s with cod := { s.cod with
      cache := if tsState (tslot s slot) = 0 then s.cod.cache else mmod [] die (fun l => (slot :: l.filter (· != slot)).take 64) s.cod.cache
      waits := s.cod.waits.filter (fun w => !(w.2.1 == die && w.2.2 == slot)) } }
/-- The open set of a port's gates has changed: its queues are looked at (R122, R125). -/
def effGateEntryAdvance (ep : Nat) (s : State) : State := onlyIf (decide (ep < 384)) s (refreshAll ep s)
/-- A committed gate list takes effect (R128). -/
def effGateListSwitch (ep : Nat) (s : State) : State :=
  match (s.gate ep).next with
  | none => s
  | some (h, e, flip) =>
    onlyIf (reached s (switchAt (s.gate ep) h flip)) s (refreshAll ep (s.setGate ep { hdr := h, ents := e }))
/-- The flush of a port that went down: the packet whose transmission it cut off counts as flushed; its queues in order of class, the PORT_FLUSH record, then the prune notices of its legs (R83, R129, R130, R296, R589). -/
def effPortFlush (ep : Nat) (s : State) : State :=
  let due := (s.port ep).flushDue
  if 384 ≤ ep ∨ due = 0 then s
  else
    let s := s.modPort ep (fun x => { x with flushDue := 0 })
    let cls := if due = 1 then List.range 8 else [1, 2, 3, 4, 5, 7]
    let cut := due == 1 && (s.port ep).txEnd != 0
    let s := if cut then (qcount (qkey ep (s.port ep).txCls) 8 1 s).modPort ep (fun x => { x with txEnd := 0 }) else s
    let n := cls.foldl (fun a tc => a + (s.queue (qkey ep tc)).pkts.length) (b2n cut)
    let s := emit (4 + coreOf ep) 0x0201 2 ep n 0 0 (cls.foldl (fun s tc => flushQueue ep tc s) s)
    if due = 1 then pruneFor ep s else s
/-- Depth and age of one queue sampled (R134). -/
def sampleQueue (k : Nat) (s : State) : State :=
  if bit (qcfg s k) 48 then
    s.modQueue k (fun q =>
      let age := match q.pkts with
        | x :: _ => ageOf s x
        | [] => 0
      { q with ctr := mset 0 13 age (mset 0 11 (depth q) q.ctr) })
  else s
/-- The queues of a die are sampled once per sample period (R134). -/
def effTelemetrySample (die : Nat) (s : State) : State :=
  let period := samplePeriod s die
  onlyIf (decide ((s.buf die).sampleAt / period < now s / period)) s
    (((mkeys s.sw.queues).filter (fun k => coreOfEp (k / 8) == die)).foldl (fun s k => sampleQueue k s)
      (s.modBuf die (fun b => { b with sampleAt := now s })))

/-! ### Meanings -/

/-- INGRESS_LOOKUP (R96). -/
def execIngressLookup (ep : Nat) (vl : Nat) (s : State) : Host.Outcome State Fault Refusal :=
  unit (isEp ep && isCls vl) s (effIngressLookup ep vl s)

/-- PARKED_TAKE (R106). -/
def execParkedTake (ep : Nat) (cls : Nat) (s : State) : Host.Outcome State Fault Refusal :=
  unit (isEp ep && isCls cls) s (effParkedTake ep cls s)

/-- POLICER_RETEST (R117). -/
def execPolicerRetest (ep : Nat) (cls : Nat) (s : State) : Host.Outcome State Fault Refusal :=
  unit (isEp ep && isCls cls) s (effPolicerRetest ep cls s)

/-- INTERNAL_SEND_ADMIT (R109). -/
def execInternalSendAdmit (ep : Nat) (cls : Nat) (s : State) : Host.Outcome State Fault Refusal :=
  unit (isEp ep && isCls cls) s (effInternalSendAdmit ep cls s)

/-- EGRESS_SEND (R121). -/
def execEgressSend (ep : Nat) (s : State) : Host.Outcome State Fault Refusal :=
  unit (isEp ep) s (effEgressSend ep s)

/-- DECODE_TABLE_LOAD (R28). -/
def execDecodeTableLoad (die : Nat) (slot : Nat) (s : State) : Host.Outcome State Fault Refusal :=
  unit (isPortDie die && isTidSlot slot) s (effDecodeTableLoad die slot s)

/-- GATE_ENTRY_ADVANCE (R125). -/
def execGateEntryAdvance (ep : Nat) (s : State) : Host.Outcome State Fault Refusal :=
  unit (isEp ep) s (effGateEntryAdvance ep s)

/-- GATE_LIST_SWITCH (R128). -/
def execGateListSwitch (ep : Nat) (s : State) : Host.Outcome State Fault Refusal :=
  unit (isEp ep) s (effGateListSwitch ep s)

/-- PORT_FLUSH (R129). -/
def execPortFlush (ep : Nat) (s : State) : Host.Outcome State Fault Refusal :=
  unit (isEp ep) s (effPortFlush ep s)

/-- TELEMETRY_SAMPLE (R134). -/
def execTelemetrySample (die : Nat) (s : State) : Host.Outcome State Fault Refusal :=
  unit (isCoreDie die) s (effTelemetrySample die s)


end Sys2Proof.Machine
end

