-- ==== Sys2Proof/Machine/Tdisp.lean ====
section
/-!
DEFINITION. Meanings of the TDISP messages and of a TDI's error (R451, R496; message forms: log 52).
-/
namespace Sys2Proof.Machine

def tdiFunc (port vf : Nat) : Nat := 128 * port + vf
/-- The VF is enabled (Table 16-2). -/
def vfUp (s : State) (port vf : Nat) : Bool := (s.hport port).vfEn && decide (vf ≤ (s.hport port).numVfs)
/-- The OPEN context that a VF is bound to. -/
def vfContext (s : State) (port vf : Nat) : Option Nat := (funcCtx s port vf).filter (fun c => ctxState s c == 1)
/-- The lowest selective stream of a port that runs. -/
def goStream (s : State) (port : Nat) : Nat := ((List.range 9).find? (fun i => i != 0 && (s.hport port).ideGo.any (fun k => k / 8 == i))).getD 0
def setTdi (port vf : Nat) (st : TdiState) (s : State) : State := s.modFunc (tdiFunc port vf) (fun f => { f with tdi := st })
/-- Lock: only of an unlocked TDI whose VF is bound to an OPEN context. -/
def effLockInterfaceRequest (port vf : Nat) (s : State) : State :=
  onIface port (.lockInterfaceRequest port vf) (fun s =>
    if vfUp s port vf && (vfContext s port vf).isSome && (s.func (tdiFunc port vf)).tdi == .unlocked then
      let k := goStream s port
      let s := s.modHport port (fun h => { h with ideTdi := mset 0 vf k h.ideTdi })
      answer port (512 + 0x83) [] (setTdi port vf .locked s)
    else answerError port (512 + 0x83) s) s
/-- Start: from CONFIG_LOCKED to RUN. -/
def effStartInterfaceRequest (port vf : Nat) (s : State) : State :=
  onIface port (.startInterfaceRequest port vf) (fun s =>
    if vfUp s port vf && (s.func (tdiFunc port vf)).tdi == .locked then answer port (512 + 0x86) [] (setTdi port vf .run s)
    else answerError port (512 + 0x86) s) s
/-- Stop: the TDI is unlocked from any state. -/
def effStopInterfaceRequest (port vf : Nat) (s : State) : State :=
  onIface port (.stopInterfaceRequest port vf) (fun s =>
    if vfUp s port vf then
      answer port (512 + 0x87) [] (setTdi port vf .unlocked (s.modHport port (fun h => { h with ideTdi := mdel vf h.ideTdi })))
    else answerError port (512 + 0x87) s) s
def effGetTdispVersion (port vf : Nat) (s : State) : State :=
  onIface port (.getTdispVersion port vf) (fun s =>
    if vfUp s port vf then answer port (512 + 0x81) [1, 0x10] s else answerError port (512 + 0x81) s) s
/-- Capabilities: the messages of R496. -/
def effGetTdispCapabilities (port vf : Nat) (s : State) : State :=
  onIface port (.getTdispCapabilities port vf) (fun s =>
    if vfUp s port vf then answer port (512 + 0x82) (natBytes 16 (ofBitList [1, 2, 3, 4, 5, 6, 7])) s else answerError port (512 + 0x82) s) s
/-- The report of a TDI: BAR0 in pages with its MSI-X table and pending-bit array, then the bound context, its KGEN and the SHA-384 of the Alias certificate. -/
def tdiReport (s : State) (port vf : Nat) : List Byte :=
  let c := (funcCtx s port vf).getD 0
  natBytes 4 128 ++ natBytes 4 0x40000 ++ natBytes 4 0x48000 ++ natBytes 2 c ++ natBytes 2 (ctxKgen s c)
    ++ digestBytes (Config.sha384 (aliasCert s)).toNat
def effGetDeviceInterfaceReport (port vf : Nat) (s : State) : State :=
  onIface port (.getDeviceInterfaceReport port vf) (fun s =>
    let st := (s.func (tdiFunc port vf)).tdi
    if vfUp s port vf && (st == .locked || st == .run) then answer port (512 + 0x84) (tdiReport s port vf) s
    else answerError port (512 + 0x84) s) s
def effGetDeviceInterfaceState (port vf : Nat) (s : State) : State :=
  onIface port (.getDeviceInterfaceState port vf) (fun s =>
    if vfUp s port vf then answer port (512 + 0x85) (natBytes 1 (tdiCode (s.func (tdiFunc port vf)).tdi)) s else answerError port (512 + 0x85) s) s
/-- A locked or running TDI enters ERROR, and its context closes with CAUSE 0x5. -/
def effTdiError (port vf : Nat) (s : State) : State :=
  let st := (s.func (tdiFunc port vf)).tdi
  if st == .locked || st == .run then
    let s := setTdi port vf .error s
    match funcCtx s port vf with
    | some c => closeContext c 5 s
    | none => s
  else s

/-- LOCK_INTERFACE_REQUEST (R451). -/
def execLockInterfaceRequest (port vf : Nat) (s : State) : Host.Outcome State Fault Refusal :=
  unit (isHostPort port && isVf vf) s (effLockInterfaceRequest port vf s)

/-- START_INTERFACE_REQUEST (R451). -/
def execStartInterfaceRequest (port vf : Nat) (s : State) : Host.Outcome State Fault Refusal :=
  unit (isHostPort port && isVf vf) s (effStartInterfaceRequest port vf s)

/-- STOP_INTERFACE_REQUEST (R451). -/
def execStopInterfaceRequest (port vf : Nat) (s : State) : Host.Outcome State Fault Refusal :=
  unit (isHostPort port && isVf vf) s (effStopInterfaceRequest port vf s)

/-- GET_TDISP_VERSION (R496). -/
def execGetTdispVersion (port vf : Nat) (s : State) : Host.Outcome State Fault Refusal :=
  unit (isHostPort port && isVf vf) s (effGetTdispVersion port vf s)

/-- GET_TDISP_CAPABILITIES (R496). -/
def execGetTdispCapabilities (port vf : Nat) (s : State) : Host.Outcome State Fault Refusal :=
  unit (isHostPort port && isVf vf) s (effGetTdispCapabilities port vf s)

/-- GET_DEVICE_INTERFACE_REPORT (R496). -/
def execGetDeviceInterfaceReport (port vf : Nat) (s : State) : Host.Outcome State Fault Refusal :=
  unit (isHostPort port && isVf vf) s (effGetDeviceInterfaceReport port vf s)

/-- GET_DEVICE_INTERFACE_STATE (R496). -/
def execGetDeviceInterfaceState (port vf : Nat) (s : State) : Host.Outcome State Fault Refusal :=
  unit (isHostPort port && isVf vf) s (effGetDeviceInterfaceState port vf s)

/-- TDI_ERROR (R451). -/
def execTdiError (port vf : Nat) (s : State) : Host.Outcome State Fault Refusal :=
  unit (isHostPort port && isVf vf) s (effTdiError port vf s)


end Sys2Proof.Machine
end

