-- ==== Sys2Proof/Machine/Tier.lean ====
section
/-!
DEFINITION. Meanings of the tier engine and its jobs (R386-R400; log 56).
-/
namespace Sys2Proof.Machine

/-! ### Moves (R388-R391) -/

/-- Thread of the tier engine of a core die: thread 31 of CC3 or CC7, or of the core that took it over (R514). -/
def engineThread (s : State) (die : Nat) : Nat := 32 * reservedCore s (if die = 0 then 3 else 7) + 31
/-- Bytes of a page as it rests near: poisoned lines hold zero data. -/
def bytesNear (s : State) (p : Nat) : List Byte := pageBytes s p
def setMoves (p : Nat) (f : Move → Move) (s : State) : State :=
  { s with tier := { s.tier with moves := s.tier.moves.map (fun m => if m.page = p then f m else m) } }
/-- Pool address word of a page in its backing extent (R392). -/
def poolPlace (s : State) (loc tc : Nat) : Nat :=
  let v := extent s (fld loc 0 16)
  exNode v + 2 ^ 14 * (1024 * (exBase v + fld loc 16 32)) + 2 ^ 58 * tc
/-- Host address of a page in its window (R393). -/
def hostPlace (s : State) (loc : Nat) : Nat := fld (entry s 0x002A (fld loc 0 1)) 0 64 + 65536 * fld loc 1 32
/-- The copy of a page leaves for its place in the pool, by the engine's thread in context 0, or in the host, by the port's DMA engine (R393). -/
def copyOut (m : Move) (data : List Byte) (s : State) : State :=
  let s := setMoves m.page (fun m => { m with asked := true }) s
  if m.dest = 1 then poolWrite (engineThread s (homeOf m.page)) 9 m.page 0 (poolPlace s m.loc m.tc) data s
  else toHost (fld m.loc 0 1) 0 (hostPlace s m.loc) data s
/-- Number of the read of a page that comes from the pool. -/
def moveKey (p : Nat) : Nat := 2 ^ 29 + p
/-- The source of a page that comes from the pool or a host is read: 1,024 lines by the engine's thread in context 0, or 64 KiB by the port's DMA engine (R388, R393). -/
def readSource (m : Move) (s : State) : State :=
  if m.src = 1 ∧ ownOpen s 11 (moveKey m.page) then s
  else
    let loc := pgLoc (page s m.page)
    let s := setMoves m.page (fun m => { m with reading := true }) s
    if m.src = 1 then
      askPool (moveKey m.page) (engineThread s (homeOf m.page)) 0 (poolPlace s loc m.tc) 65536 (dropRead (moveKey m.page) s)
    else fromHost (fld loc 0 1) 0 (hostPlace s loc) 65536 s
/-- A move begun starts to copy: a page that is near leaves, one that is away is read. -/
def startCopy (p : Nat) (s : State) : State :=
  match moveOf s p with
  | some m =>
    if m.src = 0 then (if m.asked then s else copyOut m (bytesNear s p) s)
    else if m.reading || m.asked then s else readSource m s
  | none => s
/-- What the source of a page has returned: the answers of the pool, or the bytes of a host. -/
def sourceGot (s : State) (m : Move) (data : List Byte) : Option PoolAns :=
  if !m.reading then none
  else if m.src = 1 then poolGot s (moveKey m.page)
  else if data.length = 65536 then some { data := data } else none
/-- The frame of a page at rest near has been retired (R391). -/
def onRetired (s : State) (p : Nat) : Bool :=
  pgState (page s p) == 1 && s.tier.retired.contains (1048576 * stackOf s p + fld (pgLoc (page s p)) 0 19)
/-- An eviction that a promotion waits for, if it is this page's to this tier. -/
def demandEvict (p dest : Nat) (s : State) : Option State :=
  ((wantedPages s (homeOf p)).filter (fun w => pgState (page s w) == 2 && !quotaRoom s 0 (pgCtx (page s w)))).findSome? (fun w =>
    (evictOne (pgCtx (page s w)) 4 s).filter (fun t => (moveOf t p).any (fun m => m.dest == dest)))
/-- A page that requests wait for is promoted, one on a retired frame goes to the pool regardless of quota, a victim goes where it is sent; a move begun starts to copy. -/
def effPageMoveStart (page_ dest : Nat) (s : State) : State :=
  if (moveOf s page_).isSome then startCopy page_ s
  else if dest = 0 then (if (heldFor s page_).isEmpty then s else promote page_ s)
  else if onRetired s page_ then
    (if dest = 1 then ((tryMove page_ 1 7 none true s).map (startCopy page_)).getD s else s)
  else ((demandEvict page_ dest s).map (startCopy page_)).getD s
/-- A page whose move is over: its job has moved one page more. -/
def countMoved (m : Move) (s : State) : State :=
  match m.job with
  | none => s
  | some j => if jobState (tierJob s j) = 1 then setTierJob j (setFld (tierJob s j) 224 32 (fld (tierJob s j) 224 32 + 1)) s else s
/-- LOC and STATE flip in one step: the move is off the list and its source free. -/
def flipPage (m : Move) (s : State) : State :=
  let v := page s m.page
  let s := freePlaceOf m.src m.page (pgLoc v) { s with tier := { s.tier with moves := s.tier.moves.filter (fun x => x.page != m.page) } }
  let v := setFld (setFld (setFld (setFld v 0 3 (if m.dest = 0 then 1 else 2)) 3 2 m.dest) 5 2 0) 32 48 m.loc
  countMoved m (setPage m.page (if m.dest = 0 then setFld v 7 1 0 else v) s)
/-- A page's bytes in the frame that it has flipped to. -/
def fillFrame (p : Nat) (data : List Byte) (s : State) : State :=
  let a := 65536 * frameKey s (stackOf s p) (fld (pgLoc (page s p)) 0 19)
  { s with mf := { s.mf with
    hbm := memWrite s.mf.hbm a data
    poison := s.mf.poison.filter (fun l => l / 1024 != a / 65536) } }
/-- A copy that could not be written: the page rests where it was (log 56). -/
def giveUpMove (p : Nat) (s : State) : State :=
  let v := page s p
  let s := dropMove p s
  setPage p (setFld (setFld v 0 3 (if pgTier v = 0 then 1 else 2)) 5 2 0) s
/-- The copy is made and the page flips; what waits for it, or for room, goes on. A move between the pool and the host is read first and written then. -/
def effPageMoveFlip (page_ : Nat) (data : List Byte) (s : State) : State :=
  match moveOf s page_ with
  | none => s
  | some m =>
    let go := fun (s : State) =>
      let s := serveHeld page_ s
      -- a page of a coherent extent does not stay away (R170)
      retryPromotions (homeOf page_) (if pgFixed (page s page_) then promote page_ s else s)
    if !m.asked then
      match sourceGot s m data with
      | none => s
      | some r =>
        if r.status ≠ stOK then s
        else
          let s := dropRead (moveKey page_) s
          if m.dest = 0 then go (fillFrame page_ r.data (flipPage m s)) else copyOut m r.data s
    else if ownOpen s 9 page_ then s
    else if m.failed.isSome then go (giveUpMove page_ s)
    else go (flipPage m s)
/-- The source of a move cannot be read: a piece of it in the pool ended with another status than OK behind its retries, or the read of a host failed (R390). -/
def effPageLost (page_ : Nat) (s : State) : State :=
  match moveOf s page_ with
  | some m =>
    if !m.reading || m.asked || (m.src == 1 && !(poolGot s (moveKey page_)).any (fun r => r.status != stOK)) then s
    else retryPromotions (homeOf page_) (losePage page_ (dropRead (moveKey page_) s))
  | none => s
/-- Requests held for longer than TIER_HOLD are answered BUSY_RETRY (R387). -/
def effTierHoldTimeout (die : Nat) (s : State) : State :=
  let r := (mget [] die s.tier.held).partition (fun h => decide (h.at_ + tierHold s < now s))
  r.1.foldl (fun s h => refuseAt (homeEp die) h.pkt stBusy 0 s) { s with tier := { s.tier with held := mset [] die r.2 s.tier.held } }

/-! ### Jobs (Table 14-6, R398-R400) -/

def tjTo (v : Nat) : Nat := fld v 4 2
def tjDepth (v : Nat) : Nat := fld v 10 7
def tjCtx (v : Nat) : Nat := fld v 17 10
def tjFirst (v : Nat) : Nat := fld v 64 32
def tjPages (v : Nat) : Nat := fld v 96 32
def tjAck (v : Nat) : Nat := fld v 192 32
/-- A job runs with an operation, is not over, and its context is OPEN. -/
def tierRuns (s : State) (j op : Nat) : Bool :=
  jobState (tierJob s j) == 1 && jobOp (tierJob s j) == op && (tierRun s j).fin.isNone && ctxState s (tjCtx (tierJob s j)) == 1
/-- A job is over with a status. -/
def endTier (j st : Nat) (s : State) : State := setTierRun j { tierRun s j with fin := some st } s
/-- A page is the job's to name. -/
def mayName (s : State) (j p : Nat) : Bool :=
  decide (p < 67108864) && pgState (page s p) != 0 && (tjCtx (tierJob s j) == 0 || pgCtx (page s p) == tjCtx (tierJob s j))
/-- MOVE takes its next page: one at rest in TO is behind, a FIXED one or another's ends the job with VIOLATION, a full quota with BUSY_RETRY. -/
def effTierMove (job : Nat) (s : State) : State :=
  let v := tierJob s job
  let x := tierRun s job
  let p := tjFirst v + x.at_
  let w := page s p
  if !tierRuns s job 1 then s
  else if tjTo v = 3 then endTier job stViolation s
  else if tjPages v ≤ x.at_ then (if s.tier.moves.any (fun m => m.job == some job) then s else endTier job stOK s)
  else if !mayName s job p then endTier job stViolation s
  else if pgState w = 3 then s
  else if restTier w = tjTo v then setTierRun job { x with at_ := x.at_ + 1 } s
  else if pgFixed w then endTier job stViolation s
  else match tryMove p (tjTo v) 4 (some job) false s with
    | some t => startCopy p t
    | none => endTier job stBusy s
/-- Pages that an order entry names, none where its extent is not in tier space or does not hold them. -/
def entPages (s : State) (e : OrderEnt) : Option (List Nat) :=
  let v := extent s e.ext
  let a := 1024 * exBase v + e.first
  if exState v = 0 ∨ exNode v ≠ s.boot.node ∨ 1024 * exSize v < e.first + e.lines then none
  else if e.lines = 0 then some []
  else some ((List.range ((a + e.lines - 1) / 1024 - a / 1024 + 1)).map (a / 1024 + ·))
/-- What a PREFETCH job does next. -/
inductive Ahead where
  /-- Every page of its window is near or on its way. -/
  | rest
  /-- An order entry is to be read. -/
  | read (ent : Nat)
  /-- A page of its window is to be promoted. -/
  | fetch (page : Nat)
  /-- An entry names no tier-space pages of the extent. -/
  | bad
  deriving DecidableEq, Repr
/-- The walk over the window: `left` pages of it remain behind entry `ent`; pages that are on the way are passed over. -/
def lookAhead (s : State) (x : TierRun) (n : Nat) : Nat → Nat → Nat → Ahead
  | 0, _, _ => .rest
  | f + 1, ent, left =>
    if n ≤ ent ∨ left = 0 then .rest
    else match mfind? ent x.ents with
      | none => .read ent
      | some e =>
        match entPages s e with
        | none => .bad
        | some l =>
          match (l.take left).find? (fun p => pgState (page s p) != 1 && pgState (page s p) != 3) with
          | some p => .fetch p
          | none => lookAhead s x n f (ent + 1) (left - l.length)
/-- Every page of the last entry rests near. -/
def lastNear (s : State) (x : TierRun) (n : Nat) : Bool :=
  match mfind? (n - 1) x.ents with
  | none => false
  | some e => ((entPages s e).getD []).all (fun p => pgState (page s p) == 1)
/-- Job number of a tier job's read of its order. -/
def tierKey (job : Nat) : Nat := 2 ^ 28 + job
/-- PREFETCH walks its order from the entry behind ACK: it reads the entry it stands at, or promotes the next page of its window. -/
def effTierPrefetch (job : Nat) (s : State) : State :=
  let v := tierJob s job
  let x := tierRun s job
  let n := tjFirst v
  if !tierRuns s job 2 then s
  else if n = 0 ∨ lastNear s x n then endTier job stOK s
  else match lookAhead s x n (x.ents.length + 1) ((tjAck v + 1) % 2 ^ 32) (tjDepth v) with
    | .rest => s
    | .bad => endTier job stViolation s
    | .read ent =>
      let a := fld v 128 64
      match poolGot s (tierKey job) with
      | none => askPool (tierKey job) (engineThread s 0) (tjCtx v) (setFld a 14 42 ((paLaddr a + ent / 2) % 2 ^ 42)) 64 s
      | some r =>
        if r.status ≠ stOK then endTier job r.status (dropRead (tierKey job) s)
        else setTierRun job { x with ents := mput ent (orderEnt (r.data.drop (32 * (ent % 2)))) x.ents } (dropRead (tierKey job) s)
    | .fetch p =>
      if !mayName s job p then endTier job stViolation s
      else match tryMove p 0 4 (some job) false s with
        | some t => startCopy p t
        | none =>
          if evicting s (pgCtx (page s p)) then s else (evictOne (pgCtx (page s p)) 4 s).getD s
/-- A job that is over, or whose context is closing, is DONE with its status. -/
def effTierJobDone (job : Nat) (s : State) : State :=
  let v := tierJob s job
  let x := tierRun s job
  let done := fun (st : Nat) =>
    let t := setTierJob job (setFld (setFld v 0 2 2) 6 4 st) s
    { t with tier := { t.tier with runs := mdel job t.tier.runs } }
  if jobState v ≠ 1 then s
  else match x.fin with
    | some st => done st
    | none => if ctxState s (tjCtx v) = 1 then s else done stContextGone

/-! ### Quotas (R395-R397) -/

/-- Pages of a context at rest in a far tier. -/
def restingFar (s : State) (c tier : Nat) : List Nat :=
  (s.tier.pages.filter (fun e => pgState e.2 == 2 && pgTier e.2 == tier && pgCtx e.2 == c)).map (·.1)
/-- Moves of a context's pages out of a tier that are under way. -/
def leaving (s : State) (tier : Nat) (mine : Nat → Bool) : Nat := (s.tier.moves.filter (fun m => m.src == tier && mine (page s m.page))).length
/-- A context holds more near pages than its quota, or the compatibility pool more than its frames, beyond those on their way out. -/
def overNear (s : State) (c : Nat) : Bool :=
  if qShared s c then decide (sharedFrames s + leaving s 0 pgShared < sharedUsed s)
  else decide (fld (quota s c) 0 22 + leaving s 0 (fun v => pgCtx v == c) < nearUsed s c)
/-- A page of a far tier above its quota goes to the other far tier (log 56). -/
def evictFar (c tier : Nat) (s : State) : Option State :=
  let used := if tier = 1 then poolUsedBy s c else hostUsedBy s c
  let q := if tier = 1 then fld (quota s c) 22 32 else fld (quota s c) 54 32
  if q + leaving s tier (fun v => pgCtx v == c) < used then
    (restingFar s c tier).head?.bind (fun p => tryMove p (3 - tier) 7 none false s)
  else none
/-- One page of a context above its quota begins its eviction on TC7. -/
def effQuotaEvict (ctx : Nat) (s : State) : State :=
  if overNear s ctx then
    match evictOne ctx 7 s with
    | some t => (t.tier.moves.map (·.page)).foldl (fun t p => startCopy p t) t
    | none => s
  else match evictFar ctx 1 s with
    | some t => t
    | none => (evictFar ctx 2 s).getD s

/-- PAGE_MOVE_START (R388). -/
def execPageMoveStart (page : Nat) (dest : Nat) (s : State) : Host.Outcome State Fault Refusal :=
  unit (decide (page < 67108864) && decide (dest < 3)) s (effPageMoveStart page dest s)

/-- PAGE_MOVE_FLIP (R388). -/
def execPageMoveFlip (page : Nat) (data : List Byte) (s : State) : Host.Outcome State Fault Refusal :=
  unit (decide (page < 67108864)) s (effPageMoveFlip page data s)

/-- PAGE_LOST (R390). -/
def execPageLost (page : Nat) (s : State) : Host.Outcome State Fault Refusal :=
  unit (decide (page < 67108864)) s (effPageLost page s)

/-- TIER_HOLD_TIMEOUT (R387). -/
def execTierHoldTimeout (die : Nat) (s : State) : Host.Outcome State Fault Refusal :=
  unit (isCoreDie die) s (effTierHoldTimeout die s)

/-- TIER_MOVE (R399). -/
def execTierMove (job : Nat) (s : State) : Host.Outcome State Fault Refusal :=
  unit (decide (job < 16)) s (effTierMove job s)

/-- TIER_PREFETCH (R400). -/
def execTierPrefetch (job : Nat) (s : State) : Host.Outcome State Fault Refusal :=
  unit (decide (job < 16)) s (effTierPrefetch job s)

/-- TIER_JOB_DONE (R399). -/
def execTierJobDone (job : Nat) (s : State) : Host.Outcome State Fault Refusal :=
  unit (decide (job < 16)) s (effTierJobDone job s)

/-- QUOTA_EVICT (R395). -/
def execQuotaEvict (ctx : Nat) (s : State) : Host.Outcome State Fault Refusal :=
  unit (isCtx ctx) s (effQuotaEvict ctx s)


end Sys2Proof.Machine
end

