-- ==== Sys2Proof/Machine/Time.lean ====
section
/-!
DEFINITION. Meanings of the module-time commands: followers and holdover (R54, R56).
-/
namespace Sys2Proof.Machine

/-- A correction of a follower, with its record by Chervil (R54, R609). -/
def followerRecord (f : Nat) (corr : Int) (s : State) : State := emit 6 0x1011 1 f (intBits 32 corr) 0 0 s
/-- One follower compared with the reference: more than 8 ns behind is stepped forward, more than 8 ns ahead stops until the reference reaches it (R54). -/
def checkFollower (f : Nat) (off : Int) (s : State) : State :=
  let s := { s with clk := { s.clk with offs := mset 0 f off s.clk.offs } }
  if off < -8 then followerRecord f (-off) { s with clk := { s.clk with offs := mdel f s.clk.offs, held := eraseSet f s.clk.held } }
  else if 8 < off then
    if s.clk.held.contains f then s
    else followerRecord f (-off) { s with clk := { s.clk with held := insertSet f s.clk.held } }
  else { s with clk := { s.clk with held := if off ≤ 0 then eraseSet f s.clk.held else s.clk.held } }
/-- The comparison of every 1 ms (R54). -/
def effFollowerCheck (offsets : List Int) (s : State) : State :=
  (List.range 6).foldl (fun s f => checkFollower f (offsets.getD f 0) s) s
/-- The holdover record of the reference counter (R56, Table 22-4). -/
def holdoverRecord (entered : Bool) (s : State) : State := emit 6 0x1010 4 (b2n entered) 0 0 0 s
/-- FREFCLK is gone for 50 ns: module time goes on from the oscillator (R56). -/
def effHoldoverEnter (s : State) : State :=
  onlyIf (!s.clk.holdover && s.boot.pwrgd) s
    (holdoverRecord true (modEdges s { s with clk := { s.clk with holdover := true } }))
/-- FREFCLK is back; counting goes on from it without a step (R56). -/
def effHoldoverExit (s : State) : State :=
  onlyIf s.clk.holdover s (holdoverRecord false { s with clk := { s.clk with holdover := false } })

/-- FOLLOWER_CHECK (R54). -/
def execFollowerCheck (offsets : List Int) (s : State) : Host.Outcome State Fault Refusal :=
  unit (offsets.length == 6) s (effFollowerCheck offsets s)

/-- HOLDOVER_ENTER (R56). -/
def execHoldoverEnter (s : State) : Host.Outcome State Fault Refusal :=
  unit (true) s (effHoldoverEnter s)

/-- HOLDOVER_EXIT (R56). -/
def execHoldoverExit (s : State) : Host.Outcome State Fault Refusal :=
  unit (true) s (effHoldoverExit s)


end Sys2Proof.Machine
end

