-- ==== Sys2Proof/Machine/Waiting.lean ====
section
/-!
DEFINITION. The end of a handover of Carnelian: the incoming core takes the token and serves what has waited (R468-R470).
-/
namespace Sys2Proof.Machine

/-- What a message that has waited for the incoming core does: the same as without the wait. -/
def serveMessage (i : Message) (s : State) : State :=
  match i with
  | .getVersion iface => effGetVersion iface s
  | .getCapabilities iface => effGetCapabilities iface s
  | .negotiateAlgorithms iface offered => effNegotiateAlgorithms iface offered s
  | .getDigests iface => effGetDigests iface s
  | .getCertificate iface slot off len => effGetCertificate iface slot off len s
  | .challenge iface slot nonce => effChallenge iface slot nonce s
  | .getMeasurements iface index => effGetMeasurements iface index s
  | .keyExchange iface slot => effKeyExchange iface slot s
  | .finish iface sess verify => effFinish iface sess verify s
  | .heartbeat iface sess => effHeartbeat iface sess s
  | .keyUpdate iface sess op => effKeyUpdate iface sess op s
  | .endSession iface sess => effEndSession iface sess s
  | .respondIfReady iface => effRespondIfReady iface s
  | .chunkSend iface seq last chunk => effChunkSend iface seq last chunk s
  | .chunkGet iface seq => effChunkGet iface seq s
  | .lockInterfaceRequest port vf => effLockInterfaceRequest port vf s
  | .startInterfaceRequest port vf => effStartInterfaceRequest port vf s
  | .stopInterfaceRequest port vf => effStopInterfaceRequest port vf s
  | .getTdispVersion port vf => effGetTdispVersion port vf s
  | .getTdispCapabilities port vf => effGetTdispCapabilities port vf s
  | .getDeviceInterfaceReport port vf => effGetDeviceInterfaceReport port vf s
  | .getDeviceInterfaceState port vf => effGetDeviceInterfaceState port vf s
  | .getReport iface sess ctx nonce vf => effGetReport iface sess ctx nonce vf s
  | .keyUpload iface sess ctx k1 k2 vf => effKeyUpload iface sess ctx k1 k2 vf s
  | .admitBundle iface sess req => effAdmitBundle iface sess req s
  | .retireBundle iface sess svc => effRetireBundle iface sess svc s
  | .enrol iface sess root entry key => effEnrol iface sess root entry key s
  | .unenrol iface sess root entry => effUnenrol iface sess root entry s
  | .fwWrite iface sess req => effFwWrite iface sess req s
  | .fwActivate iface sess image => effFwActivate iface sess image s
  | .setPolicy iface sess policy => effSetPolicy iface sess policy s
  | .controlRestart iface sess kind => effControlRestart iface sess kind s
  | .coreReset iface sess kind => effCoreReset iface sess kind s
  | .ideKmQuery port => effIdeKmQuery port s
  | .keyProg port stream dir set key => effKeyProg port stream dir set key s
  | .kSetGo port stream dir set => effKSetGo port stream dir set s
  | .kSetStop port stream dir set => effKSetStop port stream dir set s
/-- The messages that have waited, in the order they came. -/
def serveWaiting (s : State) : State :=
  s.sec.waiting.foldl (fun s i => serveMessage i s) { s with sec := { s.sec with waiting := [] } }
/-- The incoming core takes the token and serves what has waited. -/
def effHandoverDone (s : State) : State :=
  match s.sec.handover with
  | none => s
  | some _ =>
    let a := 1 - s.sec.active
    serveWaiting (serveKeys { s with
      sec := { s.sec with active := a, token := a, handover := none, servingAt := now s }
      chv := { s.chv with beats := mput (8 + a) (now s) s.chv.beats } })

/-- HANDOVER_DONE (R470). -/
def execHandoverDone (s : State) : Host.Outcome State Fault Refusal :=
  unit (true) s (effHandoverDone s)


end Sys2Proof.Machine
end

