-- ==== Sys2Proof/Machine/YStream.lean ====
section
/-!
DEFINITION. Meanings of the stream and operation-control instructions (R210, R250-R257, R302, R326).
-/
namespace Sys2Proof.Machine

/-! ### RECV (R250, R254) -/

/-- The running handler's event carries a payload that may be read: a BLOCK or MSG, and no FETCHED block that failed. -/
def hasPayload (h : Handler) : Bool := (h.ev.ev == 0 || h.ev.ev == 3) && h.ev.hasData
def effRecv (site : Site) (s : State) : State :=
  issue 0xA0 onTile (fun w => fOpc + fD + fLast w + fPred w) (fun x w s => onHandler x s (fun t h =>
    let beat := if wImmf w then wImm w else (sreg s x (wB w)).toNat % 8
    if !okLast w || decide (7 < beat) || !hasPayload h then .fault 4
    else if fld h.ev.pmask (2 * beat) 2 ≠ 0 then .fault 8
    else match predOf h w with
      | none => .fault 3
      | some pm => keep t (setV h (wD w) (pickBytes (laneSel pm) (bytesNat (padTo 128 (h.ev.data.drop (128 * beat)))) (oldV h (wD w)))) s)) site s

/-! ### SEND and FWD (R251-R253, R302) -/

/-- The destination policy allows a destination (Table 17-4). -/
def mayAddress (s : State) (c dst : Nat) : Bool :=
  let v := entry s 0x0030 c
  let own := dst == s.boot.node || (fld (entry s 0x0010 dst) 0 3 == 4 && fld (entry s 0x0018 (fld (entry s 0x0010 dst) 3 12)) 28 10 == c)
  match fld v 18 2 with
  | 0 => true
  | 1 => own || decide (fld v 20 14 ≤ dst ∧ dst ≤ fld v 34 14)
  | 2 => own
  | _ => false
/-- An opcode a site may send (R252, R297, R324, R412). -/
def sendable (x : Site) (p : Packet) : Bool :=
  let op := pOp p
  op == opOPBLK || (op == opOPMSG && pMtype p != 0) || op == opCBLK || op == opCNOTE || op == opSVCREQ || op == opSVCCMP
    || (op == opMAPMSG && onControl x && pCtx p == 0)
/-- The packet of a destination word and a chunk word (R251). -/
def wordPacket (s : State) (x : Site) (dw cw : Nat) (data : List Byte) : Packet :=
  let c := siteCtx s x
  mkPkt (fld dw 8 3) (fld dw 0 8) c (ctxKgen s c) s.tab.cur (fld dw 11 14) s.boot.node 0 0 (fld dw 32 32 + 2 ^ 32 * fld cw 0 32) data
/-- A packet that R252 lets a site send. -/
def sendOk (s : State) (x : Site) (p : Packet) : Bool :=
  sendable x p && classOk p && lengthOk p && fld (entry s 0x0010 (pDst p)) 0 3 != 0 && mayAddress s (pCtx p) (pDst p)
    && !(pOp p == opCBLK && hfld p 180 1 == 1 && (byteWidth (hfld p 188 4)).isNone)
/-- A bitmap block of bytes in a byte format (R300). -/
def bitmapBlock (fmt : Nat) (data : List Byte) : List Byte :=
  let w := (byteWidth fmt).getD 1
  let e := data.length / w
  let els := chunksOf w e data
  let hit := (List.range e).filter (fun i => (els.getD i []).any (· != 0))
  let pos := natBytes (8 * ceilDiv e 64) (ofBitList hit)
  natBytes 8 (1 + 2 ^ 8 * data.length + 2 ^ 32 * hit.length) ++ pos ++ (hit.map (fun i => els.getD i [])).flatten
/-- A CBLK with SPARSE set as it is sent: a bitmap block, or dense with SPARSE and FMT clear where that is not shorter (R302). -/
def sparseSend (p : Packet) : Packet :=
  if pOp p == opCBLK && hfld p 180 1 == 1 then
    let b := bitmapBlock (hfld p 188 4) p.payload
    if b.length < p.payload.length then
      let d := padTo (64 * ceilDiv b.length 64) b
      setH { p with payload := d } 8 11 d.length
    else setH (setH p 180 1 0) 188 4 0
  else p
/-- A tag for an SVCREQ of a control thread (R326); other packets go without. -/
def sendTag (s : State) (x : Site) (p : Packet) : Option Nat :=
  match x with
  | .thread h => if pOp p == opSVCREQ then freeTag s (threadTags h) 512 (s.thread h).tagNext else some 0
  | _ => some 0
/-- The tag is taken: until its SVCCMP, or with NOCMP until none can come any more (R161, R325). -/
def takeTag (x : Site) (p : Packet) (tag : Nat) (s : State) : State :=
  match x with
  | .thread h =>
    if pOp p == opSVCREQ then
      let s := s.modThread h (fun t => { t with tagNext := (t.tagNext + 1) % 512 })
      if hfld p 136 1 == 1 then
        { s with mf := { s.mf with tagHold := mput tag (now s + ownTimeout s (pCtx p) + pathBound s) s.mf.tagHold } }
      else s.modThread h (fun t => { t with tags := insertSet tag t.tags })
    else s
  | _ => s
/-- An SVCCMP that a service's thread sends completes the oldest request to it from that node and context: it carries the request's TAG, and the request leaves the mailbox (R325, R326; log 47). -/
def completeMail (x : Site) (p : Packet) (s : State) : Packet × State :=
  match x with
  | .thread h =>
    let v := hfld p 128 8
    if pOp p == opSVCCMP && (s.thread h).svc == v then
      match takeMailIf v (fun m => !m.nocmp && m.src == pDst p && m.ctx == pCtx p) s with
      | some (m, t) => (setH p 65 20 m.tag, t)
      | none => (p, s)
    else (p, s)
  | _ => (p, s)
/-- In a handler of cause CLOSING (R210). -/
def inClosing (s : State) (x : Site) : Option Nat :=
  match x with
  | .tile t => match (s.tile t).run with
    | some h => if h.ev.ev = 4 ∧ h.ev.code = 10 then some h.sends else none
    | none => none
  | _ => none
/-- A send that could not be admitted at once. -/
def wouldStall (x : Site) (p : Packet) (s : State) : Bool :=
  let k := qkey (siteEp x) p.tc
  decide ((mget [] k s.sw.stalled).length < (mget [] k (sendFrom (siteEp x) p s).sw.stalled).length)
/-- A packet sent: a CLOSING handler executes at most four sends, none of which stalls (R210, R253). -/
def sendPacket (x : Site) (p : Packet) (s : State) : YOut :=
  let s := traceItem x (.packet p) s
  match inClosing s x, x with
  | some _, .tile t =>
    let s := modRun t (fun h => { h with sends := h.sends + 1 }) s
    if wouldStall x p s then .next (tileCount t 9 1 s) else .next (sendFrom (siteEp x) p s)
  | _, _ =>
    match sendTag s x p with
    | none => .stall
    | some tag =>
      let r := completeMail x (setH p 65 20 tag) s
      .next (sendOwned x r.1 (takeTag x p tag r.2))
/-- A SEND or FWD unless it is the fifth of a CLOSING handler, which is not executed: the operation goes to ENDING with CONTEXT_GONE (R210). -/
def unlessFifth (s : State) (x : Site) (y : YOut) : YOut :=
  match inClosing s x, x with
  | some n, .tile t =>
    if 4 ≤ n then
      match (s.tile t).run with
      | some h => .next (endOp (4096 * t + h.slot) stContextGone 10 s)
      | none => .stall
    else y
  | _, _ => y
def effSend (site : Site) (s : State) : State :=
  issue 0xA1 onTileControl (fun _ => fOpc + fD + fA + fB + fImm) (fun x w s =>
    let dw := (sreg s x (wD w)).toNat
    let n := sendLen dw
    let a := memAddr s x w
    if !(okS (wD w) && okS (wA w) && okS (wB w)) then .fault 4
    else unlessFifth s x (
      if !memOk s x a n 8 then .fault 2
      else if readPoison s x a n then .fault 8
      else
        let p := wordPacket s x dw (sreg s x (wB w)).toNat (readMem s x a n)
        if sendOk s x p then sendPacket x (sparseSend p) s else .fault 9)) site s
def effFwd (site : Site) (s : State) : State :=
  issue 0xA4 onTile (fun _ => fOpc + fD + fB) (fun x w s => onHandler x s (fun _ h =>
    let dw := (sreg s x (wD w)).toNat
    if !(okS (wD w) && okS (wB w)) || !hasPayload h then .fault 4
    else unlessFifth s x (
      if h.ev.pmask ≠ 0 then .fault 8
      else
        let p := wordPacket s x dw (sreg s x (wB w)).toNat h.ev.data
        if fld dw 25 7 = 0 ∧ sendOk s x p then sendPacket x (sparseSend p) s else .fault 9))) site s

/-! ### FETCH and STORE (R255) -/

/-- The pool address word is well formed: reserved bits zero, and a class its context may use (R143). -/
def poolOk (s : State) (x : Site) (pw : Nat) : Bool :=
  let tc := fld pw 58 3
  let c := siteCtx s x
  fld pw 61 3 == 0 && (tc == 0 || tc == 3 || tc == 4 || tc == 5 || (tc == 7 && (c == 0 || c == 1023)))
/-- The operation of the site has had a CLOSING fault: FETCH, STORE, ARM and TIMER are refused (R210). -/
def siteClosing (s : State) (x : Site) : Bool :=
  match x with
  | .tile t => match (s.tile t).run with
    | some h => (s.slot (4096 * t + h.slot)).closing
    | none => false
  | _ => false
/-- The request of a pool address word. -/
def poolPacket (s : State) (x : Site) (op pw : Nat) (data : List Byte) : Packet :=
  let c := siteCtx s x
  mkPkt (fld pw 58 3) op c (ctxKgen s c) s.tab.cur (fld pw 0 14) s.boot.node 0 0 (fld pw 14 42 + 2 ^ 42 * fld pw 56 2) data
/-- A pool request issued with a tag of the site, or a stall until one is free (R201, R253). -/
def poolRequest (x : Site) (p : Packet) (kind arg : Nat) (s : State) : YOut :=
  let s := traceItem x (.packet p) s
  match x with
  | .tile t =>
    match freeTag s (2048 * t) 2048 (s.tile t).tagNext, (s.tile t).run with
    | some tag, some h =>
      let n := 4096 * t + h.slot
      let s := (s.modTile t (fun y => { y with tagNext := (y.tagNext + 1) % 2048 })).modSlot n (fun y => { y with outst := y.outst + 1 })
      .next (issueOwn tag { pkt := p, user := kind, unit := n, arg := arg, gen := (s.slot n).gen } s)
    | _, _ => .stall
  | _ =>
    let k := siteThread x
    match freeTag s (threadTags k) 512 (s.thread k).tagNext with
    | some tag =>
      .next (issueOwn tag { pkt := p, user := 2 + kind, unit := k } (s.modThread k (fun y => { y with tagNext := (y.tagNext + 1) % 512 })))
    | none => .stall
/-- The place of a FETCH's lines in its chunk is one the operation has, and the chunk word's reserved bits are zero (log 70). -/
def placeOk (s : State) (x : Site) (cw nl : Nat) : Bool :=
  match x with
  | .tile t => match (s.tile t).run with
    | some h => fld cw 28 4 == 0 && decide (fld cw 16 4 + nl + 1 ≤ 16) && decide (fld cw 0 16 < (s.slot (4096 * t + h.slot)).ccount)
    | none => false
  | _ => fld cw 28 4 == 0 && decide (fld cw 16 4 + nl + 1 ≤ 16)
def effFetch (site : Site) (s : State) : State :=
  issue 0xA2 onTileControl (fun _ => fOpc + fD + fB) (fun x w s =>
    let pw := (sreg s x (wD w)).toNat
    let cw := (sreg s x (wB w)).toNat
    if !(okS (wD w) && okS (wB w)) || siteClosing s x || !poolOk s x pw || !placeOk s x cw (fld pw 56 2) then .fault 4
    else poolRequest x (poolPacket s x (if fld pw 56 2 = 0 then opRD64 else opRDN) pw []) 0 (fld cw 0 20) s) site s
def effStore (site : Site) (s : State) : State :=
  issue 0xA3 onTileControl (fun _ => fOpc + fD + fA + fImm) (fun x w s =>
    let pw := (sreg s x (wD w)).toNat
    let n := 64 * (fld pw 56 2 + 1)
    let a := memAddr s x w
    if !(okS (wD w) && okS (wA w)) || siteClosing s x || !poolOk s x pw then .fault 4
    else if !memOk s x a n 64 then .fault 2
    else if readPoison s x a n then .fault 8
    else poolRequest x (poolPacket s x (if fld pw 56 2 = 0 then opWR64 else opWRN) pw (readMem s x a n)) 1 0 s) site s

/-! ### Operation control (R256, R257) -/

/-- FIRST, COUNT and EXPECTED of an ARM, none where a register code is out of range. -/
def armOps (s : State) (x : Site) (w : Nat) : Option (Nat × Nat × Nat) :=
  if wImmf w then some (fld w 16 12, fld w 32 12, fld w 44 16)
  else if okS (wD w) && okS (wA w) && okS (wB w) then
    some ((sreg s x (wA w)).toNat % 4096, (sreg s x (wB w)).toNat % 4096, (sreg s x (wD w)).toNat % 65536)
  else none
/-- Lines of scratch within bytes of a window lose their validity. -/
def clearLines (t a n : Nat) (s : State) : State :=
  let ls := memLinesOf s t a n
  s.modTile t (fun y => { y with valid := y.valid.filter (fun l => !ls.contains l) })
/-- ARM: CLR clears the bytes FIRST x S to (FIRST + COUNT) x S - 1 with COUNT as encoded (R257, log 67). -/
def arm (x : Site) (w : Nat) (s : State) : YOut := onHandler x s (fun t h =>
  let n := 4096 * t + h.slot
  match armOps s x w with
  | none => .fault 4
  | some (first, count, expected) =>
    let stride := 1024 * 2 ^ fld w 60 2
    if siteClosing s x || decide ((s.slot n).ccount < first + count + 1) then .fault 4
    else if bit w 62 && decide ((windowOf s t).2 < (first + count) * stride) then .fault 2
    else
      let s := if bit w 62 then clearLines t (first * stride) (count * stride) s else s
      let base := (s.slot n).cbase
      .next ((List.range (count + 1)).foldl (fun s i =>
        testChunk n (first + i) (s.modTile t (fun y => { y with expected := mset 0 (base + first + i) expected y.expected }))) s))
def effArm (site : Site) (s : State) : State :=
  issue 0xC0 onTile (fun w => fOpc + fImmf + fD + fA + fB + (if wImmf w then 0x7FFFFFFF00000000 else 0x7000000000000000)) arm site s
/-- The handler ends and its operation goes to ENDING: with OK for DONE, unless the handler's cause is CLOSING (R210). -/
def finish_ (t status : Nat) (fails : Bool) (s : State) : State :=
  match (s.tile t).run with
  | none => s
  | some h =>
    if h.ev.ev = 4 ∧ h.ev.code = 10 ∧ !fails then endOp (4096 * t + h.slot) stContextGone 10 s
    else endOp (4096 * t + h.slot) status 0 s
def effDone (site : Site) (s : State) : State :=
  issue 0xC1 onTile (fun _ => fOpc) (fun x _ s => onHandler x s (fun t _ => .next (finish_ t stOK false s))) site s
def effFail (site : Site) (s : State) : State :=
  issue 0xC2 onTile (fun _ => fOpc + fImm) (fun x w s => onHandler x s (fun t _ =>
    if wImm w = 0 ∨ 14 < wImm w then .fault 4 else .next (finish_ t (wImm w) true s))) site s
def effYield (site : Site) (s : State) : State :=
  issue 0xC3 onTile (fun _ => fOpc) (fun x _ s => onHandler x s (fun t h =>
    let n := 4096 * t + h.slot
    if h.ev.ev = 4 ∧ h.ev.code = 10 then .next (leaveHandler t s)
    else .next (raiseEvent n { ev := 5, pc := h.pc } (endHandler t s)))) site s
/-- TIMER: the deadline of the operation or of the thread; zero cancels it (R208, R256). -/
def effTimer (site : Site) (s : State) : State :=
  issue 0xC4 onAll (fun w => fOpc + (if wImmf w then fImmf + fImm else fA)) (fun x w s =>
    let ns := if wImmf w then wImm w else (sreg s x (wA w)).toNat
    let d := if ns = 0 then 2 ^ 64 - 1 else wrapAdd 64 (now s) ns
    if !(wImmf w || okS (wA w)) || siteClosing s x then .fault 4
    else match x with
      | .tile t => onHandler x s (fun _ h => .next (s.modSlot (4096 * t + h.slot) (fun y => { y with deadline := d })))
      | _ => .next (s.modThread (siteThread x) (fun y => { y with deadline := d }))) site s

/-! ### Meanings -/

/-- RECV (R250). -/
def execRecv (site : Site) (s : State) : Host.Outcome State Fault Refusal :=
  unit (isSite site) s (effRecv site s)

/-- SEND (R251). -/
def execSend (site : Site) (s : State) : Host.Outcome State Fault Refusal :=
  unit (isSite site) s (effSend site s)

/-- FETCH (R255). -/
def execFetch (site : Site) (s : State) : Host.Outcome State Fault Refusal :=
  unit (isSite site) s (effFetch site s)

/-- STORE (R255). -/
def execStore (site : Site) (s : State) : Host.Outcome State Fault Refusal :=
  unit (isSite site) s (effStore site s)

/-- FWD (R251). -/
def execFwd (site : Site) (s : State) : Host.Outcome State Fault Refusal :=
  unit (isSite site) s (effFwd site s)

/-- ARM (R257). -/
def execArm (site : Site) (s : State) : Host.Outcome State Fault Refusal :=
  unit (isSite site) s (effArm site s)

/-- DONE (R256). -/
def execDone (site : Site) (s : State) : Host.Outcome State Fault Refusal :=
  unit (isSite site) s (effDone site s)

/-- FAIL (R256). -/
def execFail (site : Site) (s : State) : Host.Outcome State Fault Refusal :=
  unit (isSite site) s (effFail site s)

/-- YIELD (R207). -/
def execYield (site : Site) (s : State) : Host.Outcome State Fault Refusal :=
  unit (isSite site) s (effYield site s)

/-- TIMER (R208). -/
def execTimer (site : Site) (s : State) : Host.Outcome State Fault Refusal :=
  unit (isSite site) s (effTimer site s)


end Sys2Proof.Machine
end

