-- ==== Sys2Proof/Machine/Dispatch.lean ====
section
/-!
DEFINITION. The dispatch of commands: one arm per constructor.
-/
namespace Sys2Proof.Machine

def exec (i : Instr) (s : State) : Host.Outcome State Fault Refusal :=
  match i with
  | .tempSample readings => Sys2Proof.Machine.execTempSample readings s
  | .delayCodeApply line => Sys2Proof.Machine.execDelayCodeApply line s
  | .droopDetect sensor mv => Sys2Proof.Machine.execDroopDetect sensor mv s
  | .restoreStep sensor => Sys2Proof.Machine.execRestoreStep sensor s
  | .powerCapTick => Sys2Proof.Machine.execPowerCapTick s
  | .thermalLimitTick => Sys2Proof.Machine.execThermalLimitTick s
  | .thermalPortShed die => Sys2Proof.Machine.execThermalPortShed die s
  | .thermalPortRestore die => Sys2Proof.Machine.execThermalPortRestore die s
  | .hbmTempSample readings => Sys2Proof.Machine.execHbmTempSample readings s
  | .inputSample mv da => Sys2Proof.Machine.execInputSample mv da s
  | .inputRecover => Sys2Proof.Machine.execInputRecover s
  | .phaseSample phases rails => Sys2Proof.Machine.execPhaseSample phases rails s
  | .heartbeatCheck seen => Sys2Proof.Machine.execHeartbeatCheck seen s
  | .leaseProgressCheck => Sys2Proof.Machine.execLeaseProgressCheck s
  | .thermalTrip sensor => Sys2Proof.Machine.execThermalTrip sensor s
  | .thermalTripClear => Sys2Proof.Machine.execThermalTripClear s
  | .dozeEnter quietNs => Sys2Proof.Machine.execDozeEnter quietNs s
  | .dozeWake loadPct => Sys2Proof.Machine.execDozeWake loadPct s
  | .wakeComplete => Sys2Proof.Machine.execWakeComplete s
  | .sleepEnter => Sys2Proof.Machine.execSleepEnter s
  | .sleepExit => Sys2Proof.Machine.execSleepExit s
  | .followerCheck offsets => Sys2Proof.Machine.execFollowerCheck offsets s
  | .holdoverEnter => Sys2Proof.Machine.execHoldoverEnter s
  | .holdoverExit => Sys2Proof.Machine.execHoldoverExit s
  | .linkFrameReceive port frame => Sys2Proof.Machine.execLinkFrameReceive port frame s
  | .controlFrameReceive port frame => Sys2Proof.Machine.execControlFrameReceive port frame s
  | .controlFrameSend port => Sys2Proof.Machine.execControlFrameSend port s
  | .ackTimeoutReplay port => Sys2Proof.Machine.execAckTimeoutReplay port s
  | .keyUpdateStart port => Sys2Proof.Machine.execKeyUpdateStart port s
  | .signalDetect port => Sys2Proof.Machine.execSignalDetect port s
  | .trainRDone port => Sys2Proof.Machine.execTrainRDone port s
  | .trainRTimeout port => Sys2Proof.Machine.execTrainRTimeout port s
  | .trainFStart port => Sys2Proof.Machine.execTrainFStart port s
  | .trainFHalfDone port => Sys2Proof.Machine.execTrainFHalfDone port s
  | .trainFTimeout port => Sys2Proof.Machine.execTrainFTimeout port s
  | .laneMonitorSample lane mon => Sys2Proof.Machine.execLaneMonitorSample lane mon s
  | .marginScan lane => Sys2Proof.Machine.execMarginScan lane s
  | .laneClassify lane => Sys2Proof.Machine.execLaneClassify lane s
  | .laneFailed lane => Sys2Proof.Machine.execLaneFailed lane s
  | .laneSwap port => Sys2Proof.Machine.execLaneSwap port s
  | .laneNarrow port => Sys2Proof.Machine.execLaneNarrow port s
  | .laneWiden port => Sys2Proof.Machine.execLaneWiden port s
  | .retiredLaneRetrain lane trained => Sys2Proof.Machine.execRetiredLaneRetrain lane trained s
  | .hotSpareRestore lane => Sys2Proof.Machine.execHotSpareRestore lane s
  | .portFence port row => Sys2Proof.Machine.execPortFence port row s
  | .ingressLookup ep vl => Sys2Proof.Machine.execIngressLookup ep vl s
  | .parkedTake ep cls => Sys2Proof.Machine.execParkedTake ep cls s
  | .policerRetest ep cls => Sys2Proof.Machine.execPolicerRetest ep cls s
  | .internalSendAdmit ep cls => Sys2Proof.Machine.execInternalSendAdmit ep cls s
  | .egressSend ep => Sys2Proof.Machine.execEgressSend ep s
  | .decodeTableLoad die slot => Sys2Proof.Machine.execDecodeTableLoad die slot s
  | .gateEntryAdvance ep => Sys2Proof.Machine.execGateEntryAdvance ep s
  | .gateListSwitch ep => Sys2Proof.Machine.execGateListSwitch ep s
  | .portFlush ep => Sys2Proof.Machine.execPortFlush ep s
  | .telemetrySample die => Sys2Proof.Machine.execTelemetrySample die s
  | .rd64 die => Sys2Proof.Machine.execRd64 die s
  | .rdn die => Sys2Proof.Machine.execRdn die s
  | .wr64 die => Sys2Proof.Machine.execWr64 die s
  | .wrn die => Sys2Proof.Machine.execWrn die s
  | .wrp die => Sys2Proof.Machine.execWrp die s
  | .lineWriteback line => Sys2Proof.Machine.execLineWriteback line s
  | .leaseExpire ext => Sys2Proof.Machine.execLeaseExpire ext s
  | .leaseLapse ext => Sys2Proof.Machine.execLeaseLapse ext s
  | .drainComplete ext => Sys2Proof.Machine.execDrainComplete ext s
  | .drainForced ext => Sys2Proof.Machine.execDrainForced ext s
  | .requestTimeout tag => Sys2Proof.Machine.execRequestTimeout tag s
  | .requestRetry tag => Sys2Proof.Machine.execRequestRetry tag s
  | .rds die => Sys2Proof.Machine.execRds die s
  | .rdx die => Sys2Proof.Machine.execRdx die s
  | .wb die => Sys2Proof.Machine.execWb die s
  | .snoopAnswer die => Sys2Proof.Machine.execSnoopAnswer die s
  | .snoopTimeout die line => Sys2Proof.Machine.execSnoopTimeout die line s
  | .pinRetry die line => Sys2Proof.Machine.execPinRetry die line s
  | .agentReclaim agent => Sys2Proof.Machine.execAgentReclaim agent s
  | .opCreate site => Sys2Proof.Machine.execOpCreate site s
  | .opRebind site => Sys2Proof.Machine.execOpRebind site s
  | .opblk tile => Sys2Proof.Machine.execOpblk tile s
  | .opmsg tile => Sys2Proof.Machine.execOpmsg tile s
  | .cblk => Sys2Proof.Machine.execCblk s
  | .fetchResponse tile => Sys2Proof.Machine.execFetchResponse tile s
  | .storeResponse tile => Sys2Proof.Machine.execStoreResponse tile s
  | .handlerStart tile => Sys2Proof.Machine.execHandlerStart tile s
  | .stepLimit tile => Sys2Proof.Machine.execStepLimit tile s
  | .timerExpire slot => Sys2Proof.Machine.execTimerExpire slot s
  | .slotCooling slot => Sys2Proof.Machine.execSlotCooling slot s
  | .slotFree slot => Sys2Proof.Machine.execSlotFree slot s
  | .programLoadDone cluster entry => Sys2Proof.Machine.execProgramLoadDone cluster entry s
  | .smov site => Sys2Proof.Machine.execSmov site s
  | .smovh site => Sys2Proof.Machine.execSmovh site s
  | .sadd site => Sys2Proof.Machine.execSadd site s
  | .ssub site => Sys2Proof.Machine.execSsub site s
  | .smul site => Sys2Proof.Machine.execSmul site s
  | .sand site => Sys2Proof.Machine.execSand site s
  | .sor site => Sys2Proof.Machine.execSor site s
  | .sxor site => Sys2Proof.Machine.execSxor site s
  | .sshl site => Sys2Proof.Machine.execSshl site s
  | .sshr site => Sys2Proof.Machine.execSshr site s
  | .ssra site => Sys2Proof.Machine.execSsra site s
  | .smin site => Sys2Proof.Machine.execSmin site s
  | .smax site => Sys2Proof.Machine.execSmax site s
  | .sld site => Sys2Proof.Machine.execSld site s
  | .sst site => Sys2Proof.Machine.execSst site s
  | .sext site => Sys2Proof.Machine.execSext site s
  | .stime site => Sys2Proof.Machine.execStime site s
  | .br site => Sys2Proof.Machine.execBr site s
  | .brEq site => Sys2Proof.Machine.execBrEq site s
  | .brNe site => Sys2Proof.Machine.execBrNe site s
  | .brLt site => Sys2Proof.Machine.execBrLt site s
  | .brGe site => Sys2Proof.Machine.execBrGe site s
  | .brLtu site => Sys2Proof.Machine.execBrLtu site s
  | .brGeu site => Sys2Proof.Machine.execBrGeu site s
  | .brpAny site => Sys2Proof.Machine.execBrpAny site s
  | .brpNone site => Sys2Proof.Machine.execBrpNone site s
  | .call site => Sys2Proof.Machine.execCall site s
  | .ret site => Sys2Proof.Machine.execRet site s
  | .vadd site => Sys2Proof.Machine.execVadd site s
  | .vsub site => Sys2Proof.Machine.execVsub site s
  | .vmul site => Sys2Proof.Machine.execVmul site s
  | .vfma site => Sys2Proof.Machine.execVfma site s
  | .vmax site => Sys2Proof.Machine.execVmax site s
  | .vmin site => Sys2Proof.Machine.execVmin site s
  | .vcvt site => Sys2Proof.Machine.execVcvt site s
  | .vand site => Sys2Proof.Machine.execVand site s
  | .vor site => Sys2Proof.Machine.execVor site s
  | .vxor site => Sys2Proof.Machine.execVxor site s
  | .vshl site => Sys2Proof.Machine.execVshl site s
  | .vshr site => Sys2Proof.Machine.execVshr site s
  | .vcmp site => Sys2Proof.Machine.execVcmp site s
  | .vsel site => Sys2Proof.Machine.execVsel site s
  | .vbcast site => Sys2Proof.Machine.execVbcast site s
  | .vld site => Sys2Proof.Machine.execVld site s
  | .vst site => Sys2Proof.Machine.execVst site s
  | .vlds site => Sys2Proof.Machine.execVlds site s
  | .vsts site => Sys2Proof.Machine.execVsts site s
  | .plog site => Sys2Proof.Machine.execPlog site s
  | .vred site => Sys2Proof.Machine.execVred site s
  | .vmaxl site => Sys2Proof.Machine.execVmaxl site s
  | .vwsum site => Sys2Proof.Machine.execVwsum site s
  | .vcmpz site => Sys2Proof.Machine.execVcmpz site s
  | .vexp site => Sys2Proof.Machine.execVexp site s
  | .vtopk site => Sys2Proof.Machine.execVtopk site s
  | .srch site => Sys2Proof.Machine.execSrch site s
  | .srchnext site => Sys2Proof.Machine.execSrchnext site s
  | .srchp site => Sys2Proof.Machine.execSrchp site s
  | .peridotSearch die => Sys2Proof.Machine.execPeridotSearch die s
  | .recv site => Sys2Proof.Machine.execRecv site s
  | .send site => Sys2Proof.Machine.execSend site s
  | .fetch site => Sys2Proof.Machine.execFetch site s
  | .store site => Sys2Proof.Machine.execStore site s
  | .fwd site => Sys2Proof.Machine.execFwd site s
  | .arm site => Sys2Proof.Machine.execArm site s
  | .done site => Sys2Proof.Machine.execDone site s
  | .fail site => Sys2Proof.Machine.execFail site s
  | .yield site => Sys2Proof.Machine.execYield site s
  | .timer site => Sys2Proof.Machine.execTimer site s
  | .trd site => Sys2Proof.Machine.execTrd site s
  | .twr site => Sys2Proof.Machine.execTwr site s
  | .tstage site => Sys2Proof.Machine.execTstage site s
  | .tcheck site => Sys2Proof.Machine.execTcheck site s
  | .tcheckEpoch site => Sys2Proof.Machine.execTcheckEpoch site s
  | .tcommit site => Sys2Proof.Machine.execTcommit site s
  | .tcommitEpoch site => Sys2Proof.Machine.execTcommitEpoch site s
  | .tabort site => Sys2Proof.Machine.execTabort site s
  | .lrenew site => Sys2Proof.Machine.execLrenew site s
  | .lscan site => Sys2Proof.Machine.execLscan site s
  | .evwait site => Sys2Proof.Machine.execEvwait site s
  | .threadEventDeliver thread => Sys2Proof.Machine.execThreadEventDeliver thread s
  | .evpost site => Sys2Proof.Machine.execEvpost site s
  | .freeze site => Sys2Proof.Machine.execFreeze site s
  | .thaw site => Sys2Proof.Machine.execThaw site s
  | .autoThaw => Sys2Proof.Machine.execAutoThaw s
  | .threadStop thread ue => Sys2Proof.Machine.execThreadStop thread ue s
  | .kreqAlloc site => Sys2Proof.Machine.execKreqAlloc site s
  | .kreqImport site => Sys2Proof.Machine.execKreqImport site s
  | .kreqShare site => Sys2Proof.Machine.execKreqShare site s
  | .kreqDestroy site => Sys2Proof.Machine.execKreqDestroy site s
  | .kreqRetire site => Sys2Proof.Machine.execKreqRetire site s
  | .kreqQuery site => Sys2Proof.Machine.execKreqQuery site s
  | .kreqReport site => Sys2Proof.Machine.execKreqReport site s
  | .kreqScrub site => Sys2Proof.Machine.execKreqScrub site s
  | .kreqComplete => Sys2Proof.Machine.execKreqComplete s
  | .dmaRead step => Sys2Proof.Machine.execDmaRead step s
  | .dmaWrite step => Sys2Proof.Machine.execDmaWrite step s
  | .fifoPut step => Sys2Proof.Machine.execFifoPut step s
  | .fifoGet step => Sys2Proof.Machine.execFifoGet step s
  | .result step => Sys2Proof.Machine.execResult step s
  | .dmaComplete port write => Sys2Proof.Machine.execDmaComplete port write s
  | .collPlan => Sys2Proof.Machine.execCollPlan s
  | .collRun plan => Sys2Proof.Machine.execCollRun plan s
  | .collFree => Sys2Proof.Machine.execCollFree s
  | .collStop plan => Sys2Proof.Machine.execCollStop plan s
  | .collComplete plan => Sys2Proof.Machine.execCollComplete plan s
  | .phaseStateResume plan => Sys2Proof.Machine.execPhaseStateResume plan s
  | .svcreq => Sys2Proof.Machine.execSvcreq s
  | .svccmp => Sys2Proof.Machine.execSvccmp s
  | .serviceSwitch bundle => Sys2Proof.Machine.execServiceSwitch bundle s
  | .serviceAdopt svc => Sys2Proof.Machine.execServiceAdopt svc s
  | .wsOpen => Sys2Proof.Machine.execWsOpen s
  | .wsAdvance => Sys2Proof.Machine.execWsAdvance s
  | .wsClose => Sys2Proof.Machine.execWsClose s
  | .streamFetchIssue stream => Sys2Proof.Machine.execStreamFetchIssue stream s
  | .streamResponse => Sys2Proof.Machine.execStreamResponse s
  | .wsdataDecode stream leg => Sys2Proof.Machine.execWsdataDecode stream leg s
  | .streamBlockRefetch stream => Sys2Proof.Machine.execStreamBlockRefetch stream s
  | .streamEnd stream => Sys2Proof.Machine.execStreamEnd stream s
  | .expertPlan => Sys2Proof.Machine.execExpertPlan s
  | .expertDispatch => Sys2Proof.Machine.execExpertDispatch s
  | .expertCombine => Sys2Proof.Machine.execExpertCombine s
  | .expertFree => Sys2Proof.Machine.execExpertFree s
  | .kvAlloc => Sys2Proof.Machine.execKvAlloc s
  | .kvLookup => Sys2Proof.Machine.execKvLookup s
  | .kvLookupWaitEnd => Sys2Proof.Machine.execKvLookupWaitEnd s
  | .kvUnpin => Sys2Proof.Machine.execKvUnpin s
  | .kvFreeseq => Sys2Proof.Machine.execKvFreeseq s
  | .filterRun => Sys2Proof.Machine.execFilterRun s
  | .leaseRegister => Sys2Proof.Machine.execLeaseRegister s
  | .leaseGrant => Sys2Proof.Machine.execLeaseGrant s
  | .leaseRenew => Sys2Proof.Machine.execLeaseRenew s
  | .leaseRenewAll => Sys2Proof.Machine.execLeaseRenewAll s
  | .leaseRelease => Sys2Proof.Machine.execLeaseRelease s
  | .leaseRevoke => Sys2Proof.Machine.execLeaseRevoke s
  | .leaseScan => Sys2Proof.Machine.execLeaseScan s
  | .scrubStart ext => Sys2Proof.Machine.execScrubStart ext s
  | .scrubComplete ext => Sys2Proof.Machine.execScrubComplete ext s
  | .codecBuild die job => Sys2Proof.Machine.execCodecBuild die job s
  | .codecEncode die job => Sys2Proof.Machine.execCodecEncode die job s
  | .codecReencode die job => Sys2Proof.Machine.execCodecReencode die job s
  | .codecJobClear site => Sys2Proof.Machine.execCodecJobClear site s
  | .codecJobDone die job => Sys2Proof.Machine.execCodecJobDone die job s
  | .tableRetire site => Sys2Proof.Machine.execTableRetire site s
  | .peridotEntryWrite site => Sys2Proof.Machine.execPeridotEntryWrite site s
  | .cascadeKey origin oseq table ctx key after => Sys2Proof.Machine.execCascadeKey origin oseq table ctx key after s
  | .matchWord pin word => Sys2Proof.Machine.execMatchWord pin word s
  | .cascadeResult origin oseq result => Sys2Proof.Machine.execCascadeResult origin oseq result s
  | .cascadeTimeout oseq => Sys2Proof.Machine.execCascadeTimeout oseq s
  | .pageMoveStart page dest => Sys2Proof.Machine.execPageMoveStart page dest s
  | .pageMoveFlip page data => Sys2Proof.Machine.execPageMoveFlip page data s
  | .pageLost page => Sys2Proof.Machine.execPageLost page s
  | .tierHoldTimeout die => Sys2Proof.Machine.execTierHoldTimeout die s
  | .tierMove job => Sys2Proof.Machine.execTierMove job s
  | .tierPrefetch job => Sys2Proof.Machine.execTierPrefetch job s
  | .tierJobAck site => Sys2Proof.Machine.execTierJobAck site s
  | .tierJobStop site => Sys2Proof.Machine.execTierJobStop site s
  | .tierJobDone job => Sys2Proof.Machine.execTierJobDone job s
  | .quotaEvict ctx => Sys2Proof.Machine.execQuotaEvict ctx s
  | .oldBankRetired => Sys2Proof.Machine.execOldBankRetired s
  | .mapStaged => Sys2Proof.Machine.execMapStaged s
  | .mapFlip => Sys2Proof.Machine.execMapFlip s
  | .mapFlipped => Sys2Proof.Machine.execMapFlipped s
  | .mapAbort => Sys2Proof.Machine.execMapAbort s
  | .mapRetired => Sys2Proof.Machine.execMapRetired s
  | .mapStageTimeout => Sys2Proof.Machine.execMapStageTimeout s
  | .mapFlipRepeat => Sys2Proof.Machine.execMapFlipRepeat s
  | .mapPeerMissing => Sys2Proof.Machine.execMapPeerMissing s
  | .compositionChangeStart => Sys2Proof.Machine.execCompositionChangeStart s
  | .linkStateRecord port rec => Sys2Proof.Machine.execLinkStateRecord port rec s
  | .linkStateFlood => Sys2Proof.Machine.execLinkStateFlood s
  | .sqDoorbell port func sq tail entries tb => Sys2Proof.Machine.execSqDoorbell port func sq tail entries tb s
  | .sqPhaseRepoll port func sq entry => Sys2Proof.Machine.execSqPhaseRepoll port func sq entry s
  | .nop port func sq => Sys2Proof.Machine.execNop port func sq s
  | .svc port func sq payload => Sys2Proof.Machine.execSvc port func sq payload s
  | .fence port func sq => Sys2Proof.Machine.execFence port func sq s
  | .sqAbandon port func sq seq => Sys2Proof.Machine.execSqAbandon port func sq seq s
  | .cqDoorbell port func cq head tb => Sys2Proof.Machine.execCqDoorbell port func cq head tb s
  | .cqCoalesceTimeout port func cq => Sys2Proof.Machine.execCqCoalesceTimeout port func cq s
  | .ringConfigWrite port func off size value tb => Sys2Proof.Machine.execRingConfigWrite port func off size value tb s
  | .mownRequest port => Sys2Proof.Machine.execMownRequest port s
  | .mownRenew port => Sys2Proof.Machine.execMownRenew port s
  | .mownRelease port => Sys2Proof.Machine.execMownRelease port s
  | .ownLeaseLapse => Sys2Proof.Machine.execOwnLeaseLapse s
  | .resultWindowRead port func win off size tb => Sys2Proof.Machine.execResultWindowRead port func win off size tb s
  | .resultWindowConsume port func win value tb => Sys2Proof.Machine.execResultWindowConsume port func win value tb s
  | .fifoConfigWrite port fifo half value => Sys2Proof.Machine.execFifoConfigWrite port fifo half value s
  | .fifoPop port func fifo size seen tb => Sys2Proof.Machine.execFifoPop port func fifo size seen tb s
  | .fifoPush port func fifo size value tb => Sys2Proof.Machine.execFifoPush port func fifo size value tb s
  | .fstatRead port func fifo off size tb => Sys2Proof.Machine.execFstatRead port func fifo off size tb s
  | .registerWrite port func off size value tb => Sys2Proof.Machine.execRegisterWrite port func off size value tb s
  | .flipReport ctx node => Sys2Proof.Machine.execFlipReport ctx node s
  | .contextScrubStart ctx => Sys2Proof.Machine.execContextScrubStart ctx s
  | .peerUnreachable ctx node => Sys2Proof.Machine.execPeerUnreachable ctx node s
  | .scrubSlotRetry ctx => Sys2Proof.Machine.execScrubSlotRetry ctx s
  | .lockInterfaceRequest port vf => Sys2Proof.Machine.execLockInterfaceRequest port vf s
  | .startInterfaceRequest port vf => Sys2Proof.Machine.execStartInterfaceRequest port vf s
  | .stopInterfaceRequest port vf => Sys2Proof.Machine.execStopInterfaceRequest port vf s
  | .getTdispVersion port vf => Sys2Proof.Machine.execGetTdispVersion port vf s
  | .getTdispCapabilities port vf => Sys2Proof.Machine.execGetTdispCapabilities port vf s
  | .getDeviceInterfaceReport port vf => Sys2Proof.Machine.execGetDeviceInterfaceReport port vf s
  | .getDeviceInterfaceState port vf => Sys2Proof.Machine.execGetDeviceInterfaceState port vf s
  | .tdiError port vf => Sys2Proof.Machine.execTdiError port vf s
  | .getVersion iface => Sys2Proof.Machine.execGetVersion iface s
  | .getCapabilities iface => Sys2Proof.Machine.execGetCapabilities iface s
  | .negotiateAlgorithms iface offered => Sys2Proof.Machine.execNegotiateAlgorithms iface offered s
  | .getDigests iface => Sys2Proof.Machine.execGetDigests iface s
  | .getCertificate iface slot off len => Sys2Proof.Machine.execGetCertificate iface slot off len s
  | .challenge iface slot nonce => Sys2Proof.Machine.execChallenge iface slot nonce s
  | .getMeasurements iface index => Sys2Proof.Machine.execGetMeasurements iface index s
  | .keyExchange iface slot => Sys2Proof.Machine.execKeyExchange iface slot s
  | .finish iface sess verify => Sys2Proof.Machine.execFinish iface sess verify s
  | .heartbeat iface sess => Sys2Proof.Machine.execHeartbeat iface sess s
  | .keyUpdate iface sess op => Sys2Proof.Machine.execKeyUpdate iface sess op s
  | .endSession iface sess => Sys2Proof.Machine.execEndSession iface sess s
  | .respondIfReady iface => Sys2Proof.Machine.execRespondIfReady iface s
  | .chunkSend iface seq last chunk => Sys2Proof.Machine.execChunkSend iface seq last chunk s
  | .chunkGet iface seq => Sys2Proof.Machine.execChunkGet iface seq s
  | .getReport iface sess ctx nonce vf => Sys2Proof.Machine.execGetReport iface sess ctx nonce vf s
  | .admitBundle iface sess req => Sys2Proof.Machine.execAdmitBundle iface sess req s
  | .retireBundle iface sess svc => Sys2Proof.Machine.execRetireBundle iface sess svc s
  | .enrol iface sess root entry key => Sys2Proof.Machine.execEnrol iface sess root entry key s
  | .unenrol iface sess root entry => Sys2Proof.Machine.execUnenrol iface sess root entry s
  | .fwWrite iface sess req => Sys2Proof.Machine.execFwWrite iface sess req s
  | .fwActivate iface sess image => Sys2Proof.Machine.execFwActivate iface sess image s
  | .fwHealthTimeout image => Sys2Proof.Machine.execFwHealthTimeout image s
  | .fwPrefer image => Sys2Proof.Machine.execFwPrefer image s
  | .setPolicy iface sess policy => Sys2Proof.Machine.execSetPolicy iface sess policy s
  | .keyUpload iface sess ctx k1 k2 vf => Sys2Proof.Machine.execKeyUpload iface sess ctx k1 k2 vf s
  | .controlRestart iface sess kind => Sys2Proof.Machine.execControlRestart iface sess kind s
  | .controlRestartDone => Sys2Proof.Machine.execControlRestartDone s
  | .coreReset iface sess kind => Sys2Proof.Machine.execCoreReset iface sess kind s
  | .ideKmQuery port => Sys2Proof.Machine.execIdeKmQuery port s
  | .keyProg port stream dir set key => Sys2Proof.Machine.execKeyProg port stream dir set key s
  | .kSetGo port stream dir set => Sys2Proof.Machine.execKSetGo port stream dir set s
  | .kSetStop port stream dir set => Sys2Proof.Machine.execKSetStop port stream dir set s
  | .crmsg => Sys2Proof.Machine.execCrmsg s
  | .carnelianWatchdog => Sys2Proof.Machine.execCarnelianWatchdog s
  | .handoverDone => Sys2Proof.Machine.execHandoverDone s
  | .prefUpdate => Sys2Proof.Machine.execPrefUpdate s
  | .bootCoreTimeout => Sys2Proof.Machine.execBootCoreTimeout s
  | .lmsTreeGenerate => Sys2Proof.Machine.execLmsTreeGenerate s
  | .patrolRead place seen => Sys2Proof.Machine.execPatrolRead place seen s
  | .rowRepair macro_ => Sys2Proof.Machine.execRowRepair macro_ s
  | .bankSpare bank => Sys2Proof.Machine.execBankSpare bank s
  | .frameReplace stack frame => Sys2Proof.Machine.execFrameReplace stack frame s
  | .tileSpare tile => Sys2Proof.Machine.execTileSpare tile s
  | .tilePowerOff tile => Sys2Proof.Machine.execTilePowerOff tile s
  | .hbmStackFail stack => Sys2Proof.Machine.execHbmStackFail stack s
  | .portDieFail die => Sys2Proof.Machine.execPortDieFail die s
  | .coreDieFail die => Sys2Proof.Machine.execCoreDieFail die s
  | .controlCoreDisable core => Sys2Proof.Machine.execControlCoreDisable core s
  | .replicaMarginSample block margin => Sys2Proof.Machine.execReplicaMarginSample block margin s
  | .shadowRun cluster match1 match2 => Sys2Proof.Machine.execShadowRun cluster match1 match2 s
  | .quarantineEnd tile => Sys2Proof.Machine.execQuarantineEnd tile s
  | .healthEvaluate => Sys2Proof.Machine.execHealthEvaluate s
  | .hvoteExpel => Sys2Proof.Machine.execHvoteExpel s
  | .hvoteWithdraw => Sys2Proof.Machine.execHvoteWithdraw s
  | .hvoteExpelled => Sys2Proof.Machine.execHvoteExpelled s
  | .voteRenew suspect => Sys2Proof.Machine.execVoteRenew suspect s
  | .voteExpire => Sys2Proof.Machine.execVoteExpire s
  | .voteGapEnd => Sys2Proof.Machine.execVoteGapEnd s
  | .chervilRestart => Sys2Proof.Machine.execChervilRestart s
  | .powerOn => Sys2Proof.Machine.execPowerOn s
  | .bootComplete cols => Sys2Proof.Machine.execBootComplete cols s
  | .powerOnReset => Sys2Proof.Machine.execPowerOnReset s
  | .stageEnd => Sys2Proof.Machine.execStageEnd s
  | .stageBoundExpire => Sys2Proof.Machine.execStageBoundExpire s
  | .bu3Gate => Sys2Proof.Machine.execBu3Gate s
  | .hello port => Sys2Proof.Machine.execHello port s
  | .helloResend port => Sys2Proof.Machine.execHelloResend port s
  | .cert port => Sys2Proof.Machine.execCert port s
  | .proof port => Sys2Proof.Machine.execProof port s
  | .nbrmsgStage port => Sys2Proof.Machine.execNbrmsgStage port s
  | .nbrmsgFence port => Sys2Proof.Machine.execNbrmsgFence port s
  | .discoveryAbandon port => Sys2Proof.Machine.execDiscoveryAbandon port s
  | .discoveryRetry port => Sys2Proof.Machine.execDiscoveryRetry port s
  | .mreset => Sys2Proof.Machine.execMreset s
  | .mresetRelease => Sys2Proof.Machine.execMresetRelease s
  | .departureQuiet => Sys2Proof.Machine.execDepartureQuiet s
  | .departureDrained => Sys2Proof.Machine.execDepartureDrained s
  | .coreReinitDone bad => Sys2Proof.Machine.execCoreReinitDone bad s
  | .perst port => Sys2Proof.Machine.execPerst port s
  | .hotReset port => Sys2Proof.Machine.execHotReset port s
  | .vfEnableClear port => Sys2Proof.Machine.execVfEnableClear port s
  | .flr port func => Sys2Proof.Machine.execFlr port func s
  | .flrComplete port func => Sys2Proof.Machine.execFlrComplete port func s
  | .hostLinkDown port => Sys2Proof.Machine.execHostLinkDown port s
  | .hostLinkUp port => Sys2Proof.Machine.execHostLinkUp port s
  | .archiveCopy die => Sys2Proof.Machine.execArchiveCopy die s
  | .criticalArchiveWrite => Sys2Proof.Machine.execCriticalArchiveWrite s
  | .epoch => Sys2Proof.Machine.execEpoch s
  | .threadDeadline thread => Sys2Proof.Machine.execThreadDeadline thread s
  | .perstDeassert port => Sys2Proof.Machine.execPerstDeassert port s
  | .entdaa addr => Sys2Proof.Machine.execEntdaa addr s
  | .setdasa static addr => Sys2Proof.Machine.execSetdasa static addr s
  | .boardProfileWrite profile => Sys2Proof.Machine.execBoardProfileWrite profile s
  | .backingLeaseRenew => Sys2Proof.Machine.execBackingLeaseRenew s

end Sys2Proof.Machine
end

