-- ==== Sys2Proof/WellFormed.lean ====
section
/-!
DEFINITION. Well-formed commands: every number names a unit the module has (R1, Table 01-1), and every list has the length of what it stands for.
-/
namespace Sys2Proof
open Sys2Proof.Machine

/-- The command names units that exist. Its meaning stops with noSuchUnit otherwise. -/
def wellFormed : Instr → Bool
  | .tempSample readings => readings.length == 51
  | .delayCodeApply line => isDelayLine line
  | .droopDetect sensor _ => isBlock sensor
  | .restoreStep sensor => isBlock sensor
  | .powerCapTick => true
  | .thermalLimitTick => true
  | .thermalPortShed die => isPortDie die
  | .thermalPortRestore die => isPortDie die
  | .hbmTempSample readings => readings.length == 4
  | .inputSample _ _ => true
  | .inputRecover => true
  | .phaseSample phases rails => phases.length == 48 && rails.length == 5
  | .heartbeatCheck seen => seen.all (fun c => decide (c < 10))
  | .leaseProgressCheck => true
  | .thermalTrip sensor => decide (sensor < 51)
  | .thermalTripClear => true
  | .dozeEnter _ => true
  | .dozeWake _ => true
  | .wakeComplete => true
  | .sleepEnter => true
  | .sleepExit => true
  | .followerCheck offsets => offsets.length == 6
  | .holdoverEnter => true
  | .holdoverExit => true
  | .linkFrameReceive port frame => isPort port && frame.length == 256
  | .controlFrameReceive port frame => isPort port && frame.length == 256
  | .controlFrameSend port => isPort port
  | .ackTimeoutReplay port => isPort port
  | .keyUpdateStart port => isPort port
  | .signalDetect port => isPort port
  | .trainRDone port => isPort port
  | .trainRTimeout port => isPort port
  | .trainFStart port => isPort port
  | .trainFHalfDone port => isPort port
  | .trainFTimeout port => isPort port
  | .laneMonitorSample lane _ => isLane lane
  | .marginScan lane => isLane lane
  | .laneClassify lane => isLane lane
  | .laneFailed lane => isLane lane
  | .laneSwap port => isPort port
  | .laneNarrow port => isPort port
  | .laneWiden port => isPort port
  | .retiredLaneRetrain lane _ => isLane lane
  | .hotSpareRestore lane => isLane lane
  | .portFence port row => isPort port && decide (row < 9)
  | .ingressLookup ep vl => isEp ep && isCls vl
  | .parkedTake ep cls => isEp ep && isCls cls
  | .policerRetest ep cls => isEp ep && isCls cls
  | .internalSendAdmit ep cls => isEp ep && isCls cls
  | .egressSend ep => isEp ep
  | .decodeTableLoad die slot => isPortDie die && isTidSlot slot
  | .gateEntryAdvance ep => isEp ep
  | .gateListSwitch ep => isEp ep
  | .portFlush ep => isEp ep
  | .telemetrySample die => isCoreDie die
  | .rd64 die => isCoreDie die
  | .rdn die => isCoreDie die
  | .wr64 die => isCoreDie die
  | .wrn die => isCoreDie die
  | .wrp die => isCoreDie die
  | .lineWriteback _ => true
  | .leaseExpire ext => isExt ext
  | .leaseLapse ext => isExt ext
  | .drainComplete ext => isExt ext
  | .drainForced ext => isExt ext
  | .requestTimeout tag => decide (tag < 1048576)
  | .requestRetry tag => decide (tag < 1048576)
  | .rds die => isCoreDie die
  | .rdx die => isCoreDie die
  | .wb die => isCoreDie die
  | .snoopAnswer die => isCoreDie die
  | .snoopTimeout die _ => isCoreDie die
  | .pinRetry die _ => isCoreDie die
  | .agentReclaim agent => isAgent agent
  | .opCreate site => isSite site
  | .opRebind site => isSite site
  | .opblk tile => isTile tile
  | .opmsg tile => isTile tile
  | .cblk => true
  | .fetchResponse tile => isTile tile
  | .storeResponse tile => isTile tile
  | .handlerStart tile => isTile tile
  | .stepLimit tile => isTile tile
  | .timerExpire slot => isSlot slot
  | .slotCooling slot => isSlot slot
  | .slotFree slot => isSlot slot
  | .programLoadDone cluster entry => isCluster cluster && decide (entry < 64)
  | .smov site => isSite site
  | .smovh site => isSite site
  | .sadd site => isSite site
  | .ssub site => isSite site
  | .smul site => isSite site
  | .sand site => isSite site
  | .sor site => isSite site
  | .sxor site => isSite site
  | .sshl site => isSite site
  | .sshr site => isSite site
  | .ssra site => isSite site
  | .smin site => isSite site
  | .smax site => isSite site
  | .sld site => isSite site
  | .sst site => isSite site
  | .sext site => isSite site
  | .stime site => isSite site
  | .br site => isSite site
  | .brEq site => isSite site
  | .brNe site => isSite site
  | .brLt site => isSite site
  | .brGe site => isSite site
  | .brLtu site => isSite site
  | .brGeu site => isSite site
  | .brpAny site => isSite site
  | .brpNone site => isSite site
  | .call site => isSite site
  | .ret site => isSite site
  | .vadd site => isSite site
  | .vsub site => isSite site
  | .vmul site => isSite site
  | .vfma site => isSite site
  | .vmax site => isSite site
  | .vmin site => isSite site
  | .vcvt site => isSite site
  | .vand site => isSite site
  | .vor site => isSite site
  | .vxor site => isSite site
  | .vshl site => isSite site
  | .vshr site => isSite site
  | .vcmp site => isSite site
  | .vsel site => isSite site
  | .vbcast site => isSite site
  | .vld site => isSite site
  | .vst site => isSite site
  | .vlds site => isSite site
  | .vsts site => isSite site
  | .plog site => isSite site
  | .vred site => isSite site
  | .vmaxl site => isSite site
  | .vwsum site => isSite site
  | .vcmpz site => isSite site
  | .vexp site => isSite site
  | .vtopk site => isSite site
  | .srch site => isSite site
  | .srchnext site => isSite site
  | .srchp site => isSite site
  | .peridotSearch die => isCoreDie die
  | .recv site => isSite site
  | .send site => isSite site
  | .fetch site => isSite site
  | .store site => isSite site
  | .fwd site => isSite site
  | .arm site => isSite site
  | .done site => isSite site
  | .fail site => isSite site
  | .yield site => isSite site
  | .timer site => isSite site
  | .trd site => isSite site
  | .twr site => isSite site
  | .tstage site => isSite site
  | .tcheck site => isSite site
  | .tcheckEpoch site => isSite site
  | .tcommit site => isSite site
  | .tcommitEpoch site => isSite site
  | .tabort site => isSite site
  | .lrenew site => isSite site
  | .lscan site => isSite site
  | .evwait site => isSite site
  | .threadEventDeliver thread => isThread thread
  | .evpost site => isSite site
  | .freeze site => isSite site
  | .thaw site => isSite site
  | .autoThaw => true
  | .threadStop thread _ => isThread thread
  | .kreqAlloc site => isSite site
  | .kreqImport site => isSite site
  | .kreqShare site => isSite site
  | .kreqDestroy site => isSite site
  | .kreqRetire site => isSite site
  | .kreqQuery site => isSite site
  | .kreqReport site => isSite site
  | .kreqScrub site => isSite site
  | .kreqComplete => true
  | .dmaRead step => isDmaStep step
  | .dmaWrite step => isDmaStep step
  | .fifoPut step => isDmaStep step
  | .fifoGet step => isDmaStep step
  | .result step => isDmaStep step
  | .dmaComplete port _ => isHostPort port
  | .collPlan => true
  | .collRun plan => isPlan plan
  | .collFree => true
  | .collStop plan => isPlan plan
  | .collComplete plan => isPlan plan
  | .phaseStateResume plan => isPlan plan
  | .svcreq => true
  | .svccmp => true
  | .serviceSwitch _ => true
  | .serviceAdopt svc => isSvc svc
  | .wsOpen => true
  | .wsAdvance => true
  | .wsClose => true
  | .streamFetchIssue stream => isStream stream
  | .streamResponse => true
  | .wsdataDecode stream leg => isStream stream && decide (leg < 1024)
  | .streamBlockRefetch stream => isStream stream
  | .streamEnd stream => isStream stream
  | .expertPlan => true
  | .expertDispatch => true
  | .expertCombine => true
  | .expertFree => true
  | .kvAlloc => true
  | .kvLookup => true
  | .kvLookupWaitEnd => true
  | .kvUnpin => true
  | .kvFreeseq => true
  | .filterRun => true
  | .leaseRegister => true
  | .leaseGrant => true
  | .leaseRenew => true
  | .leaseRenewAll => true
  | .leaseRelease => true
  | .leaseRevoke => true
  | .leaseScan => true
  | .scrubStart ext => isExt ext
  | .scrubComplete ext => isExt ext
  | .codecBuild die job => isPortDie die && isJob job
  | .codecEncode die job => isPortDie die && isJob job
  | .codecReencode die job => isPortDie die && isJob job
  | .codecJobClear site => isSite site
  | .codecJobDone die job => isPortDie die && isJob job
  | .tableRetire site => isSite site
  | .peridotEntryWrite site => isSite site
  | .cascadeKey _ _ _ ctx _ _ => isCtx ctx
  | .matchWord pin _ => decide (pin < 3)
  | .cascadeResult _ _ _ => true
  | .cascadeTimeout _ => true
  | .pageMoveStart page dest => decide (page < 67108864) && decide (dest < 3)
  | .pageMoveFlip page _ => decide (page < 67108864)
  | .pageLost page => decide (page < 67108864)
  | .tierHoldTimeout die => isCoreDie die
  | .tierMove job => decide (job < 16)
  | .tierPrefetch job => decide (job < 16)
  | .tierJobAck site => isSite site
  | .tierJobStop site => isSite site
  | .tierJobDone job => decide (job < 16)
  | .quotaEvict ctx => isCtx ctx
  | .oldBankRetired => true
  | .mapStaged => true
  | .mapFlip => true
  | .mapFlipped => true
  | .mapAbort => true
  | .mapRetired => true
  | .mapStageTimeout => true
  | .mapFlipRepeat => true
  | .mapPeerMissing => true
  | .compositionChangeStart => true
  | .linkStateRecord port _ => isPort port
  | .linkStateFlood => true
  | .sqDoorbell port func sq _ _ _ => isHostPort port && isFunc func && isRing sq
  | .sqPhaseRepoll port func sq _ => isHostPort port && isFunc func && isRing sq
  | .nop port func sq => isHostPort port && isFunc func && isRing sq
  | .svc port func sq _ => isHostPort port && isFunc func && isRing sq
  | .fence port func sq => isHostPort port && isFunc func && isRing sq
  | .sqAbandon port func sq _ => isHostPort port && isFunc func && isRing sq
  | .cqDoorbell port func cq _ _ => isHostPort port && isFunc func && isRing cq
  | .cqCoalesceTimeout port func cq => isHostPort port && isFunc func && isRing cq
  | .ringConfigWrite port func _ _ _ _ => isHostPort port && isFunc func
  | .mownRequest port => isHostPort port
  | .mownRenew port => isHostPort port
  | .mownRelease port => isHostPort port
  | .ownLeaseLapse => true
  | .resultWindowRead port func win _ _ _ => isHostPort port && isFunc func && isWin win
  | .resultWindowConsume port func win _ _ => isHostPort port && isFunc func && isWin win
  | .fifoConfigWrite port fifo half _ => isHostPort port && isFifo fifo && decide (half < 2)
  | .fifoPop port func fifo _ _ _ => isHostPort port && isFunc func && isFifo fifo
  | .fifoPush port func fifo _ _ _ => isHostPort port && isFunc func && isFifo fifo
  | .fstatRead port func fifo _ _ _ => isHostPort port && isFunc func && isFifo fifo
  | .registerWrite port func _ _ _ _ => isHostPort port && isFunc func
  | .flipReport ctx node => isCtx ctx && isNode node
  | .contextScrubStart ctx => isCtx ctx
  | .peerUnreachable ctx node => isCtx ctx && isNode node
  | .scrubSlotRetry ctx => isCtx ctx
  | .lockInterfaceRequest port vf => isHostPort port && isVf vf
  | .startInterfaceRequest port vf => isHostPort port && isVf vf
  | .stopInterfaceRequest port vf => isHostPort port && isVf vf
  | .getTdispVersion port vf => isHostPort port && isVf vf
  | .getTdispCapabilities port vf => isHostPort port && isVf vf
  | .getDeviceInterfaceReport port vf => isHostPort port && isVf vf
  | .getDeviceInterfaceState port vf => isHostPort port && isVf vf
  | .tdiError port vf => isHostPort port && isVf vf
  | .getVersion iface => isIface iface
  | .getCapabilities iface => isIface iface
  | .negotiateAlgorithms iface _ => isIface iface
  | .getDigests iface => isIface iface
  | .getCertificate iface _ _ _ => isIface iface
  | .challenge iface _ _ => isIface iface
  | .getMeasurements iface _ => isIface iface
  | .keyExchange iface _ => isIface iface
  | .finish iface _ _ => isIface iface
  | .heartbeat iface _ => isIface iface
  | .keyUpdate iface _ _ => isIface iface
  | .endSession iface _ => isIface iface
  | .respondIfReady iface => isIface iface
  | .chunkSend iface _ _ _ => isIface iface
  | .chunkGet iface _ => isIface iface
  | .getReport iface _ ctx _ vf => isIface iface && isCtx ctx && decide (vf < 256)
  | .admitBundle iface _ _ => isIface iface
  | .retireBundle iface _ svc => isIface iface && isSvc svc
  | .enrol iface _ _ _ _ => isIface iface
  | .unenrol iface _ _ _ => isIface iface
  | .fwWrite iface _ _ => isIface iface
  | .fwActivate iface _ image => isIface iface && isImage image
  | .fwHealthTimeout image => isImage image
  | .fwPrefer image => isImage image
  | .setPolicy iface _ _ => isIface iface
  | .keyUpload iface _ ctx _ _ vf => isIface iface && isCtx ctx && decide (vf < 256)
  | .controlRestart iface _ _ => isIface iface
  | .controlRestartDone => true
  | .coreReset iface _ _ => isIface iface
  | .ideKmQuery port => isHostPort port
  | .keyProg port stream dir set _ => isHostPort port && isStreamId stream && decide (dir < 2) && decide (set < 2)
  | .kSetGo port stream dir set => isHostPort port && isStreamId stream && decide (dir < 2) && decide (set < 2)
  | .kSetStop port stream dir set => isHostPort port && isStreamId stream && decide (dir < 2) && decide (set < 2)
  | .crmsg => true
  | .carnelianWatchdog => true
  | .handoverDone => true
  | .prefUpdate => true
  | .bootCoreTimeout => true
  | .lmsTreeGenerate => true
  | .patrolRead place _ => isPlace place
  | .rowRepair macro_ => isMacro macro_
  | .bankSpare bank => decide (bank < 96)
  | .frameReplace stack frame => isStack stack && decide (frame < 589824)
  | .tileSpare tile => isTile tile
  | .tilePowerOff tile => isTile tile
  | .hbmStackFail stack => isStack stack
  | .portDieFail die => isPortDie die
  | .coreDieFail die => isCoreDie die
  | .controlCoreDisable core => isCore core
  | .replicaMarginSample block _ => isBlock block
  | .shadowRun cluster _ _ => isCluster cluster
  | .quarantineEnd tile => isTile tile
  | .healthEvaluate => true
  | .hvoteExpel => true
  | .hvoteWithdraw => true
  | .hvoteExpelled => true
  | .voteRenew suspect => isNode suspect
  | .voteExpire => true
  | .voteGapEnd => true
  | .chervilRestart => true
  | .powerOn => true
  | .bootComplete cols => cols.all (fun c => isMacro c.1)
  | .powerOnReset => true
  | .stageEnd => true
  | .stageBoundExpire => true
  | .bu3Gate => true
  | .hello port => isPort port
  | .helloResend port => isPort port
  | .cert port => isPort port
  | .proof port => isPort port
  | .nbrmsgStage port => isPort port
  | .nbrmsgFence port => isPort port
  | .discoveryAbandon port => isPort port
  | .discoveryRetry port => isPort port
  | .mreset => true
  | .mresetRelease => true
  | .departureQuiet => true
  | .departureDrained => true
  | .coreReinitDone _ => true
  | .perst port => isHostPort port
  | .hotReset port => isHostPort port
  | .vfEnableClear port => isHostPort port
  | .flr port func => isHostPort port && isFunc func
  | .flrComplete port func => isHostPort port && isFunc func
  | .hostLinkDown port => isHostPort port
  | .hostLinkUp port => isHostPort port
  | .archiveCopy die => isDie die
  | .criticalArchiveWrite => true
  | .epoch => true
  | .threadDeadline thread => isThread thread
  | .perstDeassert port => isHostPort port
  | .entdaa _ => true
  | .setdasa _ _ => true
  | .boardProfileWrite _ => true
  | .backingLeaseRenew => true

end Sys2Proof
end

