-- ==== Sys2Proof/Safety.lean ====
section
/-!
DEFINITION. What a safe run is, and the terms in which claims speak of one command's outcome.
-/
namespace Sys2Proof

/-- The command answers the state t, the queue as it was. -/
def Does (c : Instr) (s t : Machine.State) : Prop := Machine.exec c s = .next (t.queueOf s)

/-- The command answers a next state of which P holds. -/
def Answers (c : Instr) (s : Machine.State) (P : Machine.State → Prop) : Prop := ∃ t, Machine.exec c s = .next t ∧ P t

open Machine in
/-- An answer with a signature: given at once, or an ERROR says that it is not ready and RESPOND_IF_READY gets it (log 52). -/
def ReadyOrLater (iface code : Nat) (data : List Byte) (s t : State) : Prop :=
  t.out = s.out ++ [.mgmt iface code false data] ∨
    (t.out = s.out ++ [.mgmt iface code true []] ∧ (t.spdm iface).later = some (code, data))

/-- A step that answers a next state. -/
def Runs (s : Machine.State) : Prop := ∃ t, Machine.step s = .next t

/-- The parts of the state. -/
inductive Part where
  | pending | free | out | clk | evr | chv | ports | lanes | sw | mf | coh | ctl | tab | svc | cod | per | tier | hst | cx | sec | rel | map | boot
  deriving DecidableEq, Repr

/-- A part stands alike in two states. -/
def Part.Same (s t : Machine.State) : Part → Prop
  | .pending => t.pending = s.pending
  | .free => t.free = s.free
  | .out => t.out = s.out
  | .clk => t.clk = s.clk
  | .evr => t.evr = s.evr
  | .chv => t.chv = s.chv
  | .ports => t.ports = s.ports
  | .lanes => t.lanes = s.lanes
  | .sw => t.sw = s.sw
  | .mf => t.mf = s.mf
  | .coh => t.coh = s.coh
  | .ctl => t.ctl = s.ctl
  | .tab => t.tab = s.tab
  | .svc => t.svc = s.svc
  | .cod => t.cod = s.cod
  | .per => t.per = s.per
  | .tier => t.tier = s.tier
  | .hst => t.hst = s.hst
  | .cx => t.cx = s.cx
  | .sec => t.sec = s.sec
  | .rel => t.rel = s.rel
  | .map => t.map = s.map
  | .boot => t.boot = s.boot

/-- Every part of t but those named stands as in s. -/
def Touches (ps : List Part) (s t : Machine.State) : Prop := ∀ p, p ∉ ps → p.Same s t

/-- Every command that waits names units that exist. -/
def QueueOk (s : Machine.State) : Prop := ∀ c ∈ s.pending, wellFormed c = true

open Machine in
/-- A request that stands first at a home: of one page that is RESIDENT near, in no coherent extent (R165, R166). -/
def FirstAtHome (s : Machine.State) (die op : Nat) (p : Packet) (rest : List Packet) : Prop :=
  isCoreDie die = true ∧ mget [] die s.mf.homeIn = p :: rest ∧ pOp p = op ∧ pagesOf p = [linePage (pLaddr p)] ∧
    pgState (page s (linePage (pLaddr p))) = 1 ∧ (∀ l ∈ linesOf p, coherentLine s l = false)

open Machine in
/-- Nothing has come back to a codec's port and no request of the job is outstanding (R361). -/
def CodecQuiet (s : Machine.State) (die job : Nat) : Prop :=
  (∀ x ∈ s.mf.modIn, x.2 ≠ 466 + die) ∧ (codecRun s (8 * die + job)).out = []

open Machine in
/-- A coherence request of an agent that stands first at a home: of a RESIDENT page in a coherent extent (R169, R171). -/
def FirstCoherent (s : Machine.State) (die op a : Nat) (p : Packet) (rest : List Packet) : Prop :=
  isCoreDie die = true ∧ mget [] die s.mf.homeIn = p :: rest ∧ pOp p = op ∧ pgState (page s (linePage (pLaddr p))) = 1 ∧
    coherentLine s (pLaddr p) = true ∧ agentOf s (pSrc p) = some a ∧ agentState s a ≠ 3 ∧ dieLine s (pLaddr p) < 2 ^ 31

open Machine in
/-- A site is ready to issue the word w, of the row with opcode opc, with no bit set outside the fields the row uses (R222, R226). -/
def AtWord (s : State) (x : Site) (opc : Nat) (used : Nat → Nat) (w : Nat) : Prop :=
  isSite x = true ∧ siteReady s x = true ∧ fetchWord s x = some w ∧ w % 256 = opc ∧ (w &&& used w) = w

open Machine in
/-- Of the control part only the running handler of one tile, or one thread, stands otherwise, and whose turn it is and what a shadow's record notes: no memory, no program, no slot, no other site. -/
def OnlySite (x : Site) (s t : State) : Prop :=
  Touches [.ctl] s t ∧
    { t.ctl with tiles := s.ctl.tiles, threads := s.ctl.threads, tracing := s.ctl.tracing, turn := s.ctl.turn } = s.ctl ∧
    (∀ k, x ≠ .tile k → t.tile k = s.tile k) ∧ (∀ k, { t.tile k with run := none } = { s.tile k with run := none }) ∧
    (∀ h, x ≠ .thread h → ¬(x = .chervil ∧ h = 256) → t.thread h = s.thread h)

open Machine in
/-- The handler that runs on tile k goes on from the next word, its own state changed by f, and nothing else changes. -/
def HandlerGoes (k : Nat) (f : Handler → Handler) (s t : State) : Prop :=
  ∃ h, (s.tile k).run = some h ∧ (t.tile k).run = some (f { h with pc := h.pc + 1, count := h.count + 1 }) ∧ OnlySite (.tile k) s t

open Machine in
/-- A byte of a tile's scratch as it reads: zero in an unwritten line (R213). -/
def scratchByte (s : State) (k c : Nat) : Byte := if (s.tile k).valid.contains (c / 128) then memByte (s.tile k).scratch c else 0

open Machine in
/-- Of the state only the running handler of tile k, what a shadow's record notes, and n bytes of its scratch from byte a of the window on stand otherwise. -/
def OnlyScratch (k a n : Nat) (s t : State) : Prop :=
  Touches [.ctl] s t ∧ { t.ctl with tiles := s.ctl.tiles, tracing := s.ctl.tracing } = s.ctl ∧ (∀ j, j ≠ k → t.tile j = s.tile j) ∧
    { t.tile k with run := none, scratch := [], valid := [], poison := [] } = { s.tile k with run := none, scratch := [], valid := [], poison := [] } ∧
    (∀ c, c < (windowOf s k).1 + a ∨ (windowOf s k).1 + a + n ≤ c → scratchByte t k c = scratchByte s k c) ∧
    (∀ c, 32 * c + 32 ≤ (windowOf s k).1 + a ∨ (windowOf s k).1 + a + n ≤ 32 * c → (t.tile k).poison.contains c = (s.tile k).poison.contains c)

open Machine in
/-- A descriptor is the oldest of an engine's queue that is not over (R444). -/
def FirstOfEngine (s : State) (port : Nat) (write : Bool) (pre : List Dma) (x : Dma) (rest : List Dma) : Prop :=
  dmQueue s port write = pre ++ x :: rest ∧ (∀ y ∈ pre, y.status ≠ none) ∧ x.status = none

/-- k steps, each of them a next state. -/
def SafeFor : Nat → Machine.State → Prop
  | 0, _ => True
  | k + 1, s => ∃ t, Machine.step s = .next t ∧ SafeFor k t

end Sys2Proof
end

