-- ==== Sys2Proof/Certificates/Slice0/Obligations.lean ====
section
/-!
DEFINITION. The statements for the provers, from the rules of spec/; each docstring names the rules it rests on.
-/
open Sys2Proof Sys2Proof.Machine

/-- The step and the queue (the model's own: log 1, 2). -/
def Obligations.StepTakesTheFrontCommand : Prop :=
  (∀ c rest s, s.pending = c :: rest → step s = exec c { s with pending := rest }) ∧
  (∀ s, s.pending = [] → s.boot.pwrgd = true → step s = .next { s with clk := { s.clk with cycles := s.clk.cycles + 1 } }) ∧
  (∀ s, s.pending = [] → s.boot.pwrgd = false → step s = .next s) ∧
  (∀ (s : State) nbits w, s.withFetchWord nbits w = s)

/-- Where commands answer (the form of the outcome is the model's: log 1). -/
def Obligations.CommandsAnswerOnRealUnits : Prop :=
  ∀ c s, (wellFormed c = true → ∃ t, exec c s = .next t ∧ t.pending = s.pending) ∧
    (wellFormed c = false → exec c s = .fault .noSuchUnit) ∧ (∀ r, exec c s ≠ .refused r)

/-- Runs of any length (queue order is the model's: log 1). -/
def Obligations.EveryQueueIsServedInOrder : Prop :=
  ∀ k s, QueueOk s → SafeFor k s ∧ ∃ t, core.run k s = .next t ∧ t.pending = s.pending.drop k ∧ QueueOk t

/-- The queue's invariant (log 1). -/
def Obligations.QueuesKeepToRealUnits : Prop :=
  (∀ s t, QueueOk s → step s = .next t → QueueOk t ∧ t.pending = s.pending.tail) ∧ (∀ s, QueueOk s → Runs s)

/-- What reset leaves (R53, R422, R468-R471, R536-R538, R555, R563, R603; reset values the spec does not give: log 4, 5, 9, 12, 14, 18, 20). -/
def Obligations.ResetStandsBeforePower : Prop :=
  let s := State.reset
  QueueOk s ∧ s.pending = [] ∧ s.boot.pwrgd = false ∧ s.boot.held = true ∧ s.boot.coreUp = false ∧ now s = 0 ∧
  (∀ p, (s.port p).st = .down) ∧ s.tab.live = [] ∧ ctxState s 0 = 1 ∧ ctxState s 1023 = 1 ∧ (∀ c, 1 ≤ c → c ≤ 1022 → ctxState s c = 0) ∧ (∀ e, exState (extent s e) = 0) ∧ (∀ n, keySlot s n = 0) ∧ (∀ n, (s.slot n).st = .free) ∧
  Memory.wf s.mf.hbm = true ∧ Memory.wf s.ctl.data = true ∧ (∀ a, memByte s.mf.hbm a = 0) ∧
  (∀ port, modstat s port = 0) ∧ alertL s = true ∧ thermtripL s = true ∧ (∀ n, fcoPin s n = false) ∧
  s.hst.ownLease = 1000 ∧ s.hst.owner = 0 ∧ s.chv.cap = 1500 ∧ s.evr.frozen = false ∧ s.sec.pref = 0 ∧ s.sec.active = 0

/-- Module time (R53). -/
def Obligations.ModuleTimeOnlyMovesForward : Prop :=
  (∀ s, s.boot.pwrgd = false → Answers .powerOn s (fun t => t.clk.cycles = 0 ∧ t.boot.pwrgd = true)) ∧
  (∀ c s t, exec c s = .next t → c ≠ .powerOnReset → c ≠ .thermalTrip 50 → ¬(c = .powerOn ∧ s.boot.pwrgd = false) → t.clk.cycles = s.clk.cycles) ∧
  (∀ s t, exec .powerOnReset s = .next t ∨ exec (.thermalTrip 50) s = .next t → t.clk.cycles = 0 ∧ t.boot.pwrgd = false) ∧
  (∀ s t, s.pending = [] → step s = .next t → t.clk.cycles = if s.boot.pwrgd then s.clk.cycles + 1 else s.clk.cycles) ∧
  (∀ s t, step s = .next t → (∀ c rest, s.pending = c :: rest → c ≠ .powerOnReset ∧ c ≠ .thermalTrip 50 ∧ ¬(c = .powerOn ∧ s.boot.pwrgd = false)) → s.clk.cycles ≤ t.clk.cycles) ∧
  (∀ s, now s = s.clk.cycles * 64 / 10 % 2 ^ 64)

/-- Result windows (R433). -/
def Obligations.WindowReadsCountTheirHeader : Prop :=
  (∀ port func win off size tb s, heard s port func tb = true → isHostPort port = true → isFunc func = true → isWin win = true → boundTo s port func ≠ none → win < windowCount func →
      ((size = 4 ∨ size = 8) ∧ off % size = 0 ∧ off < 64) ∨ (off = 0 ∧ size = 64) →
    let x := s.window port func win
    (x.ready = false → Answers (.resultWindowRead port func win off size tb) s (fun t => t.window port func win = x ∧
      t.out = s.out ++ [.hostReply port func (((natBytes 8 (stNotReady + 65536 * x.seq) ++ List.replicate 56 0).drop off).take size)])) ∧
    (x.ready = true → off < 8 → Answers (.resultWindowRead port func win off size tb) s (fun t => t.window port func win = { x with rcount := satAdd 16 x.rcount 1 } ∧
      t.out = s.out ++ [.hostReply port func (((natBytes 8 (stOK + 65536 * x.seq + 2 ^ 32 * satAdd 16 x.rcount 1 + 2 ^ 48 * x.len) ++ padTo 56 x.data).drop off).take size)])) ∧
    (x.ready = true → 8 ≤ off → Answers (.resultWindowRead port func win off size tb) s (fun t => t.window port func win = x ∧
      t.out = s.out ++ [.hostReply port func (((padTo 56 x.data).drop (off - 8)).take size)]))) ∧
  (∀ port func win off size tb s, heard s port func tb = false → isHostPort port = true → isFunc func = true → isWin win = true →
    Does (.resultWindowRead port func win off size tb) s (put (.hostReply port func []) s)) ∧
  (∀ port func win data k tb s, heard s port func tb = true → isHostPort port = true → isFunc func = true → isWin win = true → boundTo s port func ≠ none → win < windowCount func → (s.window port func win).ready = false → data.length ≤ 56 → k < 65535 →
    ∃ u, postWindow port func win data s = some u ∧ ∃ v, core.run k { u with pending := List.replicate k (.resultWindowRead port func win 0 64 tb) } = .next v ∧
      Answers (.resultWindowRead port func win 0 64 tb) v (fun t => ∃ l, t.out = l ++ [.hostReply port func
        (natBytes 8 (stOK + 65536 * (((s.window port func win).seq + 1) % 65536) + 2 ^ 32 * (k + 1) + 2 ^ 48 * data.length) ++ padTo 56 data)]))

/-- ALERT_L (R568). -/
def Obligations.AlertFollowsItsCauses : Prop :=
  ∀ s, s.boot.pwrgd = true → (alertL s = false ↔
    (∃ port < 2, bit (modstat s port) 3 = true ∨ bit (modstat s port) 6 = true ∨ bit (modstat s port) 7 = true) ∨ s.chv.inputHigh = true ∨ s.chv.inputLow = true)

/-- Posted records (R585). -/
def Obligations.PostsBelowTheirRangeAreRefused : Prop :=
  ∀ h w s, isThread h = true → AtWord s (.thread h) 0xEB (fun _ => fOpc + fD + fA + fB + fImm) w → wD w < 8 → wA w < 8 → wB w < 8 → memOk s (.thread h) (memAddrB s (.thread h) w) 16 8 = true →
    let a := (sreg s (.thread h) (wA w)).toNat
    let code := a % 65536
    let sev := fld a 16 4
    let die := if h < 128 then 4 else 5
    (code ≠ 0x1101 → code ≠ 0x1102 → code < 0x8000 ∨ 3 < sev → Answers (.evpost (.thread h)) s (fun t => sreg t (.thread h) (wD w) = BitVec.ofNat 64 stViolation ∧ t.evr = s.evr ∧ t.hst = s.hst)) ∧
    (code = 0x1101 → 3 < sev → Answers (.freeze (.thread h)) s (fun t => sreg t (.thread h) (wD w) = BitVec.ofNat 64 stViolation ∧ t.evr = s.evr)) ∧
    (code = 0x1102 → 3 < sev → Answers (.thaw (.thread h)) s (fun t => sreg t (.thread h) (wD w) = BitVec.ofNat 64 stViolation ∧ t.evr = s.evr)) ∧
    (0x8000 ≤ code → sev ≤ 3 → s.evr.frozen = false → recFull s die = false → Answers (.evpost (.thread h)) s (fun t => sreg t (.thread h) (wD w) = BitVec.ofNat 64 stOK ∧
      ∃ r, mfind? (ringSize * die + (s.recDie die).wpos) t.evr.rings = some r ∧ r.r.code = code ∧ r.r.sev = sev ∧ r.r.die = die ∧ r.r.seq = (s.recDie die).nextSeq))

/-- Training moves one port through the states of Table 03-6 (R82-R84, R546): each command's condition, the state it leaves the port in, and that no other port changes. -/
def Obligations.LinkTrainingMovesThePort : Prop :=
  (∀ port s, isPort port = true → portExists s port = true → adminUp s port = true → s.boot.held = false →
      (s.port port).st = .down → shedPort s port = false → dieOf port ∉ s.rel.dieFailed →
    Answers (.signalDetect port) s (fun t => (t.port port).st = .trainR ∧ (t.port port).since = now s ∧
      (∀ k, k ≠ port → t.port k = s.port k) ∧ Touches [.ports, .evr, .hst, .out] s t)) ∧
  (∀ port s, isPort port = true → (s.port port).st = .trainR →
    Answers (.trainRDone port) s (fun t => (t.port port).st = .reduced ∧ (t.port port).lanes = modeLanes s port ∧
      (∀ k, k ≠ port → t.port k = s.port k) ∧ Touches [.ports, .evr, .hst, .out, .free, .rel] s t)) ∧
  (∀ port s, isPort port = true → (s.port port).st = .trainR → passed s (s.port port).since 800000000 = true →
    Answers (.trainRTimeout port) s (fun t => (t.port port).st = .down ∧ (t.port port).keyed = false ∧
      (t.port port).bound = (s.port port).bound ∧ (∀ k, k ≠ port → t.port k = s.port k) ∧ Touches [.ports, .evr, .hst, .out] s t)) ∧
  (∀ port s, isPort port = true → (s.port port).st = .reduced → 4 ≤ s.boot.stage → (isTrunk s port = true → 4 ≤ (s.port port).peerStage) →
    Answers (.trainFStart port) s (fun t => (t.port port).st = .trainF ∧ (t.port port).half = 0 ∧
      (∀ k, k ≠ port → t.port k = s.port k) ∧ Touches [.ports, .evr, .hst, .out] s t)) ∧
  (∀ port s, isPort port = true → (s.port port).st = .trainF → (s.port port).half = 0 →
    Answers (.trainFHalfDone port) s (fun t => (t.port port).st = .trainF ∧ (t.port port).half = 1 ∧
      (∀ k, k ≠ port → t.port k = s.port k))) ∧
  (∀ port s, isPort port = true → (s.port port).st = .trainF → (s.port port).half ≠ 0 →
    Answers (.trainFHalfDone port) s (fun t => (t.port port).st = .up ∧ (t.port port).lanes = (s.port port).pos ∧
      (∀ k, k ≠ port → t.port k = s.port k))) ∧
  (∀ port s, isPort port = true → (s.port port).st = .trainF → passed s (s.port port).since 1100000000 = true →
    Answers (.trainFTimeout port) s (fun t => (t.port port).st = .reduced ∧ (t.port port).lanes = (s.port port).pos ∧
      ((s.port port).fromUp = true → (t.port port).flushDue = 2) ∧ (∀ k, k ≠ port → t.port k = s.port k)))

/-- What frames do to a port (R64-R73, R75, R78, R80). -/
def Obligations.LinkFramesAreTakenInOrder : Prop :=
  (∀ port f s, isPort port = true → f.length = 256 → linkAlive s port = true → crcBad f = false → fhType (hdrOf f) = ftData →
      fhClose (hdrOf f) = false → (s.port port).rxGroup.length < 7 → (s.port port).nakWait = none → (s.port port).partnerDue = none → fhSeq (hdrOf f) = (s.port port).rxSeq →
    Does (.linkFrameReceive port f) s (s.modPort port (fun x => { x with
      nakWait := none, rxSeq := (x.rxSeq + 1) % 4096, rxGroup := x.rxGroup ++ [f] }))) ∧
  (∀ port f s, isPort port = true → f.length = 256 → linkAlive s port = true → crcBad f = true →
    Answers (.linkFrameReceive port f) s (fun t => (t.port port).rxGroup = [] ∧ (t.port port).rxSeq = groupFirst (s.port port) ∧
      (t.port port).nakWait = some (groupFirst (s.port port)) ∧ (∀ k, k ≠ port → t.port k = s.port k) ∧ Touches [.ports, .out, .rel] s t)) ∧
  (∀ port f s, isPort port = true → f.length = 256 → linkAlive s port = true → crcBad f = false → fhType (hdrOf f) = ftIdle →
    Does (.linkFrameReceive port f) s s) ∧
  (∀ port f s, isPort port = true → f.length = 256 → linkAlive s port = true → crcBad f = false → fhType (hdrOf f) = ftControl →
      malformed f = false → (s.port port).keyed = false → groupTag [f] = 0 → (s.port port).rxGroup = [] → (s.port port).nakWait = none →
      fhSeq (hdrOf f) = (s.port port).rxSeq →
    Answers (.controlFrameReceive port f) s (fun t => (t.port port).rxSeq = ((s.port port).rxSeq + 1) % 4096 ∧ (t.port port).rxGroup = [] ∧
      (∀ vl, vl < 8 → mget 0 vl (t.port port).crGot = byteAt (f.drop 4) (4 + 4 * vl) 4) ∧ (t.port port).ackDue = true)) ∧
  (∀ port s, isPort port = true → linkAlive s port = true → controlDue (s.port port) = true → replayRoom s port 1 = true →
    Answers (.controlFrameSend port) s (fun t => (t.port port).ackDue = false ∧ (t.port port).nakDue = none ∧ (t.port port).sinceCtl = 0 ∧
      (t.port port).txGroup = [] ∧ (t.port port).txSeq = ((s.port port).txSeq + 1) % 4096 ∧ (∀ k, k ≠ port → t.port k = s.port k) ∧
      Touches [.ports, .out, .rel] s t)) ∧
  (∀ port f rest s, isPort port = true → linkAlive s port = true → (s.port port).replay = f :: rest → passed s (s.port port).ackAt 4000 = true →
      (s.port port).replays < 8 →
    Answers (.ackTimeoutReplay port) s (fun t => (t.port port).replays = (s.port port).replays + 1 ∧ (t.port port).ackAt = now s ∧
      t.out = s.out ++ (((s.port port).replay.filter (fun g => (g.seq + 4096 - f.seq) % 4096 < 2048)).mapIdx (fun i g =>
        .frame port ((s.port port).lanes.getD (((s.port port).nextLane + i) % max 1 (s.port port).lanes.length) 0) g.bytes)))) ∧
  (∀ port f rest s, isPort port = true → linkAlive s port = true → (s.port port).replay = f :: rest → passed s (s.port port).ackAt 4000 = true →
      8 ≤ (s.port port).replays → ((s.port port).st = .up ∨ (s.port port).st = .narrowed) →
    Answers (.ackTimeoutReplay port) s (fun t => (t.port port).st = .trainF ∧ (t.port port).fromUp = true ∧ (t.port port).replays = 0)) ∧
  (∀ port s, isPort port = true → linkAlive s port = true → keyIdle (s.port port) = true → replayRoom s port 1 = true →
    Answers (.keyUpdateStart port) s (fun t => (t.port port).txU = (s.port port).txU + 1 ∧ (t.port port).txPhase = !(s.port port).txPhase ∧
      (t.port port).txKey = Config.linkKey (s.port port).th (s.port port).dir ((s.port port).txU + 1) ∧ (t.port port).keyAt = now s ∧
      (t.port port).txOld = some ((s.port port).txKey, ((s.port port).txSeq + 1) % 4096)))

/-- Lanes (R85-R91). -/
def Obligations.LanesAreClassedSparedAndNarrowed : Prop :=
  (∀ lane m s, isLane lane = true →
    Does (.laneMonitorSample lane m) s (s.modLane lane (fun x => { x with
      mon := m, raw := (m :: x.raw).take 5, errs := (medianMon ((m :: x.raw).take 5) :: x.errs).take 1000 }))) ∧
  (∀ lane s, isLane lane = true → ((s.lane lane).scans = 0 ∨ passed s (s.lane lane).scanAt 10000000000 = true) →
    Does (.marginScan lane) s (s.modLane lane (fun x => { x with scanAt := now s, scans := x.scans + 1 }))) ∧
  (∀ lane s, isLane lane = true → (s.lane lane).errs ≠ [] →
    Answers (.laneClassify lane) s (fun t => (t.lane lane).cls = laneClass (s.lane lane) ∧
      ((((s.lane lane).errs.headD {}).cdrLock = false ∨ ((s.lane lane).errs.headD {}).amLock = false) → (t.lane lane).cls = 3) ∧
      (∀ k, k ≠ lane → t.lane k = s.lane k) ∧ Touches [.lanes, .ports, .evr, .hst, .out] s t)) ∧
  (∀ lane s, isLane lane = true →
    Answers (.laneFailed lane) s (fun t => (t.lane lane).cls = 3 ∧ (∀ k, k ≠ lane → t.lane k = s.lane k) ∧
      Touches [.lanes, .ports, .evr, .hst, .out] s t)) ∧
  (∀ port l n rest s, isPort port = true → (s.port port).laneQ = (l, 2) :: rest → mayChange s port = true →
      l ∈ (s.port port).pos → spareFor s port = some n → n ≠ l →
    Answers (.laneSwap port) s (fun t => (t.port port).pos = substitute l n (s.port port).pos ∧ (t.lane l).retired = true ∧
      (t.lane n).hot = false ∧ (t.lane n).port = some port ∧ (t.port port).laneQ = rest)) ∧
  (∀ port l rest s, isPort port = true → (s.port port).laneQ = (l, 2) :: rest → mayChange s port = true →
      l ∈ (s.port port).lanes → spareFor s port = none → fitLanes (max 1 ((s.port port).lanes.length / 2)) (healthyLanes s (s.port port) l).length ≠ 0 →
    Answers (.laneNarrow port) s (fun t => (t.port port).st = .narrowed ∧ (t.port port).laneQ = rest ∧
      (t.port port).lanes = lowest (fitLanes (max 1 ((s.port port).lanes.length / 2)) (healthyLanes s (s.port port) l).length) (healthyLanes s (s.port port) l))) ∧
  (∀ port s, isPort port = true → (s.port port).st = .narrowed → mayChange s port = true → brokenLane s (s.port port) = none →
    Answers (.laneWiden port) s (fun t => (t.port port).st = .up ∧ (t.port port).lanes = (s.port port).pos ∧
      (t.port port).laneQ = (s.port port).laneQ)) ∧
  (∀ lane ok s, isLane lane = true → (s.lane lane).retired = true → (s.lane lane).cls < 3 → (s.lane lane).retrains < 3 →
      (s.lane lane).goodSince = none → passed s (s.lane lane).retrainAt 10000000000 = true →
    Does (.retiredLaneRetrain lane ok) s (s.modLane lane (fun x => { x with
      retrains := x.retrains + 1, retrainAt := now s, cls := if ok then 0 else x.cls, goodSince := if ok then some (now s) else none }))) ∧
  (∀ lane since s, isLane lane = true → (s.lane lane).retired = true → (s.lane lane).cls = 0 → (s.lane lane).goodSince = some since →
      passed s since 60000000000 = true →
    Does (.hotSpareRestore lane) s (s.modLane lane (fun x => { x with retired := false, hot := true, goodSince := none, retrains := 0 })))

/-- Discovery and fences (R92-R94, R487, R541-R543, R546). -/
def Obligations.DiscoveryBindsThePort : Prop :=
  (∀ port p s u, isPort port = true → mayDiscover s port = true → takeNbr port 1 s = some (p, u) → p.payload.length = 136 →
    Answers (.hello port) s (fun t => (t.port port).disc = .certs ∧ (t.port port).peerHello = p.payload ∧ (t.port port).peerCert = [] ∧
      (t.port port).st = (s.port port).st)) ∧
  (∀ port s, isPort port = true → mayDiscover s port = true → (s.port port).disc = .helloSent → passed s (s.port port).helloAt 10000000 = true →
    Answers (.helloResend port) s (fun t => (t.port port).helloAt = now s ∧ (t.port port).disc = .helloSent)) ∧
  (∀ port p s u, isPort port = true → takeNbr port 2 s = some (p, u) → (s.port port).disc = .certs →
      hfld p 132 8 = (s.port port).peerCert.length / 1024 % 256 →
    Answers (.cert port) s (fun t => (t.port port).peerCert = (s.port port).peerCert ++ p.payload ∧
      (t.port port).disc = if p.payload.length = 1024 then .certs else .proofSent)) ∧
  (∀ port p s u, isPort port = true → takeNbr port 3 s = some (p, u) → (s.port port).disc = .proofSent →
    Answers (.proof port) s (fun t =>
      (∀ k, Config.chainKey (s.port port).peerCert = some k → Config.ecdsaOk k (transcript s port) p.payload = true →
        kindOf (s.port port).peerHello = 1 → isTrunk s port = true →
          (t.port port).disc = .done ∧ (t.port port).keyed = true ∧ (t.port port).th = transcript s port ∧
            (t.port port).bound = some (claimOf (s.port port).peerHello)) ∧
      (Config.chainKey (s.port port).peerCert = none → t = u))) ∧
  (∀ port p s u, isPort port = true → takeNbr port 4 s = some (p, u) →
    Does (.nbrmsgStage port) s (u.modPort port (fun x => { x with peerStage := byteAt p.payload 0 1, peerMseq := byteAt p.payload 4 4 }))) ∧
  (∀ port p s u, isPort port = true → takeNbr port 5 s = some (p, u) → Does (.nbrmsgFence port) s u) ∧
  (∀ port s, isPort port = true → ((s.port port).disc = .helloSent ∨ (s.port port).disc = .certs ∨ (s.port port).disc = .proofSent) →
      passed s (s.port port).discAt 200000000 = true →
    Answers (.discoveryAbandon port) s (fun t => (t.port port).disc = .abandoned ∧ (t.port port).keyed = false ∧
      (∀ k, k ≠ port → t.port k = s.port k) ∧ Touches [.ports, .evr, .hst, .out] s t)) ∧
  (∀ port s, isPort port = true → mayDiscover s port = true → (s.port port).disc = .abandoned → passed s (s.port port).discAt 1000000000 = true →
    Answers (.discoveryRetry port) s (fun t => (t.port port).disc = .helloSent ∧ (t.port port).discAt = now s ∧ (t.port port).peerHello = [])) ∧
  (∀ port row n s, isPort port = true → row < 9 → fenceThreshold row = some n → linkAlive s port = true → (s.port port).st ≠ .fenced →
      fenceEn s port = true → n ≤ inWindow s port row →
    Answers (.portFence port row) s (fun t => (t.port port).st = .fenced ∧ (t.port port).change = none ∧ (t.port port).laneQ = [] ∧
      (∀ k, k ≠ port → t.port k = s.port k)))

/-- Health (R522-R528, R532). -/
def Obligations.HealthVotesStandAndExpire : Prop :=
  (∀ s, chervilRuns s = true → s.boot.held = false → neighbours s = [] →
    Answers .healthEvaluate s (fun t => (∀ p, p < 384 → portDown s p = true → mget 0 p t.rel.linkScore = 0) ∧
      t.rel.gseq = (s.rel.gseq + 1) % 2 ^ 32 ∧ t.rel.hold = false ∧ Touches [.rel] s t)) ∧
  (∀ s n v u, takeVote 1 s = some (n, v, u) →
      let w := { u with rel := { u.rel with votes := otherVotes n v u.rel.votes ++ [⟨n, v, now u⟩] } }
      (n ∈ neighbours u → standing w n < (w.nbr n).nbrs / 2 + 1) →
    Does .hvoteExpel s w) ∧
  (∀ s n v u, takeVote 2 s = some (n, v, u) →
    Does .hvoteWithdraw s { u with rel := { u.rel with votes := otherVotes n v u.rel.votes } }) ∧
  (∀ s n v u, takeVote 3 s = some (n, v, u) →
    Answers .hvoteExpelled s (fun t => ∀ p, p ∈ portsTo u n → (t.port p).st = .fenced)) ∧
  (∀ suspect since s, isNode suspect = true → chervilRuns s = true → (s.nbr suspect).voted = some since → (s.nbr suspect).doubtful = true →
      passed s since 500000000 = true →
    Answers (.voteRenew suspect) s (fun t => (t.nbr suspect).voted = some (now s) ∧ t.rel.votes = s.rel.votes)) ∧
  (∀ s, Answers .voteExpire s (fun t => t.rel.votes = s.rel.votes.filter (fun v => decide (now s < v.at_ + 1000000000)) ∧ Touches [.rel] s t)) ∧
  (∀ n s, chervilRuns s = true → (∀ x ∈ s.rel.firstVotes, x + 50000000 ≤ now s) →
      (neighbours s).find? (fun n => (s.nbr n).waiting && (s.nbr n).doubtful) = some n →
    Answers .voteGapEnd s (fun t => (t.nbr n).waiting = false)) ∧
  (∀ since s, s.chv.restarting = some since →
    Answers .chervilRestart s (fun t => t.chv.restarting = none ∧ Touches [.chv, .ctl] s t))

/-- The map protocol (R409-R413) and link state (R530). -/
def Obligations.TheMapChangesTogether : Prop :=
  (∀ s, changeReady s = true → changeIdle s = true → changeNeeded s = true → coordinator s ≠ s.boot.node → (stageMap s).1 = stOK →
    Does .compositionChangeStart s (mapMessage mapStaged (nextMseq s) (coordinator s) stOK (coordinator s) (stageMap s).2)) ∧
  (∀ s, changeReady s = true → changeIdle s = true → changeNeeded s = true → coordinator s = s.boot.node → (stageMap s).1 = stOK →
      (∃ m ∈ fabricMods s, m ≠ s.boot.node) →
    Answers .compositionChangeStart s (fun t =>
      t.map.change = some { mseq := nextMseq s, startAt := now s, mods := fabricMods s, staged := [s.boot.node] })) ∧
  (∀ s p u c, takeMap mapStaged s = some (p, u) → u.map.change = some c → c.step = 1 → mmCoord p = u.boot.node → mmStatus p = stOK →
      allStaged { c with staged := insertSet (pSrc p) c.staged } = false →
    Does .mapStaged s (setChange { c with staged := insertSet (pSrc p) c.staged } u)) ∧
  (∀ s p u c, takeMap mapStaged s = some (p, u) → u.map.change = some c → c.step = 1 → mmCoord p = u.boot.node → mmStatus p ≠ stOK →
    Answers .mapStaged s (fun t => t.map.change = none ∧ t.map.abortAt = some (now s))) ∧
  (∀ s p u v, takeMap mapFlip s = some (p, u) → flipMap (mmSeq p) u = some v →
    Answers .mapFlip s (fun t => t.tab.mseq = mmSeq p ∧ t.tab.cur = mmSeq p % 4 ∧ t.map.retireTo = some (mmCoord p, mmSeq p))) ∧
  (∀ s p u c, takeMap mapFlipped s = some (p, u) → u.map.change = some c → c.mseq = mmSeq p →
      (∃ m ∈ c.mods, m ∉ c.missing ∧ m ∉ c.retired) →
    Does .mapFlipped s (setChange { c with flipped := insertSet (pSrc p) c.flipped } u)) ∧
  (∀ s p u c, takeMap mapRetired s = some (p, u) → u.map.change = some c → c.mseq = mmSeq p → c.step = 2 →
    Answers .mapRetired s (fun t =>
      if (∀ m ∈ c.mods, m ∈ c.missing ∨ (m ∈ c.flipped ∧ m ∈ insertSet (pSrc p) c.retired)) then t.map.change = none
      else t.map.change = some { c with retired := insertSet (pSrc p) c.retired })) ∧
  (∀ s p u, takeMap mapAbort s = some (p, u) → Answers .mapAbort s (fun t => t.map.abortAt = some (now s) ∧ t.map.change = s.map.change)) ∧
  (∀ s c, s.map.change = some c → c.step = 1 → passed s c.startAt 5000000 = true →
    Answers .mapStageTimeout s (fun t => t.map.change = none ∧ t.map.abortAt = some (now s))) ∧
  (∀ s c, s.map.change = some c → c.step = 2 → passed s c.repeatAt 10000 = true →
    Answers .mapFlipRepeat s (fun t => t.map.change = some { c with repeatAt := now s })) ∧
  (∀ s c, s.map.change = some c → c.step = 2 → passed s c.flipAt 50000 = true →
      (∃ m ∈ c.mods, m ∉ c.flipped ∧ m ∉ c.missing) →
    Answers .mapPeerMissing s (fun t => ∀ d, t.map.change = some d → ∀ m ∈ c.mods, m ∈ d.flipped ∨ m ∈ d.missing)) ∧
  (∀ s, s.boot.coreUp = true → floodDue s = true → (s.map.floodAt = 0 ∨ passed s s.map.floodAt 1000000 = true) →
    Answers .linkStateFlood s (fun t => mfind? s.boot.node t.map.db = some (ownRec s (s.map.seq + 1)) ∧ t.map.seq = s.map.seq + 1 ∧
      t.map.floodAt = now s ∧ t.map.dbAt = now s)) ∧
  (∀ port (r : LinkRec) s, isPort port = true → portExists s port = true → isTrunk s port = true → carries (s.port port).st 6 = true →
      r.node ≠ s.boot.node → (∀ o, mfind? r.node s.map.db = some o → o.seq < r.seq) →
      (∀ n ∈ r.edges, ∀ e ∈ s.ports, e.2.bound ≠ some n) →
    Answers (.linkStateRecord port r) s (fun t => mfind? r.node t.map.db = some r))

/-- Power-on and bring-up (R471-R476, R535-R540, R545, R546, R555). -/
def Obligations.BootBringsTheCoreUp : Prop :=
  (∀ s, s.boot.pwrgd = false →
    Answers .powerOn s (fun t => t.boot = { s.boot with pwrgd := true, step := 1, stepAt := 0, gateAt := 0, gated := true } ∧ t.clk = {} ∧
      Touches [.boot, .clk, .evr, .hst, .out] s t)) ∧
  (∀ cols s, wellFormed (.bootComplete cols) = true → s.boot.pwrgd = true → s.boot.step = 1 → mayStart s = true → (loadProfile (checkLms ([1, 0, 2].foldl verifyImage s))).sec.recovery = false →
    Answers (.bootComplete cols) s (fun t => t.boot.coreUp = true ∧ t.chv.lscanAt = now s)) ∧
  (∀ cols s, wellFormed (.bootComplete cols) = true → s.boot.pwrgd = true → s.boot.step = 1 → mayStart s = true → (loadProfile (checkLms ([1, 0, 2].foldl verifyImage s))).sec.recovery = true →
    Answers (.bootComplete cols) s (fun t => t.boot.step = 4 ∧ t.sec.recovery = true ∧ t.boot.coreUp = s.boot.coreUp)) ∧
  (∀ s, Answers .powerOnReset s (fun t => t.boot = { profile := s.boot.profile, mreset := s.boot.mreset } ∧ t.clk = {} ∧ t.ports = [] ∧
      t.sw = {} ∧ t.mf = {} ∧ t.coh = {} ∧ t.ctl = {} ∧ t.tab = {} ∧ t.svc = {} ∧ t.cod = {} ∧ t.per = {} ∧ t.map = {} ∧ t.sec.keys = [] ∧
      t.sec.floors = s.sec.floors ∧ t.sec.lms0 = s.sec.lms0 ∧ t.sec.lms1 = s.sec.lms1 ∧ t.cx = { kgen := s.cx.kgen, closures := s.cx.closures } ∧
      t.evr.crit = s.evr.crit ∧ t.evr.rings = [] ∧ t.hst.ownLease = s.hst.ownLease)) ∧
  (∀ s, s.boot.coreUp = true → s.boot.depart = 0 → stageOver s = true → (s.boot.stage = 0 ∨ s.boot.stage = 2 ∨ s.boot.stage = 3 ∨ s.boot.stage = 5) →
    Answers .stageEnd s (fun t => t.boot.stage = s.boot.stage + 1 ∧ (s.boot.stage = 5 → t.boot.full = true) ∧ t.boot.gateAt = now s)) ∧
  (∀ s, s.boot.coreUp = true → s.boot.depart = 0 → s.boot.gated = true → (s.boot.stage = 2 ∨ s.boot.stage = 3 ∨ s.boot.stage = 5) →
      passed s s.boot.gateAt (stageBound s.boot.stage) = true →
    Answers .stageBoundExpire s (fun t => t.boot.stage = s.boot.stage + 1 ∧ (s.boot.stage = 5 → t.boot.full = true))) ∧
  (∀ s, s.boot.stage = 3 → s.boot.gated = false → s.map.db.all (fun e => e.2.discDone) = true →
    Does .bu3Gate s { s with boot := { s.boot with gated := true, gateAt := now s } })

/-- Resets of the core and of the host side (R550-R555, R459). -/
def Obligations.CoreResetsAndHostResets : Prop :=
  (∀ s, s.boot.held = false → s.boot.depart = 0 →
    Does .mreset s { s with boot := { s.boot with mreset := true, full := false, depart := 2, departAt := now s } }) ∧
  (∀ s, Does .mresetRelease s { s with boot := { s.boot with mreset := false } }) ∧
  (∀ s, s.boot.depart = 2 → passed s s.boot.departAt 10000 = true →
      (passed s s.boot.trunkAt 10000 = true ∨ passed s s.boot.departAt 2000000 = true) →
    Does .departureQuiet s { s with boot := { s.boot with depart := 3, departAt := now s } }) ∧
  (∀ s, s.boot.depart = 3 → (coreEmpty s = true ∨ passed s s.boot.departAt 1000000 = true) →
    Answers .departureDrained s (fun t => t.boot.held = true ∧ t.boot.coreUp = false ∧ t.boot.full = false ∧ t.boot.stage = 0 ∧ t.boot.depart = 0 ∧
      (∀ p, (t.port p).st = .down ∧ (t.port p).keyed = false) ∧ t.mf.open_ = [] ∧ t.mf.own = [] ∧ t.sw.queues = [] ∧
      t.clk = s.clk ∧ t.hst.funcs = [] ∧ t.hst.fifos = [])) ∧
  (∀ bad s, s.boot.held = true → s.boot.coreReset = true → mayStart s = true → s.chv.pstate ≠ .sleep → s.chv.sleepReq = false →
      (loadProfile s).sec.recovery = false →
    Answers (.coreReinitDone bad) s (fun t => t.boot.coreUp = true ∧ t.clk.held = [])) ∧
  (∀ port s, isHostPort port = true →
    Answers (.perst port) s (fun t => (t.hport port).perst = true ∧ (t.hport port).linkUp = false ∧ (t.hport port).vfEn = false ∧
      (t.hport port).ideKeys = [])) ∧
  (∀ port s, isHostPort port = true → Does (.perstDeassert port) s (s.modHport port (fun h => { h with perst := false }))) ∧
  (∀ port s, isHostPort port = true → (s.hport port).linkUp = true →
    Answers (.hotReset port) s (fun t => (t.hport port).linkUp = false ∧ (t.hport port).vfEn = false ∧ (t.hport port).ideKeys = [])) ∧
  (∀ port s, isHostPort port = true → (s.hport port).linkUp = true → (s.hport port).vfEn = true →
    Answers (.vfEnableClear port) s (fun t => (t.hport port).vfEn = false ∧ (t.hport port).numVfs = 0 ∧ (t.hport port).ideTdi = [] ∧
      (t.hport port).linkUp = true)) ∧
  (∀ port func s, isHostPort port = true → isFunc func = true → func ≠ 0 → funcUp s port func = true → funcCtx s port func = none →
    Answers (.flr port func) s (fun t => (t.func (funcKey port func)).flrAt = some (now s) ∧ (t.func (funcKey port func)).sqs = [] ∧
      (t.func (funcKey port func)).msix = [])) ∧
  (∀ port func s, isHostPort port = true → isFunc func = true →
    Does (.flrComplete port func) s (s.modFunc (funcKey port func) (fun f => { f with flrAt := none }))) ∧
  (∀ port s, isHostPort port = true → (s.hport port).linkUp = true →
    Answers (.hostLinkDown port) s (fun t => (t.hport port).linkUp = false)) ∧
  (∀ port s, isHostPort port = true → s.boot.pwrgd = true → 4 ≤ s.boot.step → (s.hport port).perst = false → (s.hport port).linkUp = false →
      3 * port ∉ s.rel.dieFailed →
    Answers (.hostLinkUp port) s (fun t => (t.hport port).linkUp = true))

/-- Chervil's sampling of temperatures, the bins and levels that follow it, pacing, and the limits of power and heat (R38-R40, R46-R49, R373, R556, R557, R562-R566). -/
def Obligations.TemperatureAndPowerLimits : Prop :=
  (∀ readings s, readings.length = 51 → chervilRuns s = true →
    Answers (.tempSample readings) s (fun t =>
      (∀ i < 51, ∀ x, readings.getD i none = some x → Config.inRange i x = true → (t.sensor i).hist = (x :: (s.sensor i).hist).take 5) ∧
      (∀ b < 34, (t.block b).bin = stepLevel binEnter binLeave (sensorTemp t b) (s.block b).bin) ∧
      (∀ h < 2, perLevel t h = stepLevel [90, 100] [85, 95] (dieTemp t (4 + h)) (perLevel s h)) ∧
      Touches [.chv, .per, .evr] s t)) ∧
  (∀ l c s, isDelayLine l = true → (s.line l).pend = some c →
    Does (.delayCodeApply l) s (s.setLine l { code := c })) ∧
  (∀ b mv s, isBlock b = true →
    Answers (.droopDetect b mv) s (fun t =>
      (mv < droopLevel s (droopDie b) → (t.droop b).paceT = 32 ∧ (t.droop b).paceL = (if b < 32 then (s.droop b).paceL else 32) ∧
        (t.droop b).since = none ∧ (t.droop b).events = (s.droop b).events + 1) ∧
      (droopLevel s (droopDie b) ≤ mv → t.droop b = { s.droop b with
        since := if mv < restoreLevel s (droopDie b) then none else some ((s.droop b).since.getD (now s)) }) ∧
      (∀ k, k ≠ b → t.droop k = s.droop k) ∧ Touches [.chv] s t)) ∧
  (∀ b t0 s, isBlock b = true → (s.droop b).since = some t0 → passed s t0 (s.limit (droopDie b)).dwell = true →
      (s.droop b).paceT < tileLimit s (droopDie b) → (s.block b).low = false → s.chv.pstate ≠ .waking →
    Answers (.restoreStep b) s (fun t => (t.droop b).paceT = min (tileLimit s (droopDie b)) ((s.droop b).paceT + 8) ∧
      (t.droop b).paceL = max (s.droop b).paceL (min (lookupLimit s (droopDie b)) ((s.droop b).paceL + 8)) ∧
      (t.droop b).since = some (now s) ∧ (∀ k, k ≠ b → t.droop k = s.droop k) ∧ Touches [.chv] s t)) ∧
  (∀ s, chervilRuns s = true →
    Answers .powerCapTick s (fun t =>
      (∀ d < 2, ((t.limit d).capT, (t.limit d).capL) =
          limitStep (decide ((10000 * capNow s : Nat) < powerOf s)) (decide (powerOf s < (9800 * capNow s : Nat))) ((s.limit d).capT, (s.limit d).capL) ∧
        (t.limit d).thT = (s.limit d).thT ∧ (t.limit d).thL = (s.limit d).thL) ∧
      t.chv.capLimited = ([0, 1].all (fun d => tileLimit t d == 16 && lookupLimit t d == 16) && decide ((10000 * capNow s : Nat) < powerOf s)) ∧
      ((∀ d < 2, 16 ≤ (s.limit d).capT ∧ (s.limit d).capT ≤ 64 ∧ 16 ≤ (s.limit d).capL ∧ (s.limit d).capL ≤ 64) →
        ∀ d < 2, 16 ≤ (t.limit d).capT ∧ (t.limit d).capT ≤ 64 ∧ 16 ≤ (t.limit d).capL ∧ (t.limit d).capL ≤ 64))) ∧
  (∀ s, chervilRuns s = true →
    Answers .thermalLimitTick s (fun t =>
      (∀ d < 2, ((t.limit d).thT, (t.limit d).thL) =
          limitStep (decide (deg 100 ≤ groupTemp s d)) (decide (groupTemp s d ≤ deg 97)) ((s.limit d).thT, (s.limit d).thL) ∧
        (t.limit d).capT = (s.limit d).capT ∧ (t.limit d).capL = (s.limit d).capL) ∧
      ((∀ d < 2, 16 ≤ (s.limit d).thT ∧ (s.limit d).thT ≤ 64 ∧ 16 ≤ (s.limit d).thL ∧ (s.limit d).thL ≤ 64) →
        ∀ d < 2, 16 ≤ (t.limit d).thT ∧ (t.limit d).thT ≤ 64 ∧ 16 ≤ (t.limit d).thL ∧ (t.limit d).thL ≤ 64))) ∧
  (∀ die p rest s, isPortDie die = true → (s.shed die).active = true → deg 100 ≤ dieTemp s die → passed s (s.shed die).lastShed 100000000 = true →
      portsDownward s (fun q => dieOf q == die) = p :: rest →
    Answers (.thermalPortShed die) s (fun t => (t.port p).st = .down ∧ p ∈ (t.shed die).ports ∧ (t.shed die).lastShed = now s ∧
      (∀ q, q ≠ p → t.port q = s.port q) ∧ Touches [.ports, .chv, .evr, .hst, .out] s t)) ∧
  (∀ die t0 s, isPortDie die = true → (s.shed die).coolSince = some t0 → passed s t0 10000000000 = true →
    Answers (.thermalPortRestore die) s (fun t => (t.shed die).ports = [] ∧ (t.shed die).active = false ∧
      (∀ p ∈ (s.shed die).ports, adminUp s p = true → portExists s p = true → (s.port p).st = .down → die ∉ s.rel.dieFailed →
        (t.port p).st = .trainR) ∧
      (∀ p, p ∉ (s.shed die).ports → t.port p = s.port p))) ∧
  (∀ readings s, readings.length = 4 →
    Answers (.hbmTempSample readings) s (fun t =>
      (∀ m < 4, ∀ x, readings.getD m none = some x → Config.inRange (51 + m) x = true → (t.sensor (51 + m)).hist = (x :: (s.sensor (51 + m)).hist).take 5) ∧
      (∀ m < 4, (deg 95 ≤ filtered (t.sensor (51 + m)) → m ∈ t.chv.hbmHot) ∧
        (filtered (t.sensor (51 + m)) < deg 90 → m ∉ t.chv.hbmHot))))

/-- Input, phases, heartbeats, trip and power states (R513, R556, R560, R567, R569, R571-R574). -/
def Obligations.InputPhasesTripAndSleep : Prop :=
  (∀ mv da s, Answers (.inputSample (some mv) (some da)) s (fun t =>
      (Config.inRange 55 mv = true → t.sensor 55 = filterSample 4 mv (now s) (s.sensor 55)) ∧
      (Config.inRange 56 da = true → t.sensor 56 = filterSample 4 da (now s) (s.sensor 56)) ∧
      (Config.inRange 55 mv = false → (t.sensor 55).failed = true) ∧
      t.chv.energyNj = s.chv.energyNj + (mv * da).toNat ∧
      (72000 < filtered (t.sensor 55) → t.chv.convStop = true) ∧
      (72000 < filtered (t.sensor 55) → s.chv.convStop = false → s.boot.held = false → t.boot.held = true ∧ t.boot.coreUp = false) ∧
      (filtered (t.sensor 55) ≤ 66000 → t.chv.over66 = none ∧ t.chv.inputHigh = false ∧ t.boot = s.boot))) ∧
  (∀ s, passed s (s.sensor 55).lastAt 1000000 = true → Answers (.inputSample none none) s (fun t => (t.sensor 55).failed = true)) ∧
  (∀ t0 s, s.chv.inRange = some t0 → s.chv.convStop = true → passed s t0 100000000 = true →
    Does .inputRecover s { s with chv := { s.chv with convStop := false } }) ∧
  (∀ phases rails s, phases.length = 48 → rails.length = 5 → Answers (.phaseSample phases rails) s (fun t =>
      (∀ i < 48, ∀ r, phases.getD i (0, 0, false) = r →
        (t.phase i).cur = filterSample 3 r.1 (now s) (s.phase i).cur ∧ (t.phase i).tmp = filterSample 3 r.2.1 (now s) (s.phase i).tmp ∧
        (t.phase i).failed = ((s.phase i).failed || decide (750 < filtered (t.phase i).cur) || decide (125 < filtered (t.phase i).tmp) || r.2.2)) ∧
      (∀ r < 5, (t.phase (48 + r)).cur = filterSample 3 (rails.getD r 0) (now s) (s.phase (48 + r)).cur) ∧
      ((∃ i < 48, (s.phase i).failed = false ∧ (t.phase i).failed = true) → t.chv.capMax = capOf (workingPhases t)))) ∧
  (∀ seen s, (∀ c ∈ seen, c < 10) → chervilRuns s = true → s.boot.coreUp = true → s.ctl.restartAt = none →
    Answers (.heartbeatCheck seen) s (fun t =>
      ((∃ c ∈ beatCores s, c ∉ seen ∧ passed s (mget 0 c s.chv.beats) 100000000 = true) →
        t.ctl.restartAt = some (now s) ∧ (∀ h < 256, (t.thread h).running = false) ∧ t.chv.beatRaised = []) ∧
      ((∀ c ∈ beatCores s, c ∉ seen → passed s (mget 0 c s.chv.beats) 100000000 = false) →
        t.ctl.restartAt = none ∧ (∀ c ∈ beatCores s, (c ∈ t.chv.beatRaised ↔ c ∉ seen)) ∧ Touches [.chv, .evr, .ctl, .hst, .out] s t))) ∧
  (∀ s, s.boot.coreUp = true → passed s s.chv.lscanAt 10000000 = true →
    Answers .leaseProgressCheck s (fun t => t.chv.stallRaised = true ∧ Touches [.chv, .evr, .ctl, .hst, .out] s t)) ∧
  (∀ i s, i < 50 → s.boot.held = false →
    Answers (.thermalTrip i) s (fun t => t.boot.held = true ∧ t.boot.coreUp = false ∧ t.chv.trip = true ∧ t.clk = s.clk)) ∧
  (∀ s, Does (.thermalTrip 50) s (powerOff s)) ∧
  (∀ s, (powerOff s).boot.pwrgd = false ∧ (powerOff s).boot.coreUp = false ∧ (powerOff s).boot.profile = s.boot.profile ∧
    (powerOff s).evr.crit = s.evr.crit ∧ (powerOff s).tab = State.reset.tab ∧ (powerOff s).sw = State.reset.sw ∧ (powerOff s).ctl = State.reset.ctl) ∧
  (∀ s, s.chv.trip = true → s.boot.mreset = false → (∀ i < 50, sensorTemp s i < deg 90) →
    Does .thermalTripClear s { s with chv := { s.chv with trip := false } }) ∧
  (∀ q s, s.chv.dozeEn = true → s.chv.pstate = .run → s.boot.coreUp = true → (∀ e ∈ s.ctl.slots, e.2.st = .free) → 100000000 ≤ q →
    Does (.dozeEnter q) s { s with chv := { s.chv with pstate := .doze } }) ∧
  (∀ s, s.chv.pstate = .doze → ∀ d, coreRail s d = s.chv.dozeV) ∧
  (∀ load s, s.chv.pstate = .doze → 25 < load →
    Does (.dozeWake load) s (wakeNow s) ∧ (wakeNow s).chv.pstate = .waking ∧ (∀ b < 34, ((wakeNow s).droop b).paceT = 32) ∧
    (∀ d, coreRail (wakeNow s) d = (s.limit d).vcore) ∧ Touches [.chv] s (wakeNow s)) ∧
  (∀ s, s.chv.pstate = .waking → Does .wakeComplete s { s with chv := { s.chv with pstate := .run } }) ∧
  (∀ s, s.chv.sleepReq = true → s.boot.held = true → Does .sleepEnter s { s with chv := { s.chv with pstate := .sleep } }) ∧
  (∀ s, s.chv.sleepReq = true → s.boot.held = false → s.boot.depart = 0 →
    Does .sleepEnter s { s with boot := { s.boot with full := false, depart := 2, departAt := now s } }) ∧
  (∀ s, s.chv.pstate = .sleep → (s.chv.sleepReq = false ∨ s.boot.mreset = true) →
    Does .sleepExit s { s with chv := { s.chv with pstate := .run, sleepReq := false } })

/-- Archives, epochs, addresses, the profile and module time (R54, R56, R535, R580, R581, R586, R602). -/
def Obligations.RecordsProfileAndTime : Prop :=
  (∀ die s, isDie die = true → s.evr.frozen = false → s.boot.held = false → areasOf s die ≠ [] →
    Answers (.archiveCopy die) s (fun t => (t.recDie die).uncopied = 0 ∧
      (t.recDie die).apos = ((s.recDie die).apos + min ringSize (s.recDie die).uncopied) % archiveSize ∧
      (∀ d, d ≠ die → t.recDie d = s.recDie d) ∧ t.evr.rings = s.evr.rings ∧ Touches [.evr] s t)) ∧
  (∀ r rest s, s.evr.critPend = r :: rest → (s.evr.critTimes.filter (fun t => decide (now s < t + 1000000000))).length < 100 →
    Answers .criticalArchiveWrite s (fun t => t.evr.critPend = rest ∧ mfind? s.evr.critPos t.evr.crit = some ⟨lapMark s.evr.critLap, r⟩ ∧
      (∀ k, k ≠ s.evr.critPos → mfind? k t.evr.crit = mfind? k s.evr.crit) ∧ t.evr.critPos = (s.evr.critPos + 1) % 4096 ∧ Touches [.evr] s t)) ∧
  (∀ r rest s, s.evr.critPend = r :: rest → 100 ≤ (s.evr.critTimes.filter (fun t => decide (now s < t + 1000000000))).length →
    Answers .criticalArchiveWrite s (fun t => t.evr.critPend = rest ∧ t.evr.crit = s.evr.crit ∧ t.evr.nvLost = satAdd 30 s.evr.nvLost 1)) ∧
  (∀ s, s.evr.epochs < now s / 2 ^ 36 →
    Answers .epoch s (fun t => t.evr.epochs = now s / 2 ^ 36 ∧ (∀ d ∈ liveDies s, (t.recDie d).nextSeq = ((s.recDie d).nextSeq + 1) % 65536) ∧ Touches [.evr] s t)) ∧
  (∀ addr s, s.boot.pwrgd = true → s.hst.i3cAddr = none →
    Does (.entdaa addr) s { s with hst := { s.hst with i3cAddr := some addr } }) ∧
  (∀ addr s, s.boot.pwrgd = true → s.hst.i3cAddr = none →
    Does (.setdasa s.hst.i3cStatic addr) s { s with hst := { s.hst with i3cAddr := some addr } }) ∧
  (∀ static addr s, static ≠ s.hst.i3cStatic → Does (.setdasa static addr) s s) ∧
  (∀ x s, s.boot.pwrgd = true → s.hst.i3cAddr ≠ none → s.boot.profile = none →
    Does (.boardProfileWrite x) s { s with boot := { s.boot with profile := some x } }) ∧
  (∀ offsets s, offsets.length = 6 → Answers (.followerCheck offsets) s (fun t =>
      (∀ f < 6, (offsets.getD f 0 < -8 → mget 0 f t.clk.offs = 0 ∧ f ∉ t.clk.held) ∧
        (8 < offsets.getD f 0 → mget 0 f t.clk.offs = offsets.getD f 0 ∧ f ∈ t.clk.held) ∧
        (-8 ≤ offsets.getD f 0 → offsets.getD f 0 ≤ 0 → mget 0 f t.clk.offs = offsets.getD f 0 ∧ f ∉ t.clk.held)) ∧
      t.clk.cycles = s.clk.cycles ∧ Touches [.clk, .evr] s t)) ∧
  (∀ s, s.clk.holdover = false → s.boot.pwrgd = true →
    Answers .holdoverEnter s (fun t => t.clk = { s.clk with holdover := true } ∧ (t.recDie 6).nextSeq = ((s.recDie 6).nextSeq + 1) % 65536 ∧
      Touches [.clk, .evr, .hst, .out] s t)) ∧
  (∀ s, s.clk.holdover = true →
    Answers .holdoverExit s (fun t => t.clk = { s.clk with holdover := false } ∧ (t.recDie 6).nextSeq = ((s.recDie 6).nextSeq + 1) % 65536 ∧
      Touches [.clk, .evr, .hst, .out] s t))

/-- Reliability (R500-R521). -/
def Obligations.FaultsAreSparedOrRetired : Prop :=
  (∀ line s, isHbmLine line = true → lastLine line = false → line ∉ s.mf.poison → bufferedAt s line = false →
    Answers (.patrolRead (.hbm line) .uncorrectable) s (fun t => line ∈ t.mf.poison ∧ memRead t.mf.hbm (64 * line) 64 = List.replicate 64 0 ∧
      (∀ a, a < 64 * line ∨ 64 * line + 64 ≤ a → memByte t.mf.hbm a = memByte s.mf.hbm a) ∧ Touches [.mf, .rel] s t)) ∧
  (∀ tile word s, isTile tile = true → word < 22528 → word ∉ (s.tile tile).poison →
    Answers (.patrolRead (.scratch tile word) .uncorrectable) s (fun t => word ∈ (t.tile tile).poison ∧
      memRead (t.tile tile).scratch (32 * word) 32 = List.replicate 32 0 ∧
      (∀ a, a < 32 * word ∨ 32 * word + 32 ≤ a → memByte (t.tile tile).scratch a = memByte (s.tile tile).scratch a) ∧
      (t.tile tile).valid = (s.tile tile).valid ∧
      (∀ k, k ≠ tile → t.tile k = s.tile k) ∧ Touches [.ctl, .rel] s t)) ∧
  (∀ place s, isPlace place = true → (∀ line, place ≠ .hbm line) → Answers (.patrolRead place .clean) s (fun t => t = s)) ∧
  (∀ m s, isMacro m = true → chervilRuns s = true → mget 0 m s.rel.rows < 4 →
    Answers (.rowRepair m) s (fun t => mget 0 m t.rel.rows = mget 0 m s.rel.rows + 1 ∧ Touches [.rel, .evr] s t)) ∧
  (∀ bank s, bank < 96 → chervilRuns s = true → bank % 48 ∉ (s.buf (bank / 48)).bankRetired → mget 0 (bank % 48) (s.buf (bank / 48)).inUse = 0 →
    Answers (.bankSpare bank) s (fun t =>
      mfind? (bank % 48) (t.buf (bank / 48)).bankStop = none ∧
      (0 < (s.buf (bank / 48)).bankSpares → (t.buf (bank / 48)).bankSpares = (s.buf (bank / 48)).bankSpares - 1 ∧
        (t.buf (bank / 48)).bankRetired = (s.buf (bank / 48)).bankRetired) ∧
      ((s.buf (bank / 48)).bankSpares = 0 → bank % 48 ∈ (t.buf (bank / 48)).bankRetired))) ∧
  (∀ stack frame k new u s, isStack stack = true → frame < 589824 → chervilRuns s = true → stack ∉ s.tier.stacksFailed →
      servedBy s stack frame = some k → takeRemap stack s = some (new, u) →
    Answers (.frameReplace stack frame) s (fun t => mfind? k t.tier.remap = some new ∧ 1048576 * stack + frame ∈ t.rel.ppr ∧
      memRead t.mf.hbm (65536 * new) 65536 = memRead s.mf.hbm (65536 * (1048576 * stack + frame)) 65536)) ∧
  (∀ stack frame k s, isStack stack = true → frame < 589824 → chervilRuns s = true → stack ∉ s.tier.stacksFailed →
      servedBy s stack frame = some k → takeRemap stack s = none → pagesIn s k = [] →
    Answers (.frameReplace stack frame) s (fun t => k ∈ t.tier.retired ∧ t.tier.remap = s.tier.remap)) ∧
  (∀ tile s, isTile tile = true → chervilRuns s = true → (s.tile tile).run = none → (s.tile tile).retired = false →
      clusterOf tile ∉ s.rel.spareUsed → clusterOf tile ∉ s.rel.spareGone →
    Answers (.tileSpare tile) s (fun t => (t.tile tile).onSpare = true ∧ (t.tile tile).retired = false ∧ (t.tile tile).scratch = (s.tile tile).scratch ∧
      clusterOf tile ∈ t.rel.spareUsed ∧ t.ctl.slots = s.ctl.slots)) ∧
  (∀ tile s, isTile tile = true → chervilRuns s = true → (s.tile tile).run = none → (s.tile tile).retired = false →
      clusterOf tile ∈ s.rel.spareUsed → slotsOf s tile = [] →
    Answers (.tileSpare tile) s (fun t => (t.tile tile).retired = true)) ∧
  (∀ tile s, isTile tile = true → (s.tile tile).retired = true → slotsOf s tile = [] → (s.tile tile).run = none →
    Does (.tilePowerOff tile) s (s.modTile tile (fun x => { x with off := true }))) ∧
  (∀ stack s, isStack stack = true → stack ∉ s.tier.stacksFailed →
    Answers (.hbmStackFail stack) s (fun t => stack ∈ t.tier.stacksFailed ∧ t.mf = s.mf ∧ Touches [.tier, .svc, .evr] s t)) ∧
  (∀ die s, isPortDie die = true → die ∉ s.rel.dieFailed →
    Answers (.portDieFail die) s (fun t => die ∈ t.rel.dieFailed ∧ (∀ p < 384, dieOf p = die → (t.port p).st = .down) ∧
      (∀ p, dieOf p ≠ die → (t.port p).st = (s.port p).st))) ∧
  (∀ die s, isCoreDie die = true → 4 + die ∉ s.rel.dieFailed → s.boot.held = false →
    Answers (.coreDieFail die) s (fun t => t.boot.held = true ∧ t.boot.coreUp = false)) ∧
  (∀ core s, isCore core = true → core ∉ s.ctl.coreOff →
      2 ≤ ((mget [] core s.ctl.coreStops).filter (fun t => decide (now s ≤ t + 3600000000000))).length →
    Answers (.controlCoreDisable core) s (fun t => core ∈ t.ctl.coreOff ∧
      (∀ i < 32, i ∉ reservedThreads core → (t.thread (32 * core + i)).running = false))) ∧
  (∀ b (x : Nat) s, isBlock b = true → chervilRuns s = true →
    let l := ((x : Int) :: (s.block b).margins).take 5
    let o := mget 0 (8 * b + (s.block b).bin) s.chv.offsets
    Answers (.replicaMarginSample b x) s (fun t => (t.block b).margins = l ∧ (t.block b).margin = medianOf l ∧
      (t.block b).low = decide (medianOf l ≤ 1) ∧
      (3 ≤ medianOf l → t.chv.offsets = s.chv.offsets ∧ t.chv.droop = s.chv.droop ∧ Touches [.chv] s t) ∧
      (medianOf l < 3 → o < 4 → mget 0 (8 * b + (s.block b).bin) t.chv.offsets = o + 1 ∧
        (∀ l ∈ blockLines b, (t.line l).pend = some (codeFor t l (s.block b).bin))) ∧
      (medianOf l ≤ 1 → (t.droop b).paceT = 32))) ∧
  (∀ cl r rest s, isCluster cl = true → mget [] cl s.rel.shadows = r :: rest →
    Answers (.shadowRun cl true true) s (fun t => mget [] cl t.rel.shadows = rest ∧ t.ctl = s.ctl ∧ Touches [.rel] s t) ∧
    Answers (.shadowRun cl false true) s (fun t => mget [] cl t.rel.shadows = rest ∧ (t.tile r.tile).quarUntil = some (now s + 10000000) ∧
      mget 0 (tileOffset r.tile r.bin) t.chv.offsets = min 8 (mget 0 (tileOffset r.tile r.bin) s.chv.offsets + 1)) ∧
    Answers (.shadowRun cl false false) s (fun t =>
      mget 0 (spareOffset cl r.bin) t.chv.offsets = min 8 (mget 0 (spareOffset cl r.bin) s.chv.offsets + 1) ∧ t.ctl.tiles = s.ctl.tiles)) ∧
  (∀ tile since s, isTile tile = true → (s.tile tile).quarUntil = some since → reached s since = true →
    Does (.quarantineEnd tile) s (s.modTile tile (fun x => { x with quarUntil := none })))

/-- The switch core's commands (R28, R95-R134). -/
def Obligations.PacketsMoveThroughTheSwitch : Prop :=
  (∀ ep vl x rest s, isEp ep = true → isCls vl = true → mget [] (qkey ep vl) s.sw.ingress = x :: rest →
    Answers (.ingressLookup ep vl) s (fun t => mget [] (qkey ep vl) t.sw.ingress = rest ∧
      (∀ k, k ≠ qkey ep vl → mget [] k t.sw.ingress = mget [] k s.sw.ingress) ∧
      (∀ p, (t.port p).st = (s.port p).st) ∧ Touches [.sw, .mf, .ports, .coh, .free] s t)) ∧
  (∀ ep vl p m rest s, 416 ≤ ep → isEp ep = true → isCls vl = true → mget [] (qkey ep vl) s.sw.ingress = (p, m) :: rest → stalls ep = true →
      pOp p ≠ opNBRMSG → (lookupTests s ep p).1 = .pass → resolve s (lookupTests s ep p).2 ep p = .keep →
    Answers (.ingressLookup ep vl) s (fun t =>
      t.mf.modIn = (if pOp p = opRDRSP then s.mf.modIn else s.mf.modIn ++ [(p, ep)]) ∧
      t.mf.streamIn = (if pOp p = opRDRSP then s.mf.streamIn ++ [(p, ep, 0)] else s.mf.streamIn))) ∧
  (∀ ep cls i ts k rest leg s, isEp ep = true → isCls cls = true → takers s ep cls = i :: ts → (s.park (qkey i cls)).pkts = k :: rest →
      k.legs = [(ep, leg)] → k.pkt.tc = cls → coreOfEp ep = ingDie i → epDown s ep = false →
      belowThreshold s (ingDie i) (qkey ep cls) = true → pCells k.pkt ≤ poolFree s (ingDie i) → (colourOf i k s).1 ≠ 2 →
    Answers (.parkedTake ep cls) s (fun t => (t.park (qkey i cls)).pkts = rest ∧ mget 0 (qkey ep cls) t.sw.rr = i + 1 ∧
      ∃ x, x.pkt = k.pkt ∧ x.leg = leg ∧ x.takeAt = now s % 2 ^ 32 ∧ (t.queue (qkey ep cls)).pkts = (s.queue (qkey ep cls)).pkts ++ [x])) ∧
  (∀ i cls k rest ep leg s, isEp i = true → isCls cls = true → (s.park (qkey i cls)).pkts = k :: rest → k.red = true →
      k.legs = [(ep, leg)] → k.pkt.tc = cls → coreOfEp ep = ingDie i → epDown s ep = false →
      belowThreshold s (ingDie i) (qkey ep cls) = true → pCells k.pkt ≤ poolFree s (ingDie i) → (colourOf i k s).1 ≠ 2 →
    Answers (.policerRetest i cls) s (fun t => (t.park (qkey i cls)).pkts = rest ∧
      ∃ x, x.pkt = k.pkt ∧ x.leg = leg ∧ x.takeAt = now s % 2 ^ 32 ∧ (t.queue (qkey ep cls)).pkts = (s.queue (qkey ep cls)).pkts ++ [x])) ∧
  (∀ i cls k rest ep leg s, isEp i = true → isCls cls = true → mget [] (qkey i cls) s.sw.stalled = k :: rest →
      k.legs = [(ep, leg)] → k.pkt.tc = cls → coreOfEp ep = coreOfEp i → epDown s ep = false →
      belowThreshold s (coreOfEp i) (qkey ep cls) = true → pCells k.pkt ≤ poolFree s (coreOfEp i) → (colourOf i k s).1 ≠ 2 →
    Answers (.internalSendAdmit i cls) s (fun t => mget [] (qkey i cls) t.sw.stalled = rest ∧
      ∃ x, x.pkt = k.pkt ∧ x.leg = leg ∧ x.takeAt = now s % 2 ^ 32 ∧ (t.queue (qkey ep cls)).pkts = (s.queue (qkey ep cls)).pkts ++ [x])) ∧
  (∀ ep tc x rest s u, isEp ep = true → isCoreLink ep = false → u = (if ep < 384 && linkAlive s ep then sendNbrDue ep s else s) →
      pickClass (refreshAll ep u) ep = some tc → (s.queue (qkey ep tc)).pkts = x :: rest → overAge s (coreOfEp ep) x = false →
      (x.blk = none ∨ 384 ≤ ep) →
    Answers (.egressSend ep) s (fun t => (t.queue (qkey ep tc)).pkts = rest ∧
      (∀ die < 2, ep = 462 + die → isResponse (pOp (applyLeg x.leg x.pkt)) = false →
        mget [] die t.mf.homeIn = mget [] die s.mf.homeIn ++ [applyLeg x.leg x.pkt]))) ∧
  (∀ die slot w s, isPortDie die = true → isTidSlot slot = true → w ∈ s.cod.waits → w.2 = (die, slot) →
    Answers (.decodeTableLoad die slot) s (fun t => (∀ v ∈ t.cod.waits, v.2 ≠ (die, slot)) ∧ (∀ v ∈ s.cod.waits, v.2 ≠ (die, slot) → v ∈ t.cod.waits) ∧
      (tsState (tslot s slot) ≠ 0 → slot ∈ mget [] die t.cod.cache) ∧ Touches [.cod] s t)) ∧
  (∀ ep s, ep < 384 →
    Answers (.gateEntryAdvance ep) s (fun t => (∀ tc < 8, (t.queue (qkey ep tc)).pkts = (s.queue (qkey ep tc)).pkts ∧
        ((s.queue (qkey ep tc)).pkts ≠ [] → (t.queue (qkey ep tc)).blocked = !eligible t ep tc)) ∧ Touches [.sw] s t)) ∧
  (∀ ep h e flip s, isEp ep = true → (s.gate ep).next = some (h, e, flip) → reached s (switchAt (s.gate ep) h flip) = true →
    Answers (.gateListSwitch ep) s (fun t => t.gate ep = { hdr := h, ents := e } ∧ (∀ k, k ≠ ep → t.gate k = s.gate k) ∧ Touches [.sw] s t)) ∧
  (∀ ep s, ep < 384 → (s.port ep).flushDue ≠ 0 →
    Answers (.portFlush ep) s (fun t => (t.port ep).flushDue = 0 ∧
      (t.recDie (4 + coreOf ep)).nextSeq = ((s.recDie (4 + coreOf ep)).nextSeq + 1) % 65536 ∧
      ((s.port ep).flushDue = 2 → (∀ tc < 8, ∀ x ∈ (s.queue (qkey ep tc)).pkts, x.leg ≠ 0 ∨ isRequest (pOp x.pkt) = false) →
        (∀ tc < 8, tc ≠ 0 → tc ≠ 6 → (t.queue (qkey ep tc)).pkts = []) ∧
        (t.queue (qkey ep 0)).pkts = (s.queue (qkey ep 0)).pkts ∧ (t.queue (qkey ep 6)).pkts = (s.queue (qkey ep 6)).pkts))) ∧
  (∀ die s, isCoreDie die = true → (s.buf die).sampleAt / samplePeriod s die < now s / samplePeriod s die →
    Answers (.telemetrySample die) s (fun t => (t.buf die).sampleAt = now s ∧
      (∀ k ∈ mkeys s.sw.queues, coreOfEp (k / 8) = die → bit (qcfg s k) 48 = true → mget 0 11 (t.queue k).ctr = depth (s.queue k)) ∧
      (∀ k, (t.queue k).pkts = (s.queue k).pkts) ∧ Touches [.sw] s t))

/-- Reads, writes, write-backs, lease ends and drains (R154-R168). -/
def Obligations.HomesServeMemory : Prop :=
  (∀ die p rest s, FirstAtHome s die opRD64 p rest →
    Answers (.rd64 die) s (fun t => mget [] die t.mf.homeIn = rest ∧ pgRef (page t (linePage (pLaddr p))) = true ∧
      (∀ l, readLine t l = readLine s l) ∧ Touches [.mf, .tier, .sw, .ports, .coh, .free] s t) ∧
    (∀ u, u = touchPage (linePage (pLaddr p)) { s with mf := { s.mf with homeIn := mset [] die rest s.mf.homeIn } } →
      (readLine s (pLaddr p)).2 = false → pNl p = 0 →
      Does (.rd64 die) s (placeResponse (homeEp die) (memResponse u p stOK 0 (padTo 64 (readLine s (pLaddr p)).1)) u))) ∧
  (∀ die p rest s, FirstAtHome s die opRDN p rest →
    Answers (.rdn die) s (fun t => mget [] die t.mf.homeIn = rest ∧ pgRef (page t (linePage (pLaddr p))) = true ∧
      (∀ l, readLine t l = readLine s l) ∧ Touches [.mf, .tier, .sw, .ports, .coh, .free] s t)) ∧
  (∀ die p rest s, FirstAtHome s die opWR64 p rest → pNl p = 0 → lineFailed s (pLaddr p) = false →
      (homeLines s (homeOf (linePage (pLaddr p)))).length < 8192 →
    Answers (.wr64 die) s (fun t => mget [] die t.mf.homeIn = rest ∧ readLine t (pLaddr p) = (padTo 64 (p.payload.take 64), false) ∧
      (∀ l, l ≠ pLaddr p → readLine t l = readLine s l) ∧ t.mf.hbm = s.mf.hbm)) ∧
  (∀ die p rest s, FirstAtHome s die opWRN p rest → (∀ l ∈ linesOf p, lineFailed s l = false) →
      (homeLines s (homeOf (linePage (pLaddr p)))).length < 8189 →
    Answers (.wrn die) s (fun t => mget [] die t.mf.homeIn = rest ∧
      (∀ i < reqLines p, readLine t (pLaddr p + i) = (padTo 64 ((p.payload.drop (64 * i)).take 64), false)) ∧
      (∀ l, l ∉ linesOf p → readLine t l = readLine s l) ∧ t.mf.hbm = s.mf.hbm)) ∧
  (∀ die p rest s, FirstAtHome s die opWRP p rest → pNl p = 0 → lineFailed s (pLaddr p) = false →
      (homeLines s (homeOf (linePage (pLaddr p)))).length < 8192 →
    Answers (.wrp die) s (fun t => mget [] die t.mf.homeIn = rest ∧ t.mf.hbm = s.mf.hbm ∧
      ((readLine s (pLaddr p)).2 = false →
        readLine t (pLaddr p) = (padTo 64 (mergeBytes (pBmask p) (readLine s (pLaddr p)).1 p.payload), false)) ∧
      ((readLine s (pLaddr p)).2 = true → readLine t (pLaddr p) = readLine s (pLaddr p)) ∧
      (∀ l, l ≠ pLaddr p → readLine t l = readLine s l))) ∧
  (∀ line b s, mfind? line s.mf.lines = some b → passed s b.at_ 1000 = true →
    Answers (.lineWriteback line) s (fun t => mfind? line t.mf.lines = none ∧ (∀ l, l ≠ line → mfind? l t.mf.lines = mfind? l s.mf.lines) ∧
      memRead t.mf.hbm (hbmAddr s line) 64 = (if b.poison then List.replicate 64 0 else padTo 64 b.data) ∧
      (∀ a, a < hbmAddr s line ∨ hbmAddr s line + 64 ≤ a → memByte t.mf.hbm a = memByte s.mf.hbm a) ∧
      (hbmAddr s line / 64 ∈ t.mf.poison ↔ b.poison = true) ∧ Touches [.mf] s t)) ∧
  (∀ ext s, isExt ext = true → exState (extent s ext) = 1 → exLeased (extent s ext) = true → reached s (exEnd (extent s ext)) = true →
    Answers (.leaseExpire ext) s (fun t => exState (extent t ext) = 2 ∧ (∀ e < 65536, e ≠ ext → extent t e = extent s e) ∧
      exBase (extent t ext) = exBase (extent s ext) ∧ exSize (extent t ext) = exSize (extent s ext) ∧ exHolder (extent t ext) = exHolder (extent s ext))) ∧
  (∀ ext s, isExt ext = true → (exState (extent s ext) = 1 ∨ exState (extent s ext) = 2) → exLeased (extent s ext) = true →
      reached s (exEnd (extent s ext) + exGrace (extent s ext)) = true →
    Answers (.leaseLapse ext) s (fun t => exState (extent t ext) = 3 ∧ mfind? ext t.mf.drainAt = some (now s) ∧ t.tab.commits = s.tab.commits + 1 ∧
      (∀ e < 65536, e ≠ ext → extent t e = extent s e))) ∧
  (∀ ext s, isExt ext = true → exState (extent s ext) = 3 → inflight s ext = 0 → extMigrating s ext = false →
    Answers (.drainComplete ext) s (fun t => t.mf.drained = insertSet ext s.mf.drained ∧ inflight t ext = 0 ∧
      t.svc.drainWait = s.svc.drainWait.filter (fun w => w.1 != ext) ∧
      ((∀ w ∈ s.svc.drainWait, w.1 ≠ ext) → Touches [.mf] s t))) ∧
  (∀ ext since s, isExt ext = true → mfind? ext s.mf.drainAt = some since → exState (extent s ext) = 3 → passed s since (pathBound s) = true →
      inflight s ext ≠ 0 → extMigrating s ext = false →
    Answers (.drainForced ext) s (fun t => inflight t ext = 0 ∧ ext ∈ t.mf.drained ∧ (∀ e, e ≠ ext → inflight t e = inflight s e) ∧
      ((∀ w ∈ s.svc.drainWait, w.1 ≠ ext) → Touches [.mf, .evr, .hst, .out] s t)))

/-- The coherence domain and the retries of own requests (R161-R163, R172-R189). -/
def Obligations.CoherenceAndRetries : Prop :=
  (∀ die a p rest s, FirstCoherent s die opRDS a p rest → txnsOf s die = [] → waitsOf s die = [] → (∀ b < 64, record s b (pLaddr p) = 0) →
      waysUsed s die a (pLaddr p) < 16 →
    Answers (.rds die) s (fun t => mget [] die t.mf.homeIn = rest ∧ record t a (pLaddr p) = 2 ∧ txnsOf t die = [] ∧
      t.mf.lines = s.mf.lines ∧ t.mf.hbm = s.mf.hbm)) ∧
  (∀ die a p rest s, FirstCoherent s die opRDX a p rest → txnsOf s die = [] → waitsOf s die = [] → (∀ b < 64, record s b (pLaddr p) = 0) →
      waysUsed s die a (pLaddr p) < 16 →
    Answers (.rdx die) s (fun t => mget [] die t.mf.homeIn = rest ∧ record t a (pLaddr p) = 3 ∧ txnsOf t die = [] ∧
      t.mf.lines = s.mf.lines ∧ t.mf.hbm = s.mf.hbm)) ∧
  (∀ die a b p rest s, FirstCoherent s die opRDX a p rest → txnsOf s die = [] → waitsOf s die = [] → b < 64 → b ≠ a →
      record s b (pLaddr p) = 3 → agentState s b = 1 → (∀ c < 64, c ≠ b → record s c (pLaddr p) = 0) →
      waysUsed s die a (pLaddr p) < 16 →
    Answers (.rdx die) s (fun t => mget [] die t.mf.homeIn = rest ∧ record t b (pLaddr p) = 3 ∧
      (txnsOf t die).map (fun x => (x.line, x.agent, x.snoops.map (fun n => (n.agent, n.line, n.keep)))) = [(pLaddr p, a, [(b, pLaddr p, false)])])) ∧
  (∀ die a p rest s, FirstCoherent s die opWB a p rest → txnsOf s die = [] → waitsOf s die = [] → p.payload.length = 64 →
      record s a (pLaddr p) = 3 → (∀ b < 64, b ≠ a → record s b (pLaddr p) = 0) →
      (homeLines s (homeOf (linePage (pLaddr p)))).length < 8192 →
    Answers (.wb die) s (fun t => mget [] die t.mf.homeIn = rest ∧
      (wayOf s a (pLaddr p)).any (fun k => fent t k == 0) = true ∧ readLine t (pLaddr p) = (p.payload, hfld p 173 1 == 1))) ∧
  (∀ die a q rest x n s, isCoreDie die = true → mget [] die s.mf.homeIn = q :: rest → pOp q = opDATA → q.payload.length = 64 → agentOf s (pSrc q) = some a → agentState s a ≠ 3 →
      txnsOf s die = [x] → waitsOf s die = [] → x.snoops = [n] → x.victim = none → n.agent = a → n.tag = pTag q → n.line = pLaddr x.pkt →
      n.keep = false → pOp x.pkt = opRDX → pagesOf x.pkt = [linePage (pLaddr x.pkt)] → x.line = pLaddr x.pkt → record s a x.line = 3 →
      (homeLines s (homeOf (linePage x.line))).length < 8192 →
    Answers (.snoopAnswer die) s (fun t => mget [] die t.mf.homeIn = rest ∧ txnsOf t die = [] ∧
      readLine t x.line = (q.payload, hfld q 173 1 == 1))) ∧
  (∀ die line x n s, isCoreDie die = true → txnsOf s die = [x] → waitsOf s die = [] → x.line = line → x.snoops = [n] → x.victim = none →
      pLaddr x.pkt = line → n.agent < 64 → agentState s n.agent = 1 → passed s n.at_ (snoopLimit s die) = true →
    Answers (.snoopTimeout die line) s (fun t => txnsOf t die = [] ∧ n ∈ mget [] die t.coh.closed ∧ agentState t n.agent = 2 ∧
      t.coh.filter = s.coh.filter)) ∧
  (∀ die line x rest s, isCoreDie die = true → txnsOf s die = x :: rest → (∀ y ∈ rest, y.blocked = false) → waitsOf s die = [] → x.line = line →
      x.blocked = true → passed s x.pinAt 200 = true → 31 ≤ x.pins → isCohReq (pOp x.pkt) = true → x.agent < 64 → agentState s x.agent ≠ 2 →
      (∀ b < 64, record s b line = 0) → 16 ≤ waysUsed s die x.agent line → victimWay (setTxns die rest s) die x.agent line = none →
    Answers (.pinRetry die line) s (fun t => txnsOf t die = rest ∧ t.coh.filter = s.coh.filter ∧
      mget 0 (8 * die + 4) t.coh.ctr = wrapAdd 64 (mget 0 (8 * die + 4) s.coh.ctr) 1)) ∧
  (∀ die line x s, isCoreDie die = true → txnsOf s die = [x] → waitsOf s die = [] → x.line = line → x.blocked = true → passed s x.pinAt 200 = true →
      pOp x.pkt = opRDS → pLaddr x.pkt = line → x.agent < 64 → agentState s x.agent ≠ 3 → homeOf (linePage line) = die → dieLine s line < 2 ^ 31 →
      (∀ b < 64, record s b line = 0) → (∃ i < 16, fld (fent s (setBase s x.agent line + i)) 21 2 = 0) →
    Answers (.pinRetry die line) s (fun t => txnsOf t die = [] ∧ record t x.agent line = 2)) ∧
  (∀ a s, isAgent a = true → a ∈ s.coh.reclaim → (∀ d < 2, txnsOf s d = [] ∧ waitsOf s d = []) → s.coh.filter = [] →
    Answers (.agentReclaim a) s (fun t => a ∉ t.coh.reclaim ∧ (∀ b ∈ s.coh.reclaim, b ≠ a → b ∈ t.coh.reclaim) ∧ t.mf = s.mf ∧
      (t.recDie 4).nextSeq = ((s.recDie 4).nextSeq + 1) % 65536 ∧ (t.recDie 5).nextSeq = ((s.recDie 5).nextSeq + 1) % 65536)) ∧
  (∀ a k v l s, isAgent a = true → a ∈ s.coh.reclaim → (∀ d < 2, txnsOf s d = [] ∧ waitsOf s d = []) → s.coh.filter = [(k, v)] →
      k / 1048576 = 0 → k % 1048576 / 16384 = a → fld v 21 2 = 3 → lineOfEntry s 0 k = some l → wayOf s a l = some k →
    Answers (.agentReclaim a) s (fun t => a ∉ t.coh.reclaim ∧ t.coh.filter = [] ∧ (mfind? l t.mf.lines).any (·.poison) = true)) ∧
  (∀ tag new r s, tag < 1048576 → mfind? tag s.mf.own = some r → r.retryAt = none → passed s r.at_ (ownTimeout s (pCtx r.pkt)) = true →
      r.tries < ownRetries s (pCtx r.pkt) → isMemRead (pOp r.pkt) = true → nextFreeTag s tag = some new →
    Answers (.requestTimeout tag) s (fun t => mfind? tag t.mf.own = none ∧ mhas tag t.mf.tagHold = true ∧
      (mfind? new t.mf.own).any (fun x => x.tries == r.tries + 1 && x.lost && x.at_ == now s && x.user == r.user && x.unit == r.unit) = true)) ∧
  (∀ tag r s, tag < 1048576 → mfind? tag s.mf.own = some r → r.retryAt = none → passed s r.at_ (ownTimeout s (pCtx r.pkt)) = true →
      r.tries < ownRetries s (pCtx r.pkt) → isMemRead (pOp r.pkt) = false →
    Does (.requestTimeout tag) s { s with mf := { s.mf with
      own := mput tag { r with lost := true, silent := true, retryAt := some (r.at_ + pathBound s) } s.mf.own } }) ∧
  (∀ tag r s, tag < 1048576 → mfind? tag s.mf.own = some r → r.retryAt = none → passed s r.at_ (ownTimeout s (pCtx r.pkt)) = true →
      ownRetries s (pCtx r.pkt) ≤ r.tries → r.user = 7 → s.svc.backlog = [] →
    Answers (.requestTimeout tag) s (fun t => mfind? tag t.mf.own = none ∧ mhas tag t.mf.tagHold = true ∧ Touches [.mf] s t)) ∧
  (∀ tag new r since s, tag < 1048576 → mfind? tag s.mf.own = some r → r.retryAt = some since → reached s since = true → nextFreeTag s tag = some new →
    Answers (.requestRetry tag) s (fun t => mfind? tag t.mf.own = none ∧
      (mfind? new t.mf.own).any (fun x => x.tries == r.tries + 1 && x.retryAt.isNone && x.at_ == now s) = true))

/-- Service 6 and its scrubs (R153-R157, R261, R349-R351, R464). -/
def Obligations.TheLeaseManagerServes : Prop :=
  (∀ m u s, takeMail 6 1 s = some (m, u) → cmdUnknown m = false → m.ctx = 0 →
    let node := byteAt m.data 2 2
    let base := byteAt m.data 4 4
    let n := byteAt m.data 8 4
    n ≠ 0 → base + n ≤ 2 ^ 32 → node < 16384 → runMeets u.svc.freeMap node base n = false →
      (∀ e ∈ listedExtents u, exState (extent u e) ≠ 0 → exNode (extent u e) = node → rangesMeet base n (exBase (extent u e)) (exSize (extent u e)) = false) →
    Answers .leaseRegister s (fun t => t.svc.freeMap = addRun node base n u.svc.freeMap ∧
      (∀ q, base ≤ q → q < base + n → ∃ r ∈ t.svc.freeMap, r.1 = node ∧ r.2.1 ≤ q ∧ q < r.2.1 + r.2.2) ∧
      (∀ r ∈ u.svc.freeMap, ∀ q, r.2.1 ≤ q → q < r.2.1 + r.2.2 → ∃ x ∈ t.svc.freeMap, x.1 = r.1 ∧ x.2.1 ≤ q ∧ q < x.2.1 + x.2.2) ∧ t.tab = s.tab)) ∧
  (∀ m u e i node base s, takeMail 6 2 s = some (m, u) → (m.ctx = 0 ∧ byteAt m.data 1 1 = 0 ∨ m.ctx ≠ 0 ∧ m.ctx = byteAt m.data 8 2) → byteAt m.data 4 4 ≠ 0 →
      byteAt m.data 20 1 ≤ 16 →
      byteAt m.data 8 2 < 1024 → byteAt m.data 10 2 < 16384 → fitRun u (byteAt m.data 2 2) (byteAt m.data 4 4) = some (node, base) →
      leastBelow 65536 (fun e => exState (extent u e) == 0) = some e → (freeRanges u 1).head? = some i →
    let r := serviceCommit (leaseThread u) (groupOf (grantEntries u m.data e i node base)) u
    r.1 = stOK → Answers .leaseGrant s (fun t => t.svc.freeMap = takeRun node base (byteAt m.data 4 4) r.2.svc.freeMap ∧ t.tab = r.2.tab ∧
      (∀ x ∈ t.svc.freeMap, x ∈ r.2.svc.freeMap ∨ (x.1 = node ∧ (x.2.1 + x.2.2 = base ∨ x.2.1 = base + byteAt m.data 4 4))))) ∧
  (∀ m u s, takeMail 6 2 s = some (m, u) → m.ctx = 0 → exLeased (extent u (byteAt m.data 56 2)) = false →
    let e := byteAt m.data 56 2
    let later := serviceCommit (leaseThread u) (groupOf [extIn u e 4]) u
    let freed := serviceCommit (leaseThread u) (groupOf (extIn u e 0 :: (extRanges u e).map (fun i => (0x0012, i, 0)))) u
    (byteAt m.data 1 1 = 2 → Does .leaseGrant s (svcStatus m later.1 later.2)) ∧
    (byteAt m.data 1 1 = 3 → Does .leaseGrant s (svcStatus m freed.1 freed.2))) ∧
  (∀ m u s, takeMail 6 3 s = some (m, u) → byteAt m.data 2 2 ≠ 0 → byteAt m.data 2 2 ≤ 30 →
    let l := (List.range (byteAt m.data 2 2)).map (fun i => byteAt m.data (4 + 2 * i) 2)
    Answers .leaseRenew s (fun t => t.tab = (renewList m.src l u).2.2.2.tab ∧
      ((∀ e ∈ l, exHolder (extent u e) ≠ m.src) → t.tab = s.tab ∧ t.cx = s.cx))) ∧
  (∀ m u s, takeMail 6 4 s = some (m, u) →
    let l := (listedExtents u).filter (fun e => exState (extent u e) != 0 && exLeased (extent u e) && exHolder (extent u e) == m.src)
    Answers .leaseRenewAll s (fun t => t.tab = (renewList m.src l u).2.2.2.tab ∧ (l = [] → t.tab = s.tab ∧ t.cx = s.cx))) ∧
  (∀ m u s, takeMail 6 5 s = some (m, u) →
    let e := byteAt m.data 2 2
    let r := serviceCommit (leaseThread u) (groupOf [extIn u e 3]) u
    (exState (extent u e) = 1 ∨ exState (extent u e) = 2) → exHolder (extent u e) = m.src → r.1 = stOK →
    Does .leaseRelease s (svcStatus m stOK (tellHolders e r.2))) ∧
  (∀ m u s, takeMail 6 6 s = some (m, u) →
    let e := byteAt m.data 2 2
    let r := serviceCommit (leaseThread u) (groupOf [extIn u e 3]) u
    (exState (extent u e) = 1 ∨ exState (extent u e) = 2) → (m.ctx = 0 ∨ m.ctx = exOwner (extent u e)) → r.1 = stOK →
    let t := tellHolders e r.2
    (m.ctx ≠ 0 ∨ exLeased (extent u e) = true → Does .leaseRevoke s (svcStatus m stOK t)) ∧
    (m.ctx = 0 → exLeased (extent u e) = false → exState (extent t e) = 3 → e ∉ t.mf.drained →
      Does .leaseRevoke s { t with svc := { t.svc with drainWait := t.svc.drainWait ++ [(e, m)] } })) ∧
  (∀ s, Answers .leaseScan s (fun t => t.chv.lscanAt = now s ∧ t.chv.stallRaised = false ∧
      (∀ e ∈ listedExtents s, exLeased (extent s e) = true → exState (extent t e) =
        if (exState (extent s e) = 1 ∨ exState (extent s e) = 2) ∧ reached s (exEnd (extent s e) + exGrace (extent s e)) = true then 3
        else if exState (extent s e) = 1 ∧ reached s (exEnd (extent s e)) = true then 2 else exState (extent s e)))) ∧
  (∀ ext n u s, isExt ext = true → exState (extent s ext) = 4 → exLeased (extent s ext) = true → mhas ext s.svc.scrubs = false →
      scrubSlot ext s = some (n, u) →
    Answers (.scrubStart ext) s (fun t => mfind? ext t.svc.scrubs = some n ∧ t.tab = s.tab)) ∧
  (∀ ext s, isExt ext = true → exState (extent s ext) = 3 → ext ∈ s.mf.drained → (mget {} ext s.svc.holds).undrained = [] →
      ctxState s (exOwner (extent s ext)) ≠ 2 →
    let r := serviceCommit (leaseThread s) (groupOf (scrubbingEntries s [ext])) s
    r.1 = stOK → Does (.scrubStart ext) s (tellState ext 2 (beginScrub r.2 ext))) ∧
  (∀ ext s, isExt ext = true → exState (extent s ext) = 4 → exLeased (extent s ext) = true → scrubDone s ext = true →
    let v := extent s ext
    let r := serviceCommit (leaseThread s) (groupOf (extIn s ext 0 :: (extRanges s ext).map (fun i => (0x0012, i, 0)))) s
    r.1 = stOK → mfind? (exOwner v) r.2.cx.removals = none →
    Answers (.scrubComplete ext) s (fun t => t.svc.freeMap = addRun (exNode v) (exBase v) (exSize v) r.2.svc.freeMap ∧ t.tab = r.2.tab)) ∧
  (∀ s, Does .backingLeaseRenew s
    (renewList s.boot.node ((listedExtents s).filter (fun e => isBacking s (extent s e) && exLeased (extent s e))) s).2.2.2)

/-- The codec jobs (R356-R363). -/
def Obligations.CodecJobsCodeTheirBlocks : Prop :=
  (∀ die job op n c s, isPortDie die = true → isJob job = true → jobRuns s (8 * die + job) op = true → jobBad s die (codecJob s (8 * die + job)) = false →
      CodecQuiet s die job → (codecRun s (8 * die + job)).asked = 0 → nextLines s (8 * die + job) 64 ≠ 0 →
      (op = 1 ∧ c = .codecBuild die job ∧ n = nextLines s (8 * die + job) 64 ∨ op = 2 ∧ c = .codecEncode die job ∧ n = nextLines s (8 * die + job) 64 ∨
        op = 3 ∧ c = .codecReencode die job ∧ n = 1) →
    Answers c s (fun t => (codecRun t (8 * die + job)).asked = n ∧
      (codecRun t (8 * die + job)).out.map (fun r => (pLaddr r.pkt, pNl r.pkt + 1)) = (List.range (ceilDiv n 4)).map (fun i =>
        ((paLaddr (cjSrc (codecJob s (8 * die + job))) + (codecRun s (8 * die + job)).read + 4 * i) % 2 ^ 42, min 4 (n - 4 * i))) ∧
      (codecRun t (8 * die + job)).read = (codecRun s (8 * die + job)).read ∧ t.cod.slots = s.cod.slots)) ∧
  (∀ die job s, isPortDie die = true → isJob job = true → jobRuns s (8 * die + job) 1 = true → jobBad s die (codecJob s (8 * die + job)) = false →
      CodecQuiet s die job → nextLines s (8 * die + job) 64 ≠ 0 → nextLines s (8 * die + job) 64 ≤ (codecRun s (8 * die + job)).asked →
    let x := codecRun s (8 * die + job)
    let h := expHist (cjFmt (codecJob s (8 * die + job))) (x.buf.map (·.2)).flatten
    Answers (.codecBuild die job) s (fun t => (codecRun t (8 * die + job)).read = x.read + nextLines s (8 * die + job) 64 ∧
      (codecRun t (8 * die + job)).hist = (if x.hist = [] then h else (x.hist.zip h).map (fun y => y.1 + y.2)) ∧
      (codecRun t (8 * die + job)).fin = none ∧ t.cod.slots = s.cod.slots ∧ Touches [.cod] s t)) ∧
  (∀ die job slot s, isPortDie die = true → isJob job = true → jobRuns s (8 * die + job) 1 = true → jobBad s die (codecJob s (8 * die + job)) = false →
      CodecQuiet s die job → nextLines s (8 * die + job) 64 = 0 → replacing s (cjTid (codecJob s (8 * die + job))) = false →
      storeDown s = false → leastBelow 4096 (fun n => tsState (tslot s n) == 0) = some slot →
    Answers (.codecBuild die job) s (fun t => (codecRun t (8 * die + job)).fin = some stOK ∧
      lensOf t slot = buildLens (codecRun s (8 * die + job)).hist ∧
      tsState (tslot t slot) = 1 ∧ tsTid (tslot t slot) = cjTid (codecJob s (8 * die + job)) ∧ tsFmt (tslot t slot) = cjFmt (codecJob s (8 * die + job)) ∧
      (∀ n, n ≠ slot → lensOf t n = lensOf s n) ∧ Touches [.cod] s t)) ∧
  (∀ die job s, isPortDie die = true → isJob job = true → jobRuns s (8 * die + job) 1 = true → jobBad s die (codecJob s (8 * die + job)) = false →
      CodecQuiet s die job → nextLines s (8 * die + job) 64 = 0 →
      (replacing s (cjTid (codecJob s (8 * die + job))) = true ∨ storeDown s = true ∨ leastBelow 4096 (fun n => tsState (tslot s n) == 0) = none) →
    Answers (.codecBuild die job) s (fun t => (codecRun t (8 * die + job)).fin = some stBusy ∧ t.cod.slots = s.cod.slots ∧ Touches [.cod] s t)) ∧
  (∀ die job s op, isPortDie die = true → isJob job = true → jobRuns s (8 * die + job) op = true → jobBad s die (codecJob s (8 * die + job)) = true →
      ∀ c, (op = 1 ∧ c = .codecBuild die job) ∨ (op = 2 ∧ c = .codecEncode die job) ∨ (op = 3 ∧ c = .codecReencode die job) →
    Answers c s (fun t => (codecRun t (8 * die + job)).fin = some stViolation ∧ t.cod.slots = s.cod.slots ∧ Touches [.cod] s t)) ∧
  (∀ die job n s, isPortDie die = true → isJob job = true → jobRuns s (8 * die + job) 2 = true → jobBad s die (codecJob s (8 * die + job)) = false →
      CodecQuiet s die job → nextLines s (8 * die + job) 64 ≠ 0 → nextLines s (8 * die + job) 64 ≤ (codecRun s (8 * die + job)).asked →
      storeDown s = false → currentSlot s (cjTid (codecJob s (8 * die + job))) = some n →
    let b := encodeBlock (cjFmt (codecJob s (8 * die + job))) (cjTid (codecJob s (8 * die + job))) (tsGen (tslot s n)) (lensOf s n)
      ((codecRun s (8 * die + job)).buf.map (·.2)).flatten
    Answers (.codecEncode die job) s (fun t =>
      (codecRun t (8 * die + job)).read = (codecRun s (8 * die + job)).read + nextLines s (8 * die + job) 64 ∧
      (codecRun t (8 * die + job)).sent = (codecRun s (8 * die + job)).sent + b.length / 64 ∧
      (codecRun t (8 * die + job)).out.map (fun r => r.pkt.payload) = poolPieces b ∧ (codecRun t (8 * die + job)).fin = none ∧
      t.cod.slots = s.cod.slots ∧ t.tier = s.tier)) ∧
  (∀ die job n s, isPortDie die = true → isJob job = true → jobRuns s (8 * die + job) 3 = true → jobBad s die (codecJob s (8 * die + job)) = false →
      CodecQuiet s die job → nextLines s (8 * die + job) 65 ≠ 0 → (codecRun s (8 * die + job)).slot = 0 →
    let x := codecRun s (8 * die + job)
    let data := (x.buf.map (·.2)).flatten
    let h := byteAt data 0 16
    1 ≤ x.asked → min (nextLines s (8 * die + job) 65) (bhClen h) ≤ x.asked → storeDown s = false →
      currentSlot s (cjTid (codecJob s (8 * die + job))) = some n → headerOk h = true → bhRaw h = true → (decodeBlock none data).1 = stOK →
    let b := encodeBlock (cjFmt (codecJob s (8 * die + job))) (cjTid (codecJob s (8 * die + job))) (tsGen (tslot s n)) (lensOf s n) (decodeBlock none data).2
    Answers (.codecReencode die job) s (fun t =>
      (codecRun t (8 * die + job)).read = x.read + bhClen h ∧ (codecRun t (8 * die + job)).sent = x.sent + b.length / 64 ∧
      (codecRun t (8 * die + job)).out.map (fun r => r.pkt.payload) = poolPieces b ∧ (codecRun t (8 * die + job)).fin = none)) ∧
  (∀ die job s, isPortDie die = true → isJob job = true → jobRuns s (8 * die + job) 3 = true → jobBad s die (codecJob s (8 * die + job)) = false →
      CodecQuiet s die job → nextLines s (8 * die + job) 65 ≠ 0 → 1 ≤ (codecRun s (8 * die + job)).asked →
      headerOk (byteAt ((codecRun s (8 * die + job)).buf.map (·.2)).flatten 0 16) = false →
    Answers (.codecReencode die job) s (fun t => (codecRun t (8 * die + job)).fin = some stViolation ∧ Touches [.cod] s t)) ∧
  (∀ die job st s, isPortDie die = true → isJob job = true → jobState (codecJob s (8 * die + job)) = 1 → mhas (8 * die + job) s.cod.runs = true →
      CodecQuiet s die job → st < 16 → (codecRun s (8 * die + job)).wrote < 2 ^ 32 →
      ((codecRun s (8 * die + job)).fin = some st ∨ (codecRun s (8 * die + job)).fin = none ∧ st = stOK ∧ jobOp (codecJob s (8 * die + job)) ≠ 1 ∧
        (codecRun s (8 * die + job)).read = cjLines (codecJob s (8 * die + job))) →
    Answers (.codecJobDone die job) s (fun t => jobState (codecJob t (8 * die + job)) = 2 ∧ fld (codecJob t (8 * die + job)) 24 4 = st ∧
      fld (codecJob t (8 * die + job)) 224 32 = (codecRun s (8 * die + job)).wrote ∧ (∀ k, k ≠ 8 * die + job → codecJob t k = codecJob s k) ∧ Touches [.cod] s t))

/-- The tier engine (R386-R400). -/
def Obligations.PagesMoveBetweenTiers : Prop :=
  (∀ p f s, p < 67108864 → moveOf s p = none → heldFor s p ≠ [] → pgState (page s p) = 2 → pgTier (page s p) ≠ 0 →
      quotaRoom s 0 (pgCtx (page s p)) = true → freeFrame s (stackOf s p) = some f →
    Answers (.pageMoveStart p 0) s (fun t => pgState (page t p) = 3 ∧ pgTo (page t p) = 0 ∧
      t.tier.moves = s.tier.moves ++ [{ page := p, loc := f, dest := 0, src := pgTier (page s p), tc := 4 }] ∧
      1048576 * stackOf s p + f ∈ t.tier.frames ∧ (∀ q, q ≠ p → page t q = page s q) ∧ Touches [.tier, .mf] s t)) ∧
  (∀ p dest m s, p < 67108864 → moveOf s p = some m → m.src = 1 → m.reading = false → m.asked = false → ownOpen s 11 (moveKey p) = false →
    Answers (.pageMoveStart p dest) s (fun t => (moveOf t p).any (·.reading) = true ∧ mfind? (moveKey p) t.svc.reads = some {} ∧
      (∀ q, page t q = page s q) ∧ t.tier.moves.map (·.page) = s.tier.moves.map (·.page))) ∧
  (∀ p data m r s, p < 67108864 → moveOf s p = some m → m.dest = 0 → m.asked = false → m.loc < 524288 → sourceGot s m data = some r →
      r.status = stOK → r.data.length = 65536 → mget [] (homeOf p) s.tier.held = [] →
    Answers (.pageMoveFlip p data) s (fun t => pgState (page t p) = 1 ∧ pgTier (page t p) = 0 ∧ pgLoc (page t p) = m.loc ∧ moveOf t p = none ∧
      memRead t.mf.hbm (65536 * frameKey t (stackOf t p) m.loc) 65536 = r.data ∧ (∀ q, q ≠ p → page t q = page s q))) ∧
  (∀ p data m s, p < 67108864 → moveOf s p = some m → m.dest = 1 → m.asked = true → m.failed = none → m.loc < 2 ^ 48 → pgFixed (page s p) = false →
      ownOpen s 9 p = false → mget [] (homeOf p) s.tier.held = [] →
    Answers (.pageMoveFlip p data) s (fun t => pgState (page t p) = 2 ∧ pgTier (page t p) = 1 ∧ pgLoc (page t p) = m.loc ∧ moveOf t p = none ∧
      t.mf = s.mf ∧ (∀ q, q ≠ p → page t q = page s q))) ∧
  (∀ p f m s, p < 67108864 → moveOf s p = some m → m.src ≠ 0 → m.reading = true → m.asked = false →
      (m.src = 1 → (poolGot s (moveKey p)).any (fun r => r.status != stOK) = true) → pgState (page s p) = 3 → pgTier (page s p) ≠ 0 →
      freeFrame (dropMove p s) (stackOf s p) = some f → mget [] (homeOf p) s.tier.held = [] →
    Answers (.pageLost p) s (fun t => pgState (page t p) = 1 ∧ pgLoc (page t p) = f ∧ moveOf t p = none ∧
      (∀ i < 1024, hbmAddr t (1024 * p + i) / 64 ∈ t.mf.poison))) ∧
  (∀ die s, isCoreDie die = true →
    Answers (.tierHoldTimeout die) s (fun t =>
      mget [] die t.tier.held = (mget [] die s.tier.held).filter (fun h => !decide (h.at_ + tierHold s < now s)) ∧
      (∀ d, d ≠ die → mget [] d t.tier.held = mget [] d s.tier.held) ∧ t.tier.pages = s.tier.pages ∧ Touches [.tier, .sw, .mf, .ports, .coh, .free] s t)) ∧
  (∀ job s, job < 16 → tierRuns s job 1 = true → tjTo (tierJob s job) < 3 → (tierRun s job).at_ < tjPages (tierJob s job) →
    let p := tjFirst (tierJob s job) + (tierRun s job).at_
    mayName s job p = true → pgState (page s p) ≠ 3 → restTier (page s p) = tjTo (tierJob s job) →
    Answers (.tierMove job) s (fun t => (tierRun t job).at_ = (tierRun s job).at_ + 1 ∧ t.tier.pages = s.tier.pages ∧ Touches [.tier] s t)) ∧
  (∀ job f s, job < 16 → tierRuns s job 1 = true → tjTo (tierJob s job) = 0 → (tierRun s job).at_ < tjPages (tierJob s job) →
    let p := tjFirst (tierJob s job) + (tierRun s job).at_
    mayName s job p = true → pgState (page s p) = 2 → pgTier (page s p) ≠ 0 → pgFixed (page s p) = false → moveOf s p = none →
      quotaRoom s 0 (pgCtx (page s p)) = true → freeFrame s (stackOf s p) = some f → ownOpen s 11 (moveKey p) = false →
    Answers (.tierMove job) s (fun t => pgState (page t p) = 3 ∧ (tierRun t job).at_ = (tierRun s job).at_ ∧
      t.tier.moves = s.tier.moves ++ [{ page := p, loc := f, dest := 0, src := pgTier (page s p), tc := 4, job := some job, reading := true }])) ∧
  (∀ job s, job < 16 → tierRuns s job 1 = true → tjTo (tierJob s job) < 3 → tjPages (tierJob s job) ≤ (tierRun s job).at_ →
      (∀ m ∈ s.tier.moves, m.job ≠ some job) →
    Answers (.tierMove job) s (fun t => (tierRun t job).fin = some stOK ∧ t.tier.moves = s.tier.moves ∧ Touches [.tier] s t)) ∧
  (∀ job ent s, job < 16 → tierRuns s job 2 = true → tjFirst (tierJob s job) ≠ 0 → lastNear s (tierRun s job) (tjFirst (tierJob s job)) = false →
      lookAhead s (tierRun s job) (tjFirst (tierJob s job)) ((tierRun s job).ents.length + 1) ((tjAck (tierJob s job) + 1) % 2 ^ 32) (tjDepth (tierJob s job)) = .read ent →
      mhas (tierKey job) s.svc.reads = false → ownOpen s 11 (tierKey job) = false →
    Answers (.tierPrefetch job) s (fun t => mfind? (tierKey job) t.svc.reads = some {} ∧ t.tier = s.tier)) ∧
  (∀ job ent r s, job < 16 → tierRuns s job 2 = true → tjFirst (tierJob s job) ≠ 0 → lastNear s (tierRun s job) (tjFirst (tierJob s job)) = false →
      lookAhead s (tierRun s job) (tjFirst (tierJob s job)) ((tierRun s job).ents.length + 1) ((tjAck (tierJob s job) + 1) % 2 ^ 32) (tjDepth (tierJob s job)) = .read ent →
      poolGot s (tierKey job) = some r → r.status = stOK →
    Answers (.tierPrefetch job) s (fun t => mfind? ent (tierRun t job).ents = some (orderEnt (r.data.drop (32 * (ent % 2)))) ∧
      mhas (tierKey job) t.svc.reads = false ∧ t.tier.moves = s.tier.moves ∧ Touches [.tier, .svc] s t)) ∧
  (∀ job p f s, job < 16 → tierRuns s job 2 = true → tjFirst (tierJob s job) ≠ 0 → lastNear s (tierRun s job) (tjFirst (tierJob s job)) = false →
      lookAhead s (tierRun s job) (tjFirst (tierJob s job)) ((tierRun s job).ents.length + 1) ((tjAck (tierJob s job) + 1) % 2 ^ 32) (tjDepth (tierJob s job)) = .fetch p →
      mayName s job p = true → pgState (page s p) = 2 → pgTier (page s p) ≠ 0 → quotaRoom s 0 (pgCtx (page s p)) = true → freeFrame s (stackOf s p) = some f →
      moveOf s p = none → ownOpen s 11 (moveKey p) = false →
    Answers (.tierPrefetch job) s (fun t => pgState (page t p) = 3 ∧
      t.tier.moves = s.tier.moves ++ [{ page := p, loc := f, dest := 0, src := pgTier (page s p), tc := 4, job := some job, reading := true }])) ∧
  (∀ job s, job < 16 → tierRuns s job 2 = true → lastNear s (tierRun s job) (tjFirst (tierJob s job)) = true →
    Answers (.tierPrefetch job) s (fun t => (tierRun t job).fin = some stOK ∧ Touches [.tier] s t)) ∧
  (∀ job st s, job < 16 → jobState (tierJob s job) = 1 → (tierRun s job).fin = some st → st < 16 →
    Answers (.tierJobDone job) s (fun t => jobState (tierJob t job) = 2 ∧ fld (tierJob t job) 6 4 = st ∧ mhas job t.tier.runs = false ∧
      (∀ k, k ≠ job → tierJob t k = tierJob s k) ∧ Touches [.tier] s t)) ∧
  (∀ job s, job < 16 → jobState (tierJob s job) = 1 → (tierRun s job).fin = none → ctxState s (tjCtx (tierJob s job)) ≠ 1 →
    Answers (.tierJobDone job) s (fun t => jobState (tierJob t job) = 2 ∧ fld (tierJob t job) 6 4 = stContextGone)) ∧
  (∀ ctx u s, isCtx ctx = true → overNear s ctx = true → evictOne ctx 7 s = some u →
    Answers (.quotaEvict ctx) s (fun t => t.tier.pages = u.tier.pages ∧ t.tier.moves.map (·.page) = u.tier.moves.map (·.page) ∧
      t.tier.moves.length = s.tier.moves.length + 1)) ∧
  (∀ ctx u s, isCtx ctx = true → overNear s ctx = false → evictFar ctx 1 s = some u → Does (.quotaEvict ctx) s u)

/-- Searches (R248, R249, R366-R379). -/
def Obligations.SearchesFindTheFirstEntry : Prop :=
  (∀ t w h pm v s, (AtWord s (.tile t) 0x80 (fun _ => fOpc + fD + fA + fTable) w ∨ AtWord s (.tile t) 0x82 (fun w => fOpc + fD + fA + fTable + fPred w) w) →
      (if w % 256 = 0x80 then wD w < 8 else wD w < 4) → (s.tile t).run = some h → (w % 256 = 0x82 → predOf h w = some pm) →
      vreg s (.tile t) (wA w) = some v → maySearch s (siteCtx s (.tile t)) (wTable w) = true → keysOut s t = 0 → answersOf s t = [] →
      stWidth (searchTable s (wTable w)) < 3 →
    let size := 32 * rowsOf (stWidth (searchTable s (wTable w)))
    let keys : List PKey := if w % 256 = 0x80 then [{ src := t, table := wTable w, ctx := siteCtx s (.tile t), key := BitVec.ofNat 640 v }]
      else (List.range (128 / size)).map (fun i =>
        { src := t, table := wTable w, ctx := siteCtx s (.tile t), key := BitVec.ofNat 640 (v >>> (8 * size * i)), slot := i })
    Answers (if w % 256 = 0x80 then .srch (.tile t) else .srchp (.tile t)) s (fun u => u.per = (keys.foldl (fun s q => sendKey q s) s).per ∧
      sitePc u (.tile t) = sitePc s (.tile t) ∧ (∀ i, sreg u (.tile t) i = sreg s (.tile t) i) ∧ Touches [.per, .ctl] s u)) ∧
  (∀ k s u, u = sendKey k s →
    mget [] (32 * (k.src / 128) + k.src / 8 % 16) u.per.queue = mget [] (32 * (k.src / 128) + k.src / 8 % 16) s.per.queue ++ [k] ∧
      (∀ q, q ≠ 32 * (k.src / 128) + k.src / 8 % 16 → mget [] q u.per.queue = mget [] q s.per.queue)) ∧
  (∀ t w v a s, AtWord s (.tile t) 0x80 (fun _ => fOpc + fD + fA + fTable) w → wD w < 8 → vreg s (.tile t) (wA w) = some v →
      keysOut s t = 0 → answersOf s t = [a] →
    Answers (.srch (.tile t)) s (fun u => sreg u (.tile t) (wD w) = a ∧ answersOf u t = [] ∧ sitePc u (.tile t) = sitePc s (.tile t) + 1 ∧
      (∀ i, i ≠ wD w → sreg u (.tile t) i = sreg s (.tile t) i) ∧ (∀ k, k ≠ t → answersOf u k = answersOf s k) ∧ Touches [.per, .ctl] s u)) ∧
  (∀ t w v c s, (AtWord s (.tile t) 0x80 (fun _ => fOpc + fD + fA + fTable) w ∧ c = .srch (.tile t) ∨
      AtWord s (.tile t) 0x81 (fun _ => fOpc + fD + fA + fB + fTable) w ∧ wB w < 8 ∧ c = .srchnext (.tile t)) → wD w < 8 → vreg s (.tile t) (wA w) = some v →
      maySearch s (siteCtx s (.tile t)) (wTable w) = false → searching s t = false →
    Answers c s (fun u => sreg u (.tile t) (wD w) = deniedWord ∧ u.per.queue = s.per.queue ∧
      mget 0 (8 * (t / 128) + 2) u.per.ctr = wrapAdd 64 (mget 0 (8 * (t / 128) + 2) s.per.ctr) 1 ∧ sitePc u (.tile t) = sitePc s (.tile t) + 1)) ∧
  (∀ t w v s, AtWord s (.tile t) 0x81 (fun _ => fOpc + fD + fA + fB + fTable) w → wD w < 8 → wB w < 8 → vreg s (.tile t) (wA w) = some v →
      maySearch s (siteCtx s (.tile t)) (wTable w) = true →
    let b := (sreg s (.tile t) (wB w)).toNat
    (bit b 19 = false → Answers (.srchnext (.tile t)) s (fun u => sreg u (.tile t) (wD w) = missWord ∧ u.per = s.per ∧ sitePc u (.tile t) = sitePc s (.tile t) + 1)) ∧
    (bit b 19 = true → keysOut s t = 0 → answersOf s t = [] → Answers (.srchnext (.tile t)) s (fun u =>
      u.per = (sendKey { src := t, table := wTable w, ctx := siteCtx s (.tile t), key := BitVec.ofNat 640 v, after := some (fld b 0 19) } s).per)) ∧
    (∀ a, bit b 19 = true → keysOut s t = 0 → answersOf s t = [a] → Answers (.srchnext (.tile t)) s (fun u => sreg u (.tile t) (wD w) = a))) ∧
  (∀ t w h pm v s, AtWord s (.tile t) 0x82 (fun w => fOpc + fD + fA + fTable + fPred w) w → wD w < 4 → (s.tile t).run = some h → predOf h w = some pm →
      vreg s (.tile t) (wA w) = some v → keysOut s t = 0 →
    let size := 32 * rowsOf (stWidth (searchTable s (wTable w)))
    (answersOf s t).length = 128 / size → answersOf s t ≠ [] →
    Answers (.srchp (.tile t)) s (fun u => preg u (.tile t) (wD w) = some (pickBits (fun l =>
        if laneSel pm l then ((answersOf s t).getD (l / size) missWord).toNat.testBit 19 else bit ((preg s (.tile t) (wD w)).getD 0) l)) ∧
      answersOf u t = [] ∧ sitePc u (.tile t) = sitePc s (.tile t) + 1 ∧ (∀ i, sreg u (.tile t) i = sreg s (.tile t) i))) ∧
  (∀ die i k rest s, isCoreDie die = true → nextSource s die = some i → mget [] (32 * die + i) s.per.queue = k :: rest → k.src < 256 →
      stCascade (searchTable s k.table) = false → otherPort s die k = none →
    Answers (.peridotSearch die) s (fun u => mget [] (32 * die + i) u.per.queue = rest ∧
      (∀ q, q ≠ 32 * die + i → mget [] q u.per.queue = mget [] q s.per.queue) ∧ mget 16 die u.per.turn = i ∧ u.per.rows = s.per.rows ∧
      u.per.answers = s.per.answers ++ [(k.src, k.slot, match firstMatch s k.ctx k.table k.key.toNat k.after with
        | some (row, multi, result) => resultWord row true multi false result
        | none => missWord)] ∧ Touches [.per] s u)) ∧
  (∀ die d i k rest s, isCoreDie die = true → nextSource s die = some i → mget [] (32 * die + i) s.per.queue = k :: rest →
      stCascade (searchTable s k.table) = false → otherPort s die k = some d →
    Answers (.peridotSearch die) s (fun u => d = 1 - die ∧ mget [] (32 * die + i) u.per.queue = rest ∧
      mget [] (32 * d + 16) u.per.queue = mget [] (32 * d + 16) s.per.queue ++ [k] ∧ u.per.answers = s.per.answers ∧ Touches [.per] s u)) ∧
  (∀ die i k rest s, isCoreDie die = true → nextSource s die = some i → mget [] (32 * die + i) s.per.queue = k :: rest → k.src < 256 →
      stCascade (searchTable s k.table) = true → casEn s = true →
      (s.per.broken = true → Answers (.peridotSearch die) s (fun u => mget [] (32 * die + i) u.per.queue = rest ∧
        u.per.answers = s.per.answers ++ [(k.src, k.slot, deniedWord)] ∧ Touches [.per] s u)) ∧
      (s.per.broken = false → ownCas s < 256 → Answers (.peridotSearch die) s (fun u => mget [] (32 * die + i) u.per.queue = rest ∧
        u.per.oseq = (s.per.oseq + 1) % 256 ∧ ∃ l, u.out = s.out ++ [.casKey (casPos s) s.per.oseq k.table k.ctx k.key k.after] ++ l))) ∧
  (∀ origin oseq table ctx key after s, isCtx ctx = true → casEn s = true → origin ≠ casPos s →
    let c : CasSearch := { origin := origin, oseq := oseq, table := table, key := key, ctx := ctx, after := after }
    Answers (.cascadeKey origin oseq table ctx key after) s (fun u => ∃ l, u.out = s.out ++
      (if (casPos s + 1) % casSize s = origin then [] else [.casKey origin oseq table ctx key after]) ++ [.matchWord (mwWord { c with own := casOwn s c })] ++ l)) ∧
  (∀ pin word c s, pin < 3 → casEn s = true → (casPos s + 1 + pin) % 4 < casSize s → findCas s (fld word 0 2) (fld word 2 8) = some c → c.searched = false →
      (∀ x ∈ c.words, x.1 ≠ (casPos s + 1 + pin) % 4) →
    Answers (.matchWord pin word) s (fun u => (findCas u (fld word 0 2) (fld word 2 8)).map (·.words) =
      some (c.words ++ [((casPos s + 1 + pin) % 4, bit word 10, bit word 11)]) ∧ Touches [.per] s u)) ∧
  (∀ pin word c s, pin < 3 → casEn s = true → (casPos s + 1 + pin) % 4 < casSize s → findCas s (fld word 0 2) (fld word 2 8) = some c → c.searched = true →
      (∀ x ∈ c.words, x.1 ≠ (casPos s + 1 + pin) % 4 ∧ x.2.1 = false) → bit word 10 = false → c.own = none → casSize s ≤ c.words.length + 2 →
      fld word 0 2 = casPos s → c.src < 256 →
    Answers (.matchWord pin word) s (fun u => u.per.answers = s.per.answers ++ [(c.src, c.slot, missWord)] ∧ findCas u (fld word 0 2) (fld word 2 8) = none)) ∧
  (∀ origin oseq result s, casEn s = true → origin ≠ casPos s →
    Does (.cascadeResult origin oseq result) s { s with out := s.out ++ [.casResult origin oseq result] }) ∧
  (∀ oseq result c s, casEn s = true → findCas s (casPos s) oseq = some c → c.searched = true → c.src < 256 →
    Answers (.cascadeResult (casPos s) oseq result) s (fun u => u.per.answers = s.per.answers ++ [(c.src, c.slot, result)] ∧ findCas u (casPos s) oseq = none ∧ Touches [.per] s u)) ∧
  (∀ oseq c s, findCas s (casPos s) oseq = some c → c.searched = true → passed s c.at_ 5000 = true → c.src < 256 →
    Answers (.cascadeTimeout oseq) s (fun u => u.per.answers = s.per.answers ++ [(c.src, c.slot, deniedWord)] ∧ findCas u (casPos s) oseq = none ∧ u.per.broken = true))

/-- The scalar instructions that touch no memory (R211, R212, R222, R226, R239, Table 8-5). -/
def Obligations.ScalarRowsWriteTheirRegister : Prop :=
  (∀ row ∈ [(Instr.sadd, 0x03, fun (a b : Word) => a + b), (Instr.ssub, 0x04, fun a b => a - b), (Instr.smul, 0x05, fun a b => a * b),
      (Instr.sand, 0x06, fun a b => a &&& b), (Instr.sor, 0x07, fun a b => a ||| b), (Instr.sxor, 0x08, fun a b => a ^^^ b),
      (Instr.sshl, 0x09, fun a b => a <<< (b.toNat % 64)), (Instr.sshr, 0x0A, fun a b => a >>> (b.toNat % 64)),
      (Instr.ssra, 0x0B, fun a b => a.sshiftRight (b.toNat % 64)), (Instr.smin, 0x0C, fun a b => if b.toInt < a.toInt then b else a),
      (Instr.smax, 0x0D, fun a b => if a.toInt < b.toInt then b else a)],
    ∀ x w s, AtWord s x row.2.1 fAlu w →
      (wD w < 8 → wA w < 8 → (wImmf w = false → wB w < 8) →
        Answers (row.1 x) s (fun t =>
          sreg t x (wD w) = row.2.2 (sreg s x (wA w)) (if wImmf w then BitVec.ofInt 64 (sextN 32 (wImm w)) else sreg s x (wB w)) ∧
          (∀ i, i ≠ wD w → sreg t x i = sreg s x i) ∧ sitePc t x = sitePc s x + 1 ∧
          (∀ i, vreg t x i = vreg s x i ∧ preg t x i = preg s x i) ∧ OnlySite x s t)) ∧
      ((8 ≤ wD w ∨ 8 ≤ wA w ∨ (wImmf w = false ∧ 8 ≤ wB w)) → Does (row.1 x) s (siteFault x 4 (passTurn x s)))) ∧
  (∀ row ∈ [(Instr.sadd, 0x03), (Instr.ssub, 0x04), (Instr.smul, 0x05), (Instr.sand, 0x06), (Instr.sor, 0x07), (Instr.sxor, 0x08),
      (Instr.sshl, 0x09), (Instr.sshr, 0x0A), (Instr.ssra, 0x0B), (Instr.smin, 0x0C), (Instr.smax, 0x0D)],
    ∀ x w s, isSite x = true → siteReady s x = true → fetchWord s x = some w → w % 256 = row.2 → w &&& fAlu w ≠ w →
      Does (row.1 x) s (siteFault x 4 (passTurn x s))) ∧
  (∀ x w s, AtWord s x 0x01 (fun w => fOpc + fD + fLast w) w → wD w < 8 → (wImmf w = false → wB w < 8) →
    Answers (.smov x) s (fun t => sreg t x (wD w) = (if wImmf w then BitVec.ofInt 64 (sextN 32 (wImm w)) else sreg s x (wB w)) ∧
      (∀ i, i ≠ wD w → sreg t x i = sreg s x i) ∧ sitePc t x = sitePc s x + 1 ∧ (∀ i, vreg t x i = vreg s x i ∧ preg t x i = preg s x i) ∧ OnlySite x s t)) ∧
  (∀ x w s, AtWord s x 0x02 (fun _ => fOpc + fD + fImm) w → wD w < 8 →
    Answers (.smovh x) s (fun t => (sreg t x (wD w)).toNat / 2 ^ 32 = wImm w ∧ (sreg t x (wD w)).toNat % 2 ^ 32 = (sreg s x (wD w)).toNat % 2 ^ 32 ∧
      (∀ i, i ≠ wD w → sreg t x i = sreg s x i) ∧ sitePc t x = sitePc s x + 1 ∧ (∀ i, vreg t x i = vreg s x i ∧ preg t x i = preg s x i) ∧ OnlySite x s t)) ∧
  (∀ k w s, AtWord s (.tile k) 0x10 (fun _ => fOpc + fD + fA + fImm) w → wD w < 8 → wImm w < 16 →
    (∀ v, vreg s (.tile k) (wA w) = some v → Answers (.sext (.tile k)) s (fun t => (sreg t (.tile k) (wD w)).toNat = v / 2 ^ (64 * wImm w) % 2 ^ 64 ∧
      (∀ i, i ≠ wD w → sreg t (.tile k) i = sreg s (.tile k) i) ∧ sitePc t (.tile k) = sitePc s (.tile k) + 1 ∧
      (∀ i, vreg t (.tile k) i = vreg s (.tile k) i ∧ preg t (.tile k) i = preg s (.tile k) i) ∧ OnlySite (.tile k) s t)) ∧
    (vreg s (.tile k) (wA w) = none → Does (.sext (.tile k)) s (siteFault (.tile k) 3 s))) ∧
  (∀ x w s, AtWord s x 0x10 (fun _ => fOpc + fD + fA + fImm) w → onTile x = false → Does (.sext x) s (siteFault x 4 (passTurn x s))) ∧
  (∀ x w s, AtWord s x 0x11 (fun _ => fOpc + fD) w → onTile x = false → wD w < 8 →
    Answers (.stime x) s (fun t => sreg t x (wD w) = BitVec.ofNat 64 (now s) ∧ (∀ i, i ≠ wD w → sreg t x i = sreg s x i) ∧
      sitePc t x = sitePc s x + 1 ∧ OnlySite x s t)) ∧
  (∀ k w s, AtWord s (.tile k) 0x11 (fun _ => fOpc + fD) w → Does (.stime (.tile k)) s (siteFault (.tile k) 4 s))

/-- Scratch accesses of the scalar instructions, and control flow (R206, R213, R236, R237, R239, R240). -/
def Obligations.LoadsStoresAndBranches : Prop :=
  (∀ x w s, AtWord s x 0x0E (fun _ => fOpc + fD + fA + fImm) w → wD w < 8 → wA w < 8 →
    ((sreg s x (wA w)).toNat + sextN 32 (wImm w) < 0 → Does (.sld x) s (siteFault x 2 (passTurn x s))) ∧
    ∀ a : Nat, (a : Int) = (sreg s x (wA w)).toNat + sextN 32 (wImm w) →
    (memOk s x a 8 8 = true → readPoison s x a 8 = false → Answers (.sld x) s (fun t =>
      sreg t x (wD w) = BitVec.ofNat 64 (bytesNat (readMem s x a 8)) ∧ (∀ i, i ≠ wD w → sreg t x i = sreg s x i) ∧ sitePc t x = sitePc s x + 1 ∧
      (∀ i, vreg t x i = vreg s x i ∧ preg t x i = preg s x i) ∧ OnlySite x s t)) ∧
    (memOk s x a 8 8 = false → Does (.sld x) s (siteFault x 2 (passTurn x s))) ∧
    (memOk s x a 8 8 = true → readPoison s x a 8 = true → Does (.sld x) s (siteFault x 8 (passTurn x s)))) ∧
  (∀ x w s, AtWord s x 0x0F (fun _ => fOpc + fA + fB + fImm) w → wA w < 8 → wB w < 8 →
    ((sreg s x (wA w)).toNat + sextN 32 (wImm w) < 0 → Does (.sst x) s (siteFault x 2 (passTurn x s))) ∧
    ∀ a : Nat, (a : Int) = (sreg s x (wA w)).toNat + sextN 32 (wImm w) →
    (memOk s x a 8 8 = true → Answers (.sst x) s (fun t => (readPoison s x a 8 = false → readMem t x a 8 = natBytes 8 (sreg s x (wB w)).toNat) ∧ readPoison t x a 8 = readPoison s x a 8 ∧
      (∀ k, memOk s x k 1 1 = true → (k < a ∨ a + 8 ≤ k) → readMem t x k 1 = readMem s x k 1) ∧
      (∀ i, sreg t x i = sreg s x i ∧ vreg t x i = vreg s x i ∧ preg t x i = preg s x i) ∧ sitePc t x = sitePc s x + 1 ∧
      (∀ k, x ≠ .tile k → t.tile k = s.tile k) ∧ t.ctl.slots = s.ctl.slots ∧ t.ctl.prog = s.ctl.prog ∧ t.ctl.store = s.ctl.store ∧ Touches [.ctl] s t)) ∧
    (memOk s x a 8 8 = false → Does (.sst x) s (siteFault x 2 (passTurn x s)))) ∧
  (∀ row ∈ [(Instr.brEq, 0x21, fun (a b : Word) => decide (a = b)), (Instr.brNe, 0x22, fun a b => decide (a ≠ b)),
      (Instr.brLt, 0x23, fun a b => decide (a.toInt < b.toInt)), (Instr.brGe, 0x24, fun a b => decide (b.toInt ≤ a.toInt)),
      (Instr.brLtu, 0x25, fun a b => decide (a.toNat < b.toNat)), (Instr.brGeu, 0x26, fun a b => decide (b.toNat ≤ a.toNat))],
    ∀ x w s, AtWord s x row.2.1 fCmp w → wA w < 8 → (wImmf w = false → wB w < 8) →
    let b := if wImmf w then BitVec.ofInt 64 (sextN 16 (w / 2 ^ 32 % 2 ^ 16)) else sreg s x (wB w)
    let p : Int := (sitePc s x : Int) + sextN 16 (w / 2 ^ 48 % 2 ^ 16)
    (((siteRange s x).1 : Int) ≤ p ∧ p < (siteRange s x).2 → Answers (row.1 x) s (fun t =>
      sitePc t x = (if row.2.2 (sreg s x (wA w)) b then p.toNat else sitePc s x + 1) ∧
      (∀ i, sreg t x i = sreg s x i ∧ vreg t x i = vreg s x i ∧ preg t x i = preg s x i) ∧ siteStack t x = siteStack s x ∧ OnlySite x s t)) ∧
    (¬(((siteRange s x).1 : Int) ≤ p ∧ p < (siteRange s x).2) → Does (row.1 x) s (siteFault x 4 (passTurn x s)))) ∧
  (∀ x w s, AtWord s x 0x20 (fun _ => fOpc + fImm) w →
    let p : Int := (sitePc s x : Int) + sextN 32 (wImm w)
    (((siteRange s x).1 : Int) ≤ p ∧ p < (siteRange s x).2 → Answers (.br x) s (fun t => sitePc t x = p.toNat ∧
      (∀ i, sreg t x i = sreg s x i ∧ vreg t x i = vreg s x i ∧ preg t x i = preg s x i) ∧ siteStack t x = siteStack s x ∧ OnlySite x s t)) ∧
    (¬(((siteRange s x).1 : Int) ≤ p ∧ p < (siteRange s x).2) → Does (.br x) s (siteFault x 4 (passTurn x s)))) ∧
  (∀ row ∈ [(Instr.brpAny, 0x27, true), (Instr.brpNone, 0x28, false)], ∀ k w s, AtWord s (.tile k) row.2.1 (fun _ => fOpc + fP + fImm) w →
    let p : Int := (sitePc s (.tile k) : Int) + sextN 32 (wImm w)
    ((siteRange s (.tile k)).1 : Int) ≤ p ∧ p < (siteRange s (.tile k)).2 →
    (∀ v, preg s (.tile k) (wP w) = some v → Answers (row.1 (.tile k)) s (fun t =>
      sitePc t (.tile k) = (if decide (v ≠ 0) = row.2.2 then p.toNat else sitePc s (.tile k) + 1) ∧
      (∀ i, sreg t (.tile k) i = sreg s (.tile k) i ∧ vreg t (.tile k) i = vreg s (.tile k) i ∧ preg t (.tile k) i = preg s (.tile k) i) ∧ OnlySite (.tile k) s t)) ∧
    (preg s (.tile k) (wP w) = none → Does (row.1 (.tile k)) s (siteFault (.tile k) 3 s))) ∧
  (∀ x w s, AtWord s x 0x29 (fun _ => fOpc + fImm) w →
    let p : Int := (sitePc s x : Int) + sextN 32 (wImm w)
    ((siteRange s x).1 : Int) ≤ p ∧ p < (siteRange s x).2 →
    ((siteStack s x).length < 8 → Answers (.call x) s (fun t => sitePc t x = p.toNat ∧ siteStack t x = (sitePc s x + 1) :: siteStack s x ∧
      (∀ i, sreg t x i = sreg s x i ∧ vreg t x i = vreg s x i ∧ preg t x i = preg s x i) ∧ OnlySite x s t)) ∧
    (8 ≤ (siteStack s x).length → Does (.call x) s (siteFault x 4 (passTurn x s)))) ∧
  (∀ x w p rest s, AtWord s x 0x2A (fun _ => fOpc) w → siteStack s x = p :: rest →
    Answers (.ret x) s (fun t => sitePc t x = p ∧ siteStack t x = rest ∧
      (∀ i, sreg t x i = sreg s x i ∧ vreg t x i = vreg s x i ∧ preg t x i = preg s x i) ∧ OnlySite x s t)) ∧
  (∀ k w s, AtWord s (.tile k) 0x2A (fun _ => fOpc) w → siteStack s (.tile k) = [] →
    Does (.ret (.tile k)) s (leaveHandler k (siteStep (.tile k) s))) ∧
  (∀ x w s, AtWord s x 0x2A (fun _ => fOpc) w → (∀ k, x ≠ .tile k) → siteStack s x = [] → Does (.ret x) s (siteFault x 4 (passTurn x s)))

/-- The vector instructions (R229-R232, R236-R238, R241-R243, Table 8-7). -/
def Obligations.VectorRowsWriteTheirRegister : Prop :=
  (∀ row ∈ [(Instr.vadd, 0x40, fAll, fun (a b _ : Machine.Num) => numAdd a b, fun (a b : Int) => a + b, false),
      (Instr.vsub, 0x41, fAll, fun a b _ => numAdd a (numNeg b), fun a b => a - b, false), (Instr.vmul, 0x42, fAll, fun a b _ => numMul a b, fun a b => a * b, false),
      (Instr.vmax, 0x44, fAll, fun a b _ => numMax a b, fun a b => max a b, false), (Instr.vmin, 0x45, fAll, fun a b _ => numMin a b, fun a b => min a b, false),
      (Instr.vfma, 0x43, fFp, fun a b c => numAdd (numMul a b) c, fun _ _ => 0, true)],
    ∀ k w h pm s, AtWord s (.tile k) row.2.1 fVec w → (s.tile k).run = some h →
    let f := wFmt w
    (∀ c, formatFault w row.2.2.1 true (isMx f) f = some c → Does (row.1 (.tile k)) s (siteFault (.tile k) c s)) ∧
    (formatFault w row.2.2.1 true (isMx f) f = none → (wMx w = true → f = 12 → wSat w = true) → predOf h w = some pm →
      (∀ a b, isInt f = true → wMx w = false → srcInts h f (wA w) = some a → srcInts h f (wB w) = some b →
        Answers (row.1 (.tile k)) s (HandlerGoes k (writeInt f (wD w) ((selected pm f).map (fun i => (i, fitInt f (wSat w) (row.2.2.2.2.1 (a.getD i 0) (b.getD i 0)))))) s)) ∧
      (∀ a b c, (isInt f = false ∨ wMx w = true) → srcNums h (wMx w) f (wA w) = some a → srcNums h (wMx w) f (wB w) = some b →
          (row.2.2.2.2.2 = true → srcNums h (wMx w) f (wD w) = some c) →
        Answers (row.1 (.tile k)) s (HandlerGoes k (writeRes (wMx w) f (wD w) (wRnd w)
          ((selected pm f).map (fun i => (i, row.2.2.2.1 (a.getD i .nan) (b.getD i .nan) (if row.2.2.2.2.2 then c.getD i .nan else .nan), true)))) s)) ∧
      ((vOf h (wA w) = none ∨ vOf h (wB w) = none) → Does (row.1 (.tile k)) s (siteFault (.tile k) 3 s)))) ∧
  (∀ k w h pm v s, AtWord s (.tile k) 0x46 (fun w => fVec w + fImm) w → (s.tile k).run = some h → predOf h w = some pm → vOf h (wA w) = some v →
    let f := wFmt w; let g := wB w
    f < 14 → g < 14 → wImm w < 8 → wImm w * min (fmtElems g) (fmtElems f) < max (fmtElems g) (fmtElems f) → wMx w = false →
    formatFault w fAll true (isMx f || isMx g) f = none →
    let pairs := (cvtPairs (fmtElems g) (fmtElems f) (wImm w)).filter (fun z => elemSel pm f z.1)
    (isInt f = true → isInt g = true → Answers (.vcvt (.tile k)) s (HandlerGoes k (writeInt f (wD w) (pairs.map (fun z => (z.1, match z.2 with
        | some i => fitInt f (wSat w) (intOf g (elem g v i))
        | none => 0)))) s)) ∧
    (isInt f = true → isInt g = false → Answers (.vcvt (.tile k)) s (HandlerGoes k (writeInt f (wD w) (pairs.map (fun z => (z.1, match z.2 with
        | some i => toInt f (wSat w) (((elemsOf g v).map (numOf g)).getD i .nan)
        | none => 0)))) s)) ∧
    (isInt f = false → Answers (.vcvt (.tile k)) s (HandlerGoes k (writeFp f (wD w) (wRnd w) (pairs.map (fun z => match z.2 with
        | some i => (z.1, ((elemsOf g v).map (fun e => if isInt g then numInt (intOf g e) else numOf g e)).getD i .nan, true)
        | none => (z.1, .fin false 0 0, false)))) s))) ∧
  (∀ k w h pm a s, AtWord s (.tile k) 0x46 (fun w => fVec w + fImm) w → (s.tile k).run = some h → predOf h w = some pm →
    let f := wFmt w; let g := wB w
    f < 14 → g < 14 → wImm w < 8 → wImm w * min (fmtElems g) (fmtElems f) < max (fmtElems g) (fmtElems f) → wMx w = true → isMx f = true →
    (f = 12 → wSat w = true) → formatFault w fAll true true f = none → isInt g = false → srcNums h (isMx g) g (wA w) = some a →
    Answers (.vcvt (.tile k)) s (HandlerGoes k (writeMx f (wD w) (wRnd w)
      (((cvtPairs (fmtElems g) (fmtElems f) (wImm w)).filter (fun z => elemSel pm f z.1)).map (fun z => match z.2 with
        | some i => (z.1, a.getD i .nan, true)
        | none => (z.1, .fin false 0 0, false)))) s)) ∧
  (∀ row ∈ [(Instr.vand, 0x47, fun (a b : Nat) => a &&& b), (Instr.vor, 0x48, fun a b => a ||| b), (Instr.vxor, 0x49, fun a b => a ^^^ b)],
    ∀ k w h pm a b s, AtWord s (.tile k) row.2.1 fVec w → (s.tile k).run = some h → 
      predOf h w = some pm → vOf h (wA w) = some a → vOf h (wB w) = some b →
    (∀ c, moveFault w (fun f => isInt f || f == 15) = some c → Does (row.1 (.tile k)) s (siteFault (.tile k) c s)) ∧
    (moveFault w (fun f => isInt f || f == 15) = none → Answers (row.1 (.tile k)) s (HandlerGoes k (fun g => setV g (wD w) (pickBytes (fun l => laneSel pm (unitLane (wFmt w) l)) (row.2.2 a b) (oldV h (wD w)))) s))) ∧
  (∀ row ∈ [(Instr.vshl, 0x4A, fun (a : Int) (n : Nat) => a * (2 ^ n : Nat)), (Instr.vshr, 0x4B, fun a n => a / (2 ^ n : Nat))],
    ∀ k w h pm a s, AtWord s (.tile k) row.2.1 fShift w → (s.tile k).run = some h → formatFault w isInt false false (wFmt w) = none →
    (wImm w < fmtBits (wFmt w) → predOf h w = some pm → srcInts h (wFmt w) (wA w) = some a →
      Answers (row.1 (.tile k)) s (HandlerGoes k (writeInt (wFmt w) (wD w)
        ((selected pm (wFmt w)).map (fun i => (i, fitInt (wFmt w) (wSat w) (row.2.2 (a.getD i 0) (wImm w)))))) s)) ∧
    (fmtBits (wFmt w) ≤ wImm w → Does (row.1 (.tile k)) s (siteFault (.tile k) 4 s))) ∧
  (∀ k w h pm a b s, AtWord s (.tile k) 0x4C (fun w => fOpc + fFmt + fMode + fD + fA + fB + fImm + fPred w) w → (s.tile k).run = some h →
      wImm w < 6 → wD w < 4 → moveFault w fAll = none → predOf h w = some pm → vOf h (wA w) = some a → vOf h (wB w) = some b →
    Answers (.vcmp (.tile k)) s (HandlerGoes k (fun g => setP g (wD w) (pickBits (fun l =>
      if laneSel pm (unitLane (wFmt w) l) then (unitElems (wFmt w) l).any (fun i => condOk (wImm w) (elemCmp (wFmt w) a b i)) else bit ((pOf h (wD w)).getD 0) l))) s)) ∧
  (∀ k w h a b p s, AtWord s (.tile k) 0x4D (fun _ => fOpc + fFmt + fMode + fD + fA + fB + fP + fPen) w → (s.tile k).run = some h → 
      moveFault w fAny = none →
    (wPen w = true → vOf h (wA w) = some a → vOf h (wB w) = some b → pOf h (wP w) = some p →
      Answers (.vsel (.tile k)) s (HandlerGoes k (fun g => setV g (wD w) (pickBytes (bit p) a b)) s)) ∧
    (wPen w = false → Does (.vsel (.tile k)) s (siteFault (.tile k) 4 s))) ∧
  (∀ k w h pm s, AtWord s (.tile k) 0x4E (fun w => fOpc + fFmt + fMode + fD + fA + fPred w) w → (s.tile k).run = some h → wA w < 8 → 
      moveFault w fAll = none → predOf h w = some pm →
    Answers (.vbcast (.tile k)) s (HandlerGoes k (writeInt (wFmt w) (wD w) ((selected pm (wFmt w)).map (fun i => (i, (sreg s (.tile k) (wA w)).toNat % 2 ^ fmtBits (wFmt w))))) s)) ∧
  (∀ k w h pm a b s, AtWord s (.tile k) 0x53 (fun w => fOpc + fFmt + fMode + fD + fA + fB + fImm + fPred w) w → (s.tile k).run = some h → wImm w < 7 → wD w < 4 →
      wA w < 4 → wB w < 4 → (4 ≤ wImm w → wB w = 0) → (5 ≤ wImm w → wA w = 0) → moveFault w (· == 0) = none → predOf h w = some pm →
      (wImm w ≤ 4 → pOf h (wA w) = some a) → (wImm w ≤ 3 → pOf h (wB w) = some b) →
    Answers (.plog (.tile k)) s (HandlerGoes k (fun g => setP g (wD w) (pickBits (fun l => if laneSel pm l then
      (match wImm w with
        | 0 => bit a l && bit b l
        | 1 => bit a l || bit b l
        | 2 => bit a l != bit b l
        | 3 => bit a l && !bit b l
        | 4 => !bit a l
        | 5 => true
        | _ => false) else bit ((pOf h (wD w)).getD 0) l))) s)) ∧
  (∀ k w h pm s, AtWord s (.tile k) 0x4F (fun w => fOpc + fFmt + fMode + fD + fA + fImm + fPred w) w → (s.tile k).run = some h → wA w < 8 → 
      moveFault w fAny = none → predOf h w = some pm →
    let a := memAddr s (.tile k) w
    (memOk s (.tile k) a 128 128 = true → readPoison s (.tile k) a 128 = false → Answers (.vld (.tile k)) s (HandlerGoes k (fun g =>
      setV g (wD w) (pickBytes (fun l => laneSel pm (unitLane (wFmt w) l)) (bytesNat (readMem s (.tile k) a 128)) (oldV h (wD w)))) s)) ∧
    (memOk s (.tile k) a 128 128 = false → Does (.vld (.tile k)) s (siteFault (.tile k) 2 s)) ∧
    (memOk s (.tile k) a 128 128 = true → readPoison s (.tile k) a 128 = true → Does (.vld (.tile k)) s (siteFault (.tile k) 8 s))) ∧
  (∀ k w h s, AtWord s (.tile k) 0x51 (fun _ => fOpc + fFmt + fMode + fD + fA + fImm) w → (s.tile k).run = some h → wA w < 8 → 
      moveFault w isMx = none → memOk s (.tile k) (memAddr s (.tile k) w) 8 8 = true → readPoison s (.tile k) (memAddr s (.tile k) w) 8 = false →
    Answers (.vlds (.tile k)) s (HandlerGoes k (fun g => setScale g (wD w) (bytesNat (readMem s (.tile k) (memAddr s (.tile k) w) 8))) s))

/-- Elements, lanes and integer results (R212, R232, R238, R271-R275). -/
def Obligations.ElementsWrapSaturateOrStay : Prop :=
  (∀ f old new i, f < 14 → i < fmtElems f → elem f (putElems f old new) i = mget (elem f old i) i new % 2 ^ fmtBits f) ∧
  (∀ f old new, f = 6 ∨ f = 7 → fld (putElems f old new) 960 64 = 0) ∧
  (∀ sel a b l, l < 128 → fld (pickBytes sel a b) (8 * l) 8 = fld (if sel l then a else b) (8 * l) 8) ∧
  (∀ p l, l < 128 → bit (pickBits p) l = p l) ∧
  (∀ f z, isInt f = true →
    let lo : Int := if f = 13 then 0 else -(2 : Int) ^ (fmtBits f - 1)
    let hi : Int := if f = 13 then 2 ^ 64 - 1 else (2 : Int) ^ (fmtBits f - 1) - 1
    (intOf f (fitInt f false z) - z) % 2 ^ fmtBits f = 0 ∧ lo ≤ intOf f (fitInt f false z) ∧ intOf f (fitInt f false z) ≤ hi ∧
    intOf f (fitInt f true z) = max lo (min hi z)) ∧
  (∀ row ∈ [(Instr.vadd, 0x40, fun (a b : Int) => a + b), (Instr.vsub, 0x41, fun a b => a - b), (Instr.vmul, 0x42, fun a b => a * b)],
    ∀ k w h pm a b s, AtWord s (.tile k) row.2.1 fVec w → (s.tile k).run = some h → isInt (wFmt w) = true → wMx w = false → wRnd w = false →
      predOf h w = some pm → vOf h (wA w) = some a → vOf h (wB w) = some b →
    Answers (row.1 (.tile k)) s (fun t => ∃ v, vreg t (.tile k) (wD w) = some v ∧ (∀ i, i < fmtElems (wFmt w) →
      (elemSel pm (wFmt w) i = false → elem (wFmt w) v i = elem (wFmt w) ((vOf h (wD w)).getD 0) i) ∧
      (elemSel pm (wFmt w) i = true → elem (wFmt w) v i =
        fitInt (wFmt w) (wSat w) (row.2.2 (intOf (wFmt w) (elem (wFmt w) a i)) (intOf (wFmt w) (elem (wFmt w) b i))))) ∧
      (∀ j, j ≠ wD w → vreg t (.tile k) j = vreg s (.tile k) j) ∧ (∀ j, preg t (.tile k) j = preg s (.tile k) j ∧ sreg t (.tile k) j = sreg s (.tile k) j) ∧
      sitePc t (.tile k) = sitePc s (.tile k) + 1))

/-- The reduce-into and sparse instructions, VST and VSTS (R213, R233, R236-R238, R244-R247, R285). -/
def Obligations.ReduceRowsAccumulate : Prop :=
  (∀ k w h pm v af s, AtWord s (.tile k) 0x60 (fun w => fAcc w + fW) w → (s.tile k).run = some h → wA w < 8 → wD w < 5 → isInt (wFmt w) = true →
      wMx w = false → wRnd w = false → accFmt (wFmt w) (wWide w) false = some af → predOf h w = some pm → srcInts h (wFmt w) (wB w) = some v →
    let f := wFmt w; let x := Site.tile k; let a := memAddr s x w
    (memOk s x a (128 * accLines f af) 128 = true → readPoison s x a (128 * accLines f af) = false →
      Answers (.vred x) s (fun t => (∀ i, i < fmtElems f → accElem t x a af i =
          (if elemSel pm f i then fitInt af (wSat w) (if accFresh s k a (i / fmtElems af) then v.getD i 0
            else (match wD w with
              | 0 => intOf af (accElem s x a af i) + v.getD i 0
              | 1 => max (intOf af (accElem s x a af i)) (v.getD i 0)
              | 2 => min (intOf af (accElem s x a af i)) (v.getD i 0)
              | 3 => onBits (· &&& ·) af (intOf af (accElem s x a af i)) (v.getD i 0)
              | _ => onBits (· ||| ·) af (intOf af (accElem s x a af i)) (v.getD i 0)))
           else accElem s x a af i)) ∧
        (t.tile k).run = some { h with pc := h.pc + 1, count := h.count + 1 } ∧ OnlyScratch k a (128 * accLines f af) s t)) ∧
    (memOk s x a (128 * accLines f af) 128 = false → Does (.vred x) s (siteFault x 2 (passTurn x s)))) ∧
  (∀ k w s, AtWord s (.tile k) 0x60 (fun w => fAcc w + fW) w → 4 < wD w → Does (.vred (.tile k)) s (siteFault (.tile k) 4 s)) ∧
  (∀ k w h pm v af s, AtWord s (.tile k) 0x60 (fun w => fAcc w + fW) w → (s.tile k).run = some h → wA w < 8 → wD w < 3 →
      (isFp (wFmt w) = true ∨ (wMx w = true ∧ wFmt w = 12)) → (wMx w = true → isMx (wFmt w) = true) → wSat w = false →
      accFmt (wFmt w) (wWide w) (wMx w) = some af → predOf h w = some pm → srcNums h (wMx w) (wFmt w) (wB w) = some v →
    let f := wFmt w; let x := Site.tile k; let a := memAddr s x w
    let op := match wD w with
      | 0 => numAdd
      | 1 => numMax
      | _ => numMin
    memOk s x a (128 * accLines f af) 128 = true → readPoison s x a (128 * accLines f af) = false →
      (wRnd w = false → Answers (.vred x) s (fun t => (∀ i, i < fmtElems f → accElem t x a af i =
          (if elemSel pm f i then roundNum af false none (if accFresh s k a (i / fmtElems af) then v.getD i .nan else op (numOf af (accElem s x a af i)) (v.getD i .nan)) % 2 ^ fmtBits af
           else accElem s x a af i)) ∧ (t.tile k).run = some { h with pc := h.pc + 1, count := h.count + 1 } ∧ OnlyScratch k a (128 * accLines f af) s t)) ∧
      (∃ t, reduceFp op id x w af pm v k { h with pc := h.pc + 1, count := h.count + 1 } (siteStep x s) = .next t ∧ Does (.vred x) s (noteIssue x w (siteStep x s) t))) ∧
  (∀ k w h pm v af s, AtWord s (.tile k) 0x62 (fun w => fAcc w + fW) w → (s.tile k).run = some h → wA w < 8 → wD w < 8 → isFp (wFmt w) = true →
      (wMx w = true → isMx (wFmt w) = true) → wSat w = false → (fmtBits (wFmt w) ≤ 16 → wWide w = true) →
      accFmt (wFmt w) (wWide w) (wMx w) = some af → predOf h w = some pm → srcNums h (wMx w) (wFmt w) (wB w) = some v →
    let f := wFmt w; let x := Site.tile k; let a := memAddr s x w
    let g := if f = 0 then numOf 0 (sreg s x (wD w)).toNat else numOf 1 ((sreg s x (wD w)).toNat % 2 ^ 32)
    memOk s x a (128 * accLines f af) 128 = true → readPoison s x a (128 * accLines f af) = false →
      (wRnd w = false → Answers (.vwsum x) s (fun t => (∀ i, i < fmtElems f → accElem t x a af i =
          (if elemSel pm f i then roundNum af false none (if accFresh s k a (i / fmtElems af) then numMul g (v.getD i .nan)
              else numAdd (numOf af (accElem s x a af i)) (numMul g (v.getD i .nan))) % 2 ^ fmtBits af
           else accElem s x a af i)) ∧ (t.tile k).run = some { h with pc := h.pc + 1, count := h.count + 1 } ∧ OnlyScratch k a (128 * accLines f af) s t)) ∧
      (∃ t, reduceFp (fun a b => numAdd a (numMul g b)) (numMul g) x w af pm v k { h with pc := h.pc + 1, count := h.count + 1 } (siteStep x s) = .next t ∧
        Does (.vwsum x) s (noteIssue x w (siteStep x s) t))) ∧
  (∀ k w h pm v s, AtWord s (.tile k) 0x61 fAcc w → (s.tile k).run = some h → wA w < 8 → wD w < 8 → 
      formatFault w fAll false false (wFmt w) = none → predOf h w = some pm → vOf h (wB w) = some v →
    let f := wFmt w; let x := Site.tile k; let a := memAddr s x w; let n := ceilDiv (fmtElems f) 32
    let fresh := accFresh s k a 0
    let ix := (sreg s x (wD w)).toNat % 2 ^ 32
    let idx := fun (y : State) (i : Nat) => fld (accLine y x a (1 + i / 32)) (32 * (i % 32)) 32
    memOk s x a (128 * (n + 1)) 128 = true → readPoison s x a (128 * (n + 1)) = false →
      Answers (.vmaxl x) s (fun t => (∀ i, i < fmtElems f → (elem f (accLine t x a 0) i, idx t i) =
          (if elemSel pm f i then maxlElem f fresh (elem f v i) (elem f (accLine s x a 0) i) ix (if fresh then 0 else idx s i)
           else (elem f (accLine s x a 0) i, if fresh then 0 else idx s i))) ∧
        (t.tile k).run = some (if wRnd w then discard (selected pm f).length { h with pc := h.pc + 1, count := h.count + 1 } else { h with pc := h.pc + 1, count := h.count + 1 }) ∧
        OnlyScratch k a (128 * (n + 1)) s t)) ∧
  (∀ k w h v s, AtWord s (.tile k) 0x68 (fun _ => fOpc + fFmt + fMode + fD + fA + fB + fP) w → (s.tile k).run = some h → wB w < 8 → 
      moveFault w fByte = none → vOf h (wA w) = some v →
    let hit := (List.range (fmtElems (wFmt w))).filter (fun i => elem (wFmt w) v i != 0)
    Answers (.vcmpz (.tile k)) s (HandlerGoes k (fun g => { setP (setV g (wD w) (ofElems (wFmt w) (hit.map (elem (wFmt w) v)))) (wP w) (ofBitList hit) with
      s := mset 0 (wB w) (BitVec.ofNat 64 hit.length) g.s }) s)) ∧
  (∀ k w h v p s, AtWord s (.tile k) 0x69 (fun _ => fOpc + fFmt + fMode + fD + fA + fP) w → (s.tile k).run = some h → 
      moveFault w fByte = none → vOf h (wA w) = some v → pOf h (wP w) = some p →
    Answers (.vexp (.tile k)) s (HandlerGoes k (fun g => setV g (wD w) (ofElems (wFmt w) ((List.range (fmtElems (wFmt w))).map (fun i =>
      if bit p i then elem (wFmt w) v ((List.range i).filter (bit p)).length else 0)))) s)) ∧
  (∀ k w h v s, AtWord s (.tile k) 0x6A (fun _ => fOpc + fFmt + fMode + fD + fA + fP + fImm) w → (s.tile k).run = some h → 
      moveFault w fAll = none → vOf h (wA w) = some v →
    (1 ≤ wImm w → wImm w ≤ 64 → Answers (.vtopk (.tile k)) s (fun t => ∃ top, HandlerGoes k (fun g =>
        setP (setV g (wD w) (ofElems 11 (top ++ List.replicate (64 - top.length) 0xFFFF))) (wP w) (ofBitList (top.filter (fun i => decide (i < 128))))) s t ∧
      top.length = min (wImm w) (fmtElems (wFmt w)) ∧ top.Pairwise (fun i j => ranksBefore (wFmt w) v i j = true) ∧
      (∀ i j, i ∈ top → j < fmtElems (wFmt w) → j ∉ top → ranksBefore (wFmt w) v i j = true) ∧ (∀ i ∈ top, i < fmtElems (wFmt w)))) ∧
    ((wImm w = 0 ∨ 64 < wImm w) → Does (.vtopk (.tile k)) s (siteFault (.tile k) 4 s))) ∧
  (∀ k w h pm v s, AtWord s (.tile k) 0x50 (fun w => fOpc + fFmt + fMode + fA + fB + fImm + fPred w) w → (s.tile k).run = some h → wA w < 8 →
      moveFault w fAny = none → predOf h w = some pm → vOf h (wB w) = some v →
    let x := Site.tile k; let a := memAddr s x w
    (memOk s x a 128 128 = true → Answers (.vst x) s (fun t => (readPoison s x a 128 = false ∨ pm = none → readMem t x a 128 = (List.range 128).map (fun l =>
        if laneSel pm (unitLane (wFmt w) l) then BitVec.ofNat 8 (fld v (8 * l) 8) else (readMem s x a 128).getD l 0)) ∧
      (pm = none → readPoison t x a 128 = false) ∧
      (t.tile k).run = some { h with pc := h.pc + 1, count := h.count + 1 } ∧ OnlyScratch k a 128 s t)) ∧
    (memOk s x a 128 128 = false → Does (.vst x) s (siteFault x 2 (passTurn x s)))) ∧
  (∀ k w h v s, AtWord s (.tile k) 0x52 (fun _ => fOpc + fFmt + fMode + fA + fB + fImm) w → (s.tile k).run = some h → wA w < 8 →
      moveFault w isMx = none → scaleOf h (wB w) = some v → memOk s (.tile k) (memAddr s (.tile k) w) 8 8 = true →
    Answers (.vsts (.tile k)) s (fun t => (readPoison s (.tile k) (memAddr s (.tile k) w) 8 = false → readMem t (.tile k) (memAddr s (.tile k) w) 8 = natBytes 8 v) ∧
      (t.tile k).run = some { h with pc := h.pc + 1, count := h.count + 1 } ∧ OnlyScratch k (memAddr s (.tile k) w) 8 s t))

/-- The stream instructions (R201, R210, R250-R255, R302). -/
def Obligations.StreamRowsSendAndFetch : Prop :=
  (∀ k w h s, AtWord s (.tile k) 0xA0 (fun w => fOpc + fD + fLast w + fPred w) w → (s.tile k).run = some h → (wImmf w = false → wB w < 8) →
    let beat := if wImmf w then wImm w else (sreg s (.tile k) (wB w)).toNat % 8
    (beat < 8 → hasPayload h = true → fld h.ev.pmask (2 * beat) 2 = 0 →
      (∀ pm, predOf h w = some pm → Answers (.recv (.tile k)) s (HandlerGoes k (fun g =>
        setV g (wD w) (pickBytes (laneSel pm) (bytesNat (padTo 128 (h.ev.data.drop (128 * beat)))) (oldV h (wD w)))) s)) ∧
      (predOf h w = none → Does (.recv (.tile k)) s (siteFault (.tile k) 3 s))) ∧
    (beat < 8 → hasPayload h = true → fld h.ev.pmask (2 * beat) 2 ≠ 0 → Does (.recv (.tile k)) s (siteFault (.tile k) 8 s)) ∧
    ((7 < beat ∨ hasPayload h = false) → Does (.recv (.tile k)) s (siteFault (.tile k) 4 s))) ∧
  (∀ s x dw cw data, data.length ≤ 1024 → siteCtx s x < 1024 → s.boot.node < 16384 →
    let p := wordPacket s x dw cw data
    pOp p = fld dw 0 8 ∧ p.tc = fld dw 8 3 ∧ pDst p = fld dw 11 14 ∧ pLen p = data.length ∧ pCtx p = siteCtx s x ∧ pSrc p = s.boot.node ∧ pTag p = 0 ∧ pStatus p = 0 ∧
      pUpper p = fld dw 32 32 + 2 ^ 32 * fld cw 0 32 ∧ pEpoch p = s.tab.cur % 4 ∧ pKgen p = ctxKgen s (siteCtx s x) % 64 ∧ p.payload = data) ∧
  (∀ x w s, AtWord s x 0xA1 (fun _ => fOpc + fD + fA + fB + fImm) w → onTileControl x = true → wD w < 8 → wA w < 8 → wB w < 8 →
    let u := siteStep x s
    let dw := (sreg s x (wD w)).toNat
    let a := memAddr s x w
    let p := wordPacket s x dw (sreg s x (wB w)).toNat (readMem s x a (sendLen dw))
    let v := traceItem x (.packet (sparseSend p)) u
    (inClosing s x = none → memOk s x a (sendLen dw) 8 = false → Does (.send x) s (siteFault x 2 (passTurn x s))) ∧
    (inClosing s x = none → memOk s x a (sendLen dw) 8 = true → readPoison s x a (sendLen dw) = true → Does (.send x) s (siteFault x 8 (passTurn x s))) ∧
    (∀ k h, x = .tile k → (s.tile k).run = some h → inClosing s x = some h.sends → 4 ≤ h.sends → Does (.send x) s (noteIssue x w u (endOp (4096 * k + h.slot) stContextGone 10 u))) ∧
    (memOk s x a (sendLen dw) 8 = true → readPoison s x a (sendLen dw) = false →
      (sendOk s x p = false → inClosing s x = none → Does (.send x) s (siteFault x 9 (passTurn x s))) ∧
      (∀ tag, sendOk s x p = true → inClosing s x = none → sendTag s x (sparseSend p) = some tag →
        let r := completeMail x (setH (sparseSend p) 65 20 tag) v
        Does (.send x) s (noteIssue x w u (sendOwned x r.1 (takeTag x (sparseSend p) tag r.2)))) ∧
      (sendOk s x p = true → inClosing s x = none → sendTag s x (sparseSend p) = none → Does (.send x) s (passTurn x s)) ∧
      (∀ k h, x = .tile k → (s.tile k).run = some h → sendOk s x p = true → inClosing s x = some h.sends →
        h.sends < 4 →
        let y := modRun k (fun g => { g with sends := g.sends + 1 }) v
        Does (.send x) s (noteIssue x w u (if wouldStall x (sparseSend p) y then tileCount k 9 1 y else sendFrom (siteEp x) (sparseSend p) y))))) ∧
  (∀ k w h s, AtWord s (.tile k) 0xA4 (fun _ => fOpc + fD + fB) w → (s.tile k).run = some h → wD w < 8 → wB w < 8 → hasPayload h = true →
    let x := Site.tile k
    let p := wordPacket s x (sreg s x (wD w)).toNat (sreg s x (wB w)).toNat h.ev.data
    (h.ev.pmask = 0 → fld (sreg s x (wD w)).toNat 25 7 = 0 → sendOk s x p = true → inClosing s x = none →
      Does (.fwd x) s (sendOwned x (setH (sparseSend p) 65 20 0) (traceItem x (.packet (sparseSend p)) (siteStep x s)))) ∧
    (h.ev.pmask = 0 → inClosing s x = none → (fld (sreg s x (wD w)).toNat 25 7 ≠ 0 ∨ sendOk s x p = false) → Does (.fwd x) s (siteFault x 9 (passTurn x s))) ∧
    (h.ev.pmask ≠ 0 → inClosing s x = none → Does (.fwd x) s (siteFault x 8 (passTurn x s)))) ∧
  (∀ k w h s, AtWord s (.tile k) 0xA2 (fun _ => fOpc + fD + fB) w → (s.tile k).run = some h → h.slot < 4096 → wD w < 8 → wB w < 8 →
    let x := Site.tile k
    let pw := (sreg s x (wD w)).toNat
    let cw := (sreg s x (wB w)).toNat
    let p := poolPacket s x (if fld pw 56 2 = 0 then opRD64 else opRDN) pw []
    (∀ tag, siteClosing s x = false → poolOk s x pw = true → fld cw 16 4 + fld pw 56 2 + 1 ≤ 16 → fld cw 0 16 < (s.slot (4096 * k + h.slot)).ccount → fld cw 28 4 = 0 →
        freeTag s (2048 * k) 2048 (s.tile k).tagNext = some tag →
      Does (.fetch x) s (issueOwn tag { pkt := p, user := 0, unit := 4096 * k + h.slot, arg := fld cw 0 20, gen := (s.slot (4096 * k + h.slot)).gen }
        (((traceItem x (.packet p) (siteStep x s)).modTile k (fun y => { y with tagNext := (y.tagNext + 1) % 2048 })).modSlot (4096 * k + h.slot) (fun y => { y with outst := y.outst + 1 })))) ∧
    (siteClosing s x = false → poolOk s x pw = true → fld cw 16 4 + fld pw 56 2 + 1 ≤ 16 → fld cw 0 16 < (s.slot (4096 * k + h.slot)).ccount → fld cw 28 4 = 0 →
        freeTag s (2048 * k) 2048 (s.tile k).tagNext = none → Does (.fetch x) s s) ∧
    ((siteClosing s x = true ∨ poolOk s x pw = false ∨ 16 < fld cw 16 4 + fld pw 56 2 + 1 ∨ (s.slot (4096 * k + h.slot)).ccount ≤ fld cw 0 16 ∨ fld cw 28 4 ≠ 0) →
      Does (.fetch x) s (siteFault x 4 (passTurn x s)))) ∧
  (∀ k w s, AtWord s (.thread k) 0xA2 (fun _ => fOpc + fD + fB) w → wD w < 8 → wB w < 8 →
    let x := Site.thread k
    let pw := (sreg s x (wD w)).toNat
    let cw := (sreg s x (wB w)).toNat
    ((poolOk s x pw = false ∨ fld cw 28 4 ≠ 0 ∨ 16 < fld cw 16 4 + fld pw 56 2 + 1) → Does (.fetch x) s (siteFault x 4 (passTurn x s))) ∧
    ∀ tag, poolOk s x pw = true → fld cw 28 4 = 0 → fld cw 16 4 + fld pw 56 2 + 1 ≤ 16 → freeTag s (threadTags k) 512 (s.thread k).tagNext = some tag →
      Does (.fetch x) s (issueOwn tag { pkt := poolPacket s x (if fld pw 56 2 = 0 then opRD64 else opRDN) pw [], user := 2, unit := k }
        ((siteStep x s).modThread k (fun y => { y with tagNext := (y.tagNext + 1) % 512 })))) ∧
  (∀ k w h tag s, AtWord s (.tile k) 0xA3 (fun _ => fOpc + fD + fA + fImm) w → (s.tile k).run = some h → h.slot < 4096 → wD w < 8 → wA w < 8 →
    let x := Site.tile k
    let pw := (sreg s x (wD w)).toNat
    let n := 64 * (fld pw 56 2 + 1)
    siteClosing s x = false → poolOk s x pw = true →
    (memOk s x (memAddr s x w) n 64 = true → readPoison s x (memAddr s x w) n = false → freeTag s (2048 * k) 2048 (s.tile k).tagNext = some tag →
      Does (.store x) s (noteIssue x w (siteStep x s) (issueOwn tag {
          pkt := poolPacket s x (if fld pw 56 2 = 0 then opWR64 else opWRN) pw (readMem s x (memAddr s x w) n)
          user := 1, unit := 4096 * k + h.slot, arg := 0, gen := (s.slot (4096 * k + h.slot)).gen }
        (((traceItem x (.packet (poolPacket s x (if fld pw 56 2 = 0 then opWR64 else opWRN) pw (readMem s x (memAddr s x w) n))) (siteStep x s)).modTile k
          (fun y => { y with tagNext := (y.tagNext + 1) % 2048 })).modSlot (4096 * k + h.slot) (fun y => { y with outst := y.outst + 1 }))))) ∧
    (memOk s x (memAddr s x w) n 64 = false → Does (.store x) s (siteFault x 2 (passTurn x s))) ∧
    (memOk s x (memAddr s x w) n 64 = true → readPoison s x (memAddr s x w) n = true → Does (.store x) s (siteFault x 8 (passTurn x s))))

/-- Operation control (R195, R203, R206-R210, R256, R257). -/
def Obligations.HandlersArmEndAndYield : Prop :=
  (∀ k w h first count expected s,
      AtWord s (.tile k) 0xC0 (fun w => fOpc + fImmf + fD + fA + fB + (if wImmf w then 0x7FFFFFFF00000000 else 0x7000000000000000)) w →
      (s.tile k).run = some h → h.slot < 4096 → armOps s (.tile k) w = some (first, count, expected) →
    let n := 4096 * k + h.slot
    let stride := 1024 * 2 ^ fld w 60 2
    (siteClosing s (.tile k) = false → first + count + 1 ≤ (s.slot n).ccount → (bit w 62 = true → (first + count) * stride ≤ (windowOf s k).2) →
      (∀ i, i ≤ count → expected = 0 ∨ arrivedOf s n (first + i) < expected) →
      Answers (.arm (.tile k)) s (fun t => (∀ i, i ≤ count → expectedOf t n (first + i) = expected) ∧
        (∀ c, (c < first ∨ first + count < c) → expectedOf t n c = expectedOf s n c) ∧ (∀ c, arrivedOf t n c = arrivedOf s n c) ∧
        (t.slot n).events = (s.slot n).events ∧ sitePc t (.tile k) = sitePc s (.tile k) + 1 ∧
        (bit w 62 = true → ∀ l, (windowOf s k).1 + first * stride ≤ 128 * l → 128 * l < (windowOf s k).1 + (first + count) * stride → (t.tile k).valid.contains l = false) ∧
        (∀ l, (128 * l + 128 ≤ (windowOf s k).1 + first * stride ∨ (windowOf s k).1 + (first + count) * stride ≤ 128 * l) → (t.tile k).valid.contains l = (s.tile k).valid.contains l) ∧
        (bit w 62 = false → (t.tile k).valid = (s.tile k).valid) ∧ (t.tile k).scratch = (s.tile k).scratch ∧ Touches [.ctl] s t)) ∧
    ((siteClosing s (.tile k) = true ∨ (s.slot n).ccount < first + count + 1) → Does (.arm (.tile k)) s (siteFault (.tile k) 4 s)) ∧
    (siteClosing s (.tile k) = false → first + count + 1 ≤ (s.slot n).ccount → bit w 62 = true → (windowOf s k).2 < (first + count) * stride →
      Does (.arm (.tile k)) s (siteFault (.tile k) 2 s))) ∧
  (∀ k w h s, AtWord s (.tile k) 0xC0 (fun w => fOpc + fImmf + fD + fA + fB + (if wImmf w then 0x7FFFFFFF00000000 else 0x7000000000000000)) w →
      (s.tile k).run = some h → h.slot < 4096 → armOps s (.tile k) w = some (0, 0, 1) → bit w 62 = false → siteClosing s (.tile k) = false →
      1 ≤ (s.slot (4096 * k + h.slot)).ccount → arrivedOf s (4096 * k + h.slot) 0 = 1 → (s.tile k).evq < 8192 →
    Answers (.arm (.tile k)) s (fun t => arrivedOf t (4096 * k + h.slot) 0 = 0 ∧
      (t.slot (4096 * k + h.slot)).events.map (fun e => (e.ev, e.chunk)) = (s.slot (4096 * k + h.slot)).events.map (fun e => (e.ev, e.chunk)) ++ [(1, 0)] ∧
      (t.tile k).evq = (s.tile k).evq + 1)) ∧
  (∀ k w h s, AtWord s (.tile k) 0xC1 (fun _ => fOpc) w → (s.tile k).run = some h → h.slot < 4096 →
    Answers (.done (.tile k)) s (fun t => (t.tile k).run = none ∧ (t.slot (4096 * k + h.slot)).st = .ending ∧
      (t.slot (4096 * k + h.slot)).fstatus = (if h.ev.ev = 4 ∧ h.ev.code = 10 then stContextGone else stOK) ∧
      (t.slot (4096 * k + h.slot)).events = [] ∧ (t.slot (4096 * k + h.slot)).deadline = 2 ^ 64 - 1 ∧ (t.slot (4096 * k + h.slot)).regs = h.s ∧
      (∀ j, j ≠ 4096 * k + h.slot → t.slot j = s.slot j) ∧ Touches [.ctl, .per, .rel] s t)) ∧
  (∀ k w h s, AtWord s (.tile k) 0xC2 (fun _ => fOpc + fImm) w → (s.tile k).run = some h → h.slot < 4096 →
    (1 ≤ wImm w → wImm w ≤ 14 → Answers (.fail (.tile k)) s (fun t => (t.tile k).run = none ∧ (t.slot (4096 * k + h.slot)).st = .ending ∧
      (t.slot (4096 * k + h.slot)).fstatus = wImm w ∧ (t.slot (4096 * k + h.slot)).events = [] ∧ (t.slot (4096 * k + h.slot)).regs = h.s ∧
      (∀ j, j ≠ 4096 * k + h.slot → t.slot j = s.slot j) ∧ Touches [.ctl, .per, .rel] s t)) ∧
    ((wImm w = 0 ∨ 14 < wImm w) → Does (.fail (.tile k)) s (siteFault (.tile k) 4 s))) ∧
  (∀ k w h s, AtWord s (.tile k) 0xC3 (fun _ => fOpc) w → (s.tile k).run = some h → h.slot < 4096 →
    (¬(h.ev.ev = 4 ∧ h.ev.code = 10) → Answers (.yield (.tile k)) s (fun t => (t.tile k).run = none ∧ (t.slot (4096 * k + h.slot)).regs = h.s ∧
      (t.slot (4096 * k + h.slot)).st = (s.slot (4096 * k + h.slot)).st ∧
      (t.slot (4096 * k + h.slot)).events.map (fun e => (e.ev, e.pc)) = (s.slot (4096 * k + h.slot)).events.map (fun e => (e.ev, e.pc)) ++ [(5, h.pc + 1)] ∧
      (∀ j, j ≠ 4096 * k + h.slot → t.slot j = s.slot j) ∧ Touches [.ctl, .per, .rel] s t)) ∧
    (h.ev.ev = 4 → h.ev.code = 10 → Answers (.yield (.tile k)) s (fun t => (t.slot (4096 * k + h.slot)).st = .ending ∧
      (t.slot (4096 * k + h.slot)).fstatus = stContextGone))) ∧
  (∀ x w s, AtWord s x 0xC4 (fun w => fOpc + (if wImmf w then fImmf + fImm else fA)) w → (wImmf w = false → wA w < 8) →
    let ns := if wImmf w then wImm w else (sreg s x (wA w)).toNat
    let d := if ns = 0 then 2 ^ 64 - 1 else wrapAdd 64 (now s) ns
    (∀ k h, x = .tile k → (s.tile k).run = some h → siteClosing s x = false → Answers (.timer x) s (fun t =>
      (t.slot (4096 * k + h.slot)).deadline = d ∧ { t.slot (4096 * k + h.slot) with deadline := 0 } = { s.slot (4096 * k + h.slot) with deadline := 0 } ∧
      (∀ j, j ≠ 4096 * k + h.slot → t.slot j = s.slot j) ∧ sitePc t x = sitePc s x + 1 ∧ Touches [.ctl] s t)) ∧
    (siteClosing s x = true → Does (.timer x) s (siteFault x 4 (passTurn x s))) ∧
    (onTile x = false → Answers (.timer x) s (fun t => (t.thread (siteThread x)).deadline = d ∧ sitePc t x = sitePc s x + 1 ∧
      (∀ i, sreg t x i = sreg s x i) ∧ OnlySite x s t)))

/-- Events of tiles and slots (R194-R209, R217). -/
def Obligations.EventsReachTheirHandlers : Prop :=
  (∀ k p rest s, isTile k = true → (s.tile k).inq = p :: rest → slotTile (pOpslot p) = k →
    let n := pOpslot p
    (pOp p = opOPBLK → streamTest s p = none → expectedOf s n (pChunk p) = 0 → arrivedOf s n (pChunk p) < 65535 → tileRoom s k p.payload.length 1 = true → p.payload ≠ [] →
      Answers (.opblk k) s (fun t => (t.tile k).inq = rest ∧ arrivedOf t n (pChunk p) = arrivedOf s n (pChunk p) + 1 ∧
        (t.slot n).events = (s.slot n).events ++ [{ ev := 0, chunk := pChunk p, len := p.payload.length, boff := pBoff p, src := pSrc p, data := p.payload, hasData := true, stamp := s.ctl.stamp }] ∧
        (t.tile k).staged = (s.tile k).staged + ceilDiv p.payload.length 64 ∧ (t.tile k).evq = (s.tile k).evq + 1 ∧ (∀ j, j ≠ n → t.slot j = s.slot j) ∧ Touches [.ctl] s t)) ∧
    (pOp p = opOPBLK → streamTest s p = none → tileRoom s k p.payload.length 1 = false → Does (.opblk k) s s) ∧
    (∀ row, pOp p = opOPBLK → streamTest s p = some row → Answers (.opblk k) s (fun t => (t.tile k).inq = rest ∧ (∀ j, t.slot j = s.slot j) ∧
        mget 0 row (t.tile k).ctr = wrapAdd 64 (mget 0 row (s.tile k).ctr) 1 ∧ Touches [.ctl] s t)) ∧
    (pOp p = opOPMSG → pMtype p ≠ 0 → streamTest s p = none → tileRoom s k p.payload.length 1 = true →
      Answers (.opmsg k) s (fun t => (t.tile k).inq = rest ∧
        (t.slot n).events = (s.slot n).events ++ [{ ev := 3, code := pMtype p, len := p.payload.length, src := pSrc p, data := p.payload, hasData := !p.payload.isEmpty, stamp := s.ctl.stamp }] ∧
        (∀ c, arrivedOf t n c = arrivedOf s n c) ∧ (∀ j, j ≠ n → t.slot j = s.slot j) ∧ Touches [.ctl, .svc] s t)) ∧
    (pOp p = opOPMSG → pMtype p = 0 → Answers (.opmsg k) s (fun t => (t.tile k).inq = rest ∧ (∀ j, t.slot j = s.slot j) ∧
        mget 0 0 (t.tile k).ctr = wrapAdd 64 (mget 0 0 (s.tile k).ctr) 1))) ∧
  (∀ s p, (∀ row, streamTest s p = some row ↔
    (row = 0 ∧ (s.slot (pOpslot p)).st ≠ .live) ∨
    (row = 1 ∧ (s.slot (pOpslot p)).st = .live ∧ pOpgen p ≠ (s.slot (pOpslot p)).gen) ∨
    (row = 2 ∧ (s.slot (pOpslot p)).st = .live ∧ pOpgen p = (s.slot (pOpslot p)).gen ∧ pCtx p ≠ (s.slot (pOpslot p)).ctx) ∨
    (row = 3 ∧ (s.slot (pOpslot p)).st = .live ∧ pOpgen p = (s.slot (pOpslot p)).gen ∧ pCtx p = (s.slot (pOpslot p)).ctx ∧ pOp p ≠ opOPMSG ∧
      (s.slot (pOpslot p)).ccount ≤ pChunk p))) ∧
  (∀ k p rest r s, isTile k = true → (s.tile k).inq = p :: rest → mfind? (pTag p) s.mf.own = some r → responseOp (pOp r.pkt) = pOp p →
      s.svc.backlog = [] → slotTile r.unit = k → 1 ≤ (s.slot r.unit).outst →
    (pOp p = opRDRSP → r.user = 0 → pStatus p = stOK → (s.slot r.unit).st = .live → expectedOf s r.unit (r.arg % 65536) = 0 →
        arrivedOf s r.unit (r.arg % 65536) < 65535 → tileRoom s k p.payload.length 1 = true → p.payload ≠ [] →
      Answers (.fetchResponse k) s (fun t => (t.tile k).inq = rest ∧ mhas (pTag p) t.mf.own = false ∧ (t.slot r.unit).outst + 1 = (s.slot r.unit).outst ∧
        arrivedOf t r.unit (r.arg % 65536) = arrivedOf s r.unit (r.arg % 65536) + 1 ∧
        (t.slot r.unit).events = (s.slot r.unit).events ++ [{
          ev := 0, status := stOK, fetched := true, chunk := r.arg % 65536, boff := r.arg / 65536, len := p.payload.length, src := pSrc p, data := p.payload, pmask := pPmask p, hasData := true, stamp := s.ctl.stamp }])) ∧
    (pOp p = opWRRSP → r.user = 1 → pStatus p = stOK → Answers (.storeResponse k) s (fun t => (t.tile k).inq = rest ∧ mhas (pTag p) t.mf.own = false ∧
        (t.slot r.unit).outst + 1 = (s.slot r.unit).outst ∧ (t.slot r.unit).events = (s.slot r.unit).events)) ∧
    (pOp p = opWRRSP → r.user = 1 → retriable (pStatus p) = false → pStatus p ≠ stOK → (s.slot r.unit).st = .live → (slotEntry s r.unit 4).isSome = true →
      Answers (.storeResponse k) s (fun t => (∃ e l, (t.slot r.unit).events = (s.slot r.unit).events.filter (fun y => y.ev == 4) ++ e :: l ∧ e.ev = 4 ∧ e.code = 7 ∧ e.status = pStatus p)))) ∧
  (∀ k n e rest pc s, isTile k = true → (s.tile k).run = none → (s.tile k).off = false → nextSlot s k = some n → n < 1048576 → slotTile n = k → (s.slot n).events = e :: rest →
      (if e.ev = 5 then some e.pc else slotEntry s n e.ev) = some pc →
    Answers (.handlerStart k) s (fun t => ∃ h, (t.tile k).run = some h ∧ h.slot = n % 4096 ∧ h.ev = e ∧ h.pc = pc ∧ h.count = 0 ∧ h.v = [] ∧ h.p = [] ∧ h.scale = [] ∧
      mget 0 7 h.s = BitVec.ofNat 64 (eventWord e) ∧ (∀ i, i < 7 → mget 0 i h.s = mget 0 i (s.slot n).regs) ∧ h.ver = (s.slot n).ver ∧
      (t.slot n).events = rest ∧ (t.slot n).hseq = wrapAdd 32 (s.slot n).hseq 1 ∧ (∀ j, j ≠ n → t.slot j = s.slot j) ∧ Touches [.ctl, .rel, .free] s t)) ∧
  (∀ k n e rest s, isTile k = true → (s.tile k).run = none → (s.tile k).off = false → nextSlot s k = some n → slotTile n = k → (s.slot n).events = e :: rest →
      e.ev = 3 → slotEntry s n 3 = none → 1 ≤ (s.tile k).evq →
    Answers (.handlerStart k) s (fun t => (t.tile k).run = none ∧ (t.slot n).events = rest ∧ (t.tile k).evq + 1 = (s.tile k).evq ∧
      mget 0 4 (t.tile k).ctr = wrapAdd 64 (mget 0 4 (s.tile k).ctr) 1)) ∧
  (∀ k h s, isTile k = true → (s.tile k).run = some h → h.count = 256 → h.slot < 4096 → h.ev.ev ≠ 4 → (slotEntry s (4096 * k + h.slot) 4).isSome = true → h.ver = (s.slot (4096 * k + h.slot)).ver →
    Answers (.stepLimit k) s (fun t => (t.tile k).run = none ∧ (t.slot (4096 * k + h.slot)).regs = h.s ∧
      ∃ e l, (t.slot (4096 * k + h.slot)).events = (s.slot (4096 * k + h.slot)).events.filter (fun y => y.ev == 4) ++ e :: l ∧ e.ev = 4 ∧ e.code = 1)) ∧
  (∀ n s, isSlot n = true → (s.slot n).st = .live → (s.slot n).deadline ≠ 2 ^ 64 - 1 → (s.slot n).deadline ≤ now s →
    Answers (.timerExpire n) s (fun t => (t.slot n).deadline = 2 ^ 64 - 1 ∧ (t.slot n).events = (s.slot n).events ++ [{ ev := 2, stamp := s.ctl.stamp }] ∧
      (∀ j, j ≠ n → t.slot j = s.slot j) ∧ Touches [.ctl] s t)) ∧
  (∀ n s, isSlot n = true → (s.slot n).st = .ending → (s.slot n).outst = 0 → runsSlot s n = false → opSends s n = false →
    Answers (.slotCooling n) s (fun t => (t.slot n).st = .cooling ∧ (t.slot n).gen = wrapAdd 12 (s.slot n).gen 1 ∧ (t.slot n).coolAt = now s ∧
      ((s.thread (s.slot n).creator).running = true → ∃ e, (t.thread (s.slot n).creator).events = (s.thread (s.slot n).creator).events ++ [e] ∧
        e.kind = 2 ∧ e.desc.take 6 = natBytes 4 (n + 2 ^ 20 * (s.slot n).gen) ++ natBytes 1 (s.slot n).fstatus ++ natBytes 1 (s.slot n).fcause) ∧
      (∀ j, j ≠ n → t.slot j = s.slot j))) ∧
  (∀ n s, isSlot n = true → (s.slot n).st = .cooling → (s.slot n).coolAt + 100000 ≤ now s →
    Answers (.slotFree n) s (fun t => (t.slot n).st = .free ∧ { t.slot n with st := .cooling } = s.slot n ∧ (∀ j, j ≠ n → t.slot j = s.slot j) ∧ Touches [.ctl] s t)) ∧
  (∀ n s, isSlot n = true → (s.slot n).st = .cooling → now s < (s.slot n).coolAt + 100000 → Does (.slotFree n) s s) ∧
  (∀ cl e s, isCluster cl = true → e < 64 → ptState (ptab s cl e) = 1 →
    let good := (carriedBy s (ptProg (ptab s cl e)) (ptVer (ptab s cl e))).any (fun b => b.digest == (Config.sha384 (programBytes s cl (ptab s cl e))).toNat)
    (good = true → Answers (.programLoadDone cl e) s (fun t => ptState (ptab t cl e) = 2 ∧ ptProg (ptab t cl e) = ptProg (ptab s cl e) ∧
      ptVer (ptab t cl e) = ptVer (ptab s cl e) ∧ t.ctl.store = s.ctl.store ∧ Touches [.ctl] s t)) ∧
    (good = false → Answers (.programLoadDone cl e) s (fun t => ptab t cl e = 0 ∧ t.ctl.store = s.ctl.store)))

/-- Table access (R196, R197, R218, R259, R260, R358, R361, R368, R398, R402-R405). -/
def Obligations.TablesAreReadAndWritten : Prop :=
  (∀ x w s, AtWord s x 0xE0 (fun _ => fOpc + fD + fA + 2 ^ 32) w → onTile x = false → wD w < 8 → wA w < 8 →
    let a := (sreg s x (wA w)).toNat
    let h := siteThread x
    (tblHas s (taTable a) (taIndex a) = true → mayRead s h (taTable a) (taIndex a) = true → taCount a < 4 → taCount a < tblWords s (taTable a) (taIndex a) →
      Does (.trd x) s (setS x (wD w) (BitVec.ofNat 64 (fld (threadImage (siteStep x s) h (bit (wImm w) 0) (taTable a) (taIndex a)) (64 * taCount a) 64))
        (readClears (taTable a) (taIndex a) (taCount a) (siteStep x s)))) ∧
    ((tblHas s (taTable a) (taIndex a) = false ∨ mayRead s h (taTable a) (taIndex a) = false ∨ 4 ≤ taCount a ∨ tblWords s (taTable a) (taIndex a) ≤ taCount a) →
      Does (.trd x) s (setS x (wD w) (BitVec.ofNat 64 stViolation) (siteStep x s)))) ∧
  (∀ row ∈ [(Instr.twr, TwrCase.plain), (Instr.opCreate, .create), (Instr.opRebind, .rebind), (Instr.peridotEntryWrite, .image), (Instr.tableRetire, .retire),
      (Instr.codecJobClear, .codecClear), (Instr.tierJobStop, .tierStop), (Instr.tierJobAck, .tierAck)],
    ∀ x w s, AtWord s x 0xE1 (fun w => fOpc + fD + fA + fB + fImmf + (if wImmf w then fImm else 0)) w → onTile x = false → wD w < 8 → wA w < 8 → wB w < 8 →
    let a := (sreg s x (wA w)).toNat
    let h := siteThread x
    let id := taTable a
    let idx := taIndex a
    let n := writeWords s id idx
    let v := fld (twrValue s x w n) 0 (if id = 0x0048 then 64 else tblBits s id idx)
    tblHas s id idx = true → (wImmf w = true → memOk s x (memAddrB s x w) (8 * n) 8 = true) → twrCase s id idx v = row.2 →
    (taCount a = 0 → (wImmf w = false → wB w + n ≤ 8) → mayWrite s h id idx = true → (id = 0x0040 → slotsHeld s = false) →
      let r := writeEntry h id idx v row.2 (siteStep x s)
      Does (row.1 x) s (setS x (wD w) (BitVec.ofNat 64 r.1) r.2)) ∧
    ((taCount a ≠ 0 ∨ (wImmf w = false ∧ 8 < wB w + n) ∨ mayWrite s h id idx = false) → Does (row.1 x) s (setS x (wD w) (BitVec.ofNat 64 stViolation) (siteStep x s))) ∧
    (taCount a = 0 → (wImmf w = false → wB w + n ≤ 8) → mayWrite s h id idx = true → id = 0x0040 →
      (s.chv.pstate = .waking → Does (row.1 x) s (passTurn x s)) ∧
      (s.chv.pstate = .doze → Answers (row.1 x) s (fun t => sitePc t x = sitePc s x ∧ t.chv.pstate = .waking ∧ (∀ i, sreg t x i = sreg s x i) ∧ t.ctl.slots = s.ctl.slots)))) ∧
  (∀ id idx v h s, isChervilTable id = true → (writeEntry h id idx v .plain s).1 = stOK ∧ Touches [.chv, .rel, .lanes, .clk] s (writeEntry h id idx v .plain s).2) ∧
  (∀ h id idx v s, isCommitted id = true → isChervilTable id = false → id ≠ 0x001A → stagedElsewhere s h (tkey id idx) = false → (isFabric id = true → s.tab.pending = false) →
      (mput (tkey id idx) v (s.thread h).group).length ≤ groupMax →
    let r := writeEntry h id idx v .plain s
    r.1 = stOK ∧ mfind? (tkey id idx) (r.2.thread h).group = some v ∧ (∀ k, k ≠ tkey id idx → mfind? k (r.2.thread h).group = mfind? k (s.thread h).group) ∧
      (r.2.thread h).check = none ∧ r.2.tab.live = s.tab.live ∧ (∀ j, j ≠ h → r.2.thread j = s.thread j) ∧ Touches [.ctl, .tab] s r.2) ∧
  (∀ h n v s, createStatus s h n v = stOK →
    let r := writeEntry h 0x0040 n v .create s
    r.1 = stOK ∧ (r.2.slot n).st = .live ∧ (r.2.slot n).ctx = fld v 2 10 ∧ (r.2.slot n).prog = fld v 24 16 ∧ (r.2.slot n).ver = fld v 40 16 ∧ (r.2.slot n).gen = (s.slot n).gen ∧
      (r.2.slot n).wbase = fld v 56 10 ∧ (r.2.slot n).wsize = fld v 66 10 ∧ (r.2.slot n).outst = 0 ∧ (r.2.slot n).hseq = 0 ∧ (r.2.slot n).deadline = 2 ^ 64 - 1 ∧
      (r.2.slot n).seed = fld v 128 32 ∧ (∀ i, i < 8 → mget 0 i (r.2.slot n).regs = BitVec.ofNat 64 (fld v (256 + 64 * i) 64)) ∧
      (r.2.slot n).events.map (fun e => (e.ev, e.code)) = [(3, 0)] ∧
      (∀ l, 8 * fld v 56 10 ≤ l → l < 8 * (fld v 56 10 + fld v 66 10) → (r.2.tile (slotTile n)).valid.contains l = false) ∧
      (∀ j, j ≠ n → r.2.slot j = s.slot j) ∧ Touches [.ctl] s r.2) ∧
  (∀ h n v s, createStatus s h n v ≠ stOK → writeEntry h 0x0040 n v .create s = (createStatus s h n v, s)) ∧
  (∀ h n v p s, mayCreate s h (s.slot n).ctx = true → residentProg s (clusterOf (slotTile n)) (s.slot n).prog (fld v 40 16) = some p → ptCompat p ≤ (s.slot n).ver →
      admittedFor s (s.slot n).prog (fld v 40 16) (s.slot n).ctx = true → (∀ e ∈ (s.slot n).events, e.ev ≠ 5) →
    let r := writeEntry h 0x0040 n v .rebind s
    r.1 = stOK ∧ r.2.slot n = { s.slot n with ver := fld v 40 16 } ∧ (∀ j, j ≠ n → r.2.slot j = s.slot j) ∧ Touches [.ctl] s r.2) ∧
  (∀ h idx v s, (imageOk s (s.thread h).ctx idx v = true → (writeEntry h 0x0021 idx v .image s).1 = stOK ∧ pImage (writeEntry h 0x0021 idx v .image s).2 idx = v ∧
      (∀ j, j ≠ idx → pImage (writeEntry h 0x0021 idx v .image s).2 j = pImage s j) ∧ Touches [.per] s (writeEntry h 0x0021 idx v .image s).2) ∧
    (imageOk s (s.thread h).ctx idx v = false → writeEntry h 0x0021 idx v .image s = (stViolation, s))) ∧
  (∀ h j v s, jobMine s h (fld (tierJob s j) 17 10) = true → jobState (tierJob s j) = 1 →
    (writeEntry h 0x004A j v .tierStop s).1 = stOK ∧ jobState (tierJob (writeEntry h 0x004A j v .tierStop s).2 j) = 2 ∧
      (writeEntry h 0x004A j v .tierAck s).1 = stOK ∧ fld (tierJob (writeEntry h 0x004A j v .tierAck s).2 j) 192 32 = fld v 192 32 ∧
      (∀ i, i ≠ j → tierJob (writeEntry h 0x004A j v .tierStop s).2 i = tierJob s i) ∧ Touches [.tier] s (writeEntry h 0x004A j v .tierStop s).2) ∧
  (∀ h j v s, jobMine s h (mget {} j s.cod.runs).ctx = true → (writeEntry h 0x0049 j v .codecClear s).1 = stOK ∧
      codecJob (writeEntry h 0x0049 j v .codecClear s).2 j = 0 ∧ Touches [.cod] s (writeEntry h 0x0049 j v .codecClear s).2) ∧
  (∀ x w s, AtWord s x 0xE2 (fun _ => fOpc + fD + fA + fB + fImm) w → onTile x = false → wD w < 8 → wA w < 8 → wB w < 8 →
    let a := (sreg s x (wA w)).toNat
    let h := siteThread x
    let id := taTable a
    let idx := taIndex a
    let k := taCount a
    let n := tblWords s id idx
    (k ≠ 0 → tblHas s id idx = true → isCommitted id = true → memOk s x (memAddrB s x w) (8 * n * k) 8 = true →
        (∀ i, i < k → tblHas s id (idx + i) = true ∧ mayWrite s h id (idx + i) = true) →
      let r := stage h id ((List.range k).map (fun i => (idx + i, fld (bytesNat (readMem s x (memAddrB s x w + 8 * n * i) (8 * n))) 0 (tblBits s id idx)))) (siteStep x s)
      Does (.tstage x) s (setS x (wD w) (BitVec.ofNat 64 r.1) r.2)) ∧
    (k ≠ 0 → tblHas s id idx = true → isCommitted id = true → memOk s x (memAddrB s x w) (8 * n * k) 8 = false → Does (.tstage x) s (siteFault x 2 (passTurn x s))) ∧
    ((k = 0 ∨ tblHas s id idx = false ∨ isCommitted id = false) → Does (.tstage x) s (setS x (wD w) (BitVec.ofNat 64 stViolation) (siteStep x s)))) ∧
  (∀ h id l s, (∃ e ∈ l, stagedElsewhere s h (tkey id e.1) = true) → stage h id l s = (stBusy, s))

/-- Commit groups (R260, R261, R405-R411, R413). -/
def Obligations.GroupsCommitAtOnce : Prop :=
  (∀ row ∈ [(Instr.tcheck, false), (Instr.tcheckEpoch, true)], ∀ x w s, AtWord s x 0xE3 (fun _ => fOpc + fD + 2 ^ 32) w → onTile x = false →
      bit (wImm w) 0 = row.2 → wD w < 8 →
    let h := siteThread x
    let report := reportOf (groupFails (siteStep x s) h row.2)
    Answers (row.1 x) s (fun t => sreg t x (wD w) = BitVec.ofNat 64 report ∧ (t.thread h).group = (s.thread h).group ∧ t.tab.live = s.tab.live ∧
      (t.thread h).check = some { ok := report == 0, epoch := row.2, commits := s.tab.commits } ∧ sitePc t x = sitePc s x + 1 ∧
      (row.2 = true → report = 0 → t.tab.pending = true ∧ t.tab.pendThread = h) ∧ (row.2 = false → t.tab = s.tab) ∧ Touches [.ctl, .tab] s t)) ∧
  (∀ row ∈ [(Instr.tcommit, false), (Instr.tcommitEpoch, true)], ∀ x w s, AtWord s x 0xE4 (fun _ => fOpc + fD + 2 ^ 32) w → onTile x = false →
      bit (wImm w) 0 = row.2 → wD w < 8 →
    let h := siteThread x
    ((∀ c, (s.thread h).check = some c → c.ok = false ∨ c.epoch ≠ row.2) → Does (row.1 x) s (setS x (wD w) (BitVec.ofNat 64 stViolation) (siteStep x s))) ∧
    (∀ c, (s.thread h).check = some c → c.ok = true → c.epoch = row.2 → c.commits ≠ s.tab.commits → Does (row.1 x) s (setS x (wD w) (BitVec.ofNat 64 stBusy) (siteStep x s))) ∧
    (∀ c, (s.thread h).check = some c → c.ok = true → c.epoch = row.2 → c.commits = s.tab.commits →
      let t := applyGroup (s.thread h).group (threadDie h) row.2 (siteStep x s)
      Does (row.1 x) s (setS x (wD w) (BitVec.ofNat 64 stOK) (endGroup h (if row.2 then { t with tab := { t.tab with pendThread := h } } else t))))) ∧
  (∀ grp die s, (∀ e ∈ grp, e.1 / 2 ^ 24 = 0x0011) → (grp.map (·.1)).Nodup → s.cx.removals = [] → s.cx.release = [] → (∀ e ∈ s.sec.slots, ksState e.2 ≠ 2) →
    (∀ epoch, let t := applyGroup grp die epoch s;
      (∀ e ∈ grp, entry t 0x0011 (e.1 % 2 ^ 24) = e.2) ∧ (∀ idx, idx < 2 ^ 24 → (∀ e ∈ grp, e.1 % 2 ^ 24 ≠ idx) → entry t 0x0011 idx = entry s 0x0011 idx) ∧
      t.tab.commits = s.tab.commits + 1 ∧ t.tab.committed = true ∧ Touches [.tab, .cx] s t) ∧
    (let t := applyGroup grp die true s;
      t.tab.mseq = (s.tab.mseq + 1) % 2 ^ 32 ∧ t.tab.cur = t.tab.mseq % 4 ∧ t.tab.oldLive = true ∧ t.tab.eflipt = now s ∧ t.tab.pending = false ∧
      (∀ e ∈ grp, entryIn t .old 0x0011 (e.1 % 2 ^ 24) = entry s 0x0011 (e.1 % 2 ^ 24)))) ∧
  (∀ h s, let t := endGroup h s;
    (t.thread h).group = [] ∧ (t.thread h).groupOpen = false ∧ (t.thread h).check = none ∧ t.tab.live = s.tab.live ∧ (∀ j, j ≠ h → t.thread j = s.thread j)) ∧
  (∀ x w s, AtWord s x 0xE5 (fun _ => fOpc) w → onTile x = false →
    Answers (.tabort x) s (fun t => (t.thread (siteThread x)).group = [] ∧ (t.thread (siteThread x)).check = none ∧ t.tab.live = s.tab.live ∧ sitePc t x = sitePc s x + 1 ∧
      (∀ i, sreg t x i = sreg s x i) ∧ (s.tab.pending = true → s.tab.pendThread = siteThread x → t.tab.pending = false ∧ t.tab.pend = []) ∧ Touches [.ctl, .tab] s t)) ∧
  (∀ s, s.tab.oldLive = true → s.tab.eflipt + 1000000 ≤ now s → s.map.retireTo = none →
    Answers .oldBankRetired s (fun t => t.tab.oldLive = false ∧ t.tab.old = [] ∧ t.tab.live = s.tab.live ∧ t.tab.cur = s.tab.cur ∧ Touches [.tab, .evr] s t)) ∧
  (∀ s, (s.tab.oldLive = false ∨ now s < s.tab.eflipt + 1000000) → Does .oldBankRetired s s) ∧
  (∀ k w s, AtWord s (.thread k) 0xE7 (fun _ => fOpc + fD + fA) w → wD w < 8 → wA w < 8 →
    let e := (sreg s (.thread k) (wA w)).toNat % 65536
    let v := extent s e
    ((s.thread k).ctx = 0 → exLeased v = true → (exState v = 1 ∨ exState v = 2) → (∀ g, mfind? (tkey 0x0013 e) (s.thread k).group = some g → exState g ≠ 3) →
      Does (.lrenew (.thread k)) s (setS (.thread k) (wD w) (BitVec.ofNat 64 stOK)
        (applyGroup [(tkey 0x0013 e, setFld (setFld v 88 3 1) 128 64 (now s + exLease v))] (threadDie k) false (siteStep (.thread k) s)))) ∧
    ((s.thread k).ctx = 0 → exLeased v = true → exState v ≠ 1 → exState v ≠ 2 →
      Does (.lrenew (.thread k)) s (setS (.thread k) (wD w) (BitVec.ofNat 64 stRevoked) (siteStep (.thread k) s))) ∧
    (((s.thread k).ctx ≠ 0 ∨ exLeased v = false) → Does (.lrenew (.thread k)) s (setS (.thread k) (wD w) (BitVec.ofNat 64 stViolation) (siteStep (.thread k) s)))) ∧
  (∀ k w s, AtWord s (.thread k) 0xE8 (fun _ => fOpc + fD + fA + fB) w → wD w < 8 → wA w < 8 → wB w < 8 → (s.thread k).ctx = 0 →
    let ok := fun (e : Nat) => decide ((sreg s (.thread k) (wA w)).toNat % 65536 ≤ e) && exLeased (extent s e) && (exState (extent s e) == 1 || exState (extent s e) == 2) &&
      decide (exEnd (extent s e) ≤ (sreg s (.thread k) (wB w)).toNat)
    (∀ e, (listedExtents s).find? ok = some e → Answers (.lscan (.thread k)) s (fun t => sreg t (.thread k) (wD w) = BitVec.ofNat 64 (65536 + e) ∧
      t.chv.lscanAt = now s ∧ sitePc t (.thread k) = sitePc s (.thread k) + 1 ∧ Touches [.ctl, .chv] s t)) ∧
    ((listedExtents s).find? ok = none → Answers (.lscan (.thread k)) s (fun t => (sreg t (.thread k) (wD w)).toNat < 65536 ∧ t.chv.lscanAt = now s ∧ Touches [.ctl, .chv, .free] s t)))

/-- Control threads and the recorder's instructions (R256, R262, R263, R322, R583-R585). -/
def Obligations.ThreadsWaitPostAndStop : Prop :=
  (∀ x w s, AtWord s x 0xEA (fun _ => fOpc + fD + fA + fImm) w → onTile x = false → wD w < 8 → wA w < 8 →
    ((sreg s x (wA w)).toNat + sextN 32 (wImm w) < 0 → Does (.evwait x) s (siteFault x 2 (passTurn x s))) ∧
    ∀ a : Nat, (a : Int) = (sreg s x (wA w)).toNat + sextN 32 (wImm w) →
    (∀ e rest, memOk s x a 64 8 = true → (s.thread (siteThread x)).events = e :: rest → Answers (.evwait x) s (fun t => sreg t x (wD w) = BitVec.ofNat 64 e.kind ∧
      readMem t x a 64 = padTo 64 e.desc ∧ (t.thread (siteThread x)).events = rest ∧ sitePc t x = sitePc s x + 1 ∧ (∀ i, i ≠ wD w → sreg t x i = sreg s x i) ∧
      (∀ k, memOk s x k 1 1 = true → (k < a ∨ a + 64 ≤ k) → readMem t x k 1 = readMem s x k 1) ∧ Touches [.ctl, .svc] s t ∧ (e.kind ≠ 1 → Touches [.ctl] s t))) ∧
    (memOk s x a 64 8 = true → (s.thread (siteThread x)).events = [] → Answers (.evwait x) s (fun t => (t.thread (siteThread x)).waiting = true ∧
      (∀ i, sreg t x i = sreg s x i) ∧ sitePc t x = sitePc s x + 1 ∧ t.ctl.data = s.ctl.data ∧ Touches [.ctl] s t)) ∧
    (memOk s x a 64 8 = false → Does (.evwait x) s (siteFault x 2 (passTurn x s)))) ∧
  (∀ h e rest s, h = 256 → (s.thread h).waiting = true → (s.thread h).running = true → (s.thread h).events = e :: rest →
    let w := (mget (0 : Word) (65536 * threadCore h + ((s.thread h).pc - 1)) s.ctl.prog).toNat
    Answers (.threadEventDeliver h) s (fun t => (t.thread h).waiting = false ∧ (t.thread h).events = rest ∧ sreg t .chervil (wD w) = BitVec.ofNat 64 e.kind ∧
      readMem t .chervil (memAddr s .chervil w) 64 = padTo 64 e.desc ∧ Touches [.ctl, .svc] s t ∧ (e.kind ≠ 1 → Touches [.ctl] s t))) ∧
  (∀ h e rest s, h < 256 → (∀ y ∈ s.mf.modIn, threadResponse h y = false ∧ reservedMap h s y = false) → s.svc.backlog = [] → (s.thread h).waiting = true → (s.thread h).running = true →
      (s.thread h).events = e :: rest →
    let w := (mget (0 : Word) (65536 * threadCore h + ((s.thread h).pc - 1)) s.ctl.prog).toNat
    Answers (.threadEventDeliver h) s (fun t => (t.thread h).waiting = false ∧ (t.thread h).events = rest ∧ sreg t (.thread h) (wD w) = BitVec.ofNat 64 e.kind ∧
      readMem t (.thread h) (memAddr s (.thread h) w) 64 = padTo 64 e.desc ∧ Touches [.ctl, .svc] s t ∧ (e.kind ≠ 1 → Touches [.ctl] s t))) ∧
  (∀ h s, isThread h = true → (s.thread h).running = true → (s.thread h).deadline ≠ 2 ^ 64 - 1 → (s.thread h).deadline ≤ now s →
    Answers (.threadDeadline h) s (fun t => (t.thread h).deadline = 2 ^ 64 - 1 ∧ (∃ e, (t.thread h).events = (s.thread h).events ++ [e] ∧ e.kind = 5 ∧
      e.desc.take 8 = natBytes 8 (s.thread h).deadline) ∧ (∀ j, j ≠ h → t.thread j = s.thread j) ∧ Touches [.ctl] s t)) ∧
  (∀ h ue s, isThread h = true → (s.thread h).running = true → (s.thread h).svc = 0 →
      (ue = true ∨ (siteReady s (threadSite h) = true ∧ ∀ w, fetchWord s (threadSite h) = some w → assignedOpc (w % 256) = false)) →
    Answers (.threadStop h ue) s (fun t => (t.thread h).running = false ∧ (t.thread h).waiting = false ∧ (t.thread h).events = [] ∧ (t.thread h).group = [] ∧
      (t.thread h).s = (s.thread h).s ∧ (∀ j, j ≠ h → t.thread j = s.thread j) ∧ (∀ q ∈ t.sec.kreqs, q.thread = h → q.orphan = true) ∧ t.sec.kreqs.length = s.sec.kreqs.length ∧
      Touches [.ctl, .tab, .evr, .hst, .sec] s t)) ∧
  (∀ h s, isThread h = true → ((s.thread h).running = false ∨ (∃ w, fetchWord s (threadSite h) = some w ∧ assignedOpc (w % 256) = true)) → Does (.threadStop h false) s s) ∧
  (∀ row ∈ [(Instr.evpost, 0), (Instr.freeze, 1), (Instr.thaw, 2)], ∀ x w s, AtWord s x 0xEB (fun _ => fOpc + fD + fA + fB + fImm) w → onTile x = false →
      wD w < 8 → wA w < 8 → wB w < 8 → postKind ((sreg s x (wA w)).toNat % 65536) = row.2 →
    let a := (sreg s x (wA w)).toNat
    let m := memAddrB s x w
    let p := readMem s x m 16
    let h := siteThread x
    (memOk s x m 16 8 = true → fld a 16 4 ≤ 3 →
      let u := siteStep x s
      let r := match row.2 with
        | 1 => freezeBy h u
        | 2 => thawBy h u
        | _ => if a % 65536 < 0x8000 then (stViolation, u) else
            (stOK, emit (threadDie h) (a % 65536) (fld a 16 4) (byteAt p 0 4) (byteAt p 4 4) (byteAt p 8 4) (byteAt p 12 4) u)
      Does (row.1 x) s (setS x (wD w) (BitVec.ofNat 64 r.1) r.2)) ∧
    (memOk s x m 16 8 = true → 3 < fld a 16 4 → Does (row.1 x) s (setS x (wD w) (BitVec.ofNat 64 stViolation) (siteStep x s))) ∧
    (memOk s x m 16 8 = false → Does (row.1 x) s (siteFault x 2 (passTurn x s)))) ∧
  (∀ h s, (s.thread h).ctx = 0 → h ≠ 256 →
    (s.evr.frozen = false → (freezeBy h s).1 = stOK ∧ (freezeBy h s).2.evr.frozen = true ∧ (freezeBy h s).2.evr.holder = h ∧ (freezeBy h s).2.evr.frozenAt = now s ∧
      Touches [.evr, .hst] s (freezeBy h s).2) ∧
    (s.evr.frozen = true → s.evr.holder ≠ h → freezeBy h s = (stBusy, s) ∧ thawBy h s = (stViolation, s)) ∧
    (s.evr.frozen = true → s.evr.holder = h → freezeBy h s = (stOK, s) ∧ (thawBy h s).1 = stOK ∧ (thawBy h s).2.evr.frozen = false)) ∧
  (∀ h s, ((s.thread h).ctx ≠ 0 ∨ h = 256) → freezeBy h s = (stViolation, s) ∧ thawBy h s = (stViolation, s)) ∧
  (∀ s, s.evr.frozen = true → (s.evr.frozenAt + 1000000000 ≤ now s ∨ (s.thread s.evr.holder).running = false) →
    Answers .autoThaw s (fun t => t.evr.frozen = false ∧ Touches [.evr, .hst] s t)) ∧
  (∀ s, (s.evr.frozen = false ∨ (now s < s.evr.frozenAt + 1000000000 ∧ (s.thread s.evr.holder).running = true)) → Does .autoThaw s s)

/-- Key requests and the removal of contexts (R458-R465, R478-R485; log 50, 51). -/
def Obligations.ContextsGoAndKeysAreServed : Prop :=
  (∀ row ∈ [(Instr.kreqAlloc, 1), (Instr.kreqImport, 2), (Instr.kreqShare, 3), (Instr.kreqDestroy, 4), (Instr.kreqRetire, 5), (Instr.kreqQuery, 6), (Instr.kreqReport, 7), (Instr.kreqScrub, 8)],
    ∀ k w s, AtWord s (.thread k) 0xE9 (fun _ => fOpc + fD + fA + fImm) w → wD w < 8 → wA w < 8 →
    let x := Site.thread k
    let r := readMem s x (memAddr s x w) 64
    let t := (s.thread k).ticket
    (memOk s x (memAddr s x w) 64 8 = true → krOp r = row.2 →
      Does (row.1 x) s (postKey k t r ((setS x (wD w) (BitVec.ofNat 64 (65536 * t)) (siteStep x s)).modThread k (fun y => { y with ticket := (t + 1) % 65536 })))) ∧
    (memOk s x (memAddr s x w) 64 8 = false → Does (row.1 x) s (siteFault x 2 (passTurn x s)))) ∧
  (∀ h t r s, (carnelianServes s = false → (postKey h t r s).sec.kreqs = s.sec.kreqs ++ [{ thread := h, ticket := t, req := r }] ∧ Touches [.sec] s (postKey h t r s)) ∧
    (carnelianServes s = true → s.sec.kreqs = [] →
      let e : KReq := { thread := h, ticket := t, req := r }
      let q : State := { s with sec := { s.sec with kreqs := [e] } }
      let v := serveKey h t r q
      (postKey h t r s).sec.kreqs = v.2.sec.kreqs.set 0 (if v.1.wait then { e with sent := some (now s) } else { e with done := some (keyDoneBytes v.2 t r v.1) }) ∧
        Touches [.sec] v.2 (postKey h t r s))) ∧
  (∀ h k r s, ((s.thread h).ctx ≠ 0 ∨ krOk r = false) → (serveKey h k r s).1.status = stViolation ∧ (serveKey h k r s).1.wait = false ∧ (serveKey h k r s).2 = s) ∧
  (∀ h k r s, (s.thread h).ctx = 0 → krOk r = true →
    let n := krSlot r
    let c := krCtx r
    let t := (serveKey h k r s).2
    let st := (serveKey h k r s).1.status
    (krOp r = 1 → ksState (keySlot s n) = 0 → ctxGoing s c = false → st = stOK ∧ ksState (keySlot t n) = 1 ∧ ksCtx (keySlot t n) = c ∧ ksKgen (keySlot t n) = slotKgen s c ∧
      ksKind (keySlot t n) = 0 ∧ (∀ m, m ≠ n → keySlot t m = keySlot s m) ∧ t.tab.commits = s.tab.commits + 1) ∧
    (krOp r = 1 → ksState (keySlot s n) ≠ 0 → st = stBusy ∧ t = s) ∧ (krOp r = 1 → ksState (keySlot s n) = 0 → ctxGoing s c = true → st = stContextGone ∧ t = s) ∧
    (krOp r = 2 → (∀ h ∈ s.sec.imports, h.1 ≠ byteAt r 24 4 ∨ h.2.1 ≠ c ∨ h.2.2.2 ≤ now s) → st = stViolation ∧ t = s) ∧
    (∀ i, krOp r = 2 → s.sec.imports = [i] → i.1 = byteAt r 24 4 → i.2.1 = c → now s < i.2.2.2 → i.2.2.1 % 2 ^ 256 ≠ i.2.2.1 / 2 ^ 256 → ksState (keySlot s n) = 0 → ctxGoing s c = false →
      st = stOK ∧ ksState (keySlot t n) = 1 ∧ slotKey t n = i.2.2.1 ∧ bit (keySlot t n) 20 = true ∧ t.sec.imports = []) ∧
    (krOp r = 3 → ksState (keySlot s n) ≠ 1 → st = stViolation ∧ t = s) ∧ (krOp r = 3 → ksState (keySlot s n) = 1 → peerReached s (byteAt r 8 2) = false → st = stPathLost ∧ t = s) ∧
    (krOp r = 3 → ksState (keySlot s n) = 1 → peerReached s (byteAt r 8 2) = true → (serveKey h k r s).1.wait = true ∧ t.sec = s.sec ∧ t.tab = s.tab) ∧
    (krOp r = 4 → slotServes s n = false → st = stOK ∧ keySlot t n = 0 ∧ mhas n t.sec.keys = false ∧ (∀ m, m ≠ n → keySlot t m = keySlot s m)) ∧
    (krOp r = 4 → slotServes s n = true → st = stBusy ∧ t = s) ∧
    (krOp r = 5 → ctxState s c = 1 → st = stViolation ∧ t = s) ∧
    (krOp r = 5 → ctxState s c ≠ 1 → st = stOK ∧ t.cx.retired.contains c = true ∧
      (∀ m, ksState (keySlot t m) = 1 → ksKind (keySlot t m) = 0 → ksCtx (keySlot t m) = c → ksKgen (keySlot t m) ≠ ctxKgen s c)) ∧
    (krOp r = 6 → st = stOK ∧ t = s) ∧
    (krOp r = 7 → (∀ q ∈ s.sec.kreqs, krOp q.req ≠ 7 ∨ q.done = none) → lmsValue s.sec = none → st = stStateLost ∧ t = s) ∧
    (∀ b u, krOp r = 7 → (∀ q ∈ s.sec.kreqs, krOp q.req ≠ 7 ∨ q.done = none) → makeReport c ((r.drop 24).take 32) s = some (b, u) →
      st = stOK ∧ (serveKey h k r s).1.len = b.length) ∧
    (krOp r = 8 → (∀ m, 4032 ≤ m → m < 4096 → ksState (keySlot s m) ≠ 0) → st = stBusy ∧ t = s) ∧
    (krOp r = 8 → (∃ m, 4032 ≤ m ∧ m < 4096 ∧ ksState (keySlot s m) = 0) → st = stOK ∧ 4032 ≤ (serveKey h k r s).1.slot ∧ ksState (keySlot s (serveKey h k r s).1.slot) = 0 ∧
      ksState (keySlot t (serveKey h k r s).1.slot) = 1 ∧ ksKind (keySlot t (serveKey h k r s).1.slot) = 1)) ∧
  (∀ q rest d s, (∀ y ∈ s.sec.kreqs, y.done.isSome = true) → s.sec.kreqs = q :: rest → q.done = some d → ownOpen s 15 (reportUnit q.thread q.ticket) = false → q.orphan = false →
    Does .kreqComplete s (raiseThread q.thread 4 d { s with sec := { s.sec with kreqs := rest } })) ∧
  (∀ s q, s.sec.kreqs = [q] → carnelianServes s = true → q.done = none →
    (∀ a, q.sent = some a → a + 2000000 ≤ now s →
      Answers .kreqComplete s (fun t => t.sec.kreqs = [] ∨ (t.sec.kreqs.map (fun y => y.done.map (fun d => byteAt d 2 1))) = [some stPathLost])) ∧
    (∀ a, q.sent = some a → now s < a + 2000000 → Does .kreqComplete s s)) ∧
  (∀ ctx node r s, isCtx ctx = true → isNode node = true → mfind? ctx s.cx.removals = some r → (bit (entry s 0x0030 ctx) 3 = true → node ∈ peersOf s ctx) →
    let r' := { r with reports := insertSet node r.reports }
    Answers (.flipReport ctx node) s (fun t => mfind? ctx t.cx.removals = some { r' with tr := if r.flipped && r.tr.isNone && reportsIn s ctx r' then some (now s) else r.tr } ∧
      (∀ c, c ≠ ctx → mfind? c t.cx.removals = mfind? c s.cx.removals) ∧
      t.tab = s.tab ∧ t.sec = s.sec ∧ (bit (entry s 0x0030 ctx) 3 = false → Touches [.cx] s t))) ∧
  (∀ ctx node r s, isCtx ctx = true → isNode node = true → mfind? ctx s.cx.removals = some r → bit (entry s 0x0030 ctx) 3 = true → node ∈ peersOf s ctx →
      node ∉ r.reports → node ∉ r.excluded →
    (r.at_ + 10000000 ≤ now s → Answers (.peerUnreachable ctx node) s (fun t => (∃ r', mfind? ctx t.cx.removals = some r' ∧ r'.excluded = insertSet node r.excluded ∧ r'.reports = r.reports ∧
        (r'.tr = none → Touches [.cx, .evr, .hst] s t)) ∧ t.tab = s.tab ∧ t.sec = s.sec)) ∧
    (now s < r.at_ + 10000000 → Does (.peerUnreachable ctx node) s s)) ∧
  (∀ ctx r s, isCtx ctx = true → mfind? ctx s.cx.removals = some r →
    (scrubReady s ctx r = false → Does (.contextScrubStart ctx) s s) ∧
    (scrubReady s ctx r = true →
      let l := (ctxExtents s ctx).filter (fun e => exState (extent s e) == 3)
      let c := if l.isEmpty then (stOK, s) else serviceCommit (leaseThread s) (groupOf (scrubbingEntries s l)) s
      (c.1 = stOK → let t := scrubRecords ctx (moveCtx ctx 3 (fld (entry c.2 0x0030 ctx) 113 4) c.2);
        Does (.contextScrubStart ctx) s (freeContext ctx ((ctxExtents t ctx).foldl beginScrub t))) ∧
      (c.1 ≠ stOK → Does (.contextScrubStart ctx) s s))) ∧
  (∀ ctx s, ctx < 1024 → ctxState s ctx = 3 → (∀ e ∈ listedExtents s, exOwner (extent s e) = ctx → exLeased (extent s e) = true → exState (extent s e) = 0) →
    let t := freeContext ctx s
    ctxState t ctx = 0 ∧ fld (entry t 0x0030 ctx) 4 14 = 0 ∧ mhas ctx t.cx.removals = false ∧ t.cx.release.contains ctx = true ∧
      (bit (entry s 0x0030 ctx) 3 = true → (t.cx.closures.map (·.ctx)).head? = some ctx)) ∧
  (∀ ctx r s, isCtx ctx = true → mfind? ctx s.cx.removals = some r → ctxState s ctx = 3 → r.slot = none →
    (r.slotTry + 10000000 ≤ now s → let t : State := { s with cx := { s.cx with removals := mput ctx { r with slotTry := now s } s.cx.removals } };
      Does (.scrubSlotRetry ctx) s ((ctxExtents t ctx).foldl beginScrub t)) ∧
    (now s < r.slotTry + 10000000 → Does (.scrubSlotRetry ctx) s s))

/-- Collective blocks and the collective service (R298, R299, R304-R317; log 46). -/
def Obligations.CollectivesPlanRunAndEnd : Prop :=
  (∀ p ep u s, takeMod (fun x => pOp x.1 == opCBLK) s = some ((p, ep), u) →
    let b := (epochBank u p).getD .cur
    let v := entryIn u b 0x001A (hfld p 128 12)
    (bit v 0 = false → Does .cblk s (lookupCount (coreOfEp ep) 2 u)) ∧
    (bit v 0 = true → fld v 1 10 ≠ pCtx p → Does .cblk s (lookupCount (coreOfEp ep) 3 u)) ∧
    (bit v 0 = true → fld v 1 10 = pCtx p → fld v 37 8 ≠ hfld p 140 8 → Does .cblk s (lookupCount (coreOfEp ep) 4 u)) ∧
    (bit v 0 = true → fld v 1 10 = pCtx p → fld v 37 8 = hfld p 140 8 →
      let j := fld v 11 10 + 1
      let t := entryIn u b 0x001B (fld v 21 16 + hfld p 160 16 % j)
      ∃ q, q.payload = p.payload ∧ q.tc = p.tc ∧ pOpslot q = fld t 0 20 ∧ pOpgen q = fld t 20 12 ∧ pChunk q = hfld p 160 16 / j ∧ pBoff q = pBoff p ∧
        Does .cblk s (takeIn (fun _ p s => pathLost ep p s) ep (mkParked u ep 0 q [(416 + slotTile (pOpslot q) / 8, 0)]) u))) ∧
  (∀ m u s, takeMail 1 1 s = some (m, u) →
    let made := fun list => makePlan m list (dropRead (readKey 1 0) u)
    ((cmdUnknown m = true ∨ bareRange m = false) → Does .collPlan s (collRefuse m stViolation u)) ∧
    (cmdUnknown m = false → bareRange m = true →
      (poolGot s (readKey 1 0) = none → Does .collPlan s (askPool (readKey 1 0) (collThread s) m.ctx (byteAt m.data 16 8) (2 * byteAt m.data 6 2) s)) ∧
      (∀ list, poolGot s (readKey 1 0) = some list → slotsHeld s = true → Does .collPlan s (holdSlot s)) ∧
      (∀ list, poolGot s (readKey 1 0) = some list → slotsHeld s = false → (made list).1 ≠ stOK →
        (list.status ≠ stOK → (made list).1 = list.status) ∧ Does .collPlan s (collRefuse m (made list).1 (dropRead (readKey 1 0) u))) ∧
      (∀ list, poolGot s (readKey 1 0) = some list → slotsHeld s = false → m.ctx < 1024 → (made list).1 = stOK →
        ∃ k pl, k < 4096 ∧ (u.plan k).used = false ∧ (∀ i < k, (u.plan i).used = true) ∧
          pl = { planFrom m.ctx m.data pl.members with
            ops := pl.ops, group := pl.group, alias_ := pl.alias_, spray := pl.spray, stagingHeld := pl.staged, frames := pl.frames } ∧
          pl.members.length = byteAt m.data 6 2 ∧ pl.ops.length ≤ 1024 ∧
          pl.ops.length = planJ (planFrom m.ctx m.data pl.members) (planRate u (planFrom m.ctx m.data pl.members)) ∧
          pl.frames.length = (if pl.staged then ceilDiv (1024 * pl.chunks) 65536 else 0) ∧
          Answers .collPlan s (fun t => t.plan k = pl ∧ (∀ i, i ≠ k → t.plan i = u.plan i) ∧ (∀ o ∈ pl.ops, (t.slot o.1).st = .live ∧ (t.slot o.1).ctx = m.ctx))))) ∧
  (∀ m u s, takeMail 1 3 s = some (m, u) →
    let k := byteAt m.data 4 2
    let pl := u.plan k
    (bareRange m = true → pl.used = true → pl.ctx = m.ctx → pl.running = false → (removePlan k stOK u).1 = stOK → Answers .collFree s (fun t => (t.plan k).used = false ∧
      t.tab = (removePlan k stOK u).2.tab ∧ (∀ i, i ≠ k → t.plan i = u.plan i) ∧ (∀ f ∈ pl.frames, f ∉ t.tier.frames))) ∧
    (bareRange m = true → pl.used = true → pl.ctx = m.ctx → pl.running = true → Does .collFree s (svcComplete m (collRecord u k pl stBusy) u)) ∧
    (pl.used = true → (bareRange m = false ∨ pl.ctx ≠ m.ctx) → Does .collFree s (svcComplete m (collRecord u k pl stViolation) u))) ∧
  (∀ plan m u s, isPlan plan = true → takeMailIf 1 (fun m => mailCmd m == 2 && (byteAt m.data 4 2 == plan || decide (4096 ≤ byteAt m.data 4 2))) s = some (m, u) →
    let pl := u.plan plan
    let good := byteAt m.data 4 2 = plan ∧ bareRange m = true ∧ pl.used = true ∧ pl.ctx = m.ctx ∧ inRange 1000 4000000000 (byteAt m.data 40 4) = true ∧
      (pl.staged = true → pl.stagingHeld = true)
    (¬good → Does (.collRun plan) s (collRefuse m stViolation u)) ∧
    (good → pl.running = true → Does (.collRun plan) s (collRefuse m stBusy u)) ∧
    (good → pl.running = false → pl.recreate = true → slotsHeld s = false → Does (.collRun plan) s (collRefuse m stBusy (recreatePlan plan u))) ∧
    (good → pl.running = false → pl.recreate = true → slotsHeld s = true → Does (.collRun plan) s (holdSlot s)) ∧
    (good → pl.running = false → pl.recreate = false → Does (.collRun plan) s (startRun plan m u))) ∧
  (∀ k m s, (s.plan k).spray < 4096 →
    let pl := s.plan k
    let t := startRun k m s
    ((downMembers s pl).any (stopsRun pl) = false → (t.plan k).running = true ∧ (t.plan k).run = (pl.run + 1) % 256 ∧ fld (entry t 0x001A pl.spray) 37 8 = (pl.run + 1) % 256 ∧
      (t.plan k).pruned = downMembers s pl ∧ (t.plan k).done = [] ∧ (t.plan k).req = some m ∧ (t.plan k).armed = false ∧ (t.plan k).span = byteAt m.data 40 4 ∧
      (t.plan k).stopped = false ∧ (t.plan k).due = pl.staged) ∧
    ((downMembers s pl).any (stopsRun pl) = true → (t.plan k).running = false ∧ (t.plan k).req = none)) ∧
  (∀ plan s, isPlan plan = true →
    let pl := (armDeadline plan s).plan plan
    let lost := newlyLost (armDeadline plan s) pl
    let late := pl.armed && reached s pl.deadline && !noticeWaits (armDeadline plan s) pl
    ((s.plan plan).running = false → Does (.collStop plan) s s) ∧
    ((s.plan plan).running = true → (s.plan plan).armed = false → ((s.plan plan).staged = true → (s.plan plan).phase ≠ 0) → noticeWaits s (s.plan plan) = false →
      Answers (.collStop plan) s (fun t => (t.plan plan).armed = true ∧ (t.plan plan).deadline = now s + (s.plan plan).span)) ∧
    ((s.plan plan).running = true → pl.stopped = false → (lost.any (stopsRun pl) = true ∨ late = true) →
      Answers (.collStop plan) s (fun t => (t.plan plan).stopped = true ∧ (t.plan plan).pruned = pl.pruned ++ lost ∧
        ((t.plan plan).byDeadline = !lost.any (stopsRun pl)) ∧ Touches [.svc, .ctl] s t ∧
        (∀ o ∈ pl.ops, ∀ c < (s.slot o.1).ccount, expectedOf t o.1 c = 0 ∧ arrivedOf t o.1 c = arrivedOf s o.1 c))) ∧
    ((s.plan plan).running = true → lost.any (stopsRun pl) = false → late = false → Answers (.collStop plan) s (fun t =>
      (t.plan plan).pruned = pl.pruned ++ lost ∧ (t.plan plan).stopped = pl.stopped ∧ Touches [.svc] s t))) ∧
  (∀ plan s, isPlan plan = true →
    let pl := s.plan plan
    let lost := newlyLost s pl
    let whole := runWhole { pl with pruned := pl.pruned ++ lost } = true ∧ (pl.staged = true → pl.phase = 2 ∧ pl.due = false)
    let ended := pl.running = true ∧ (ctxState s pl.ctx ≠ 1 ∨ pl.stopped = true ∨ whole) ∧ opsIdle s pl = true ∧ primaryOpen s plan = false
    let t := s.modPlan plan (fun x => { x with pruned := x.pruned ++ lost })
    (¬ended → Does (.collComplete plan) s s) ∧
    (ended → Does (.collComplete plan) s (finishRun plan (runStatus t (t.plan plan)) t))) ∧
  (∀ pl s, (ctxState s pl.ctx ≠ 1 → runStatus s pl = stContextGone) ∧
    (ctxState s pl.ctx = 1 → pl.pruned ≠ [] → runStatus s pl = stIncomplete) ∧
    (ctxState s pl.ctx = 1 → pl.pruned = [] → chunksDone pl = pl.chunks → runStatus s pl = stOK) ∧
    (ctxState s pl.ctx = 1 → pl.pruned = [] → chunksDone pl ≠ pl.chunks → pl.byDeadline = true → runStatus s pl = stTimeout)) ∧
  (∀ k st s, let t := finishRun k st s
    (t.plan k).running = false ∧ (st = stOK → (s.plan k).staged = false → (s.plan k).stopped = false →
      (t.plan k).recreate = false ∧ (t.plan k).done = [] ∧ (t.plan k).ops = (s.plan k).ops)) ∧
  (∀ plan s, isPlan plan = true →
    let pl := s.plan plan
    let can := pl.running = true ∧ pl.staged = true ∧ pl.stopped = false ∧ primaryOpen s plan = false
    let key := readKey 1 (8192 + plan)
    (¬can → Does (.phaseStateResume plan) s s) ∧
    (can → pl.primaryLost = true → Does (.phaseStateResume plan) s (resumeFrom plan none s)) ∧
    (can → pl.primaryLost = false → poolGot s key = none →
      Does (.phaseStateResume plan) s (askPool key (collThread s) pl.ctx pl.state (64 + (masksOf pl).length) s)) ∧
    (∀ a, can → pl.primaryLost = false → poolGot s key = some a →
      Does (.phaseStateResume plan) s (resumeFrom plan (if a.status = stOK then validCopy plan pl a.data else none) (dropRead key s)))) ∧
  (∀ k p s,
    let pl := s.plan k
    (shadowCopy s k = none → p = none → ∃ v : State, v.plan k = { pl with degraded := true, stagingHeld := false, frames := [] } ∧ resumeFrom k p s = finishRun k stStateLost v) ∧
    (∀ a, (shadowCopy s k = some a ∨ p = some a) → (∀ b, shadowCopy s k = some b → b.1 ≤ a.1) → (∀ b, p = some b → b.1 ≤ a.1) → (∀ b, shadowCopy s k = some b → b.1 = a.1 → b = a) →
      let t := resumeFrom k p s
      (t.plan k).running = pl.running ∧ (t.plan k).done = [] ∧ (t.plan k).seq = (a.1 + 1) % 2 ^ 64 ∧
        (t.plan k).phase = (if a.2.1 = 0 then 1 else if a.2.1 = 1 ∧ a.2.2 = pl.chunks then 2 else a.2.1)))

/-- Mailboxes and versions of services (R320-R325; log 46). -/
def Obligations.ServicesTakeRequestsAndSwitch : Prop :=
  (∀ p ep u s, takeMod (fun x => pOp x.1 == opSVCREQ) s = some ((p, ep), u) →
    let m := mailOf u p
    let v := hfld p 128 8
    let full := 2 ^ fld (svcEntry u v) 51 4 ≤ (mget [] v u.svc.mail).length
    m.svc = v ∧ m.ctx = pCtx p ∧ m.src = pSrc p ∧ m.tag = pTag p ∧ m.data = p.payload ∧ m.at_ = now u ∧
    ((v = 0 ∨ svcState u v = 0) → Does .svcreq s (svcAnswer m (natBytes 8 stViolation) u)) ∧
    (v ≠ 0 → (svcState u v = 1 ∨ svcState u v = 4) → Does .svcreq s (svcAnswer m (natBytes 8 stBusy) u)) ∧
    (v ≠ 0 → (svcState u v = 2 ∨ svcState u v = 3) → full → Does .svcreq s (svcAnswer m (natBytes 8 stBusy) u)) ∧
    (v ≠ 0 → (svcState u v = 2 ∨ svcState u v = 3) → ¬full →
      let h := mboxThread u v
      Answers .svcreq s (fun t => mget [] v t.svc.mail = mget [] v u.svc.mail ++ [m] ∧ (∀ w, w ≠ v → mget [] w t.svc.mail = mget [] w u.svc.mail) ∧
        (∃ a, a % 8 = 0 ∧ a < 4194304 ∧ ((u.thread h).running = true → (t.thread h).events = (u.thread h).events ++ [⟨1, padTo 64 (mailEvent m false a)⟩]) ∧
          (∀ i < p.payload.length, memByte t.ctl.data (4194304 * (h / 32) + a + i) = p.payload.getD i 0)) ∧
        t.out = s.out ∧ t.tab = s.tab))) ∧
  (∀ bundle b s, mfind? bundle s.sec.bundles = some b →
    let v := b.svc
    let o := mget {} (mget 0 v s.svc.bundle) s.sec.bundles
    let newer := b.signer = o.signer ∧ o.bver < b.bver ∧ (b.compat ≤ o.bver ∨ liveHandles s v = false)
    (b.retired = false → (svcState s v = 0 ∨ svcState s v = 4) → Answers (.serviceSwitch bundle) s (fun t => svcState t v = 1 ∧ mget 0 v t.svc.bundle = bundle ∧
      (t.thread b.mbox).running = true ∧ (t.thread b.mbox).svc = v ∧ (b.mbox < 256 → b.ccmask < 256 → mboxThread t v = b.mbox) ∧ t.svc.mail = s.svc.mail ∧ Touches [.svc, .ctl] s t)) ∧
    (b.retired = false → svcState s v = 2 → mget 0 v s.svc.bundle ≠ bundle → newer → tilesReady s b = true → Answers (.serviceSwitch bundle) s (fun t => svcState t v = 3 ∧ mget 0 v t.svc.bundle = bundle ∧
      mget [] v t.svc.oldMail = mget [] v s.svc.mail ∧ mget [] v t.svc.mail = [] ∧ (∀ w, w ≠ v → mget [] w t.svc.mail = mget [] w s.svc.mail) ∧ mget 9 v t.svc.switched = stOK ∧ Touches [.svc, .ctl] s t)) ∧
    (b.retired = false → svcState s v = 2 → mget 0 v s.svc.bundle ≠ bundle → ¬newer → Answers (.serviceSwitch bundle) s (fun t => mget 0 v t.svc.switched = stViolation ∧
      svcState t v = 2 ∧ mget 0 v t.svc.bundle = mget 0 v s.svc.bundle ∧ t.svc.mail = s.svc.mail ∧ Touches [.svc] s t)) ∧
    (b.retired = false → svcState s v = 2 → mget 0 v s.svc.bundle ≠ bundle → newer → tilesReady s b = false → Does (.serviceSwitch bundle) s s) ∧
    ((b.retired = true ∨ (svcState s v = 2 ∧ mget 0 v s.svc.bundle = bundle)) → Does (.serviceSwitch bundle) s s)) ∧
  (∀ svc s, isSvc svc = true →
    let b := mget {} (mget 0 svc s.svc.bundle) s.sec.bundles
    let ready := (s.thread (mboxThread s svc)).running = true ∧ tilesReady s b = true ∧ (svcState s svc = 1 ∨ (svcState s svc = 3 ∧ mget [] svc s.svc.oldMail = []))
    (ready → Answers (.serviceAdopt svc) s (fun t => svcState t svc = 2 ∧ (∀ v, v ≠ svc → svcState t v = svcState s v) ∧ mboxThread t svc = mboxThread s svc ∧
      (t.thread (mboxThread s svc)).lo = b.base + 8 ∧ (t.thread (mboxThread s svc)).running = true ∧ Touches [.svc, .ctl] s t)) ∧
    (¬ready → Does (.serviceAdopt svc) s s))

/-- Weight streaming (R328-R338; log 47). -/
def Obligations.StreamsFetchAndDeliver : Prop :=
  (∀ m u s, takeMail 2 1 s = some (m, u) →
    ((cmdUnknown m = true ∨ openInRange m.data = false) → Does .wsOpen s (svcComplete m (natBytes 8 stViolation) u)) ∧
    (cmdUnknown m = false → openInRange m.data = true → poolGot s (readKey 2 0) = none →
      Does .wsOpen s (askPool (readKey 2 0) (streamThread s) m.ctx (byteAt m.data 16 8) (2 * byteAt m.data 24 2) s)) ∧
    (∀ list, cmdUnknown m = false → openInRange m.data = true → poolGot s (readKey 2 0) = some list →
      let r := openStream m list (dropRead (readKey 2 0) u)
      (r.1 ≠ stOK → Does .wsOpen s (svcComplete m (natBytes 2 r.1 ++ natBytes 6 r.2.1) r.2.2)) ∧ (list.status ≠ stOK → r.1 = list.status) ∧
      (r.1 = stOK → (u.stream r.2.1).used = false ∧ r.2.1 < 128 ∧ Answers .wsOpen s (fun t => (∀ i, i ≠ r.2.1 → t.stream i = u.stream i) ∧
        (let x := t.stream r.2.1
         x.used = true ∧ x.ctx = m.ctx ∧ x.depth = byteAt m.data 2 1 ∧ x.entries = byteAt m.data 4 4 ∧ x.consumers.length = byteAt m.data 24 2 ∧ x.out = [] ∧ x.ent = 0 ∧ x.seq = 0 ∧
           (∀ i < x.consumers.length, x.consumers[i]? = some (byteAt list.data (2 * i) 2) ∧ edgesOf u (x.consumers.getD i 0) ≠ [])))))) ∧
  (∀ m u s, takeMail 2 2 s = some (m, u) →
    let k := byteAt m.data 2 2
    (∀ i, (u.stream k).consumers.findIdx? (· == m.src) = some i → (u.stream k).ctx = m.ctx → Answers .wsAdvance s (fun t =>
      mget 0 i (t.stream k).acked = max (mget 0 i (u.stream k).acked) (byteAt m.data 4 4 + 1) ∧ (∀ j, j ≠ i → mget 0 j (t.stream k).acked = mget 0 j (u.stream k).acked) ∧
      { t.stream k with acked := [] } = { u.stream k with acked := [] } ∧ (∀ j, j ≠ k → t.stream j = u.stream j))) ∧
    (m.src ∉ (u.stream k).consumers → Answers .wsAdvance s (fun t => t.svc.advDropped = u.svc.advDropped + 1 ∧ t.svc.streams = u.svc.streams))) ∧
  (∀ m u s, takeMail 2 3 s = some (m, u) →
    let k := byteAt m.data 2 2
    ((u.stream k).used = true → (u.stream k).ctx = m.ctx → ∀ t, endStream k (some m) u = some t → Does .wsClose s (settleSlots t)) ∧
    ((u.stream k).used = true → (u.stream k).ctx = m.ctx → endStream k (some m) u = none → Does .wsClose s s) ∧
    ((u.stream k).used = false ∨ (u.stream k).ctx ≠ m.ctx → Does .wsClose s (svcStatus m stViolation u))) ∧
  (∀ k c s t, endStream k c s = some t → (t.stream k).used = false ∧ (∀ j, j ≠ k → t.stream j = s.stream j)) ∧
  (∀ k x s, (ctxState s x.ctx ≠ 1 → streamStatus s k x = stContextGone) ∧ (ctxState s x.ctx = 1 → x.mismatch = true → streamStatus s k x = stViolation) ∧
    (∀ st, ctxState s x.ctx = 1 → x.mismatch = false → x.stop = some st → streamStatus s k x = st) ∧
    (ctxState s x.ctx = 1 → x.mismatch = false → x.stop = none → (streamDone s k x = false ∨ x.failed ≠ 0 ∨ x.lost ≠ [] ∨ x.decodeFail ≠ []) → streamStatus s k x = stIncomplete) ∧
    (ctxState s x.ctx = 1 → x.mismatch = false → x.stop = none → streamDone s k x = true → x.failed = 0 → x.lost = [] → x.decodeFail = [] → streamStatus s k x = stOK)) ∧
  (∀ k s, isStream k = true →
    let v := s.modStream k (noteLost s)
    let x := noteLost s (s.stream k)
    let go := x.used = true ∧ x.ent < x.entries ∧ x.out.length < 511 ∧ x.mismatch = false ∧ x.stop = none
    (¬go → Does (.streamFetchIssue k) s v) ∧
    (go → mfind? x.ent x.ents = none → poolGot v (orderKey k) = none → Does (.streamFetchIssue k) s (askEntry k v)) ∧
    (∀ a, go → mfind? x.ent x.ents = none → poolGot v (orderKey k) = some a →
      let e := orderEnt (a.data.drop (32 * (x.ent % 2)))
      Answers (.streamFetchIssue k) s (fun t => (a.status ≠ stOK → (t.stream k).stop = some stIncomplete) ∧ (a.status = stOK → entOk v e = false → (t.stream k).stop = some stViolation) ∧
        (a.status = stOK → entOk v e = true → mfind? x.ent (t.stream k).ents = some e ∧ (t.stream k).stop = none) ∧ (∀ j, j ≠ k → t.stream j = s.stream j) ∧ Touches [.svc] s t)) ∧
    (∀ e, go → mfind? x.ent x.ents = some e → ((∃ f ∈ x.out, f.node ≠ exNode (extent s e.ext)) ∨ overBound v x e = true) → Does (.streamFetchIssue k) s v) ∧
    (∀ e, go → mfind? x.ent x.ents = some e → (∀ f ∈ x.out, f.node = exNode (extent s e.ext)) → overBound v x e = false → x.line < e.lines →
      let cur := mget ({} : StreamBlk) (blkKey x.ent x.bidx) x.blks
      let begins := x.line = 0 ∨ cur.len ≤ cur.lines
      Answers (.streamFetchIssue k) s (fun t => ∃ f, (t.stream k).out = x.out ++ [f] ∧ f.node = exNode (extent s e.ext) ∧
        f.laddr = 1024 * exBase (extent s e.ext) + e.first + x.line ∧ 1 ≤ f.lines ∧ f.lines ≤ 4 ∧ (begins → x.line + f.lines ≤ e.lines) ∧ f.ent = x.ent ∧ f.line = x.line ∧ f.at_ = now s ∧
        tagSeq f.tag = x.seq % 512 ∧ (t.stream k).seq = (x.seq + 1) % 512 ∧ (tagBstart f.tag = true ↔ begins) ∧ (x.line = 0 → f.bidx = 0) ∧
        (¬begins → f.bidx = x.bidx ∧ f.lines = min 4 (cur.len - cur.lines)) ∧ (begins → (e.comp = false ∨ x.decode = false) → f.lines = min 4 (e.lines - x.line)) ∧
        (t.stream k).ent = (if e.lines ≤ x.line + f.lines then x.ent + 1 else x.ent) ∧ (t.stream k).line = (if e.lines ≤ x.line + f.lines then 0 else x.line + f.lines) ∧
        (∀ j, j ≠ k → t.stream j = s.stream j)))) ∧
  (∀ s, s.mf.streamIn = [] → Does .streamResponse s s) ∧
  (∀ p ep head rest s, s.mf.streamIn = (p, ep, head) :: rest →
    let u : Machine.State := { s with mf := { s.mf with streamIn := rest } }
    (streamOf s (pDst p) = none → Does .streamResponse s (leaveIn p ep head { u with mf := { u.mf with strayTags := u.mf.strayTags + 1 } })) ∧
    (∀ k, streamOf s (pDst p) = some k →
      let v := closeOpen p u
      let x := noteLost v (s.stream k)
      ((∀ f ∈ x.out, f.tag ≠ pTag p) → Does .streamResponse s (let t := v.modStream k (noteLost v); leaveIn p ep head { t with mf := { t.mf with strayTags := t.mf.strayTags + 1 } })) ∧
      (∀ f, x.out.find? (fun f => f.tag == pTag p) = some f →
        Answers .streamResponse s (fun t => (∀ g ∈ (t.stream k).out, g.tag ≠ pTag p) ∧ (∀ j, j ≠ k → t.stream j = s.stream j) ∧
          (pStatus p = stOK → (∀ g ∈ x.out, g.tag ≠ pTag p → g ∈ (t.stream k).out) ∧ (t.stream k).redo = x.redo ∧ (t.stream k).failed = x.failed) ∧
          (pStatus p ≠ stOK → (mget {} (blkKey f.ent f.bidx) x.blks).tries < 2 → (t.stream k).redo = x.redo ++ [blkKey f.ent f.bidx]))))) ∧
  (∀ p slot blk data x i,
    let y := legTake p slot blk data x i
    let had := mget [] i x.legData
    let want := mget 0 i x.legSeq = tagSeq (pTag p)
    mget 0 i y.legSeq = (tagSeq (pTag p) + 1) % 512 ∧ (∀ j, j ≠ i → mget [] j y.legData = mget [] j x.legData ∧ mget 0 j y.legSeq = mget 0 j x.legSeq) ∧
    (pStatus p = stOK → tagBstart (pTag p) = true → i ∉ y.legSkip ∧ ∃ b, mget [] i y.legData = had.filter legWhole ++ [b] ∧ b.ent = blk.1 ∧ b.bidx = blk.2.1 ∧ b.data = data ∧ b.slot = slot ∧
      b.size = 64 * (mget ({} : StreamBlk) (blkKey blk.1 blk.2.1) x.blks).len) ∧
    (∀ q b, pStatus p = stOK → tagBstart (pTag p) = false → want → i ∉ x.legSkip → had = q ++ [b] → ∃ c, mget [] i y.legData = q ++ [c] ∧ c.ent = b.ent ∧ c.bidx = b.bidx ∧ c.data = b.data ++ data) ∧
    (i ∉ x.legSkip → (pStatus p ≠ stOK ∨ (tagBstart (pTag p) = false ∧ ¬want)) → mget [] i y.legData = had.filter legWhole ∧ i ∈ y.legSkip) ∧
    (i ∈ x.legSkip → (pStatus p ≠ stOK ∨ tagBstart (pTag p) = false) → mget [] i y.legData = had ∧ i ∈ y.legSkip)) ∧
  (∀ key x, let b := mget ({} : StreamBlk) key x.blks
    let y := blockFailed key x
    (∀ f ∈ y.out, blkKey f.ent f.bidx ≠ key) ∧ (∀ e ∈ y.legData, ∀ c ∈ e.2, legWhole c = true ∨ blkKey c.ent c.bidx ≠ key) ∧
    (b.tries < 2 → y.redo = x.redo ++ [key] ∧ (mget ({} : StreamBlk) key y.blks).tries = b.tries + 1 ∧ y.failed = x.failed) ∧
    (2 ≤ b.tries → y.redo = x.redo ∧ y.failed = x.failed + 1 ∧ (x.firstFailed = none → y.firstFailed = some (key / 2 ^ 20)))) ∧
  (∀ k s, isStream k = true →
    let x := s.stream k
    let late := x.out.find? (fun f => passed s f.at_ (resLimit s (k / 64)))
    let u := match late with
      | some f => s.modStream k (blockFailed (blkKey f.ent f.bidx))
      | none => s
    let y := u.stream k
    (y.redo = [] → Does (.streamBlockRefetch k) s u) ∧
    (∀ key rest, y.redo = key :: rest →
      let b := mget ({} : StreamBlk) key y.blks
      let go := y.used = true ∧ b.len ≤ b.lines ∧ (∀ f ∈ y.out, f.node = b.node) ∧ y.out.length + ceilDiv b.len 4 ≤ 511
      (¬go → Does (.streamBlockRefetch k) s u) ∧
      (go → Answers (.streamBlockRefetch k) s (fun t => (t.stream k).redo = rest ∧ (t.stream k).out.length = y.out.length + ceilDiv b.len 4 ∧
        (∀ i < ceilDiv b.len 4, ∃ f, (t.stream k).out[y.out.length + i]? = some f ∧ f.node = b.node ∧ f.laddr = b.laddr + 4 * i ∧ f.lines = min 4 (b.len - 4 * i) ∧
          tagBstart f.tag = (i == 0) ∧ tagSeq f.tag = (y.seq + i) % 512) ∧
        (∀ j, j ≠ k → t.stream j = s.stream j))))) ∧
  (∀ k leg s, isStream k = true → leg < 1024 →
    let v := s.modStream k (noteLost s)
    let x := noteLost s (s.stream k)
    ((mget [] leg x.legData = [] ∨ edgesOf v (x.consumers.getD leg 0) = []) → Does (.wsdataDecode k leg) s v) ∧
    (∀ b rest ep more, mget [] leg x.legData = b :: rest → edgesOf v (x.consumers.getD leg 0) = ep :: more →
      let coded := x.decode && (mget {} b.ent x.ents).comp
      let r := if coded then decodeBlock (if b.slot = 0 then none else some (lensOf v (b.slot - 1))) b.data else (stOK, b.data)
      let w := v.modStream k (fun y => { y with legData := mset [] leg rest y.legData })
      ((x.used = false ∨ legWhole b = false) → Does (.wsdataDecode k leg) s v) ∧
      (x.used = true → legWhole b = true → r.1 = stOK → Does (.wsdataDecode k leg) s (settleSlots (pipeOut ep k (wsdataOf w k x leg b r.2) w))) ∧
      (x.used = true → legWhole b = true → r.1 ≠ stOK → Answers (.wsdataDecode k leg) s (fun t => mget [] leg (t.stream k).legData = rest ∧
        leg ∈ (t.stream k).decodeFail ∧ (t.stream k).redo = x.redo ∧ t.sw = s.sw)))) ∧
  (∀ ep k l s, (((pipeOut ep k l s).queue (qkey ep 3)).pkts.map (·.pkt) =
    ((s.queue (qkey ep 3)).pkts.takeWhile (·.piped)).map (·.pkt) ++ l ++ ((s.queue (qkey ep 3)).pkts.dropWhile (·.piped)).map (·.pkt)) ∧ Touches [.sw] s (pipeOut ep k l s)) ∧
  (∀ k d s, let x := s.stream k
    let e := extent s d.ext
    let h := (Config.sha384 d.bytes).toNat
    let t := closeDigest k d s
    (∀ m, manifestOf s x.ctx d.ext = none → freeManifest s x.ctx = some m → mfind? m t.svc.manifest =
      some { digest := h, ext := d.ext, node := exNode e, base := exBase e, size := exSize e, st := 1, recAt := now s } ∧ (t.stream k).mismatch = x.mismatch) ∧
    (∀ m, manifestOf s x.ctx d.ext = some m → (mget {} m s.svc.manifest).digest = h → (mget {} m t.svc.manifest).verAt = now s ∧ (t.stream k).mismatch = x.mismatch) ∧
    (∀ m, manifestOf s x.ctx d.ext = some m → (mget {} m s.svc.manifest).digest ≠ h → (mget {} m t.svc.manifest).st = 2 ∧ (t.stream k).mismatch = true)) ∧
  (∀ k s, isStream k = true →
    let x := s.stream k
    let ended := x.used = true ∧ (streamDone s k x = true ∨ ctxState s x.ctx ≠ 1 ∨ x.mismatch = true ∨ x.stop.isSome = true)
    (¬ended → Does (.streamEnd k) s s) ∧ (ended → endStream k none s = none → Does (.streamEnd k) s s) ∧
    (∀ t, ended → endStream k none s = some t → Does (.streamEnd k) s (settleSlots t)))

/-- The expert service (R339-R343, R352; log 47). -/
def Obligations.ExpertsDispatchAndCombine : Prop :=
  (∀ m u s, takeMail 3 1 s = some (m, u) → m.ctx < 1024 →
    let d := m.data
    let key := readKey 3 0
    (∀ st, planRefusal u m = some st → Does .expertPlan s (svcStatus m st u)) ∧
    (planRefusal u m = none → poolGot s key = none → Does .expertPlan s (askPool key (expertThread s) m.ctx (byteAt d 8 8) (32 * byteAt d 16 2) s)) ∧
    (∀ holders, planRefusal u m = none → poolGot s key = some holders → slotsHeld s = true → Does .expertPlan s (holdSlot s)) ∧
    (∀ holders, planRefusal u m = none → poolGot s key = some holders → slotsHeld s = false →
      let r := makeExpert m holders (dropRead key u)
      (r.1 ≠ stOK → Does .expertPlan s (svcComplete m (natBytes 2 r.1 ++ natBytes 2 r.2.1) r.2.2)) ∧ (holders.status ≠ stOK → r.1 = holders.status) ∧
      (r.1 = stOK → (u.expert r.2.1).used = false ∧ (∀ i < r.2.1, (u.expert i).used = true) ∧ Answers .expertPlan s (fun t => (∀ i, i ≠ r.2.1 → t.expert i = u.expert i) ∧
        (let x := t.expert r.2.1
         x.used = true ∧ x.ctx = m.ctx ∧ x.h = byteAt d 4 2 ∧ x.ops.length = byteAt d 6 2 ∧ x.holders = (List.range (byteAt d 16 2)).map (holderOf holders.data) ∧
           x.dispatched = false ∧ x.placed = [] ∧ x.batch = none ∧ (∀ o ∈ x.ops, (t.slot o.1).st = .live ∧ (t.slot o.1).ctx = m.ctx)))))) ∧
  (∀ m s, (ctxState s m.ctx ≠ 1 → planRefusal s m = some stContextGone) ∧
    (ctxState s m.ctx = 1 → (cmdUnknown m = true ∨ expertInRange m.data = false) → planRefusal s m = some stViolation)) ∧
  (∀ m u s, takeMail 3 4 s = some (m, u) →
    let k := byteAt m.data 2 2
    (∀ st, expertRefusal u m k = some st → Does .expertFree s (svcStatus m st u)) ∧
    (expertRefusal u m k = none → Answers .expertFree s (fun t => (t.expert k).used = false ∧ (∀ i, i ≠ k → t.expert i = u.expert i) ∧
      (∀ o ∈ (u.expert k).ops, (t.slot o.1).st = .live → (t.slot o.1).gen ≠ o.2)))) ∧
  (∀ m k s, (ctxState s m.ctx ≠ 1 → expertRefusal s m k = some stContextGone) ∧
    (ctxState s m.ctx = 1 → ((s.expert k).used = false ∨ (s.expert k).ctx ≠ m.ctx) → expertRefusal s m k = some stViolation) ∧
    (ctxState s m.ctx = 1 → (s.expert k).used = true → (s.expert k).ctx = m.ctx → expertBusy s k = true → expertRefusal s m k = some stBusy)) ∧
  (∀ s, let v := stepBatches false stepDispatch s
    (takeMail 3 2 v = none → Does .expertDispatch s v) ∧
    (∀ m u, takeMail 3 2 v = some (m, u) →
      let k := byteAt m.data 2 2
      let key := readKey 3 (1 + k)
      let n := byteAt m.data 16 4
      let layer := byteAt m.data 4 4
      let x := u.expert k
      let per := ceilDiv n x.ops.length
      let good := expertRefusal u m k = none ∧ 1 ≤ n ∧ n ≤ 65536 ∧ layer < 65536
      (∀ st, expertRefusal u m k = some st → Does .expertDispatch s (svcStatus m st u)) ∧
      (expertRefusal u m k = none → (n = 0 ∨ 65536 < n ∨ 65536 ≤ layer) → Does .expertDispatch s (svcStatus m stViolation u)) ∧
      (good → poolGot v key = none → Does .expertDispatch s (askPool key (expertThread v) m.ctx (byteAt m.data 8 8) (64 * n) v)) ∧
      (∀ recs, good → poolGot v key = some recs → recs.status ≠ stOK → Does .expertDispatch s (svcStatus m recs.status (dropRead key u))) ∧
      (∀ recs, good → poolGot v key = some recs → recs.status = stOK → Answers .expertDispatch s (fun t =>
        let y := t.expert k
        y.batch = some { req := m } ∧ y.dispatched = false ∧ y.t = n ∧ y.stat = byteAt m.data 32 8 ∧ y.recs = recs.data ∧ y.ops = x.ops ∧ y.holders = x.holders ∧
        (∀ i, i ≠ k → t.expert i = u.expert i) ∧
        (∀ q g slot, mfind? q y.placed = some (g, slot) → q / 8 < n ∧ ∃ h, x.holders[g]? = some h ∧
          (let share := h.cap / x.ops.length
           (q / 8) / per * share ≤ slot ∧ slot < ((q / 8) / per + 1) * share) ∧
          (∃ v, findResult u x.ctx x.table (x.ctx + 2 ^ 10 * layer + 2 ^ 26 * byteAt recs.data (64 * (q / 8) + 8 + 2 * (q % 8)) 2) = some v ∧ g = v % 4096) ∧
          (∀ p, p ≠ q → mfind? p y.placed ≠ some (g, slot))) ∧
        (∀ i < n, inRange 1 8 (byteAt recs.data (64 * i + 4) 1) = true → (∃ j < byteAt recs.data (64 * i + 4) 1,
          findResult u x.ctx x.table (x.ctx + 2 ^ 10 * layer + 2 ^ 26 * byteAt recs.data (64 * i + 8 + 2 * j) 2) = none) → mget 0 i y.tok = stViolation))))) ∧
  (∀ base user n arg c tc node off data s, let t := patchOwn base user n arg c tc node off data s
    t.mf.own.length + t.svc.backlog.length = s.mf.own.length + s.svc.backlog.length + ceilDiv (off % 64 + data.length) 64) ∧
  (∀ s, let v := stepBatches true stepCombine s
    (takeMail 3 3 v = none → Does .expertCombine s v) ∧
    (∀ m u, takeMail 3 3 v = some (m, u) →
      let k := byteAt m.data 2 2
      (∀ st, expertRefusal u m k = some st → Does .expertCombine s (svcStatus m st u)) ∧
      (expertRefusal u m k = none → (u.expert k).dispatched = false → Does .expertCombine s (svcStatus m stViolation u)) ∧
      (expertRefusal u m k = none → (u.expert k).dispatched = true → Answers .expertCombine s (fun t =>
        t.expert k = { u.expert k with batch := some { req := m, combine := true } } ∧ (∀ i, i ≠ k → t.expert i = u.expert i))))) ∧
  (∀ c f s, ((∀ e ∈ s.svc.experts, ∀ b, (s.expert e.1).batch = some b → b.combine ≠ c) → stepBatches c f s = s) ∧
    (∀ k b, mkeys s.svc.experts = [k] → (s.expert k).batch = some b → b.combine = c →
      (ctxState s (s.expert k).ctx = 1 → stepBatches c f s = f k b s) ∧
      (ctxState s (s.expert k).ctx ≠ 1 → ((stepBatches c f s).expert k).batch = none))) ∧
  (∀ k b s, let x := s.expert k
    let st := (List.range x.t).map (tokenStatus s k x)
    let t := endBatch k b s
    (t.expert k).batch = none ∧ (t.expert k).dispatched = (x.dispatched || !b.combine) ∧ (t.expert k).placed = x.placed ∧ (∀ i, i ≠ k → t.expert i = s.expert i) ∧
      (b.combine = true → t = svcComplete b.req (batchRecord st) (writeStatuses k { x with batch := none } st ((dropPieces k s).setExpert k { x with batch := none })))) ∧
  (∀ x t js data, (combineBytes x t js data).length = 128 / (fmtBits x.fmt / 8) * (fmtBits x.fmt / 8) ∧
    (∀ i < 128 / (fmtBits x.fmt / 8), let w := fmtBits x.fmt / 8
      byteAt (combineBytes x t js data) (w * i) w =
        roundNum x.fmt false none (weighted x.fmt ((js.zip data).map (fun e => (byteAt x.recs (64 * t + 24 + 4 * e.1) 4, byteAt e.2 (w * i) w)))) % 2 ^ (8 * w))) ∧
  (∀ s k x t, let f := jobStatus s (fetchJob k) (pieceNo t 0 0) (pieceNo (t + 1) 0 0)
    (mget 0 t x.tok ≠ 0 → tokenStatus s k x t = mget 0 t x.tok) ∧ (mget 0 t x.tok = 0 → f ≠ stOK → tokenStatus s k x t = f) ∧
    (mget 0 t x.tok = 0 → f = stOK → tokenStatus s k x t = jobStatus s (storeJob k) (pieceNo t 0 0) (pieceNo (t + 1) 0 0))) ∧
  (∀ st, byteAt (batchRecord st) 4 4 = (st.filter (· == stOK)).length % 2 ^ 32 ∧ byteAt (batchRecord st) 0 4 = if (∀ x ∈ st, x = stOK) then stOK else stIncomplete)

/-- The KV-page service (R344-R347, R352; log 47). -/
def Obligations.KvBlocksTakeAndKeepPages : Prop :=
  (∀ m s, (ctxState s m.ctx ≠ 1 → kvRefusal s m = some stContextGone) ∧ (ctxState s m.ctx = 1 → (cmdUnknown m = true ∨ 2 ^ 20 ≤ byteAt m.data 8 4) → kvRefusal s m = some stViolation) ∧
    (ctxState s m.ctx = 1 → cmdUnknown m = false → byteAt m.data 8 4 < 2 ^ 20 → kvRefusal s m = none)) ∧
  (∀ m u s, takeMail 4 1 s = some (m, u) →
    let e := (kvFind u m).filter (fun k => kwState (kvWord u k) != 0)
    (∀ st, kvRefusal u m = some st → Does .kvAlloc s (kvSay m st false false 0 u)) ∧
    (∀ k, kvRefusal u m = none → e = some k → kwState (kvWord u k) = 1 → (kvPins m = false ∨ kwPins (kvWord u k) ≠ 1023) → Answers .kvAlloc s (fun t =>
      kwState (kvWord t k) = 1 ∧ kwPage (kvWord t k) = kwPage (kvWord u k) ∧ kwPins (kvWord t k) = kwPins (kvWord u k) + b2n (kvPins m) ∧
      (∀ j, j ≠ k → kvWord t j = kvWord u j) ∧ t.svc.kvRow = u.svc.kvRow ∧ t.per = s.per ∧ t.tier = s.tier ∧ t.tab = s.tab)) ∧
    (∀ k, kvRefusal u m = none → e = some k → (kwState (kvWord u k) ≠ 1 ∨ (kvPins m = true ∧ kwPins (kvWord u k) = 1023)) →
      Does .kvAlloc s (kvSay m stBusy true true (kvWord u k) u)) ∧
    (∀ p, kvRefusal u m = none → e = none → (kvFreePages u m.ctx).find? (fun p => pgState (page u p) == 1) = some p → p < 2 ^ 32 → u.boot.node < 2 ^ 14 → (kvMakeRow m u).isSome = true →
      Answers .kvAlloc s (fun t => ∃ k, k % 64 = byteAt m.data 8 4 % 64 ∧ kwState (kvWord t k) = 1 ∧ kwPage (kvWord t k) = p ∧ fld (kvWord t k) 16 14 = u.boot.node ∧
        kwPins (kvWord t k) = b2n (kvPins m) ∧ kwDrop (kvWord t k) = bit (byteAt m.data 1 1) 0 ∧ kwRef (kvWord t k) = false ∧ (∀ j, j ≠ k → kvWord t j = kvWord u j) ∧
        (∀ r, kvRowOf u m.ctx (kvSeq m) (kvBlock m) = some r → k / 64 = r ∧ t.per = s.per) ∧
        (kvRowOf u m.ctx (kvSeq m) (kvBlock m) = none → mfind? (k / 64) u.svc.kvRow = none ∧ mfind? (k / 64) t.svc.kvRow = some (m.ctx, kvSeq m, kvBlock m / 64)) ∧ t.tier = s.tier)) ∧
    (kvRefusal u m = none → e = none → kvAllocate m u = none → Does .kvAlloc s (kvSay m stBusy false false 0 u)) ∧
    (∀ v, kvRefusal u m = none → e = none → kvAllocate m u = some (true, v) → Answers .kvAlloc s (fun t => t.svc.mail = s.svc.mail ∧ t.svc.oldMail = s.svc.oldMail ∧ t.tier = v.tier)) ∧
    (∀ v, kvRefusal u m = none → e = none → kvAllocate m u = some (false, v) → Does .kvAlloc s v)) ∧
  (∀ c s, let r := kvVictim c s
    (∀ k, r.1 = some k → k ∈ kvWordsOf s c ∧ kwState (kvWord s k) = 1 ∧ kwPins (kvWord s k) = 0 ∧ fld (kvWord s k) 2 2 = 0 ∧ kwRef (kvWord r.2 k) = false ∧ mget 0 c r.2.svc.kvHand = k + 1) ∧
    (r.1 = none → ∀ k ∈ kvWordsOf s c, kwState (kvWord s k) ≠ 1 ∨ kwPins (kvWord s k) ≠ 0 ∨ fld (kvWord s k) 2 2 ≠ 0) ∧
    (∀ k, kvWord r.2 k = kvWord s k ∨ kvWord r.2 k = setFld (kvWord s k) 4 1 0)) ∧
  (∀ m k s, let v := kvWord s k
    (kwState v ≠ 1 → kvReturn m (some k) s = kvSay m stOK false false 0 s) ∧
    (kwState v = 1 → kvPins m = true → kwPins v = 1023 → kvReturn m (some k) s = kvSay m stBusy true false v s) ∧
    (kwState v = 1 → (kvPins m = false ∨ kwPins v ≠ 1023) → let t := kvReturn m (some k) s
      kwRef (kvWord t k) = true ∧ kwPins (kvWord t k) = kwPins v + b2n (kvPins m) ∧ kwState (kvWord t k) = 1 ∧ kwPage (kvWord t k) = kwPage v ∧ (∀ j, j ≠ k → kvWord t j = kvWord s j))) ∧
  (∀ m u s, takeMail 4 2 s = some (m, u) →
    (∀ st, kvRefusal u m = some st → Does .kvLookup s (kvSay m st false false 0 u)) ∧
    (kvRefusal u m = none → kvFind u m = none → Does .kvLookup s (kvSay m stOK false false 0 u)) ∧
    (∀ k, kvRefusal u m = none → kvFind u m = some k → kwState (kvWord u k) ≠ 3 → Does .kvLookup s (kvReturn m (some k) u)) ∧
    (∀ k, kvRefusal u m = none → kvFind u m = some k → kwState (kvWord u k) = 3 → Answers .kvLookup s (fun t => t.svc.kvWait = u.svc.kvWait ++ [(m, k, now u)] ∧ Touches [.svc] s t))) ∧
  (∀ s, (∀ m k at_ rest, popFirst (kvWaitOver s) s.svc.kvWait = some ((m, k, at_), rest) → let t : State := { s with svc := { s.svc with kvWait := rest } }
      (kwState (kvWord s k) ≠ 3 ∨ ctxState s m.ctx ≠ 1 ∨ at_ + 50000 ≤ now s) ∧
      (ctxState s m.ctx ≠ 1 → Does .kvLookupWaitEnd s (kvSay m stContextGone false false 0 t)) ∧
      (ctxState s m.ctx = 1 → kwState (kvWord s k) = 3 → Does .kvLookupWaitEnd s (kvSay m stBusy false false 0 t)) ∧
      (ctxState s m.ctx = 1 → kwState (kvWord s k) ≠ 3 → Does .kvLookupWaitEnd s (kvReturn m (some k) t))) ∧
    ((∀ x ∈ s.svc.kvWait, kwState (kvWord s x.2.1) = 3 ∧ ctxState s x.1.ctx = 1 ∧ now s < x.2.2 + 50000) → Does .kvLookupWaitEnd s s)) ∧
  (∀ m u s, takeMail 4 3 s = some (m, u) →
    (∀ st, kvRefusal u m = some st → Does .kvUnpin s (kvSay m st false false 0 u)) ∧
    (kvRefusal u m = none → (∀ k, kvFind u m = some k → kwPins (kvWord u k) = 0) → Does .kvUnpin s (kvSay m stViolation false false 0 u)) ∧
    (∀ k, kvRefusal u m = none → kvFind u m = some k → kwPins (kvWord u k) ≠ 0 → Answers .kvUnpin s (fun t =>
      (kwState (kvWord u k) = 2 → kwPins (kvWord u k) = 1 → kvWord t k = 0) ∧
      ((kwState (kvWord u k) ≠ 2 ∨ kwPins (kvWord u k) ≠ 1) → kwState (kvWord u k) ≠ 0 → kwPins (kvWord t k) = kwPins (kvWord u k) - 1 ∧ kwState (kvWord t k) = kwState (kvWord u k) ∧ kwPage (kvWord t k) = kwPage (kvWord u k)) ∧
      (∀ j, j ≠ k → kvWord t j = kvWord u j) ∧ t.tier = s.tier ∧ t.tab = s.tab))) ∧
  (∀ m u s, takeMail 4 4 s = some (m, u) →
    (ctxState u m.ctx ≠ 1 → Does .kvFreeseq s (kvSay m stContextGone false false 0 u)) ∧
    (ctxState u m.ctx = 1 → let rows := (u.svc.kvRow.filter (fun e => e.2.1 == m.ctx && e.2.2.1 == kvSeq m)).map (·.1)
      Answers .kvFreeseq s (fun t => (∀ k, k / 64 ∈ rows → (kwPins (kvWord u k) = 0 → kwState (kvWord t k) = 0) ∧
          (kwState (kvWord u k) ≠ 0 → kwPins (kvWord u k) ≠ 0 → kwState (kvWord t k) = 2 ∧ kwPins (kvWord t k) = kwPins (kvWord u k) ∧ kwPage (kvWord t k) = kwPage (kvWord u k))) ∧
        (∀ k, k / 64 ∉ rows → kvWord t k = kvWord u k) ∧ t.tier = s.tier ∧ t.tab = s.tab)))

/-- The filter and top-k service (R348, R352; log 47). -/
def Obligations.FilterKeepsTheBest : Prop :=
  (∀ s, let v := stepFilters s
    (takeMail 5 1 v = none → Does .filterRun s v) ∧
    (∀ m u, takeMail 5 1 v = some (m, u) →
      (∀ st, filterRefusal u m = some st → Does .filterRun s (svcStatus m st u)) ∧
      (filterRefusal u m = none → slotsHeld v = true → Does .filterRun s (holdSlot v)) ∧
      (filterRefusal u m = none → slotsHeld v = false → serviceProg u 5 = none → Does .filterRun s (svcStatus m stBusy u)) ∧
      (∀ prog ver k, filterRefusal u m = none → slotsHeld v = false → serviceProg u 5 = some (prog, ver) →
          leastBelow 4096 (fun k => !mhas k u.svc.filters && !ownOpen u 12 (recordJob k)) = some k →
        let made := createTargets (filterThread u) m.ctx prog ver 1 1 (byteAt m.data 26 2 + 1) u
        (made = none → Does .filterRun s (svcStatus m stBusy u)) ∧
        (∀ ops w, made = some (ops, w) → Answers .filterRun s (fun t => mfind? k t.svc.filters = some { req := m, ops := ops } ∧ ops.length = byteAt m.data 26 2 + 1 ∧
          (∀ i, i ≠ k → mfind? i t.svc.filters = mfind? i u.svc.filters) ∧ (m.ctx < 1024 → ∀ o ∈ ops, (t.slot o.1).st = .live ∧ (t.slot o.1).ctx = m.ctx) ∧
          t.mf.own.length + t.svc.backlog.length = w.mf.own.length + w.svc.backlog.length + byteAt m.data 4 4 * recordPieces m.data))))) ∧
  (∀ m s, let t := byteAt m.data 2 2
    (ctxState s m.ctx ≠ 1 → filterRefusal s m = some stContextGone) ∧
    (ctxState s m.ctx = 1 → (cmdUnknown m = true ∨ filterInRange s m.data = false ∨ (t ≠ 0xFFFF ∧ (maySearch s m.ctx t = false ∨ stEn (searchTable s t) = false))) →
      filterRefusal s m = some stViolation) ∧
    (ctxState s m.ctx = 1 → cmdUnknown m = false → filterInRange s m.data = true → (t = 0xFFFF ∨ (maySearch s m.ctx t = true ∧ stEn (searchTable s t) = true)) →
      filterRefusal s m = if 4 ≤ filterRuns s m.ctx then some stBusy else none)) ∧
  (∀ k x s, s.svc.filters = [(k, x)] →
    (ctxState s x.req.ctx ≠ 1 → mfind? k (stepFilters s).svc.filters = none) ∧
    (ctxState s x.req.ctx = 1 → ownOpen s 12 (recordJob k) = true → stepFilters s = s) ∧
    (ctxState s x.req.ctx = 1 → ownOpen s 12 (recordJob k) = false → stepFilters s = finishFilter k x s)) ∧
  (∀ k x s,
    let m := x.req
    let got := recordsGot s k m.data
    let hits := recordHits s k m
    let best := bestRecords s k m
    ∃ v, finishFilter k x s = svcComplete m (natBytes 4 (if got.length = byteAt m.data 4 4 then stOK else stIncomplete) ++ natBytes 4 got.length ++ natBytes 4 hits.length ++
        natBytes 4 (min (byteAt m.data 24 2) hits.length)) v ∧
      best.length = min (byteAt m.data 24 2) hits.length ∧ (∀ b ∈ best, b ∈ hits) ∧ mfind? k v.svc.filters = none ∧ v.tab = s.tab ∧
      v.mf.own.length + v.svc.backlog.length = s.mf.own.length + s.svc.backlog.length + ceilDiv (filterOutput m best).length 64) ∧
  (∀ k m s i b, (i, b) ∈ recordHits s k m → i < byteAt m.data 4 4 ∧ recordOf s k m.data i = some b ∧ filterHit s m.ctx (byteAt m.data 2 2) (byteAt m.data 18 2) b = true) ∧
  (∀ l : List (Nat × Machine.Num), (l.map (·.1)).Pairwise (· < ·) →
    let r := l.foldl (fun a x => rankIn x a) []
    r.Perm l ∧ r.Pairwise (fun a b => scoreAbove a.2 b.2 = true ∨ (scoreAbove b.2 a.2 = false ∧ a.1 < b.1))) ∧
  (∀ a b c : Machine.Num, (scoreAbove a b = true → scoreAbove b a = false) ∧ (scoreAbove a b = true → scoreAbove b c = true → scoreAbove a c = true) ∧
    (a ≠ .nan → scoreAbove a .nan = true) ∧ scoreAbove .nan a = false)

/-- Submission and completion rings (R326, R424-R431; log 54). -/
def Obligations.RingsFetchAndComplete : Prop :=
  (∀ port func sq tail l tb s, isHostPort port = true → isFunc func = true → isRing sq = true →
    let x := s.sq port func sq
    let t := s.modSq port func sq (fun x => { x with tail := tail, repoll := 0, repollAt := 0 })
    ((funcUp s port func = false ∨ heard s port func tb = false) → Does (.sqDoorbell port func sq tail l tb) s s) ∧
    (funcUp s port func = true → heard s port func tb = true → (boundTo s port func = none ∨ (x.en = true ∧ 2 ^ x.log2 ≤ tail)) → Answers (.sqDoorbell port func sq tail l tb) s (fun t =>
      t.sq port func sq = { x with err := true } ∧ Touches [.hst] s t)) ∧
    (funcUp s port func = true → boundTo s port func ≠ none → x.en = false → Does (.sqDoorbell port func sq tail l tb) s s) ∧
    (funcUp s port func = true → heard s port func tb = true → boundTo s port func ≠ none → x.en = true → tail < 2 ^ x.log2 →
      Does (.sqDoorbell port func sq tail l tb) s (fetchEntries port func sq l t) ∧ (t.sq port func sq).tail = tail)) ∧
  (∀ port func sq d s, isHostPort port = true → isFunc func = true → isRing sq = true →
    let x := s.sq port func sq
    let n := nextEntry x
    let t := fetchEntry port func sq d s
    ((x.repoll = 0 ∨ (x.repoll ≤ 16 ∧ passed s x.repollAt 2000 = true)) → Does (.sqPhaseRepoll port func sq d) s t) ∧
    (x.repoll ≠ 0 → (16 < x.repoll ∨ passed s x.repollAt 2000 = false) → Does (.sqPhaseRepoll port func sq d) s s) ∧
    (x.head < 2 ^ x.log2 → x.fetched = [] → n = (x.head, x.phase)) ∧
    (n.1 ≠ x.tail → ringFetches s port func sq = true → t.out = s.out ++ [.hostRead port func (tBit s port func) (x.base + 64 * n.1) 64] ∧
      (descPhase d = n.2 → t.sq port func sq = { x with fetched := x.fetched ++ [(n.1, padTo 64 d)], repoll := 0, repollAt := 0 }) ∧
      (descPhase d ≠ n.2 → t.sq port func sq = { x with repoll := x.repoll + 1, repollAt := now s })) ∧
    ((n.1 = x.tail ∨ ringFetches s port func sq = false) → t = s)) ∧
  (∀ port func sq i d rest s, isHostPort port = true → isFunc func = true → isRing sq = true → (s.sq port func sq).fetched = (i, d) :: rest →
    let x := s.sq port func sq
    let u := consumeDesc port func sq s
    let v := dropAccepted port func sq s
    ((u.sq port func sq).fetched = rest ∧ (u.sq port func sq).head = (x.head + 1) % 2 ^ x.log2 ∧ (u.sq port func sq).phase = if x.head + 1 = 2 ^ x.log2 then !x.phase else x.phase) ∧
    (ringFetches s port func sq = false → Does (.nop port func sq) s s ∧ Does (.fence port func sq) s v) ∧
    (ringFetches s port func sq = true → descType d = 0 → descReserved d = false → Does (.nop port func sq) s (descDone port func sq i stOK d u)) ∧
    (ringFetches s port func sq = true → (2 < descType d ∨ (descType d = 0 ∧ descReserved d = true)) → Does (.nop port func sq) s (descRefused port func sq i d u)) ∧
    (ringFetches v port func sq = true → descType d = 2 → descReserved d = false → (∀ r ∈ (v.sq port func sq).out, r.nocmp = true) →
      Does (.fence port func sq) s (descDone port func sq i stOK d (consumeDesc port func sq v))) ∧
    (ringFetches v port func sq = true → descType d = 2 → (∃ r ∈ (v.sq port func sq).out, r.nocmp = false) → Does (.fence port func sq) s v) ∧
    (∀ p, ringFetches v port func sq = true → descType d = 1 → svcRefused v port func d = true →
      Does (.svc port func sq p) s (descRefused port func sq i d (consumeDesc port func sq v))) ∧
    (∀ p seq, ringFetches v port func sq = true → descType d = 1 → svcRefused v port func d = false → freeSeq v port func sq = some seq → bit (byteAt d 0 1) 4 = false →
      Does (.svc port func sq p) s (sendSvcreq port func sq i seq d ((d.drop 32).take (byteAt d 4 2)) (consumeDesc port func sq v))) ∧
    (∀ (p : HostAns) seq, ringFetches v port func sq = true → descType d = 1 → svcRefused v port func d = false → freeSeq v port func sq = some seq → bit (byteAt d 0 1) 4 = true →
      let w := fromHost port func (byteAt d 8 8) (byteAt d 4 2) (consumeDesc port func sq v)
      (p.fin = .ok → Does (.svc port func sq p) s (sendSvcreq port func sq i seq d (padTo (byteAt d 4 2) p.data) w)) ∧
      (p.fin ≠ .ok → Does (.svc port func sq p) s (descDone port func sq i (hostEndStatus p.fin) d w))) ∧
    (∀ p, ringFetches v port func sq = true → descType d = 1 → svcRefused v port func d = false → freeSeq v port func sq = none → Does (.svc port func sq p) s v)) ∧
  (∀ port func sq i seq d payload s, let t := sendSvcreq port func sq i seq d payload s
    ∃ r, (t.sq port func sq).out = (s.sq port func sq).out ++ [r] ∧ r.seq = seq ∧ r.index = i ∧ r.cookie = byteAt d 24 8 ∧ r.resaddr = byteAt d 16 8 ∧ r.head = (s.sq port func sq).head ∧ r.at_ = now s ∧
      (t.sq port func sq).seq = (seq + 1) % 128) ∧
  (∀ port func sq i d s, ∃ u, descRefused port func sq i d s = descDone port func sq i stViolation d u ∧ (u.sq port func sq).err = true) ∧
  (∀ port func sq seq s, isHostPort port = true → isFunc func = true → isRing sq = true →
    let x := s.sq port func sq
    (sqReq s port func sq seq = none → Does (.sqAbandon port func sq seq) s s) ∧
    (∀ r, sqReq s port func sq seq = some r → (x.abandon = 0 ∨ now s < r.at_ + 1000000 * x.abandon ∨ (r.nocmp = false ∧ cqTakes s port func x.cq = false)) → Does (.sqAbandon port func sq seq) s s) ∧
    (∀ r, sqReq s port func sq seq = some r → x.abandon ≠ 0 → r.at_ + 1000000 * x.abandon ≤ now s → (r.nocmp = true ∨ cqTakes s port func x.cq = true) →
      ∃ u, ((u.sq port func sq).out = x.out.filter (fun r => r.seq != seq) ∧ (seq, now s + pathBound s) ∈ (u.sq port func sq).heldSeq ∧ Touches [.hst] s u) ∧
        Does (.sqAbandon port func sq seq) s (if r.nocmp then u else
          pushEntry port func x.cq { payload := natBytes 8 stTimeout, cookie := r.cookie, index := r.index, sq := sq, head := r.head } u))) ∧
  (∀ p ep u s, takeMod (fun x => pOp x.1 == opSVCCMP && !cmpWaits s x.1) s = some ((p, ep), u) →
    let stray : State := { u with mf := { u.mf with strayTags := u.mf.strayTags + 1 } }
    let h := (pTag p - 524288) / 32768 * 32 + (pTag p - 524288) % 32768 / 512
    (mhas (pTag p) u.mf.own = true → Does .svccmp s (takeResponse p id u)) ∧
    (∀ port func sq seq r, mhas (pTag p) u.mf.own = false → port < 2 → func < 128 → sq < 8 → seq < 128 → pTag p = 786432 + 131072 * port + 1024 * func + 128 * sq + seq → sqReq u port func sq seq = some r →
      let x := u.sq port func sq
      Does .svccmp s (pushEntry port func x.cq { payload := p.payload, cookie := r.cookie, index := r.index, sq := sq, resaddr := r.resaddr, head := r.head } (dropReq port func sq seq u))) ∧
    (∀ port func sq seq, mhas (pTag p) u.mf.own = false → port < 2 → func < 128 → sq < 8 → seq < 128 → pTag p = 786432 + 131072 * port + 1024 * func + 128 * sq + seq → sqReq u port func sq seq = none → Does .svccmp s stray) ∧
    (mhas (pTag p) u.mf.own = false → 524288 ≤ pTag p → pTag p < 786432 → pTag p ∈ (u.thread h).tags → (u.thread h).running = true → Answers .svccmp s (fun t => pTag p ∉ (t.thread h).tags ∧
      ∃ a, (t.thread h).events = (u.thread h).events ++ [⟨1, padTo 64 (mailEvent (mailOf u p) true a)⟩])) ∧
    (mhas (pTag p) u.mf.own = false → (pTag p < 524288 ∨ (pTag p < 786432 ∧ pTag p ∉ (u.thread h).tags ∧ mfind? (pTag p) u.mf.tagHold = none)) → Does .svccmp s stray)) ∧
  (∀ s, takeMod (fun x => pOp x.1 == opSVCCMP && !cmpWaits s x.1) s = none → Does .svccmp s s) ∧
  (∀ port func q e s, let c := s.cq port func q
    let t := pushEntry port func q e s
    (c.en = false → (t.sq port func e.sq).err = true ∧ ∀ i < 8, feedsCq s port func q i = true → (t.sq port func i).err = true) ∧
    (c.en = true → (cqFull c = true ∨ c.held ≠ [] ∨ (s.hport port).linkUp = false) → t.cq port func q = { c with held := c.held ++ [e] } ∧ t.out = s.out) ∧
    (c.en = true → cqFull c = false → c.held = [] → (s.hport port).linkUp = true →
      (t.cq port func q).tail = (c.tail + 1) % 2 ^ c.log2 ∧ (t.cq port func q).phase = (if c.tail + 1 = 2 ^ c.log2 then !c.phase else c.phase) ∧ (t.cq port func q).held = [] ∧
      ∃ more,
        t.out = s.out ++ (if e.resaddr = 0 then [] else [.hostWrite port func (tBit s port func) e.resaddr (padTo 64 e.payload)]) ++
          [.hostWrite port func (tBit s port func) (c.base + 64 * c.tail) ((cqBytes e c.phase).take 60), .hostWrite port func (tBit s port func) (c.base + 64 * c.tail + 60) ((cqBytes e c.phase).drop 60)] ++ more)) ∧
  (∀ port func cq head tb s, isHostPort port = true → isFunc func = true → isRing cq = true →
    let c := s.cq port func cq
    let up := funcUp s port func = true ∧ heard s port func tb = true ∧ c.en = true ∧ head < 2 ^ c.log2
    (¬up → Does (.cqDoorbell port func cq head tb) s s) ∧
    (up → c.held = [] → Answers (.cqDoorbell port func cq head tb) s (fun t => t.cq port func cq = { c with head := head } ∧ Touches [.hst] s t)) ∧
    (∀ e rest, up → c.held = e :: rest → cqFull { c with head := head } = false → (s.hport port).linkUp = true → Answers (.cqDoorbell port func cq head tb) s (fun t =>
      (t.cq port func cq).head = head ∧ (t.cq port func cq).held.length < c.held.length))) ∧
  (∀ port func cq s, isHostPort port = true → isFunc func = true → isRing cq = true →
    let c := s.cq port func cq
    let due := c.unsig ≠ 0 ∧ c.coalUs ≠ 0 ∧ passed s c.unsigAt (1000 * c.coalUs) = true
    (¬due → Does (.cqCoalesceTimeout port func cq) s s) ∧
    (due → Does (.cqCoalesceTimeout port func cq) s (sendVec port func c.vector (s.modCq port func cq (fun c => { c with unsig := 0 }))))) ∧
  (∀ vec s, let v := mget msixReset vec (s.func (funcKey 0 0)).msix
    (bit v 96 = false → (s.func (funcKey 0 0)).d3 = false → (s.hport 0).linkUp = true → sendVec 0 0 vec s = put (.msix 0 0 vec) s) ∧
    (bit v 96 = true → vec ∈ ((sendVec 0 0 vec s).func (funcKey 0 0)).pba)) ∧
  (∀ port func q size w tb s, isHostPort port = true → isFunc func = true → q < 8 → funcUp s port func = true → heard s port func tb = true →
    let x := s.sq port func q
    let c := s.cq port func q
    (x.en = false → size = 8 → Answers (.ringConfigWrite port func (0x1000 + 32 * q) size w tb) s (fun t => t.sq port func q = { x with base := w.toNat / 4096 * 4096 } ∧ Touches [.hst] s t)) ∧
    (x.en = true → Does (.ringConfigWrite port func (0x1000 + 32 * q) size w tb) s s) ∧
    (size = 8 → Answers (.ringConfigWrite port func (0x1008 + 32 * q) size w tb) s (fun t => let v := w.toNat
      (x.en = false → bit v 0 = true → inRange 4 16 (fld v 1 5) = true → let y := t.sq port func q
        y.en = true ∧ y.log2 = fld v 1 5 ∧ y.cq = fld v 6 3 ∧ y.abandon = fld v 9 16 ∧ y.head = 0 ∧ y.tail = 0 ∧ y.phase = true ∧ y.fetched = [] ∧ y.base = x.base) ∧
      (x.en = false → bit v 0 = true → inRange 4 16 (fld v 1 5) = false → (t.sq port func q).en = false ∧ (t.sq port func q).err = true) ∧
      (x.en = true → bit v 0 = true → t.sq port func q = x) ∧ (x.en = true → bit v 0 = false → t.sq port func q = { x with en := false, fetched := [], repoll := 0 }) ∧ Touches [.hst] s t)) ∧
    (size = 8 → c.en = false → Answers (.ringConfigWrite port func (0x1108 + 32 * q) size w tb) s (fun t => let v := w.toNat
      (bit v 0 = true → inRange 4 16 (fld v 1 5) = true → fld v 6 11 < vectorCount func → let y := t.cq port func q
        y.en = true ∧ y.log2 = fld v 1 5 ∧ y.vector = fld v 6 11 ∧ y.coalCnt = fld v 17 8 ∧ y.coalUs = fld v 25 10 ∧ y.tail = 0 ∧ y.head = 0 ∧ y.phase = true ∧ y.base = c.base) ∧
      (bit v 0 = true → vectorCount func ≤ fld v 6 11 → (t.cq port func q).en = false ∧ (t.cq port func q).err = true) ∧ Touches [.hst] s t)))

/-- Ownership, windows, FIFOs and registers (R416-R423, R432-R438, R450, R451; log 54). -/
def Obligations.OwnersWindowsAndFifos : Prop :=
  (∀ port s, isHostPort port = true →
    let up := s.boot.pwrgd = true ∧ (s.hport port).linkUp = true
    let mine := s.hst.owner = port + 1
    (¬up → Does (.mownRequest port) s s ∧ Does (.mownRenew port) s s ∧ Does (.mownRelease port) s s) ∧
    (up → s.hst.owner = 0 → Answers (.mownRequest port) s (fun t => t.hst.owner = port + 1 ∧ t.hst.waiting = false ∧ t.hst.ownEnd = now s + 1000000 * s.hst.ownLease ∧
      8 ∈ t.hst.modstat ∧ 24 ∈ t.hst.modstat ∧ (t.recDie 6).nextSeq = ((s.recDie 6).nextSeq + 1) % 65536 ∧ Touches [.hst, .evr, .out] s t)) ∧
    (up → mine → Does (.mownRequest port) s s) ∧
    (up → s.hst.owner ≠ 0 → ¬mine → Does (.mownRequest port) s { s with hst := { s.hst with waiting := true } }) ∧
    (up → mine → Does (.mownRenew port) s { s with hst := { s.hst with ownEnd := now s + 1000000 * s.hst.ownLease } }) ∧
    (up → ¬mine → Answers (.mownRenew port) s (fun t => t.hst.refused = satAdd 16 s.hst.refused 1 ∧ { t.hst with refused := 0 } = { s.hst with refused := 0 }) ∧
      Answers (.mownRelease port) s (fun t => t.hst.refused = satAdd 16 s.hst.refused 1 ∧ { t.hst with refused := 0 } = { s.hst with refused := 0 })) ∧
    (up → mine → Answers (.mownRelease port) s (fun t => t.hst.owner = (if s.hst.waiting then 2 - port else 0) ∧ t.hst.waiting = false ∧ Touches [.hst, .evr, .out] s t))) ∧
  (∀ s, (s.hst.owner = 0 ∨ now s < s.hst.ownEnd → Does .ownLeaseLapse s s) ∧
    (s.hst.owner ≠ 0 → s.hst.ownEnd ≤ now s → Answers .ownLeaseLapse s (fun t => t.hst.owner = (if s.hst.waiting then 3 - s.hst.owner else 0) ∧ t.hst.waiting = false))) ∧
  (∀ port func win off size tb s, isHostPort port = true → isFunc func = true → isWin win = true →
    let x := s.window port func win
    let up := heard s port func tb = true ∧ boundTo s port func ≠ none ∧ win < windowCount func
    let fits := ((size = 4 ∨ size = 8) ∧ off % size = 0 ∧ off < 64) ∨ (off = 0 ∧ size = 64)
    (up → fits → x.ready = true → off < 8 → Answers (.resultWindowRead port func win off size tb) s (fun t =>
      t.window port func win = { x with rcount := satAdd 16 x.rcount 1 } ∧
      t.out = s.out ++ [.hostReply port func (((windowBytes { x with rcount := satAdd 16 x.rcount 1 }).drop off).take size)] ∧ Touches [.hst, .out] s t)) ∧
    (up → fits → (x.ready = false ∨ 8 ≤ off) → Answers (.resultWindowRead port func win off size tb) s (fun t =>
      t.window port func win = x ∧ t.out = s.out ++ [.hostReply port func (((windowBytes x).drop off).take size)])) ∧
    (heard s port func tb = false → Does (.resultWindowRead port func win off size tb) s (put (.hostReply port func []) s)) ∧
    (heard s port func tb = true → ¬(up ∧ fits) → Does (.resultWindowRead port func win off size tb) s (put (.hostReply port func (List.replicate size 0)) s)) ∧
    (∀ w : Word, up → x.ready = true → fld w.toNat 16 16 = x.seq → Answers (.resultWindowConsume port func win w tb) s (fun t => t.window port func win = { seq := x.seq } ∧ Touches [.hst] s t)) ∧
    (∀ w : Word, (¬up ∨ x.ready = false ∨ fld w.toNat 16 16 ≠ x.seq) → Does (.resultWindowConsume port func win w tb) s s)) ∧
  (∀ port func win data s, (s.window port func win).ready = false → ∃ t, postWindow port func win data s = some t ∧ (t.window port func win).ready = true ∧
    (t.window port func win).seq = ((s.window port func win).seq + 1) % 65536 ∧ (t.window port func win).data = data) ∧
  (∀ port fifo half (w : Word) s, isHostPort port = true → isFifo fifo = true → half < 2 →
    let x := s.fifo fifo
    let v := setFld (setFld x.cfg (64 * half) 64 w.toNat % 2 ^ 75) 60 4 0
    let mine := funcUp s port 0 = true ∧ s.hst.owner = port + 1
    (mine → ffEn x = false → (half = 1 ∨ bit v 0 = false) → Answers (.fifoConfigWrite port fifo half w) s (fun t => t.fifo fifo = { x with cfg := v } ∧ Touches [.hst] s t)) ∧
    (mine → ffEn x = false → half = 0 → bit v 0 = true → fifoConfOk v = true → Answers (.fifoConfigWrite port fifo half w) s (fun t => t.fifo fifo = { cfg := v })) ∧
    (mine → ffEn x = true → half = 0 → bit v 0 = false → Answers (.fifoConfigWrite port fifo half w) s (fun t => t.fifo fifo = { cfg := v })) ∧
    (mine → ((ffEn x = true ∧ (half = 1 ∨ bit v 0 = true)) ∨ (ffEn x = false ∧ half = 0 ∧ bit v 0 = true ∧ fifoConfOk v = false)) →
      Does (.fifoConfigWrite port fifo half w) s { s with hst := { s.hst with cfgRefused := true } }) ∧
    (funcUp s port 0 = true → s.hst.owner ≠ port + 1 → Does (.fifoConfigWrite port fifo half w) s { s with hst := { s.hst with refused := satAdd 16 s.hst.refused 1 } })) ∧
  (∀ port func fifo seen tb s, isHostPort port = true → isFunc func = true → isFifo fifo = true → heard s port func tb = true → fifoUp s port func fifo = true → ffToHost (s.fifo fifo) = true →
    let x := s.fifo fifo
    (x.words = [] → Answers (.fifoPop port func fifo 8 seen tb) s (fun t => t.fifo fifo = { x with underrun := true } ∧ t.out = s.out ++ [.hostReply port func (natBytes 8 x.last.toNat)])) ∧
    (∀ w rest, x.words = w :: rest → seen = .clean → Answers (.fifoPop port func fifo 8 seen tb) s (fun t => (t.fifo fifo).words = rest ∧ (t.fifo fifo).last = w ∧
      (t.fifo fifo).above = (if x.above = false ∧ ffHigh x ≤ rest.length then true else if x.above = true ∧ rest.length ≤ ffLow x then false else x.above) ∧
      (∃ l, t.out = l ++ [.hostReply port func (natBytes 8 w.toNat)]) ∧ (∀ f, f ≠ fifo → t.fifo f = s.fifo f))) ∧
    (∀ w rest, x.words = w :: rest → seen = .corrected → Answers (.fifoPop port func fifo 8 seen tb) s (fun t => (t.fifo fifo).words = rest ∧ (t.fifo fifo).corr = satAdd 16 x.corr 1 ∧ t.hst.fifoCorr = satAdd 16 s.hst.fifoCorr 1)) ∧
    (∀ w rest, x.words = w :: rest → seen = .uncorrectable → Answers (.fifoPop port func fifo 8 seen tb) s (fun t => (t.fifo fifo).words = rest ∧ (t.fifo fifo).dataerr = true ∧ (t.fifo fifo).last = x.last ∧
      t.hst.fifoUnc = satAdd 16 s.hst.fifoUnc 1 ∧ (∃ l, t.out = l ++ [.hostReply port func (natBytes 8 0)])))) ∧
  (∀ port func fifo (w : Word) tb s, isHostPort port = true → isFunc func = true → isFifo fifo = true →
    let x := s.fifo fifo
    let mine := heard s port func tb = true ∧ fifoUp s port func fifo = true ∧ ffToHost x = false
    (mine → fifoFull s fifo = false → Answers (.fifoPush port func fifo 8 w tb) s (fun t => (t.fifo fifo).words = x.words ++ [w] ∧ (∀ f, f ≠ fifo → t.fifo f = s.fifo f) ∧
      (x.above = false → ffHigh x ≤ x.words.length + 1 → (t.fifo fifo).above = true))) ∧
    (mine → fifoFull s fifo = true → Answers (.fifoPush port func fifo 8 w tb) s (fun t => t.fifo fifo = { x with overflow := true } ∧ Touches [.hst] s t)) ∧
    (¬mine → Does (.fifoPush port func fifo 8 w tb) s s)) ∧
  (∀ port func fifo tb s, isHostPort port = true → isFunc func = true → isFifo fifo = true → heard s port func tb = true → fstatUp s port func fifo = true →
    Answers (.fstatRead port func fifo 0 8 tb) s (fun t => t.fifo fifo = { s.fifo fifo with corr := 0 } ∧ t.out = s.out ++ [.hostReply port func (natBytes 8 (fstat s fifo % 2 ^ 64))]) ∧
    Answers (.fstatRead port func fifo 4 4 tb) s (fun t => t.fifo fifo = { s.fifo fifo with corr := 0 } ∧ t.out = s.out ++ [.hostReply port func (natBytes 4 (fld (fstat s fifo) 32 32))]) ∧
    Answers (.fstatRead port func fifo 0 4 tb) s (fun t => t.fifo fifo = s.fifo fifo ∧ t.out = s.out ++ [.hostReply port func (natBytes 4 (fld (fstat s fifo) 0 32))])) ∧
  (∀ port func (w : Word) tb s, isHostPort port = true → isFunc func = true → (s.hport port).linkUp = true → heard s port func tb = true → heard s port 0 tb = true →
    (s.boot.pwrgd = true → (func = 0 ∨ funcUp s port func = true) → Answers (.registerWrite port func 0x10 8 w tb) s (fun t =>
      (∀ i < 16, 16 * port + i ∈ t.hst.modstat ↔ 16 * port + i ∈ s.hst.modstat ∧ bit w.toNat i = false) ∧ Touches [.hst] s t)) ∧
    (s.boot.pwrgd = true → funcUp s port 0 = true → Answers (.registerWrite port 0 0x18 8 w tb) s (fun t => mget 0 port t.hst.modIe = fld w.toNat 0 9) ∧
      (s.hst.owner = port + 1 → Answers (.registerWrite port 0 0x40 8 w tb) s (fun t => t.hst.fcosel = w.toNat) ∧ Answers (.registerWrite port 0 0x48 8 w tb) s (fun t => t.hst.fcoen = fld w.toNat 0 8)) ∧
      (s.hst.owner ≠ port + 1 → Answers (.registerWrite port 0 0x40 8 w tb) s (fun t => t.hst.fcosel = s.hst.fcosel ∧ t.hst.refused = satAdd 16 s.hst.refused 1)) ∧
      (bit w.toNat 49 = true → Answers (.registerWrite port 0 0x50 8 w tb) s (fun t => t.hst.cfgRefused = false)) ∧
      (bit w.toNat 0 = true → (s.hport port).vfEn = false → Answers (.registerWrite port 0 0x80000 8 w tb) s (fun t => (t.hport port).vfEn = true ∧ (t.hport port).numVfs = min 127 (fld w.toNat 16 16)))) ∧
    (∀ f < 256, s.boot.pwrgd = true → fstatUp s port func f = true → Answers (.registerWrite port func (0x20000 + 32 * f + 8) 8 w tb) s (fun t => let x := s.fifo f
      t.fifo f = { x with underrun := x.underrun && !bit w.toNat 19, overflow := x.overflow && !bit w.toNat 20, dataerr := x.dataerr && !bit w.toNat 21 })) ∧
    (∀ v, v < vectorCount func → s.boot.pwrgd = true → funcUp s port func = true → (s.func (funcKey port func)).pba = [] → Answers (.registerWrite port func (0x40000 + 16 * v) 8 w tb) s (fun t =>
      fld (mget msixReset v (t.func (funcKey port func)).msix) 0 64 = w.toNat ∧ (∀ u, u ≠ v → mget msixReset u (t.func (funcKey port func)).msix = mget msixReset u (s.func (funcKey port func)).msix))))

/-- The DMA engines (R258, R439-R445, R461; log 54). -/
def Obligations.DmaMovesBetweenHostAndModule : Prop :=
  (∀ row ∈ [(Instr.dmaRead, 1), (Instr.dmaWrite, 2), (Instr.fifoPut, 3), (Instr.fifoGet, 4), (Instr.result, 5)],
    ∀ k w s, AtWord s (.thread k) 0xE6 (fun _ => fOpc + fD + fA + fImm) w → wD w < 8 → wA w < 8 →
    let x := Site.thread k
    let d := readMem s x (memAddr s x w) 64
    let q : Dma := { thread := k, ticket := (s.thread k).ticket, ctx := (s.thread k).ctx, desc := d }
    (memOk s x (memAddr s x w) 64 8 = true → dmOp d = row.2 → Answers (row.1 (.post x)) s (fun t =>
      dmQueue t (dmPort d) (dmWrites d) = dmQueue s (dmPort d) (dmWrites d) ++ [q] ∧ dmQueue t (dmPort d) (!dmWrites d) = dmQueue s (dmPort d) (!dmWrites d) ∧
      sreg t x (wD w) = BitVec.ofNat 64 (65536 * (s.thread k).ticket) ∧ (t.thread k).ticket = ((s.thread k).ticket + 1) % 65536 ∧ Touches [.hst, .ctl] s t)) ∧
    (memOk s x (memAddr s x w) 64 8 = false → Does (row.1 (.post x)) s (siteFault x 2 (passTurn x s)))) ∧
  (∀ x s, let d := x.desc
    (funcCtx s (dmPort d) (dmFunc d) = none → dmRefused s x = some stViolation) ∧
    (∀ c, funcCtx s (dmPort d) (dmFunc d) = some c → (dmOk s x.thread d = false ∨ (x.ctx ≠ 0 ∧ x.ctx ≠ c)) → dmRefused s x = some stViolation) ∧
    (∀ c, funcCtx s (dmPort d) (dmFunc d) = some c → dmOk s x.thread d = true → (x.ctx = 0 ∨ x.ctx = c) → (ctxState s c ≠ 1 ∨ ctxState s x.ctx ≠ 1) → dmRefused s x = some stContextGone) ∧
    (∀ c, funcCtx s (dmPort d) (dmFunc d) = some c → dmOk s x.thread d = true → (x.ctx = 0 ∨ x.ctx = c) → ctxState s c = 1 → ctxState s x.ctx = 1 → (dmOp d = 1 ∨ dmOp d = 2) →
      (s.hport (dmPort d)).linkUp = false → dmRefused s x = some stPathLost)) ∧
  (∀ row ∈ [(Instr.dmaRead, 1), (Instr.dmaWrite, 2), (Instr.fifoPut, 3), (Instr.fifoGet, 4), (Instr.result, 5)],
    ∀ port ans pre x rest st s, isHostPort port = true → FirstOfEngine s port (row.2 == 2 || row.2 == 3 || row.2 == 5) pre x rest → dmOp x.desc = row.2 → x.moving = false → dmRefused s x = some st →
      Answers (row.1 (.move port ans)) s (fun t => dmQueue t port (row.2 == 2 || row.2 == 3 || row.2 == 5) = pre ++ { x with status := some st, moved := 0 } :: rest ∧ Touches [.hst] s t)) ∧
  (∀ port ans pre x rest s, isHostPort port = true → FirstOfEngine s port false pre x rest → dmOp x.desc = 1 →
    let d := x.desc
    let data := padTo (dmLen d) ans.data
    let a := 4194304 * (x.thread / 32) + dmMaddr d
    (x.moving = false → dmRefused s x = none → tdiSends s port (dmFunc d) = true → Answers (.dmaRead (.move port ans)) s (fun t =>
      dmQueue t port false = pre ++ { x with moving := true } :: rest ∧ t.out = s.out ++ (dmRequests d).map (fun r => .hostRead (dmPort d) (dmFunc d) (tBit s (dmPort d) (dmFunc d)) r.1 r.2) ∧
      Touches [.hst, .out] s t)) ∧
    (x.moving = true → dmKind d = 0 → ans.fin = .ok → Answers (.dmaRead (.move port ans)) s (fun t =>
      dmQueue t port false = pre ++ { x with status := some stOK, moved := dmLen d } :: rest ∧ (∀ i < dmLen d, memByte t.ctl.data (a + i) = data.getD i 0) ∧
      (∀ c, c < a ∨ a + dmLen d ≤ c → memByte t.ctl.data c = memByte s.ctl.data c) ∧ Touches [.hst, .ctl] s t)) ∧
    (x.moving = true → dmKind d = 2 → ans.fin = .ok → Answers (.dmaRead (.move port ans)) s (fun t =>
      dmQueue t port false = pre ++ { x with status := some stOK, moved := dmLen d } :: rest ∧ (∀ i < dmLen d, memByte t.mf.hbm (65536 * dmMaddr d + i) = data.getD i 0) ∧
      (∀ c, c < 65536 * dmMaddr d ∨ 65536 * dmMaddr d + dmLen d ≤ c → memByte t.mf.hbm c = memByte s.mf.hbm c) ∧ Touches [.hst, .mf] s t)) ∧
    (x.moving = true → dmKind d = 1 → ans.fin = .ok → dmLen d % 64 = 0 → Answers (.dmaRead (.move port ans)) s (fun t =>
      dmQueue t port false = pre ++ { x with status := some stOK, moved := dmLen d, asked := true } :: rest ∧
      t.mf.own.length + t.svc.backlog.length = s.mf.own.length + s.svc.backlog.length + ceilDiv (dmLen d) 256)) ∧
    (x.moving = true → dmKind d = 0 → ans.fin ≠ .ok → Answers (.dmaRead (.move port ans)) s (fun t =>
      dmQueue t port false = pre ++ { x with status := some (ansStatus ans.fin), moved := min (dmLen d) ans.data.length } :: rest))) ∧
  (∀ port ans pre x rest s, isHostPort port = true → FirstOfEngine s port true pre x rest → dmOp x.desc = 2 →
    let d := x.desc
    let src := memRead s.ctl.data (4194304 * (x.thread / 32) + dmMaddr d) (dmLen d)
    let sent := (dmRequests d).filterMap (fun r => if (dmSlice d src r).2.isEmpty then none else some (Out.hostWrite (dmPort d) (dmFunc d) (tBit s (dmPort d) (dmFunc d)) (dmSlice d src r).1 (dmSlice d src r).2))
    (x.moving = false → dmRefused s x = none → tdiSends s port (dmFunc d) = true → dmKind d = 0 → dmFlush d = false → Answers (.dmaWrite (.move port ans)) s (fun t =>
      dmQueue t port true = pre ++ { x with moving := true, status := some stOK, moved := dmLen d } :: rest ∧ t.out = s.out ++ sent ∧ Touches [.hst, .out] s t)) ∧
    (x.moving = false → dmRefused s x = none → tdiSends s port (dmFunc d) = true → dmKind d = 0 → dmFlush d = true → Answers (.dmaWrite (.move port ans)) s (fun t =>
      dmQueue t port true = pre ++ { x with moving := true, moved := dmLen d } :: rest ∧
      t.out = s.out ++ sent ++ [.hostRead (dmPort d) (dmFunc d) (tBit s (dmPort d) (dmFunc d)) ((dmHaddr d + dmLen d - 1) / 4 * 4) 0])) ∧
    (x.moving = true → Answers (.dmaWrite (.move port ans)) s (fun t => dmQueue t port true = pre ++ { x with status := some (ansStatus ans.fin) } :: rest ∧ Touches [.hst] s t)) ∧
    (x.moving = false → dmRefused s x = none → tdiSends s port (dmFunc d) = true → dmKind d = 1 → x.asked = false → Answers (.dmaWrite (.move port ans)) s (fun t =>
      dmQueue t port true = pre ++ { x with asked := true } :: rest ∧ t.mf.own.length + t.svc.backlog.length = s.mf.own.length + s.svc.backlog.length + ceilDiv (dmLen d) 256)) ∧
    (x.moving = false → dmRefused s x = none → tdiSends s port (dmFunc d) = false → Does (.dmaWrite (.move port ans)) s s)) ∧
  (∀ d, dmHaddr d % dmWidth d = 0 → dmLen d % dmWidth d = 0 → dmWidth d ≤ 16 →
    ((dmRequests d).map (·.2)).sum = dmLen d ∧ ∀ r ∈ dmRequests d, 0 < r.2 ∧ r.2 ≤ maxRequest (!dmWrites d) (dmPort d) ∧ dmHaddr d ≤ r.1 ∧ r.1 + r.2 ≤ dmHaddr d + dmLen d ∧
      r.1 / 4096 = (r.1 + r.2 - 1) / 4096) ∧
  (∀ port ans pre x rest s, isHostPort port = true → x.moving = false → dmRefused s x = none →
    let d := x.desc
    let f := dmUnit d
    let n := dmLen d / 8
    let a := 4194304 * (x.thread / 32) + dmMaddr d
    (FirstOfEngine s port true pre x rest → dmOp d = 3 → mapWf ({} : Fifo) s.hst.fifos = true → (s.fifo f).words.length + n ≤ ffMax (s.fifo f) → fifoWords s + n ≤ 65536 → Answers (.fifoPut (.move port ans)) s (fun t =>
      (t.fifo f).words = (s.fifo f).words ++ (List.range n).map (fun i => BitVec.ofNat 64 (bytesNat (memRead s.ctl.data (a + 8 * i) 8))) ∧
      dmQueue t port true = pre ++ { x with status := some stOK, moved := n } :: rest ∧ (∀ g, g ≠ f → t.fifo g = s.fifo g))) ∧
    (FirstOfEngine s port true pre x rest → dmOp d = 3 → n ≠ 0 → fifoFull s f = true → Answers (.fifoPut (.move port ans)) s (fun t =>
      t.fifo f = s.fifo f ∧ dmQueue t port true = pre ++ { x with status := some stBusy, moved := 0 } :: rest ∧ Touches [.hst] s t)) ∧
    (FirstOfEngine s port false pre x rest → dmOp d = 4 → let k := min n (s.fifo f).words.length
      Answers (.fifoGet (.move port ans)) s (fun t => (t.fifo f).words = (s.fifo f).words.drop k ∧
        (∀ i < k, ∀ j < 8, memByte t.ctl.data (a + 8 * i + j) = (natBytes 8 ((s.fifo f).words.getD i 0).toNat).getD j 0) ∧
        (∀ c, c < a ∨ a + 8 * k ≤ c → memByte t.ctl.data c = memByte s.ctl.data c) ∧
        dmQueue t port false = pre ++ { x with status := some stOK, moved := k } :: rest)) ∧
    (FirstOfEngine s port true pre x rest → dmOp d = 5 → (s.window (dmPort d) (dmFunc d) f).ready = false → Answers (.result (.move port ans)) s (fun t =>
      (t.window (dmPort d) (dmFunc d) f).ready = true ∧ (t.window (dmPort d) (dmFunc d) f).data = memRead s.ctl.data a (dmLen d) ∧
      (t.window (dmPort d) (dmFunc d) f).seq = ((s.window (dmPort d) (dmFunc d) f).seq + 1) % 65536 ∧
      dmQueue t port true = pre ++ { x with status := some stOK, moved := dmLen d } :: rest ∧ Touches [.hst] s t)) ∧
    (FirstOfEngine s port true pre x rest → dmOp d = 5 → (s.window (dmPort d) (dmFunc d) f).ready = true → Answers (.result (.move port ans)) s (fun t =>
      dmQueue t port true = pre ++ { x with status := some stBusy, moved := 0 } :: rest ∧ t.hst.funcs = s.hst.funcs))) ∧
  (∀ port write s, isHostPort port = true →
    let ended := fun (x : Dma) => x.status.isSome && !ownOpen s 8 (dmUnitOf x)
    ((∀ x ∈ dmQueue s port write, ended x = false) → Does (.dmaComplete port write) s s) ∧
    (∀ pre x rest, dmQueue s port write = pre ++ x :: rest → ended x = true → (∀ y ∈ pre, ended y = false ∧ y.thread ≠ x.thread) → Answers (.dmaComplete port write) s (fun t =>
      dmQueue t port write = pre ++ rest ∧ (x.orphan = true → t.ctl = s.ctl) ∧ (x.orphan = false → (s.thread x.thread).running = true → (t.thread x.thread).events = (s.thread x.thread).events ++ [⟨3, padTo 64 (dmDone x)⟩]) ∧
      Touches [.hst, .ctl] s t))) ∧
  (∀ x, byteAt (dmDone x) 0 2 = x.ticket % 65536 ∧ byteAt (dmDone x) 4 4 = (dmOutcome x).2 % 2 ^ 32)

/-- Administration by the owner (R322, R422, R472, R473, R489-R493, R531-R535, R549, R550, R563, R574; choices of forms: log 52, 53). -/
def Obligations.OwnersAdministerTheModule : Prop :=
  (∀ i x req svc root e k p kind s, isIface i = true → isSvc svc = true →
    ∀ c ∈ ([(.admitBundle i x req, .admitBundle i x req, 2), (.retireBundle i x svc, .retireBundle i x svc, 3), (.enrol i x root e k, .enrol i x root e k, 4),
        (.unenrol i x root e, .unenrol i x root e, 5), (.setPolicy i x p, .setPolicy i x p, 8), (.controlRestart i x kind, .controlRestart i x kind, 9),
        (.coreReset i x kind, .coreReset i x kind, 9)] : List (Instr × Message × Nat)),
      (ifaceUp s i = false → Does c.1 s (holdMessage i c.2.1 s)) ∧
      (ifaceUp s i = true → ownerSession s i x = false → Answers c.1 s (fun t => t.hst.refused = satAdd 16 s.hst.refused 1 ∧ Out.mgmt i (768 + c.2.2) true [] ∈ t.out ∧
        t.sec.bundles = s.sec.bundles ∧ t.sec.signers = s.sec.signers ∧ t.sec.roots = s.sec.roots ∧ t.sec.floors = s.sec.floors ∧ t.boot = s.boot ∧ t.ctl = s.ctl ∧ t.chv = s.chv))) ∧
  (∀ i x req s, isIface i = true → ifaceUp s i = true → ownerSession s i x = true →
    (req.svn < mget 0 (256 + req.svc) s.sec.floors ∨ req.svc = 0 ∨ 256 ≤ req.svc ∨ (req.svc < 64 ∧ req.signer ≠ 0) ∨ (64 ≤ req.svc ∧ (req.signer = 0 ∨ 16 ≤ req.signer)) →
      Answers (.admitBundle i x req) s (fun t => t.out = s.out ++ [.mgmt i 770 true (natBytes 8 stViolation)] ∧ Touches [.out] s t)) ∧
    (Answers (.admitBundle i x req) s (fun t =>
      if bundleSigned s req then
        match admittedDigest s req.svc (Config.sha384 req.body).toNat with
        | some k => (mget {} k t.sec.bundles).ctxs = req.ctxs.foldl (fun l c => insertSet c l) (mget {} k s.sec.bundles).ctxs
        | none =>
          if replaces s req && claimFits s req then
            mget {} (newBundle s) t.sec.bundles = bundleOf s req ∧ t.out = s.out ++ [.mgmt i 770 false (natBytes 8 stOK)] ∧ Touches [.sec, .out] s t
          else t.sec = s.sec ∧ t.out = s.out ++ [.mgmt i 770 true (natBytes 8 stViolation)]
      else t.sec = s.sec ∧ t.out = s.out ++ [.mgmt i 770 true (natBytes 8 stViolation)]))) ∧
  (∀ i x svc s, isIface i = true → isSvc svc = true → ifaceUp s i = true → ownerSession s i x = true →
    (bundlesOf s svc = [] → Answers (.retireBundle i x svc) s (fun t => t.out = s.out ++ [.mgmt i 771 true (natBytes 8 stViolation)] ∧ Touches [.out] s t)) ∧
    (∀ k, bundlesOf s svc = [k] → (mget {} k s.sec.bundles).svc = svc → Answers (.retireBundle i x svc) s (fun t => (mget {} k t.sec.bundles).retired = true ∧
      Out.mgmt i 771 false (natBytes 8 stOK) ∈ t.out ∧ (mfind? svc s.svc.bundle = some k → svcState t svc = 0 ∧ mfind? svc t.svc.bundle = none)))) ∧
  (∀ i x root e k s, isIface i = true → ifaceUp s i = true → ownerSession s i x = true →
    (root = false → 1 ≤ e → e ≤ 15 →
      Answers (.enrol i x root e k) s (fun t => mfind? e t.sec.signers = some k ∧ (∀ j, j ≠ e → mfind? j t.sec.signers = mfind? j s.sec.signers) ∧ Touches [.sec, .out] s t) ∧
      Answers (.unenrol i x root e) s (fun t => mfind? e t.sec.signers = none ∧ (∀ j, j ≠ e → mfind? j t.sec.signers = mfind? j s.sec.signers) ∧ t.sec.bundles = s.sec.bundles)) ∧
    (root = true → e < 16 →
      Answers (.enrol i x root e k) s (fun t => mfind? e t.sec.roots = some k ∧ t.sec.signers = s.sec.signers ∧ Touches [.sec, .out] s t) ∧
      Answers (.unenrol i x root e) s (fun t => mfind? e t.sec.roots = none ∧ t.sec.signers = s.sec.signers)) ∧
    ((root = false ∧ (e = 0 ∨ 16 ≤ e)) ∨ (root = true ∧ 16 ≤ e) →
      Answers (.enrol i x root e k) s (fun t => t.sec = s.sec ∧ t.out = s.out ++ [.mgmt i 772 true (natBytes 8 stViolation)]) ∧
      Answers (.unenrol i x root e) s (fun t => t.sec = s.sec ∧ t.out = s.out ++ [.mgmt i 773 true (natBytes 8 stViolation)]))) ∧
  (∀ i x s, isIface i = true → ifaceUp s i = true → ownerSession s i x = true →
    (∀ item svn, (item < 3 ∨ (256 ≤ item ∧ item < 512)) → mget 0 item s.sec.floors ≤ svn →
      Answers (.setPolicy i x (.svnFloor item svn)) s (fun t => mget 0 item t.sec.floors = svn ∧ (∀ j, j ≠ item → mget 0 j t.sec.floors = mget 0 j s.sec.floors) ∧ Touches [.sec, .out] s t)) ∧
    (∀ item svn, svn < mget 0 item s.sec.floors →
      Answers (.setPolicy i x (.svnFloor item svn)) s (fun t => t.sec.floors = s.sec.floors ∧ t.out = s.out ++ [.mgmt i 776 true (natBytes 8 stViolation)])) ∧
    (∀ ms, Answers (.setPolicy i x (.ownLease ms)) s (fun t => t.hst.ownLease = if 250 ≤ ms ∧ ms ≤ 10000 then ms else s.hst.ownLease)) ∧
    (∀ cap en v, Answers (.setPolicy i x (.power cap en v)) s (fun t => if 800 ≤ cap ∧ cap ≤ 1500 ∧ cap % 10 = 0 ∧ 600 ≤ v ∧ v ≤ 700 ∧ v % 10 = 0 then
        t.chv = { s.chv with cap := cap, dozeEn := en, dozeV := v } else t.chv = s.chv)) ∧
    Answers (.setPolicy i x .sleep) s (fun t => t.chv = { s.chv with sleepReq := true } ∧ Touches [.chv, .out] s t) ∧
    Answers (.setPolicy i x .run) s (fun t => t.chv = { s.chv with sleepReq := false } ∧ Touches [.chv, .out] s t) ∧
    (∀ b, Answers (.setPolicy i x (.profile b)) s (fun t => t.boot = if b.length = 1160 then { s.boot with profile := some b } else s.boot))) ∧
  (∀ i x s, isIface i = true → ifaceUp s i = true → ownerSession s i x = true → ∀ row ∈ ([.controlRestart i x, .coreReset i x] : List (Nat → Instr)),
    (s.boot.held = false → s.ctl.restartAt = none → Answers (row 1) s (fun t => t.ctl.restartAt = some (now s) ∧ (∀ h < 256, (t.thread h).running = false) ∧
      (∀ k, t.tile k = s.tile k) ∧ t.boot = s.boot)) ∧
    (s.boot.held = false → s.boot.depart = 0 → Answers (row 2) s (fun t => t.boot = { s.boot with full := false, depart := 2, departAt := now s } ∧ Touches [.boot, .out] s t)) ∧
    (∀ kind, kind ≠ 1 → kind ≠ 2 → Answers (row kind) s (fun t => t.out = s.out ++ [.mgmt i 777 true []] ∧ Touches [.out] s t))) ∧
  (∀ s, (s.ctl.restartAt = none → Does .controlRestartDone s s) ∧
    (s.boot.held = true → Does .controlRestartDone s s) ∧
    (∀ t0, s.ctl.restartAt = some t0 → s.boot.held = false → Answers .controlRestartDone s (fun t => t.ctl.restartAt = none ∧ t.chv.lscanAt = now s ∧ (∀ c < 8, mget 0 c t.chv.beats = now s)))) ∧
  (∀ i x req s, isIface i = true → ifaceUp s i = true →
    let may := ownerSession s i x = true ∨ (i = 2 ∧ s.sec.recovery = true)
    let k := 2 * req.image + (1 - mget 0 req.image s.sec.inUse)
    (¬may → Answers (.fwWrite i x req) s (fun t => t.sec.images = s.sec.images ∧ t.sec.inUse = s.sec.inUse ∧ t.hst.refused = satAdd 16 s.hst.refused 1)) ∧
    (may → 3 ≤ req.image → Answers (.fwWrite i x req) s (fun t => t.sec = s.sec ∧ t.out = s.out ++ [.mgmt i 774 true (natBytes 8 stViolation)])) ∧
    (may → req.image < 3 → Answers (.fwWrite i x req) s (fun t => (t.image k).present = true ∧ (t.image k).ver = req.ver ∧ (t.image k).svn = req.svn ∧
      (∀ j, j ≠ k → t.image j = s.image j) ∧ t.sec.inUse = s.sec.inUse ∧ Touches [.sec, .out] s t ∧
      t.out = s.out ++ [if (t.image k).ecdsaOk && (t.image k).hssOk then .mgmt i 774 false (natBytes 8 stOK) else .mgmt i 774 true (natBytes 8 stViolation)]))) ∧
  (∀ i x img s, isIface i = true → isImage img = true → ifaceUp s i = true →
    let may := ownerSession s i x = true ∨ (i = 2 ∧ s.sec.recovery = true)
    let slot := 1 - mget 0 img s.sec.inUse
    (¬may → Answers (.fwActivate i x img) s (fun t => t.sec.images = s.sec.images ∧ t.sec.inUse = s.sec.inUse ∧ t.hst.refused = satAdd 16 s.hst.refused 1)) ∧
    (may → imagePasses s img slot = false → Answers (.fwActivate i x img) s (fun t => t.out = s.out ++ [.mgmt i 775 true (natBytes 8 stViolation)] ∧ Touches [.out] s t)) ∧
    (may → imagePasses s img slot = true → s.sec.recovery = true → Answers (.fwActivate i x img) s (fun t => t.sec.recovery = false ∧ t.boot = { s.boot with step := 1, stepAt := now s } ∧ mget 0 img t.sec.inUse = slot)) ∧
    (may → imagePasses s img slot = true → s.sec.recovery = false → switching s img = true → Answers (.fwActivate i x img) s (fun t => t.out = s.out ++ [.mgmt i 775 true (natBytes 8 stBusy)] ∧ Touches [.out] s t)) ∧
    (may → imagePasses s img slot = true → s.sec.recovery = false → switching s img = false → Answers (.fwActivate i x img) s (fun t => mget 0 img t.sec.inUse = slot ∧ activatedAt t img = some (now s) ∧
      (∀ j, j ≠ img → mget 0 j t.sec.inUse = mget 0 j s.sec.inUse) ∧ (img = 0 → t.sec.handover = some (now s) ∧ t.sec.spdm = []) ∧ (img = 1 → t.chv.restarting = some (now s)) ∧
      (img = 2 → s.boot.held = false → t.ctl.restartAt = some (now s))))) ∧
  (∀ img s, isImage img = true →
    (activatedAt s img = none → Does (.fwHealthTimeout img) s s ∧ Does (.fwPrefer img) s s) ∧
    (∀ t0, activatedAt s img = some t0 → passed s t0 10000000000 = false → Does (.fwHealthTimeout img) s s) ∧
    (∀ t0, activatedAt s img = some t0 → passed s t0 10000000000 = true → Answers (.fwHealthTimeout img) s (fun t => mget 0 img t.sec.inUse = 1 - mget 0 img s.sec.inUse ∧ activatedAt t img = none ∧ 7 ∈ t.hst.modstat)) ∧
    (∀ t0, activatedAt s img = some t0 → passed s t0 60000000000 = false → Does (.fwPrefer img) s s) ∧
    (∀ t0, activatedAt s img = some t0 → passed s t0 60000000000 = true → Answers (.fwPrefer img) s (fun t => mget 0 img t.sec.preferred = mget 0 img s.sec.inUse ∧ t.sec.inUse = s.sec.inUse ∧ activatedAt t img = none)))

/-- SPDM (R493-R495, Tables 18-9 and 18-10; message codes and forms are the model's: log 52). -/
def Obligations.SpdmAnswersInOrder : Prop :=
  (∀ i slot off len index sess op seq (offered verify last : Bool) nonce chunk s, isIface i = true → ifaceUp s i = false →
    ∀ c ∈ ([(.getVersion i, .getVersion i), (.getCapabilities i, .getCapabilities i), (.negotiateAlgorithms i offered, .negotiateAlgorithms i offered), (.getDigests i, .getDigests i),
      (.getCertificate i slot off len, .getCertificate i slot off len), (.challenge i slot nonce, .challenge i slot nonce), (.getMeasurements i index, .getMeasurements i index),
      (.keyExchange i slot, .keyExchange i slot), (.finish i sess verify, .finish i sess verify), (.heartbeat i sess, .heartbeat i sess), (.keyUpdate i sess op, .keyUpdate i sess op),
      (.endSession i sess, .endSession i sess), (.respondIfReady i, .respondIfReady i), (.chunkSend i seq last chunk, .chunkSend i seq last chunk), (.chunkGet i seq, .chunkGet i seq)] : List (Instr × Message)),
      Does c.1 s (holdMessage i c.2 s)) ∧
  (∀ i slot off len index sess op seq (offered verify last : Bool) nonce chunk s, isIface i = true → ifaceUp s i = true →
    let x := s.spdm i
    ∀ c ∈ ([(.getCapabilities i, 0xE1, 1 ≤ x.conn), (.negotiateAlgorithms i offered, 0xE3, 2 ≤ x.conn ∧ offered = true), (.getDigests i, 0x81, 3 ≤ x.conn),
        (.getCertificate i slot off len, 0x82, 3 ≤ x.conn ∧ slot = 0 ∧ off < (chainBytes s).length), (.challenge i slot nonce, 0x83, 3 ≤ x.conn ∧ slot = 0),
        (.getMeasurements i index, 0xE0, 3 ≤ x.conn ∧ (index ≤ 6 ∨ index = 255)), (.keyExchange i slot, 0xE4, 3 ≤ x.conn ∧ slot = 0 ∧ x.sessions.length < sessionMax i),
        (.finish i sess verify, 0xE5, (sess, false) ∈ x.sessions ∧ sessionMine s i sess = true), (.heartbeat i sess, 0xE8, sessionUp s i sess = true), (.keyUpdate i sess op, 0xE9, sessionUp s i sess = true ∧ 1 ≤ op ∧ op ≤ 3),
        (.endSession i sess, 0xEC, sessionUp s i sess = true), (.respondIfReady i, 0xFF, x.later ≠ none), (.chunkSend i seq last chunk, 0x85, 3 ≤ x.conn ∧ seq = x.gatherSeq)] : List (Instr × Nat × Prop)),
      ¬c.2.2 → Answers c.1 s (fun t => t.out = s.out ++ [.mgmt i c.2.1 true []] ∧ { t.spdm i with peers := [] } = { x with peers := [] } ∧ t.hst = s.hst ∧ t.boot = s.boot ∧ t.ctl = s.ctl)) ∧
  (∀ i s, isIface i = true → ifaceUp s i = true →
    Answers (.getVersion i) s (fun t => t.out = s.out ++ [.mgmt i 0x84 false [1, 0, 0x13]] ∧ { t.spdm i with peers := [] } = { s.spdm i with conn := 1, later := none, peers := [] }) ∧
    (1 ≤ (s.spdm i).conn → Answers (.getCapabilities i) s (fun t => (∃ b, t.out = s.out ++ [.mgmt i 0xE1 false b]) ∧ { t.spdm i with peers := [] } = { s.spdm i with conn := max 2 (s.spdm i).conn, peers := [] })) ∧
    (2 ≤ (s.spdm i).conn → Answers (.negotiateAlgorithms i true) s (fun t => (∃ b, t.out = s.out ++ [.mgmt i 0xE3 false b]) ∧ { t.spdm i with peers := [] } = { s.spdm i with conn := 3, peers := [] })) ∧
    (3 ≤ (s.spdm i).conn → Answers (.getDigests i) s (fun t => t.out = s.out ++ [.mgmt i 0x81 false (digestBytes (Config.sha384 (chainBytes s)).toNat)] ∧ { t.spdm i with peers := [] } = { s.spdm i with peers := [] }))) ∧
  (∀ i off len nonce index s, isIface i = true → ifaceUp s i = true → 3 ≤ (s.spdm i).conn →
    (off < (chainBytes s).length → Answers (.getCertificate i 0 off len) s (fun t => let part := ((chainBytes s).drop off).take len
      t.out = s.out ++ [.mgmt i 0x82 false (natBytes 2 part.length ++ natBytes 2 ((chainBytes s).length - off - part.length) ++ part)])) ∧
    Answers (.challenge i 0 nonce) s (fun t => ∃ r, let body := digestBytes (Config.sha384 (chainBytes s)).toNat ++ padTo 32 nonce ++ r
      ReadyOrLater i 0x83 (body ++ padTo 96 (Config.ecdsaSign (Config.sha384 body))) s t) ∧
    (index = 255 → Answers (.getMeasurements i index) s (fun t => ∃ r, let b := [1, 2, 3, 4, 5, 6].flatMap (measurement s)
      ReadyOrLater i 0xE0 (natBytes 1 6 ++ natBytes 3 b.length ++ b ++ r) s t)) ∧
    (index = 0 → Answers (.getMeasurements i index) s (fun t => ∃ r, ReadyOrLater i 0xE0 ([6, 0, 0, 0] ++ r) s t)) ∧
    (1 ≤ index → index ≤ 6 → Answers (.getMeasurements i index) s (fun t => ∃ r, let b := measurement s index
      ReadyOrLater i 0xE0 (natBytes 1 1 ++ natBytes 3 b.length ++ b ++ r) s t))) ∧
  (∀ i s, isIface i = true → ifaceUp s i = true →
    (∀ code data, (s.spdm i).later = some (code, data) → Answers (.respondIfReady i) s (fun t => t.out = s.out ++ [.mgmt i code false data] ∧
      { t.spdm i with peers := [] } = { s.spdm i with later := none, peers := [] } ∧ t.hst = s.hst ∧ t.boot = s.boot ∧ t.ctl = s.ctl)) ∧
    ((s.spdm i).later = none → Answers (.respondIfReady i) s (fun t => t.out = s.out ++ [.mgmt i 0xFF true []] ∧
      { t.spdm i with peers := [] } = { s.spdm i with peers := [] } ∧ t.hst = s.hst ∧ t.boot = s.boot ∧ t.ctl = s.ctl))) ∧
  (∀ s, measurement s 2 = natBytes 1 2 ++ natBytes 1 1 ++ natBytes 2 51 ++ natBytes 1 1 ++ natBytes 2 48 ++ natBytes 48 (s.image (mget 0 0 s.sec.inUse)).digest ∧
    measurement s 3 = natBytes 1 3 ++ natBytes 1 1 ++ natBytes 2 51 ++ natBytes 1 1 ++ natBytes 2 48 ++ natBytes 48 (s.image (2 + mget 0 1 s.sec.inUse)).digest ∧
    measurement s 4 = natBytes 1 4 ++ natBytes 1 1 ++ natBytes 2 51 ++ natBytes 1 1 ++ natBytes 2 48 ++ natBytes 48 (s.image (4 + mget 0 2 s.sec.inUse)).digest) ∧
  (∀ i sess op s, isIface i = true → ifaceUp s i = true →
    let x := s.spdm i
    (3 ≤ x.conn → x.sessions.length < sessionMax i → Answers (.keyExchange i 0) s (fun t => ∃ n b, n ≠ 0 ∧ (∀ e ∈ x.sessions, e.1 ≠ n) ∧ (t.spdm i).sessions = x.sessions ++ [(n, false)] ∧
      (i = 3 → mfind? n (t.spdm i).who = some (x.peers.headD 0)) ∧
      t.out = s.out ++ [.mgmt i 0xE4 false (natBytes 2 n ++ b)])) ∧
    ((sess, false) ∈ x.sessions → sessionMine s i sess = true →
      Answers (.finish i sess true) s (fun t => (sess, true) ∈ (t.spdm i).sessions ∧ (sess, false) ∉ (t.spdm i).sessions ∧ (∀ e, e.1 ≠ sess → (e ∈ (t.spdm i).sessions ↔ e ∈ x.sessions)) ∧
        t.out = s.out ++ [.mgmt i 0xE5 false []]) ∧
      Answers (.finish i sess false) s (fun t => (t.spdm i).sessions = x.sessions.filter (fun e => e.1 != sess) ∧ t.out = s.out ++ [.mgmt i 0xE5 true []])) ∧
    (sessionUp s i sess = true →
      Answers (.heartbeat i sess) s (fun t => mget 0 sess (t.spdm i).beat = now s ∧ (t.spdm i).sessions = x.sessions ∧ t.out = s.out ++ [.mgmt i 0xE8 false []]) ∧
      (1 ≤ op → op ≤ 3 → Answers (.keyUpdate i sess op) s (fun t => mget 0 sess (t.spdm i).updates = mget 0 sess x.updates + (if op = 3 then 0 else 1) ∧ (t.spdm i).sessions = x.sessions ∧
        t.out = s.out ++ [.mgmt i 0xE9 false (natBytes 1 op)])) ∧
      Answers (.endSession i sess) s (fun t => (t.spdm i).sessions = x.sessions.filter (fun e => e.1 != sess) ∧ t.out = s.out ++ [.mgmt i 0xEC false []]))) ∧
  (∀ i seq chunk s, isIface i = true → ifaceUp s i = true →
    let x := s.spdm i
    (3 ≤ x.conn → seq = x.gatherSeq → ∀ last, Answers (.chunkSend i seq last chunk) s (fun t => (t.spdm i).gather = (if seq = 0 then [] else x.gather) ++ chunk ∧
      (t.spdm i).gatherSeq = (if last then 0 else seq + 1) ∧ (0x85 ∈ (t.spdm i).busy ↔ last = false) ∧ t.out = s.out ++ [.mgmt i 0x85 false (natBytes 2 seq)])) ∧
    (let part := (x.give.drop (seq * Config.messageMax)).take Config.messageMax
     Answers (.chunkGet i seq) s (fun t => if part = [] then t.out = s.out ++ [.mgmt i 0x86 true []] ∧ (t.spdm i).give = x.give
       else t.out = s.out ++ [.mgmt i 0x86 false (natBytes 2 seq ++ part)] ∧ (t.spdm i).give = if x.give.length ≤ (seq + 1) * Config.messageMax then [] else x.give)))

/-- TDISP (R451, R496; codes and layouts of the messages are the model's: log 52). -/
def Obligations.InterfacesLockRunAndStop : Prop :=
  (∀ port vf s, isHostPort port = true → isVf vf = true →
    let k := tdiFunc port vf
    let f := s.func k
    let rows : List (Instr × Message) := [(.getTdispVersion port vf, .getTdispVersion port vf), (.getTdispCapabilities port vf, .getTdispCapabilities port vf),
      (.lockInterfaceRequest port vf, .lockInterfaceRequest port vf), (.getDeviceInterfaceReport port vf, .getDeviceInterfaceReport port vf),
      (.getDeviceInterfaceState port vf, .getDeviceInterfaceState port vf), (.startInterfaceRequest port vf, .startInterfaceRequest port vf),
      (.stopInterfaceRequest port vf, .stopInterfaceRequest port vf)]
    (ifaceUp s port = false → ∀ c ∈ rows, Does c.1 s (holdMessage port c.2 s)) ∧
    (ifaceUp s port = true → vfUp s port vf = false → ∀ c ∈ rows, Answers c.1 s (fun t => (∃ code, t.out = s.out ++ [.mgmt port code true []]) ∧ Touches [.out] s t)) ∧
    (ifaceUp s port = true → vfUp s port vf = true →
      Answers (.getTdispVersion port vf) s (fun t => (∃ code, t.out = s.out ++ [.mgmt port code false [1, 0x10]]) ∧ Touches [.out] s t) ∧
      Answers (.getTdispCapabilities port vf) s (fun t => (∃ code, t.out = s.out ++ [.mgmt port code false (natBytes 16 0xFE)]) ∧ Touches [.out] s t) ∧
      Answers (.getDeviceInterfaceState port vf) s (fun t => (∃ code, t.out = s.out ++ [.mgmt port code false (natBytes 1 (tdiCode f.tdi))]) ∧ Touches [.out] s t) ∧
      (f.tdi = .unlocked → (vfContext s port vf).isSome = true → Answers (.lockInterfaceRequest port vf) s (fun t => (t.func k).tdi = .locked ∧ { t.func k with tdi := .unlocked } = f ∧ (∀ j, j ≠ k → t.func j = s.func j) ∧
        mget 0 vf (t.hport port).ideTdi = goStream s port ∧
        (∃ code, t.out = s.out ++ [.mgmt port code false []]) ∧ Touches [.hst, .out] s t)) ∧
      (f.tdi ≠ .unlocked ∨ vfContext s port vf = none → Answers (.lockInterfaceRequest port vf) s (fun t => (∃ code, t.out = s.out ++ [.mgmt port code true []]) ∧ Touches [.out] s t)) ∧
      (f.tdi = .locked → Answers (.startInterfaceRequest port vf) s (fun t => t.func k = { f with tdi := .run } ∧ (∀ j, j ≠ k → t.func j = s.func j) ∧ Touches [.hst, .out] s t)) ∧
      (f.tdi ≠ .locked → Answers (.startInterfaceRequest port vf) s (fun t => (∃ code, t.out = s.out ++ [.mgmt port code true []]) ∧ Touches [.out] s t)) ∧
      Answers (.stopInterfaceRequest port vf) s (fun t => t.func k = { f with tdi := .unlocked } ∧ (∀ j, j ≠ k → t.func j = s.func j) ∧ Touches [.hst, .out] s t) ∧
      (f.tdi = .locked ∨ f.tdi = .run → ∀ c, funcCtx s port vf = some c → Answers (.getDeviceInterfaceReport port vf) s (fun t => ∃ code head, head.length = 12 ∧
        t.out = s.out ++ [.mgmt port code false (head ++ natBytes 2 c ++ natBytes 2 (ctxKgen s c) ++ digestBytes (Config.sha384 (aliasCert s)).toNat)] ∧ Touches [.out] s t)) ∧
      (f.tdi ≠ .locked → f.tdi ≠ .run → Answers (.getDeviceInterfaceReport port vf) s (fun t => (∃ code, t.out = s.out ++ [.mgmt port code true []]) ∧ Touches [.out] s t)))) ∧
  (∀ port vf s, isHostPort port = true → isVf vf = true →
    let f := s.func (tdiFunc port vf)
    (f.tdi ≠ .locked → f.tdi ≠ .run → Does (.tdiError port vf) s s) ∧
    (f.tdi = .locked ∨ f.tdi = .run → funcCtx s port vf = none → Answers (.tdiError port vf) s (fun t => t.func (tdiFunc port vf) = { f with tdi := .error } ∧ Touches [.hst] s t)) ∧
    (f.tdi = .locked ∨ f.tdi = .run → ∀ c, funcCtx s port vf = some c → 1 ≤ c → c ≤ 1022 → ctxState s c = 1 → Answers (.tdiError port vf) s (fun t => ctxState t c = 2)))

/-- Carnelian's own events and the requests for reports and keys (R468-R471, R475-R477, R484-R488, R493, R496; choices of forms: log 50, 52, 53). -/
def Obligations.CarnelianKeepsKeysAndRole : Prop :=
  (∀ i x ctx nonce vf s, isIface i = true → isCtx ctx = true → vf < 256 →
    let may := ownerSession s i x = true ∨ tsmSession s i x vf ctx = true ∨ (i = 2 ∧ ctx = 0)
    (ifaceUp s i = false → Does (.getReport i x ctx nonce vf) s (holdMessage i (.getReport i x ctx nonce vf) s)) ∧
    (ifaceUp s i = true → ¬may → Answers (.getReport i x ctx nonce vf) s (fun t => t.hst.refused = satAdd 16 s.hst.refused 1 ∧ Out.mgmt i 769 true [] ∈ t.out ∧ t.sec.reportSeq = s.sec.reportSeq)) ∧
    (ifaceUp s i = true → may → (s.spdm i).busy.contains 769 = false → Answers (.getReport i x ctx nonce vf) s (fun t =>
      match makeReport ctx nonce s with
      | some (b, u) => u.sec.reportSeq = (s.sec.reportSeq + 1) % 2 ^ 32 ∧ t.sec.reportSeq = u.sec.reportSeq ∧ t.sec.lms0 = u.sec.lms0 ∧ t.sec.lms1 = u.sec.lms1 ∧
          ((b.length ≤ Config.messageMax ∧ t.out = u.out ++ [.mgmt i 769 false b]) ∨ (Config.messageMax < b.length ∧ (t.spdm i).give = b ∧ (t.spdm i).busy.contains 769 = true))
      | none => t.out = s.out ++ [.mgmt i 769 true (natBytes 8 stStateLost)] ∧ Touches [.out] s t)) ∧
    (ifaceUp s i = true → may → (s.spdm i).busy.contains 769 = true → Answers (.getReport i x ctx nonce vf) s (fun t => t.out = s.out ++ [.mgmt i 769 true []] ∧ Touches [.out] s t))) ∧
  (∀ s, s.sec.lmsLost = true ∨ lmsValue s.sec = none → ∀ c nonce, makeReport c nonce s = none) ∧
  (∀ i x ctx k1 k2 vf s, isIface i = true → isCtx ctx = true → vf < 256 →
    (ifaceUp s i = false → Does (.keyUpload i x ctx k1 k2 vf) s (holdMessage i (.keyUpload i x ctx k1 k2 vf) s)) ∧
    (ifaceUp s i = true → tsmSession s i x vf ctx = false → Answers (.keyUpload i x ctx k1 k2 vf) s (fun t => t.sec.imports = s.sec.imports ∧ t.hst.refused = satAdd 16 s.hst.refused 1)) ∧
    (ifaceUp s i = true → tsmSession s i x vf ctx = true → Answers (.keyUpload i x ctx k1 k2 vf) s (fun t =>
      t.sec.imports = s.sec.imports ++ [(s.sec.nextHandle, ctx, k1 % 2 ^ 256 + 2 ^ 256 * (k2 % 2 ^ 256), now s + 10000000000)] ∧
      t.sec.nextHandle = (s.sec.nextHandle + 1) % 2 ^ 32 ∧ t.out = s.out ++ [.mgmt i 778 false (natBytes 4 s.sec.nextHandle)] ∧ Touches [.sec, .out] s t))) ∧
  (∀ port stream dir set key s, isHostPort port = true → isStreamId stream = true → dir < 2 → set < 2 →
    let k := ideSet stream dir set
    (ifaceUp s port = false → ∀ c ∈ ([(.ideKmQuery port, .ideKmQuery port), (.keyProg port stream dir set key, .keyProg port stream dir set key),
        (.kSetGo port stream dir set, .kSetGo port stream dir set), (.kSetStop port stream dir set, .kSetStop port stream dir set)] : List (Instr × Message)),
      Does c.1 s (holdMessage port c.2 s)) ∧
    (ifaceUp s port = true → Answers (.ideKmQuery port) s (fun t => (∃ b, t.out = s.out ++ [.mgmt port 256 false b]) ∧ t.hst = s.hst ∧ t.sec = s.sec) ∧
      Answers (.keyProg port stream dir set key) s (fun t => mfind? k (t.hport port).ideKeys = some key ∧ (∀ j, j ≠ k → mfind? j (t.hport port).ideKeys = mfind? j (s.hport port).ideKeys) ∧
        (t.hport port).ideGo = (s.hport port).ideGo ∧ t.out = s.out ++ [.mgmt port 258 false [0]] ∧ Touches [.hst, .out] s t) ∧
      (mhas k (s.hport port).ideKeys = true → Answers (.kSetGo port stream dir set) s (fun t => k ∈ (t.hport port).ideGo ∧ ideSet stream dir (1 - set) ∉ (t.hport port).ideGo ∧
        (t.hport port).ideKeys = (s.hport port).ideKeys ∧ t.out = s.out ++ [.mgmt port 260 false []] ∧ Touches [.hst, .out] s t)) ∧
      (mhas k (s.hport port).ideKeys = false → Answers (.kSetGo port stream dir set) s (fun t => t.out = s.out ++ [.mgmt port 260 true []] ∧ Touches [.out] s t)) ∧
      Answers (.kSetStop port stream dir set) s (fun t => k ∉ (t.hport port).ideGo ∧ (t.hport port).ideKeys = (s.hport port).ideKeys ∧ t.out = s.out ++ [.mgmt port 261 false []] ∧ Touches [.hst, .out] s t))) ∧
  (∀ s, (mgmtServes s = false ∨ (∀ e ∈ s.mf.modIn, pOp e.1 ≠ opCRMSG) → Does .crmsg s s) ∧
    (∀ pre p a rest, mgmtServes s = true → s.mf.modIn = pre ++ (p, a) :: rest → (∀ e ∈ pre, pOp e.1 ≠ opCRMSG) → pOp p = opCRMSG →
      (p.tc ≠ 6 ∨ pCtx p ≠ 0 ∨ p.payload.length < 8 ∨ 256 < p.payload.length ∨ p.payload.length % 8 ≠ 0 → Does .crmsg s { s with mf := { s.mf with modIn := pre ++ rest } }) ∧
      (p.tc = 6 → pCtx p = 0 → 8 ≤ p.payload.length → p.payload.length ≤ 256 → p.payload.length % 8 = 0 → peerSession s (pSrc p) = false →
        Does .crmsg s { s with mf := { s.mf with modIn := pre ++ rest }, sec := { s.sec with spdm := mset {} 3 { s.spdm 3 with peers := (s.spdm 3).peers ++ [pSrc p] } s.sec.spdm } }) ∧
      (p.tc = 6 → pCtx p = 0 → 8 ≤ p.payload.length → p.payload.length ≤ 256 → p.payload.length % 8 = 0 → peerSession s (pSrc p) = true →
        Answers .crmsg s (fun t => match Config.sharedKey p.payload, Config.shareAnswer p.payload with
          | some (n, c, g, imp, k), _ =>
            if 1 ≤ n ∧ n ≤ 4031 ∧ ksState (keySlot s n) = 0 then
              keySlot t n = 1 + 2 ^ 2 * (c % 1024) + 2 ^ 12 * (g % 64) + 2 ^ 20 * b2n imp + 2 ^ 21 ∧ mget 0 n t.sec.keys = k
            else t.sec = s.sec
          | none, some st => t.mf.modIn = pre ++ rest ∧ Touches [.mf, .sec] s t ∧ ∀ a q b, s.sec.kreqs = a ++ q :: b →
              (∀ r ∈ a, r.done ≠ none ∨ r.sent = none ∨ byteAt r.req 8 2 ≠ pSrc p) → q.done = none → q.sent.isSome = true → byteAt q.req 8 2 = pSrc p →
              (∀ r ∈ a ++ b, r.thread ≠ q.thread ∨ r.ticket ≠ q.ticket) →
              t.sec.kreqs = a ++ { q with done := some (keyDoneBytes s q.ticket q.req { status := st % 16, slot := krSlot q.req }) } :: b
          | none, none => (t.spdm 3).peers = (s.spdm 3).peers ++ [pSrc p] ∧ t.mf.modIn = pre ++ rest ∧ Touches [.mf, .sec] s t)))) ∧
  (∀ s, let due := chervilRuns s = true ∧ s.boot.step = 5 ∧ s.sec.handover = none ∧ passed s (mget 0 (8 + s.sec.active) s.chv.beats) 100000000 = true
    (due → Does .carnelianWatchdog s { s with sec := { s.sec with handover := some (now s), spdm := [] } }) ∧
    (¬due → Does .carnelianWatchdog s s)) ∧
  (∀ s, (s.sec.handover = none → Does .handoverDone s s) ∧
    (∀ t0, s.sec.handover = some t0 → Answers .handoverDone s (fun t => t.sec.active = 1 - s.sec.active ∧ t.sec.token = 1 - s.sec.active ∧ t.sec.pref = s.sec.pref)) ∧
    (∀ t0, s.sec.handover = some t0 → s.sec.waiting = [] → Answers .handoverDone s (fun t => t.sec.handover = none ∧ t.sec.servingAt = now s)) ∧
    (∀ t0, s.sec.handover = some t0 → s.sec.kreqs = [] →
      let u : State := { s with sec := { s.sec with active := 1 - s.sec.active, token := 1 - s.sec.active, handover := none, servingAt := now s, waiting := [] }, chv := { s.chv with beats := mput (9 - s.sec.active) (now s) s.chv.beats } }
      s.sec.active < 2 → Does .handoverDone s (s.sec.waiting.foldl (fun v m => serveMessage m v) u))) ∧
  (∀ s, let due := s.boot.step = 5 ∧ s.sec.handover = none ∧ passed s s.sec.servingAt 60000000000 = true
    (due → Does .prefUpdate s { s with sec := { s.sec with pref := s.sec.active } }) ∧ (¬due → Does .prefUpdate s s)) ∧
  (∀ s, let due := s.boot.pwrgd = true ∧ s.boot.step = 1 ∧ s.sec.active = s.sec.pref ∧ passed s s.boot.stepAt 150000000 = true
    (due → Answers .bootCoreTimeout s (fun t => t.sec = { s.sec with active := 1 - s.sec.pref, token := 1 - s.sec.pref, pref := 1 - s.sec.pref } ∧ t.boot = { s.boot with stepAt := now s } ∧
      7 ∈ t.hst.modstat ∧ Touches [.sec, .boot, .evr, .hst, .out] s t)) ∧
    (¬due → Does .bootCoreTimeout s s)) ∧
  (∀ s q, lmsValue s.sec = some q → let due := carnelianServes s = true ∧ s.sec.lmsLost = false ∧ 524288 ≤ q % 1048576 ∧ q / 1048576 + 1 < 1048576
    (due → Does .lmsTreeGenerate s { s with sec := { s.sec with nextTree := q / 1048576 + 1 } }) ∧ (¬due → Does .lmsTreeGenerate s s)) ∧
  (∀ s, lmsValue s.sec = none → Does .lmsTreeGenerate s s)

/-- SVN floors (R472, R473, R490, R555). -/
def Obligations.FloorsNeverFall : Prop :=
  (∀ s t, step s = .next t → ∀ item, mget 0 item s.sec.floors ≤ mget 0 item t.sec.floors) ∧
  (∀ c s t, exec c s = .next t → (∀ i x p, c ≠ .setPolicy i x p) → (c = .handoverDone → ∀ i x p, .setPolicy i x p ∉ s.sec.waiting) → t.sec.floors = s.sec.floors)
end

