-- ==== Sys2Proof/Laws/Bits.lean ====
section
/-!
SUPPORT. Laws of fields of words: what a field reads as after a field has been written.
-/
namespace Sys2Proof.Machine

/-- A written word in its three parts. -/
theorem setFld_parts (w lo len v : Nat) :
    setFld w lo len v = (w / 2 ^ (lo + len) * 2 ^ len + v % 2 ^ len) * 2 ^ lo + w % 2 ^ lo := by
  unfold setFld
  rw [Nat.shiftRight_eq_div_pow, Nat.shiftLeft_eq, Nat.shiftLeft_eq, Nat.add_mul, Nat.mul_assoc, ← pow_add, Nat.add_comm len lo]
theorem setFld_div (w lo len v : Nat) : setFld w lo len v / 2 ^ lo = w / 2 ^ (lo + len) * 2 ^ len + v % 2 ^ len := by
  rw [setFld_parts, Nat.add_comm, Nat.add_mul_div_right _ _ (Nat.two_pow_pos lo), Nat.div_eq_of_lt (Nat.mod_lt _ (Nat.two_pow_pos lo)), Nat.zero_add]
/-- The field written reads as the value's low bits. -/
theorem fld_setFld_same (w lo len v : Nat) : fld (setFld w lo len v) lo len = v % 2 ^ len := by
  rw [fld, Nat.shiftRight_eq_div_pow, setFld_div, Nat.mul_comm, Nat.mul_add_mod, Nat.mod_mod]
/-- A field below the one written reads as before. -/
theorem fld_setFld_low (w lo len v : Nat) {i n : Nat} (h : i + n ≤ lo) : fld (setFld w lo len v) i n = fld w i n := by
  obtain ⟨k, rfl⟩ := Nat.exists_eq_add_of_le h
  have e : ∀ x, fld x i n = x % 2 ^ (i + n) / 2 ^ i := fun x => by
    rw [fld, Nat.shiftRight_eq_div_pow, pow_add, Nat.mod_mul_right_div_self]
  rw [e, e, setFld_parts, pow_add 2 (i + n) k, Nat.mul_comm (2 ^ (i + n)), ← Nat.mul_assoc, Nat.mul_comm _ (2 ^ (i + n)), Nat.mul_add_mod,
    Nat.mul_comm (2 ^ k), Nat.mod_mul_right_mod]
/-- A field above the one written reads as before. -/
theorem fld_setFld_high (w lo len v : Nat) {i n : Nat} (h : lo + len ≤ i) : fld (setFld w lo len v) i n = fld w i n := by
  obtain ⟨k, rfl⟩ := Nat.exists_eq_add_of_le h
  simp only [fld, Nat.shiftRight_eq_div_pow]
  rw [pow_add 2 (lo + len) k, pow_add 2 lo len, Nat.mul_assoc, ← Nat.div_div_eq_div_mul, setFld_div, ← Nat.div_div_eq_div_mul,
    Nat.add_comm, Nat.add_mul_div_right _ _ (Nat.two_pow_pos len), Nat.div_eq_of_lt (Nat.mod_lt _ (Nat.two_pow_pos len)), Nat.zero_add,
    ← Nat.mul_assoc, ← pow_add 2 lo len, Nat.div_div_eq_div_mul]

end Sys2Proof.Machine
end

