-- ==== Sys2Proof/Laws/Maps.lean ====
section
/-!
SUPPORT. Laws of sparse maps and memories: a read after a write, and the canonical form that every map operation keeps.
-/
namespace Sys2Proof.Machine

variable {α : Type}

@[simp] theorem mfind_mput_same (k : Nat) (x : α) (m : SMap α) : mfind? k (mput k x m) = some x := by
  induction m with
  | nil => simp [mput, mfind?]
  | cons e t ih =>
    obtain ⟨j, y⟩ := e
    by_cases h : k < j
    · simp [mput, mfind?, h]
    · by_cases h2 : k = j
      · simp [mput, mfind?, h2]
      · simp [mput, mfind?, h, h2, Ne.symm h2, ih]
theorem mfind_mput_ne {j k : Nat} (h : j ≠ k) (x : α) (m : SMap α) : mfind? j (mput k x m) = mfind? j m := by
  induction m with
  | nil => simp [mput, mfind?, h.symm]
  | cons e t ih =>
    obtain ⟨i, y⟩ := e
    by_cases h1 : k < i
    · simp [mput, mfind?, h1, h.symm]
    · by_cases h2 : k = i
      · subst h2; simp [mput, mfind?, h.symm]
      · simp [mput, mfind?, h1, h2, ih]
@[simp] theorem mfind_mdel_same (k : Nat) (m : SMap α) : mfind? k (mdel k m) = none := by
  induction m with
  | nil => rfl
  | cons e t ih =>
    obtain ⟨i, y⟩ := e
    by_cases h : i = k <;> simp [mdel, mfind?, h, ih]
theorem mfind_mdel_ne {j k : Nat} (h : j ≠ k) (m : SMap α) : mfind? j (mdel k m) = mfind? j m := by
  induction m with
  | nil => rfl
  | cons e t ih =>
    obtain ⟨i, y⟩ := e
    by_cases h1 : i = k
    · simp [mdel, mfind?, h1, h.symm, ih]
    · simp [mdel, mfind?, h1, ih]

/-! ### Rising keys -/

theorem keysFrom_mono {lo hi : Nat} (h : lo ≤ hi) (m : SMap α) (hm : keysFrom hi m = true) : keysFrom lo m = true := by
  cases m with
  | nil => rfl
  | cons e t => simp only [keysFrom, Bool.and_eq_true, decide_eq_true_eq] at hm ⊢; exact ⟨by omega, hm.2⟩
theorem keysFrom_mdel (k lo : Nat) (m : SMap α) (hm : keysFrom lo m = true) : keysFrom lo (mdel k m) = true := by
  induction m generalizing lo with
  | nil => rfl
  | cons e t ih =>
    obtain ⟨i, y⟩ := e
    simp only [keysFrom, Bool.and_eq_true, decide_eq_true_eq] at hm
    by_cases h : i = k
    · simp only [mdel, h, if_true]; exact ih lo (keysFrom_mono (by omega) t hm.2)
    · simp only [mdel, h, if_false, keysFrom, Bool.and_eq_true, decide_eq_true_eq]; exact ⟨hm.1, ih _ hm.2⟩
theorem keysFrom_mput (k lo : Nat) (x : α) (m : SMap α) (hk : lo ≤ k) (hm : keysFrom lo m = true) :
    keysFrom lo (mput k x m) = true := by
  induction m generalizing lo with
  | nil => simp [mput, keysFrom, hk]
  | cons e t ih =>
    obtain ⟨i, y⟩ := e
    simp only [keysFrom, Bool.and_eq_true, decide_eq_true_eq] at hm
    by_cases h : k < i
    · simp only [mput, h, if_true, keysFrom, Bool.and_eq_true, decide_eq_true_eq]; exact ⟨hk, by omega, hm.2⟩
    · by_cases h2 : k = i
      · subst h2; simp only [mput, Nat.lt_irrefl, if_true, if_false, keysFrom, Bool.and_eq_true, decide_eq_true_eq]; exact hm
      · simp only [mput, h, h2, if_false, keysFrom, Bool.and_eq_true, decide_eq_true_eq]
        exact ⟨hm.1, ih _ (by omega) hm.2⟩
theorem all_mdel (p : Nat × α → Bool) (k : Nat) (m : SMap α) (hm : m.all p = true) : (mdel k m).all p = true := by
  induction m with
  | nil => rfl
  | cons e t ih =>
    obtain ⟨i, y⟩ := e
    simp only [List.all_cons, Bool.and_eq_true] at hm
    by_cases h : i = k
    · simp only [mdel, h, if_true]; exact ih hm.2
    · simp only [mdel, h, if_false, List.all_cons, Bool.and_eq_true]; exact ⟨hm.1, ih hm.2⟩
theorem all_mput (p : Nat × α → Bool) (k : Nat) (x : α) (m : SMap α) (hx : p (k, x) = true) (hm : m.all p = true) :
    (mput k x m).all p = true := by
  induction m with
  | nil => simp [mput, hx]
  | cons e t ih =>
    obtain ⟨i, y⟩ := e
    simp only [List.all_cons, Bool.and_eq_true] at hm
    by_cases h : k < i
    · simp [mput, h, hx, hm.1, hm.2]
    · by_cases h2 : k = i
      · subst h2; simp [mput, hx, hm.2]
      · simp only [mput, h, h2, if_false, List.all_cons, Bool.and_eq_true]; exact ⟨hm.1, ih hm.2⟩

variable [DecidableEq α]

/-- Read after write, the same key. -/
@[simp] theorem mget_mset_same (d x : α) (k : Nat) (m : SMap α) : mget d k (mset d k x m) = x := by
  by_cases h : x = d <;> simp [mget, mset, h]
/-- Read after write, another key. -/
theorem mget_mset_ne {j k : Nat} (h : j ≠ k) (d x : α) (m : SMap α) : mget d j (mset d k x m) = mget d j m := by
  by_cases hx : x = d <;> simp [mget, mset, hx, mfind_mput_ne h, mfind_mdel_ne h]
theorem mget_mset (d x : α) (j k : Nat) (m : SMap α) : mget d j (mset d k x m) = if j = k then x else mget d j m := by
  by_cases h : j = k
  · subst h; simp
  · simp [mget_mset_ne h, h]

/-! ### The canonical form -/

/-- A write keeps the canonical form. -/
theorem mset_wf (d x : α) (k : Nat) (m : SMap α) (hm : mapWf d m = true) : mapWf d (mset d k x m) = true := by
  simp only [mapWf, Bool.and_eq_true] at hm ⊢
  by_cases h : x = d
  · simp only [mset, h, if_true]; exact ⟨keysFrom_mdel k 0 m hm.1, all_mdel _ k m hm.2⟩
  · simp only [mset, h, if_false]; exact ⟨keysFrom_mput k 0 x m (Nat.zero_le k) hm.1, all_mput _ k x m (by simp [h]) hm.2⟩
theorem mmod_wf (d : α) (f : α → α) (k : Nat) (m : SMap α) (hm : mapWf d m = true) : mapWf d (mmod d k f m) = true :=
  mset_wf d _ k m hm

/-! ### Memories -/

@[simp] theorem memByte_memSet_same (m : Mem) (a : Nat) (b : Byte) : memByte (memSet m a b) a = b := mget_mset_same 0 b a m
theorem memByte_memSet_ne {a c : Nat} (h : c ≠ a) (m : Mem) (b : Byte) : memByte (memSet m a b) c = memByte m c := mget_mset_ne h 0 b m
/-- A byte outside what a write covers is unchanged. -/
theorem memByte_memWrite_out (m : Mem) (a : Nat) (l : List Byte) (c : Nat) (h : c < a ∨ a + l.length ≤ c) :
    memByte (memWrite m a l) c = memByte m c := by
  induction l generalizing m a with
  | nil => rfl
  | cons b t ih =>
    simp only [List.length_cons] at h
    rw [memWrite, ih _ _ (by omega), memByte_memSet_ne (by omega)]
/-- A byte that a write covers is the one written. -/
theorem memByte_memWrite_in (m : Mem) (a : Nat) (l : List Byte) (i : Nat) (h : i < l.length) :
    memByte (memWrite m a l) (a + i) = l.getD i 0 := by
  induction l generalizing m a i with
  | nil => simp at h
  | cons b t ih =>
    cases i with
    | zero => rw [memWrite, memByte_memWrite_out _ _ _ _ (by omega)]; simp
    | succ n =>
      have := ih (memSet m a b) (a + 1) n (by simpa using h)
      rw [memWrite, show a + (n + 1) = a + 1 + n by omega, this]; simp
theorem memSet_wf (m : Mem) (a : Nat) (b : Byte) (hm : Memory.wf m = true) : Memory.wf (memSet m a b) = true := mset_wf 0 b a m hm
theorem memWrite_wf (m : Mem) (a : Nat) (l : List Byte) (hm : Memory.wf m = true) : Memory.wf (memWrite m a l) = true := by
  induction l generalizing m a with
  | nil => exact hm
  | cons b t ih => exact ih _ _ (memSet_wf m a b hm)
theorem memMerge_wf (m : Mem) (a : Nat) (mask : Nat → Bool) (l : List Byte) (hm : Memory.wf m = true) :
    Memory.wf (memMerge m a mask l) = true := memWrite_wf m a _ hm

end Sys2Proof.Machine
end

