-- ==== Sys2Proof/Laws/State.lean ====
section
/-!
SUPPORT. Laws of the state: what each accessor reads after each update, all by definition or by read after write.
-/
namespace Sys2Proof.Machine

@[simp] theorem onlyIf_true (s t : State) : onlyIf true s t = t := rfl
@[simp] theorem onlyIf_false (s t : State) : onlyIf false s t = s := rfl
/-- A meaning answers its effect where the units exist. -/
theorem unit_ok {ok : Bool} (h : ok = true) (s t : State) : unit ok s t = .next (t.queueOf s) := by simp [unit, h]
theorem unit_bad {ok : Bool} (h : ok = false) (s t : State) : unit ok s t = .fault .noSuchUnit := by simp [unit, h]
/-- All a meaning can do: it answers its effect with the queue as it was, and its units exist; or it stops because one does not. -/
theorem unit_cases (ok : Bool) (s t : State) : (ok = true ∧ unit ok s t = .next (t.queueOf s)) ∨ (ok = false ∧ unit ok s t = .fault .noSuchUnit) := by cases ok <;> simp [unit]
@[simp] theorem State.queueOf_pending (t s : State) : (t.queueOf s).pending = s.pending := rfl
@[simp] theorem State.queueOf_self (s : State) : s.queueOf s = s := rfl
@[simp] theorem State.queueOf_free (t s : State) : (t.queueOf s).free = t.free := rfl
@[simp] theorem State.queueOf_out (t s : State) : (t.queueOf s).out = t.out := rfl
@[simp] theorem State.queueOf_clk (t s : State) : (t.queueOf s).clk = t.clk := rfl
@[simp] theorem State.queueOf_evr (t s : State) : (t.queueOf s).evr = t.evr := rfl
@[simp] theorem State.queueOf_chv (t s : State) : (t.queueOf s).chv = t.chv := rfl
@[simp] theorem State.queueOf_ports (t s : State) : (t.queueOf s).ports = t.ports := rfl
@[simp] theorem State.queueOf_lanes (t s : State) : (t.queueOf s).lanes = t.lanes := rfl
@[simp] theorem State.queueOf_sw (t s : State) : (t.queueOf s).sw = t.sw := rfl
@[simp] theorem State.queueOf_mf (t s : State) : (t.queueOf s).mf = t.mf := rfl
@[simp] theorem State.queueOf_coh (t s : State) : (t.queueOf s).coh = t.coh := rfl
@[simp] theorem State.queueOf_ctl (t s : State) : (t.queueOf s).ctl = t.ctl := rfl
@[simp] theorem State.queueOf_tab (t s : State) : (t.queueOf s).tab = t.tab := rfl
@[simp] theorem State.queueOf_svc (t s : State) : (t.queueOf s).svc = t.svc := rfl
@[simp] theorem State.queueOf_cod (t s : State) : (t.queueOf s).cod = t.cod := rfl
@[simp] theorem State.queueOf_per (t s : State) : (t.queueOf s).per = t.per := rfl
@[simp] theorem State.queueOf_tier (t s : State) : (t.queueOf s).tier = t.tier := rfl
@[simp] theorem State.queueOf_hst (t s : State) : (t.queueOf s).hst = t.hst := rfl
@[simp] theorem State.queueOf_cx (t s : State) : (t.queueOf s).cx = t.cx := rfl
@[simp] theorem State.queueOf_sec (t s : State) : (t.queueOf s).sec = t.sec := rfl
@[simp] theorem State.queueOf_rel (t s : State) : (t.queueOf s).rel = t.rel := rfl
@[simp] theorem State.queueOf_map (t s : State) : (t.queueOf s).map = t.map := rfl
@[simp] theorem State.queueOf_boot (t s : State) : (t.queueOf s).boot = t.boot := rfl
@[simp] theorem State.queueOf_port_at (t s : State) (k : Nat) : (t.queueOf s).port k = t.port k := rfl
@[simp] theorem State.queueOf_lane_at (t s : State) (k : Nat) : (t.queueOf s).lane k = t.lane k := rfl
@[simp] theorem State.queueOf_queue_at (t s : State) (k : Nat) : (t.queueOf s).queue k = t.queue k := rfl
@[simp] theorem State.queueOf_park_at (t s : State) (k : Nat) : (t.queueOf s).park k = t.park k := rfl
@[simp] theorem State.queueOf_buf_at (t s : State) (k : Nat) : (t.queueOf s).buf k = t.buf k := rfl
@[simp] theorem State.queueOf_bucket_at (t s : State) (k : Nat) : (t.queueOf s).bucket k = t.bucket k := rfl
@[simp] theorem State.queueOf_gate_at (t s : State) (k : Nat) : (t.queueOf s).gate k = t.gate k := rfl
@[simp] theorem State.queueOf_tile_at (t s : State) (k : Nat) : (t.queueOf s).tile k = t.tile k := rfl
@[simp] theorem State.queueOf_slot_at (t s : State) (k : Nat) : (t.queueOf s).slot k = t.slot k := rfl
@[simp] theorem State.queueOf_thread_at (t s : State) (k : Nat) : (t.queueOf s).thread k = t.thread k := rfl
@[simp] theorem State.queueOf_plan_at (t s : State) (k : Nat) : (t.queueOf s).plan k = t.plan k := rfl
@[simp] theorem State.queueOf_stream_at (t s : State) (k : Nat) : (t.queueOf s).stream k = t.stream k := rfl
@[simp] theorem State.queueOf_expert_at (t s : State) (k : Nat) : (t.queueOf s).expert k = t.expert k := rfl
@[simp] theorem State.queueOf_hport_at (t s : State) (k : Nat) : (t.queueOf s).hport k = t.hport k := rfl
@[simp] theorem State.queueOf_func_at (t s : State) (k : Nat) : (t.queueOf s).func k = t.func k := rfl
@[simp] theorem State.queueOf_fifo_at (t s : State) (k : Nat) : (t.queueOf s).fifo k = t.fifo k := rfl
@[simp] theorem State.queueOf_sensor_at (t s : State) (k : Nat) : (t.queueOf s).sensor k = t.sensor k := rfl
@[simp] theorem State.queueOf_phase_at (t s : State) (k : Nat) : (t.queueOf s).phase k = t.phase k := rfl
@[simp] theorem State.queueOf_block_at (t s : State) (k : Nat) : (t.queueOf s).block k = t.block k := rfl
@[simp] theorem State.queueOf_line_at (t s : State) (k : Nat) : (t.queueOf s).line k = t.line k := rfl
@[simp] theorem State.queueOf_droop_at (t s : State) (k : Nat) : (t.queueOf s).droop k = t.droop k := rfl
@[simp] theorem State.queueOf_limit_at (t s : State) (k : Nat) : (t.queueOf s).limit k = t.limit k := rfl
@[simp] theorem State.queueOf_shed_at (t s : State) (k : Nat) : (t.queueOf s).shed k = t.shed k := rfl
@[simp] theorem State.queueOf_recDie_at (t s : State) (k : Nat) : (t.queueOf s).recDie k = t.recDie k := rfl
@[simp] theorem State.queueOf_nbr_at (t s : State) (k : Nat) : (t.queueOf s).nbr k = t.nbr k := rfl
@[simp] theorem State.queueOf_image_at (t s : State) (k : Nat) : (t.queueOf s).image k = t.image k := rfl
@[simp] theorem State.queueOf_spdm_at (t s : State) (k : Nat) : (t.queueOf s).spdm k = t.spdm k := rfl

/-! ### Port -/

@[simp] theorem State.modPort_eq (s : State) (k : Nat) (f : Port → Port) : s.modPort k f = s.setPort k (f (s.port k)) := rfl
@[simp] theorem State.setPort_same (s : State) (k : Nat) (x : Port) : (s.setPort k x).port k = x := mget_mset_same _ x k _
theorem State.setPort_ne (s : State) {j k : Nat} (h : j ≠ k) (x : Port) : (s.setPort k x).port j = s.port j := mget_mset_ne h _ x _
@[simp] theorem State.setPort_pending (s : State) (k : Nat) (x : Port) : (s.setPort k x).pending = s.pending := rfl
@[simp] theorem State.setPort_free (s : State) (k : Nat) (x : Port) : (s.setPort k x).free = s.free := rfl
@[simp] theorem State.setPort_out (s : State) (k : Nat) (x : Port) : (s.setPort k x).out = s.out := rfl
@[simp] theorem State.setPort_clk (s : State) (k : Nat) (x : Port) : (s.setPort k x).clk = s.clk := rfl
@[simp] theorem State.setPort_evr (s : State) (k : Nat) (x : Port) : (s.setPort k x).evr = s.evr := rfl
@[simp] theorem State.setPort_chv (s : State) (k : Nat) (x : Port) : (s.setPort k x).chv = s.chv := rfl
@[simp] theorem State.setPort_lanes (s : State) (k : Nat) (x : Port) : (s.setPort k x).lanes = s.lanes := rfl
@[simp] theorem State.setPort_sw (s : State) (k : Nat) (x : Port) : (s.setPort k x).sw = s.sw := rfl
@[simp] theorem State.setPort_mf (s : State) (k : Nat) (x : Port) : (s.setPort k x).mf = s.mf := rfl
@[simp] theorem State.setPort_coh (s : State) (k : Nat) (x : Port) : (s.setPort k x).coh = s.coh := rfl
@[simp] theorem State.setPort_ctl (s : State) (k : Nat) (x : Port) : (s.setPort k x).ctl = s.ctl := rfl
@[simp] theorem State.setPort_tab (s : State) (k : Nat) (x : Port) : (s.setPort k x).tab = s.tab := rfl
@[simp] theorem State.setPort_svc (s : State) (k : Nat) (x : Port) : (s.setPort k x).svc = s.svc := rfl
@[simp] theorem State.setPort_cod (s : State) (k : Nat) (x : Port) : (s.setPort k x).cod = s.cod := rfl
@[simp] theorem State.setPort_per (s : State) (k : Nat) (x : Port) : (s.setPort k x).per = s.per := rfl
@[simp] theorem State.setPort_tier (s : State) (k : Nat) (x : Port) : (s.setPort k x).tier = s.tier := rfl
@[simp] theorem State.setPort_hst (s : State) (k : Nat) (x : Port) : (s.setPort k x).hst = s.hst := rfl
@[simp] theorem State.setPort_cx (s : State) (k : Nat) (x : Port) : (s.setPort k x).cx = s.cx := rfl
@[simp] theorem State.setPort_sec (s : State) (k : Nat) (x : Port) : (s.setPort k x).sec = s.sec := rfl
@[simp] theorem State.setPort_rel (s : State) (k : Nat) (x : Port) : (s.setPort k x).rel = s.rel := rfl
@[simp] theorem State.setPort_map (s : State) (k : Nat) (x : Port) : (s.setPort k x).map = s.map := rfl
@[simp] theorem State.setPort_boot (s : State) (k : Nat) (x : Port) : (s.setPort k x).boot = s.boot := rfl
@[simp] theorem State.setPort_lane_at (s : State) (k : Nat) (x : Port) (j : Nat) : (s.setPort k x).lane j = s.lane j := rfl
@[simp] theorem State.setPort_queue_at (s : State) (k : Nat) (x : Port) (j : Nat) : (s.setPort k x).queue j = s.queue j := rfl
@[simp] theorem State.setPort_park_at (s : State) (k : Nat) (x : Port) (j : Nat) : (s.setPort k x).park j = s.park j := rfl
@[simp] theorem State.setPort_buf_at (s : State) (k : Nat) (x : Port) (j : Nat) : (s.setPort k x).buf j = s.buf j := rfl
@[simp] theorem State.setPort_bucket_at (s : State) (k : Nat) (x : Port) (j : Nat) : (s.setPort k x).bucket j = s.bucket j := rfl
@[simp] theorem State.setPort_gate_at (s : State) (k : Nat) (x : Port) (j : Nat) : (s.setPort k x).gate j = s.gate j := rfl
@[simp] theorem State.setPort_tile_at (s : State) (k : Nat) (x : Port) (j : Nat) : (s.setPort k x).tile j = s.tile j := rfl
@[simp] theorem State.setPort_slot_at (s : State) (k : Nat) (x : Port) (j : Nat) : (s.setPort k x).slot j = s.slot j := rfl
@[simp] theorem State.setPort_thread_at (s : State) (k : Nat) (x : Port) (j : Nat) : (s.setPort k x).thread j = s.thread j := rfl
@[simp] theorem State.setPort_plan_at (s : State) (k : Nat) (x : Port) (j : Nat) : (s.setPort k x).plan j = s.plan j := rfl
@[simp] theorem State.setPort_stream_at (s : State) (k : Nat) (x : Port) (j : Nat) : (s.setPort k x).stream j = s.stream j := rfl
@[simp] theorem State.setPort_expert_at (s : State) (k : Nat) (x : Port) (j : Nat) : (s.setPort k x).expert j = s.expert j := rfl
@[simp] theorem State.setPort_hport_at (s : State) (k : Nat) (x : Port) (j : Nat) : (s.setPort k x).hport j = s.hport j := rfl
@[simp] theorem State.setPort_func_at (s : State) (k : Nat) (x : Port) (j : Nat) : (s.setPort k x).func j = s.func j := rfl
@[simp] theorem State.setPort_fifo_at (s : State) (k : Nat) (x : Port) (j : Nat) : (s.setPort k x).fifo j = s.fifo j := rfl
@[simp] theorem State.setPort_sensor_at (s : State) (k : Nat) (x : Port) (j : Nat) : (s.setPort k x).sensor j = s.sensor j := rfl
@[simp] theorem State.setPort_phase_at (s : State) (k : Nat) (x : Port) (j : Nat) : (s.setPort k x).phase j = s.phase j := rfl
@[simp] theorem State.setPort_block_at (s : State) (k : Nat) (x : Port) (j : Nat) : (s.setPort k x).block j = s.block j := rfl
@[simp] theorem State.setPort_line_at (s : State) (k : Nat) (x : Port) (j : Nat) : (s.setPort k x).line j = s.line j := rfl
@[simp] theorem State.setPort_droop_at (s : State) (k : Nat) (x : Port) (j : Nat) : (s.setPort k x).droop j = s.droop j := rfl
@[simp] theorem State.setPort_limit_at (s : State) (k : Nat) (x : Port) (j : Nat) : (s.setPort k x).limit j = s.limit j := rfl
@[simp] theorem State.setPort_shed_at (s : State) (k : Nat) (x : Port) (j : Nat) : (s.setPort k x).shed j = s.shed j := rfl
@[simp] theorem State.setPort_recDie_at (s : State) (k : Nat) (x : Port) (j : Nat) : (s.setPort k x).recDie j = s.recDie j := rfl
@[simp] theorem State.setPort_nbr_at (s : State) (k : Nat) (x : Port) (j : Nat) : (s.setPort k x).nbr j = s.nbr j := rfl
@[simp] theorem State.setPort_image_at (s : State) (k : Nat) (x : Port) (j : Nat) : (s.setPort k x).image j = s.image j := rfl
@[simp] theorem State.setPort_spdm_at (s : State) (k : Nat) (x : Port) (j : Nat) : (s.setPort k x).spdm j = s.spdm j := rfl

/-! ### Lane -/

@[simp] theorem State.modLane_eq (s : State) (k : Nat) (f : Lane → Lane) : s.modLane k f = s.setLane k (f (s.lane k)) := rfl
@[simp] theorem State.setLane_same (s : State) (k : Nat) (x : Lane) : (s.setLane k x).lane k = x := mget_mset_same _ x k _
theorem State.setLane_ne (s : State) {j k : Nat} (h : j ≠ k) (x : Lane) : (s.setLane k x).lane j = s.lane j := mget_mset_ne h _ x _
@[simp] theorem State.setLane_pending (s : State) (k : Nat) (x : Lane) : (s.setLane k x).pending = s.pending := rfl
@[simp] theorem State.setLane_free (s : State) (k : Nat) (x : Lane) : (s.setLane k x).free = s.free := rfl
@[simp] theorem State.setLane_out (s : State) (k : Nat) (x : Lane) : (s.setLane k x).out = s.out := rfl
@[simp] theorem State.setLane_clk (s : State) (k : Nat) (x : Lane) : (s.setLane k x).clk = s.clk := rfl
@[simp] theorem State.setLane_evr (s : State) (k : Nat) (x : Lane) : (s.setLane k x).evr = s.evr := rfl
@[simp] theorem State.setLane_chv (s : State) (k : Nat) (x : Lane) : (s.setLane k x).chv = s.chv := rfl
@[simp] theorem State.setLane_ports (s : State) (k : Nat) (x : Lane) : (s.setLane k x).ports = s.ports := rfl
@[simp] theorem State.setLane_sw (s : State) (k : Nat) (x : Lane) : (s.setLane k x).sw = s.sw := rfl
@[simp] theorem State.setLane_mf (s : State) (k : Nat) (x : Lane) : (s.setLane k x).mf = s.mf := rfl
@[simp] theorem State.setLane_coh (s : State) (k : Nat) (x : Lane) : (s.setLane k x).coh = s.coh := rfl
@[simp] theorem State.setLane_ctl (s : State) (k : Nat) (x : Lane) : (s.setLane k x).ctl = s.ctl := rfl
@[simp] theorem State.setLane_tab (s : State) (k : Nat) (x : Lane) : (s.setLane k x).tab = s.tab := rfl
@[simp] theorem State.setLane_svc (s : State) (k : Nat) (x : Lane) : (s.setLane k x).svc = s.svc := rfl
@[simp] theorem State.setLane_cod (s : State) (k : Nat) (x : Lane) : (s.setLane k x).cod = s.cod := rfl
@[simp] theorem State.setLane_per (s : State) (k : Nat) (x : Lane) : (s.setLane k x).per = s.per := rfl
@[simp] theorem State.setLane_tier (s : State) (k : Nat) (x : Lane) : (s.setLane k x).tier = s.tier := rfl
@[simp] theorem State.setLane_hst (s : State) (k : Nat) (x : Lane) : (s.setLane k x).hst = s.hst := rfl
@[simp] theorem State.setLane_cx (s : State) (k : Nat) (x : Lane) : (s.setLane k x).cx = s.cx := rfl
@[simp] theorem State.setLane_sec (s : State) (k : Nat) (x : Lane) : (s.setLane k x).sec = s.sec := rfl
@[simp] theorem State.setLane_rel (s : State) (k : Nat) (x : Lane) : (s.setLane k x).rel = s.rel := rfl
@[simp] theorem State.setLane_map (s : State) (k : Nat) (x : Lane) : (s.setLane k x).map = s.map := rfl
@[simp] theorem State.setLane_boot (s : State) (k : Nat) (x : Lane) : (s.setLane k x).boot = s.boot := rfl
@[simp] theorem State.setLane_port_at (s : State) (k : Nat) (x : Lane) (j : Nat) : (s.setLane k x).port j = s.port j := rfl
@[simp] theorem State.setLane_queue_at (s : State) (k : Nat) (x : Lane) (j : Nat) : (s.setLane k x).queue j = s.queue j := rfl
@[simp] theorem State.setLane_park_at (s : State) (k : Nat) (x : Lane) (j : Nat) : (s.setLane k x).park j = s.park j := rfl
@[simp] theorem State.setLane_buf_at (s : State) (k : Nat) (x : Lane) (j : Nat) : (s.setLane k x).buf j = s.buf j := rfl
@[simp] theorem State.setLane_bucket_at (s : State) (k : Nat) (x : Lane) (j : Nat) : (s.setLane k x).bucket j = s.bucket j := rfl
@[simp] theorem State.setLane_gate_at (s : State) (k : Nat) (x : Lane) (j : Nat) : (s.setLane k x).gate j = s.gate j := rfl
@[simp] theorem State.setLane_tile_at (s : State) (k : Nat) (x : Lane) (j : Nat) : (s.setLane k x).tile j = s.tile j := rfl
@[simp] theorem State.setLane_slot_at (s : State) (k : Nat) (x : Lane) (j : Nat) : (s.setLane k x).slot j = s.slot j := rfl
@[simp] theorem State.setLane_thread_at (s : State) (k : Nat) (x : Lane) (j : Nat) : (s.setLane k x).thread j = s.thread j := rfl
@[simp] theorem State.setLane_plan_at (s : State) (k : Nat) (x : Lane) (j : Nat) : (s.setLane k x).plan j = s.plan j := rfl
@[simp] theorem State.setLane_stream_at (s : State) (k : Nat) (x : Lane) (j : Nat) : (s.setLane k x).stream j = s.stream j := rfl
@[simp] theorem State.setLane_expert_at (s : State) (k : Nat) (x : Lane) (j : Nat) : (s.setLane k x).expert j = s.expert j := rfl
@[simp] theorem State.setLane_hport_at (s : State) (k : Nat) (x : Lane) (j : Nat) : (s.setLane k x).hport j = s.hport j := rfl
@[simp] theorem State.setLane_func_at (s : State) (k : Nat) (x : Lane) (j : Nat) : (s.setLane k x).func j = s.func j := rfl
@[simp] theorem State.setLane_fifo_at (s : State) (k : Nat) (x : Lane) (j : Nat) : (s.setLane k x).fifo j = s.fifo j := rfl
@[simp] theorem State.setLane_sensor_at (s : State) (k : Nat) (x : Lane) (j : Nat) : (s.setLane k x).sensor j = s.sensor j := rfl
@[simp] theorem State.setLane_phase_at (s : State) (k : Nat) (x : Lane) (j : Nat) : (s.setLane k x).phase j = s.phase j := rfl
@[simp] theorem State.setLane_block_at (s : State) (k : Nat) (x : Lane) (j : Nat) : (s.setLane k x).block j = s.block j := rfl
@[simp] theorem State.setLane_line_at (s : State) (k : Nat) (x : Lane) (j : Nat) : (s.setLane k x).line j = s.line j := rfl
@[simp] theorem State.setLane_droop_at (s : State) (k : Nat) (x : Lane) (j : Nat) : (s.setLane k x).droop j = s.droop j := rfl
@[simp] theorem State.setLane_limit_at (s : State) (k : Nat) (x : Lane) (j : Nat) : (s.setLane k x).limit j = s.limit j := rfl
@[simp] theorem State.setLane_shed_at (s : State) (k : Nat) (x : Lane) (j : Nat) : (s.setLane k x).shed j = s.shed j := rfl
@[simp] theorem State.setLane_recDie_at (s : State) (k : Nat) (x : Lane) (j : Nat) : (s.setLane k x).recDie j = s.recDie j := rfl
@[simp] theorem State.setLane_nbr_at (s : State) (k : Nat) (x : Lane) (j : Nat) : (s.setLane k x).nbr j = s.nbr j := rfl
@[simp] theorem State.setLane_image_at (s : State) (k : Nat) (x : Lane) (j : Nat) : (s.setLane k x).image j = s.image j := rfl
@[simp] theorem State.setLane_spdm_at (s : State) (k : Nat) (x : Lane) (j : Nat) : (s.setLane k x).spdm j = s.spdm j := rfl

/-! ### EQueue -/

@[simp] theorem State.modQueue_eq (s : State) (k : Nat) (f : EQueue → EQueue) : s.modQueue k f = s.setQueue k (f (s.queue k)) := rfl
@[simp] theorem State.setQueue_same (s : State) (k : Nat) (x : EQueue) : (s.setQueue k x).queue k = x := mget_mset_same _ x k _
theorem State.setQueue_ne (s : State) {j k : Nat} (h : j ≠ k) (x : EQueue) : (s.setQueue k x).queue j = s.queue j := mget_mset_ne h _ x _
@[simp] theorem State.setQueue_pending (s : State) (k : Nat) (x : EQueue) : (s.setQueue k x).pending = s.pending := rfl
@[simp] theorem State.setQueue_free (s : State) (k : Nat) (x : EQueue) : (s.setQueue k x).free = s.free := rfl
@[simp] theorem State.setQueue_out (s : State) (k : Nat) (x : EQueue) : (s.setQueue k x).out = s.out := rfl
@[simp] theorem State.setQueue_clk (s : State) (k : Nat) (x : EQueue) : (s.setQueue k x).clk = s.clk := rfl
@[simp] theorem State.setQueue_evr (s : State) (k : Nat) (x : EQueue) : (s.setQueue k x).evr = s.evr := rfl
@[simp] theorem State.setQueue_chv (s : State) (k : Nat) (x : EQueue) : (s.setQueue k x).chv = s.chv := rfl
@[simp] theorem State.setQueue_ports (s : State) (k : Nat) (x : EQueue) : (s.setQueue k x).ports = s.ports := rfl
@[simp] theorem State.setQueue_lanes (s : State) (k : Nat) (x : EQueue) : (s.setQueue k x).lanes = s.lanes := rfl
@[simp] theorem State.setQueue_mf (s : State) (k : Nat) (x : EQueue) : (s.setQueue k x).mf = s.mf := rfl
@[simp] theorem State.setQueue_coh (s : State) (k : Nat) (x : EQueue) : (s.setQueue k x).coh = s.coh := rfl
@[simp] theorem State.setQueue_ctl (s : State) (k : Nat) (x : EQueue) : (s.setQueue k x).ctl = s.ctl := rfl
@[simp] theorem State.setQueue_tab (s : State) (k : Nat) (x : EQueue) : (s.setQueue k x).tab = s.tab := rfl
@[simp] theorem State.setQueue_svc (s : State) (k : Nat) (x : EQueue) : (s.setQueue k x).svc = s.svc := rfl
@[simp] theorem State.setQueue_cod (s : State) (k : Nat) (x : EQueue) : (s.setQueue k x).cod = s.cod := rfl
@[simp] theorem State.setQueue_per (s : State) (k : Nat) (x : EQueue) : (s.setQueue k x).per = s.per := rfl
@[simp] theorem State.setQueue_tier (s : State) (k : Nat) (x : EQueue) : (s.setQueue k x).tier = s.tier := rfl
@[simp] theorem State.setQueue_hst (s : State) (k : Nat) (x : EQueue) : (s.setQueue k x).hst = s.hst := rfl
@[simp] theorem State.setQueue_cx (s : State) (k : Nat) (x : EQueue) : (s.setQueue k x).cx = s.cx := rfl
@[simp] theorem State.setQueue_sec (s : State) (k : Nat) (x : EQueue) : (s.setQueue k x).sec = s.sec := rfl
@[simp] theorem State.setQueue_rel (s : State) (k : Nat) (x : EQueue) : (s.setQueue k x).rel = s.rel := rfl
@[simp] theorem State.setQueue_map (s : State) (k : Nat) (x : EQueue) : (s.setQueue k x).map = s.map := rfl
@[simp] theorem State.setQueue_boot (s : State) (k : Nat) (x : EQueue) : (s.setQueue k x).boot = s.boot := rfl
@[simp] theorem State.setQueue_port_at (s : State) (k : Nat) (x : EQueue) (j : Nat) : (s.setQueue k x).port j = s.port j := rfl
@[simp] theorem State.setQueue_lane_at (s : State) (k : Nat) (x : EQueue) (j : Nat) : (s.setQueue k x).lane j = s.lane j := rfl
@[simp] theorem State.setQueue_park_at (s : State) (k : Nat) (x : EQueue) (j : Nat) : (s.setQueue k x).park j = s.park j := rfl
@[simp] theorem State.setQueue_buf_at (s : State) (k : Nat) (x : EQueue) (j : Nat) : (s.setQueue k x).buf j = s.buf j := rfl
@[simp] theorem State.setQueue_bucket_at (s : State) (k : Nat) (x : EQueue) (j : Nat) : (s.setQueue k x).bucket j = s.bucket j := rfl
@[simp] theorem State.setQueue_gate_at (s : State) (k : Nat) (x : EQueue) (j : Nat) : (s.setQueue k x).gate j = s.gate j := rfl
@[simp] theorem State.setQueue_tile_at (s : State) (k : Nat) (x : EQueue) (j : Nat) : (s.setQueue k x).tile j = s.tile j := rfl
@[simp] theorem State.setQueue_slot_at (s : State) (k : Nat) (x : EQueue) (j : Nat) : (s.setQueue k x).slot j = s.slot j := rfl
@[simp] theorem State.setQueue_thread_at (s : State) (k : Nat) (x : EQueue) (j : Nat) : (s.setQueue k x).thread j = s.thread j := rfl
@[simp] theorem State.setQueue_plan_at (s : State) (k : Nat) (x : EQueue) (j : Nat) : (s.setQueue k x).plan j = s.plan j := rfl
@[simp] theorem State.setQueue_stream_at (s : State) (k : Nat) (x : EQueue) (j : Nat) : (s.setQueue k x).stream j = s.stream j := rfl
@[simp] theorem State.setQueue_expert_at (s : State) (k : Nat) (x : EQueue) (j : Nat) : (s.setQueue k x).expert j = s.expert j := rfl
@[simp] theorem State.setQueue_hport_at (s : State) (k : Nat) (x : EQueue) (j : Nat) : (s.setQueue k x).hport j = s.hport j := rfl
@[simp] theorem State.setQueue_func_at (s : State) (k : Nat) (x : EQueue) (j : Nat) : (s.setQueue k x).func j = s.func j := rfl
@[simp] theorem State.setQueue_fifo_at (s : State) (k : Nat) (x : EQueue) (j : Nat) : (s.setQueue k x).fifo j = s.fifo j := rfl
@[simp] theorem State.setQueue_sensor_at (s : State) (k : Nat) (x : EQueue) (j : Nat) : (s.setQueue k x).sensor j = s.sensor j := rfl
@[simp] theorem State.setQueue_phase_at (s : State) (k : Nat) (x : EQueue) (j : Nat) : (s.setQueue k x).phase j = s.phase j := rfl
@[simp] theorem State.setQueue_block_at (s : State) (k : Nat) (x : EQueue) (j : Nat) : (s.setQueue k x).block j = s.block j := rfl
@[simp] theorem State.setQueue_line_at (s : State) (k : Nat) (x : EQueue) (j : Nat) : (s.setQueue k x).line j = s.line j := rfl
@[simp] theorem State.setQueue_droop_at (s : State) (k : Nat) (x : EQueue) (j : Nat) : (s.setQueue k x).droop j = s.droop j := rfl
@[simp] theorem State.setQueue_limit_at (s : State) (k : Nat) (x : EQueue) (j : Nat) : (s.setQueue k x).limit j = s.limit j := rfl
@[simp] theorem State.setQueue_shed_at (s : State) (k : Nat) (x : EQueue) (j : Nat) : (s.setQueue k x).shed j = s.shed j := rfl
@[simp] theorem State.setQueue_recDie_at (s : State) (k : Nat) (x : EQueue) (j : Nat) : (s.setQueue k x).recDie j = s.recDie j := rfl
@[simp] theorem State.setQueue_nbr_at (s : State) (k : Nat) (x : EQueue) (j : Nat) : (s.setQueue k x).nbr j = s.nbr j := rfl
@[simp] theorem State.setQueue_image_at (s : State) (k : Nat) (x : EQueue) (j : Nat) : (s.setQueue k x).image j = s.image j := rfl
@[simp] theorem State.setQueue_spdm_at (s : State) (k : Nat) (x : EQueue) (j : Nat) : (s.setQueue k x).spdm j = s.spdm j := rfl

/-! ### ParkQ -/

@[simp] theorem State.modPark_eq (s : State) (k : Nat) (f : ParkQ → ParkQ) : s.modPark k f = s.setPark k (f (s.park k)) := rfl
@[simp] theorem State.setPark_same (s : State) (k : Nat) (x : ParkQ) : (s.setPark k x).park k = x := mget_mset_same _ x k _
theorem State.setPark_ne (s : State) {j k : Nat} (h : j ≠ k) (x : ParkQ) : (s.setPark k x).park j = s.park j := mget_mset_ne h _ x _
@[simp] theorem State.setPark_pending (s : State) (k : Nat) (x : ParkQ) : (s.setPark k x).pending = s.pending := rfl
@[simp] theorem State.setPark_free (s : State) (k : Nat) (x : ParkQ) : (s.setPark k x).free = s.free := rfl
@[simp] theorem State.setPark_out (s : State) (k : Nat) (x : ParkQ) : (s.setPark k x).out = s.out := rfl
@[simp] theorem State.setPark_clk (s : State) (k : Nat) (x : ParkQ) : (s.setPark k x).clk = s.clk := rfl
@[simp] theorem State.setPark_evr (s : State) (k : Nat) (x : ParkQ) : (s.setPark k x).evr = s.evr := rfl
@[simp] theorem State.setPark_chv (s : State) (k : Nat) (x : ParkQ) : (s.setPark k x).chv = s.chv := rfl
@[simp] theorem State.setPark_ports (s : State) (k : Nat) (x : ParkQ) : (s.setPark k x).ports = s.ports := rfl
@[simp] theorem State.setPark_lanes (s : State) (k : Nat) (x : ParkQ) : (s.setPark k x).lanes = s.lanes := rfl
@[simp] theorem State.setPark_mf (s : State) (k : Nat) (x : ParkQ) : (s.setPark k x).mf = s.mf := rfl
@[simp] theorem State.setPark_coh (s : State) (k : Nat) (x : ParkQ) : (s.setPark k x).coh = s.coh := rfl
@[simp] theorem State.setPark_ctl (s : State) (k : Nat) (x : ParkQ) : (s.setPark k x).ctl = s.ctl := rfl
@[simp] theorem State.setPark_tab (s : State) (k : Nat) (x : ParkQ) : (s.setPark k x).tab = s.tab := rfl
@[simp] theorem State.setPark_svc (s : State) (k : Nat) (x : ParkQ) : (s.setPark k x).svc = s.svc := rfl
@[simp] theorem State.setPark_cod (s : State) (k : Nat) (x : ParkQ) : (s.setPark k x).cod = s.cod := rfl
@[simp] theorem State.setPark_per (s : State) (k : Nat) (x : ParkQ) : (s.setPark k x).per = s.per := rfl
@[simp] theorem State.setPark_tier (s : State) (k : Nat) (x : ParkQ) : (s.setPark k x).tier = s.tier := rfl
@[simp] theorem State.setPark_hst (s : State) (k : Nat) (x : ParkQ) : (s.setPark k x).hst = s.hst := rfl
@[simp] theorem State.setPark_cx (s : State) (k : Nat) (x : ParkQ) : (s.setPark k x).cx = s.cx := rfl
@[simp] theorem State.setPark_sec (s : State) (k : Nat) (x : ParkQ) : (s.setPark k x).sec = s.sec := rfl
@[simp] theorem State.setPark_rel (s : State) (k : Nat) (x : ParkQ) : (s.setPark k x).rel = s.rel := rfl
@[simp] theorem State.setPark_map (s : State) (k : Nat) (x : ParkQ) : (s.setPark k x).map = s.map := rfl
@[simp] theorem State.setPark_boot (s : State) (k : Nat) (x : ParkQ) : (s.setPark k x).boot = s.boot := rfl
@[simp] theorem State.setPark_port_at (s : State) (k : Nat) (x : ParkQ) (j : Nat) : (s.setPark k x).port j = s.port j := rfl
@[simp] theorem State.setPark_lane_at (s : State) (k : Nat) (x : ParkQ) (j : Nat) : (s.setPark k x).lane j = s.lane j := rfl
@[simp] theorem State.setPark_queue_at (s : State) (k : Nat) (x : ParkQ) (j : Nat) : (s.setPark k x).queue j = s.queue j := rfl
@[simp] theorem State.setPark_buf_at (s : State) (k : Nat) (x : ParkQ) (j : Nat) : (s.setPark k x).buf j = s.buf j := rfl
@[simp] theorem State.setPark_bucket_at (s : State) (k : Nat) (x : ParkQ) (j : Nat) : (s.setPark k x).bucket j = s.bucket j := rfl
@[simp] theorem State.setPark_gate_at (s : State) (k : Nat) (x : ParkQ) (j : Nat) : (s.setPark k x).gate j = s.gate j := rfl
@[simp] theorem State.setPark_tile_at (s : State) (k : Nat) (x : ParkQ) (j : Nat) : (s.setPark k x).tile j = s.tile j := rfl
@[simp] theorem State.setPark_slot_at (s : State) (k : Nat) (x : ParkQ) (j : Nat) : (s.setPark k x).slot j = s.slot j := rfl
@[simp] theorem State.setPark_thread_at (s : State) (k : Nat) (x : ParkQ) (j : Nat) : (s.setPark k x).thread j = s.thread j := rfl
@[simp] theorem State.setPark_plan_at (s : State) (k : Nat) (x : ParkQ) (j : Nat) : (s.setPark k x).plan j = s.plan j := rfl
@[simp] theorem State.setPark_stream_at (s : State) (k : Nat) (x : ParkQ) (j : Nat) : (s.setPark k x).stream j = s.stream j := rfl
@[simp] theorem State.setPark_expert_at (s : State) (k : Nat) (x : ParkQ) (j : Nat) : (s.setPark k x).expert j = s.expert j := rfl
@[simp] theorem State.setPark_hport_at (s : State) (k : Nat) (x : ParkQ) (j : Nat) : (s.setPark k x).hport j = s.hport j := rfl
@[simp] theorem State.setPark_func_at (s : State) (k : Nat) (x : ParkQ) (j : Nat) : (s.setPark k x).func j = s.func j := rfl
@[simp] theorem State.setPark_fifo_at (s : State) (k : Nat) (x : ParkQ) (j : Nat) : (s.setPark k x).fifo j = s.fifo j := rfl
@[simp] theorem State.setPark_sensor_at (s : State) (k : Nat) (x : ParkQ) (j : Nat) : (s.setPark k x).sensor j = s.sensor j := rfl
@[simp] theorem State.setPark_phase_at (s : State) (k : Nat) (x : ParkQ) (j : Nat) : (s.setPark k x).phase j = s.phase j := rfl
@[simp] theorem State.setPark_block_at (s : State) (k : Nat) (x : ParkQ) (j : Nat) : (s.setPark k x).block j = s.block j := rfl
@[simp] theorem State.setPark_line_at (s : State) (k : Nat) (x : ParkQ) (j : Nat) : (s.setPark k x).line j = s.line j := rfl
@[simp] theorem State.setPark_droop_at (s : State) (k : Nat) (x : ParkQ) (j : Nat) : (s.setPark k x).droop j = s.droop j := rfl
@[simp] theorem State.setPark_limit_at (s : State) (k : Nat) (x : ParkQ) (j : Nat) : (s.setPark k x).limit j = s.limit j := rfl
@[simp] theorem State.setPark_shed_at (s : State) (k : Nat) (x : ParkQ) (j : Nat) : (s.setPark k x).shed j = s.shed j := rfl
@[simp] theorem State.setPark_recDie_at (s : State) (k : Nat) (x : ParkQ) (j : Nat) : (s.setPark k x).recDie j = s.recDie j := rfl
@[simp] theorem State.setPark_nbr_at (s : State) (k : Nat) (x : ParkQ) (j : Nat) : (s.setPark k x).nbr j = s.nbr j := rfl
@[simp] theorem State.setPark_image_at (s : State) (k : Nat) (x : ParkQ) (j : Nat) : (s.setPark k x).image j = s.image j := rfl
@[simp] theorem State.setPark_spdm_at (s : State) (k : Nat) (x : ParkQ) (j : Nat) : (s.setPark k x).spdm j = s.spdm j := rfl

/-! ### BufDie -/

@[simp] theorem State.modBuf_eq (s : State) (k : Nat) (f : BufDie → BufDie) : s.modBuf k f = s.setBuf k (f (s.buf k)) := rfl
@[simp] theorem State.setBuf_same (s : State) (k : Nat) (x : BufDie) : (s.setBuf k x).buf k = x := mget_mset_same _ x k _
theorem State.setBuf_ne (s : State) {j k : Nat} (h : j ≠ k) (x : BufDie) : (s.setBuf k x).buf j = s.buf j := mget_mset_ne h _ x _
@[simp] theorem State.setBuf_pending (s : State) (k : Nat) (x : BufDie) : (s.setBuf k x).pending = s.pending := rfl
@[simp] theorem State.setBuf_free (s : State) (k : Nat) (x : BufDie) : (s.setBuf k x).free = s.free := rfl
@[simp] theorem State.setBuf_out (s : State) (k : Nat) (x : BufDie) : (s.setBuf k x).out = s.out := rfl
@[simp] theorem State.setBuf_clk (s : State) (k : Nat) (x : BufDie) : (s.setBuf k x).clk = s.clk := rfl
@[simp] theorem State.setBuf_evr (s : State) (k : Nat) (x : BufDie) : (s.setBuf k x).evr = s.evr := rfl
@[simp] theorem State.setBuf_chv (s : State) (k : Nat) (x : BufDie) : (s.setBuf k x).chv = s.chv := rfl
@[simp] theorem State.setBuf_ports (s : State) (k : Nat) (x : BufDie) : (s.setBuf k x).ports = s.ports := rfl
@[simp] theorem State.setBuf_lanes (s : State) (k : Nat) (x : BufDie) : (s.setBuf k x).lanes = s.lanes := rfl
@[simp] theorem State.setBuf_mf (s : State) (k : Nat) (x : BufDie) : (s.setBuf k x).mf = s.mf := rfl
@[simp] theorem State.setBuf_coh (s : State) (k : Nat) (x : BufDie) : (s.setBuf k x).coh = s.coh := rfl
@[simp] theorem State.setBuf_ctl (s : State) (k : Nat) (x : BufDie) : (s.setBuf k x).ctl = s.ctl := rfl
@[simp] theorem State.setBuf_tab (s : State) (k : Nat) (x : BufDie) : (s.setBuf k x).tab = s.tab := rfl
@[simp] theorem State.setBuf_svc (s : State) (k : Nat) (x : BufDie) : (s.setBuf k x).svc = s.svc := rfl
@[simp] theorem State.setBuf_cod (s : State) (k : Nat) (x : BufDie) : (s.setBuf k x).cod = s.cod := rfl
@[simp] theorem State.setBuf_per (s : State) (k : Nat) (x : BufDie) : (s.setBuf k x).per = s.per := rfl
@[simp] theorem State.setBuf_tier (s : State) (k : Nat) (x : BufDie) : (s.setBuf k x).tier = s.tier := rfl
@[simp] theorem State.setBuf_hst (s : State) (k : Nat) (x : BufDie) : (s.setBuf k x).hst = s.hst := rfl
@[simp] theorem State.setBuf_cx (s : State) (k : Nat) (x : BufDie) : (s.setBuf k x).cx = s.cx := rfl
@[simp] theorem State.setBuf_sec (s : State) (k : Nat) (x : BufDie) : (s.setBuf k x).sec = s.sec := rfl
@[simp] theorem State.setBuf_rel (s : State) (k : Nat) (x : BufDie) : (s.setBuf k x).rel = s.rel := rfl
@[simp] theorem State.setBuf_map (s : State) (k : Nat) (x : BufDie) : (s.setBuf k x).map = s.map := rfl
@[simp] theorem State.setBuf_boot (s : State) (k : Nat) (x : BufDie) : (s.setBuf k x).boot = s.boot := rfl
@[simp] theorem State.setBuf_port_at (s : State) (k : Nat) (x : BufDie) (j : Nat) : (s.setBuf k x).port j = s.port j := rfl
@[simp] theorem State.setBuf_lane_at (s : State) (k : Nat) (x : BufDie) (j : Nat) : (s.setBuf k x).lane j = s.lane j := rfl
@[simp] theorem State.setBuf_queue_at (s : State) (k : Nat) (x : BufDie) (j : Nat) : (s.setBuf k x).queue j = s.queue j := rfl
@[simp] theorem State.setBuf_park_at (s : State) (k : Nat) (x : BufDie) (j : Nat) : (s.setBuf k x).park j = s.park j := rfl
@[simp] theorem State.setBuf_bucket_at (s : State) (k : Nat) (x : BufDie) (j : Nat) : (s.setBuf k x).bucket j = s.bucket j := rfl
@[simp] theorem State.setBuf_gate_at (s : State) (k : Nat) (x : BufDie) (j : Nat) : (s.setBuf k x).gate j = s.gate j := rfl
@[simp] theorem State.setBuf_tile_at (s : State) (k : Nat) (x : BufDie) (j : Nat) : (s.setBuf k x).tile j = s.tile j := rfl
@[simp] theorem State.setBuf_slot_at (s : State) (k : Nat) (x : BufDie) (j : Nat) : (s.setBuf k x).slot j = s.slot j := rfl
@[simp] theorem State.setBuf_thread_at (s : State) (k : Nat) (x : BufDie) (j : Nat) : (s.setBuf k x).thread j = s.thread j := rfl
@[simp] theorem State.setBuf_plan_at (s : State) (k : Nat) (x : BufDie) (j : Nat) : (s.setBuf k x).plan j = s.plan j := rfl
@[simp] theorem State.setBuf_stream_at (s : State) (k : Nat) (x : BufDie) (j : Nat) : (s.setBuf k x).stream j = s.stream j := rfl
@[simp] theorem State.setBuf_expert_at (s : State) (k : Nat) (x : BufDie) (j : Nat) : (s.setBuf k x).expert j = s.expert j := rfl
@[simp] theorem State.setBuf_hport_at (s : State) (k : Nat) (x : BufDie) (j : Nat) : (s.setBuf k x).hport j = s.hport j := rfl
@[simp] theorem State.setBuf_func_at (s : State) (k : Nat) (x : BufDie) (j : Nat) : (s.setBuf k x).func j = s.func j := rfl
@[simp] theorem State.setBuf_fifo_at (s : State) (k : Nat) (x : BufDie) (j : Nat) : (s.setBuf k x).fifo j = s.fifo j := rfl
@[simp] theorem State.setBuf_sensor_at (s : State) (k : Nat) (x : BufDie) (j : Nat) : (s.setBuf k x).sensor j = s.sensor j := rfl
@[simp] theorem State.setBuf_phase_at (s : State) (k : Nat) (x : BufDie) (j : Nat) : (s.setBuf k x).phase j = s.phase j := rfl
@[simp] theorem State.setBuf_block_at (s : State) (k : Nat) (x : BufDie) (j : Nat) : (s.setBuf k x).block j = s.block j := rfl
@[simp] theorem State.setBuf_line_at (s : State) (k : Nat) (x : BufDie) (j : Nat) : (s.setBuf k x).line j = s.line j := rfl
@[simp] theorem State.setBuf_droop_at (s : State) (k : Nat) (x : BufDie) (j : Nat) : (s.setBuf k x).droop j = s.droop j := rfl
@[simp] theorem State.setBuf_limit_at (s : State) (k : Nat) (x : BufDie) (j : Nat) : (s.setBuf k x).limit j = s.limit j := rfl
@[simp] theorem State.setBuf_shed_at (s : State) (k : Nat) (x : BufDie) (j : Nat) : (s.setBuf k x).shed j = s.shed j := rfl
@[simp] theorem State.setBuf_recDie_at (s : State) (k : Nat) (x : BufDie) (j : Nat) : (s.setBuf k x).recDie j = s.recDie j := rfl
@[simp] theorem State.setBuf_nbr_at (s : State) (k : Nat) (x : BufDie) (j : Nat) : (s.setBuf k x).nbr j = s.nbr j := rfl
@[simp] theorem State.setBuf_image_at (s : State) (k : Nat) (x : BufDie) (j : Nat) : (s.setBuf k x).image j = s.image j := rfl
@[simp] theorem State.setBuf_spdm_at (s : State) (k : Nat) (x : BufDie) (j : Nat) : (s.setBuf k x).spdm j = s.spdm j := rfl

/-! ### Buckets -/

@[simp] theorem State.modBucket_eq (s : State) (k : Nat) (f : Buckets → Buckets) : s.modBucket k f = s.setBucket k (f (s.bucket k)) := rfl
@[simp] theorem State.setBucket_same (s : State) (k : Nat) (x : Buckets) : (s.setBucket k x).bucket k = x := mget_mset_same _ x k _
theorem State.setBucket_ne (s : State) {j k : Nat} (h : j ≠ k) (x : Buckets) : (s.setBucket k x).bucket j = s.bucket j := mget_mset_ne h _ x _
@[simp] theorem State.setBucket_pending (s : State) (k : Nat) (x : Buckets) : (s.setBucket k x).pending = s.pending := rfl
@[simp] theorem State.setBucket_free (s : State) (k : Nat) (x : Buckets) : (s.setBucket k x).free = s.free := rfl
@[simp] theorem State.setBucket_out (s : State) (k : Nat) (x : Buckets) : (s.setBucket k x).out = s.out := rfl
@[simp] theorem State.setBucket_clk (s : State) (k : Nat) (x : Buckets) : (s.setBucket k x).clk = s.clk := rfl
@[simp] theorem State.setBucket_evr (s : State) (k : Nat) (x : Buckets) : (s.setBucket k x).evr = s.evr := rfl
@[simp] theorem State.setBucket_chv (s : State) (k : Nat) (x : Buckets) : (s.setBucket k x).chv = s.chv := rfl
@[simp] theorem State.setBucket_ports (s : State) (k : Nat) (x : Buckets) : (s.setBucket k x).ports = s.ports := rfl
@[simp] theorem State.setBucket_lanes (s : State) (k : Nat) (x : Buckets) : (s.setBucket k x).lanes = s.lanes := rfl
@[simp] theorem State.setBucket_mf (s : State) (k : Nat) (x : Buckets) : (s.setBucket k x).mf = s.mf := rfl
@[simp] theorem State.setBucket_coh (s : State) (k : Nat) (x : Buckets) : (s.setBucket k x).coh = s.coh := rfl
@[simp] theorem State.setBucket_ctl (s : State) (k : Nat) (x : Buckets) : (s.setBucket k x).ctl = s.ctl := rfl
@[simp] theorem State.setBucket_tab (s : State) (k : Nat) (x : Buckets) : (s.setBucket k x).tab = s.tab := rfl
@[simp] theorem State.setBucket_svc (s : State) (k : Nat) (x : Buckets) : (s.setBucket k x).svc = s.svc := rfl
@[simp] theorem State.setBucket_cod (s : State) (k : Nat) (x : Buckets) : (s.setBucket k x).cod = s.cod := rfl
@[simp] theorem State.setBucket_per (s : State) (k : Nat) (x : Buckets) : (s.setBucket k x).per = s.per := rfl
@[simp] theorem State.setBucket_tier (s : State) (k : Nat) (x : Buckets) : (s.setBucket k x).tier = s.tier := rfl
@[simp] theorem State.setBucket_hst (s : State) (k : Nat) (x : Buckets) : (s.setBucket k x).hst = s.hst := rfl
@[simp] theorem State.setBucket_cx (s : State) (k : Nat) (x : Buckets) : (s.setBucket k x).cx = s.cx := rfl
@[simp] theorem State.setBucket_sec (s : State) (k : Nat) (x : Buckets) : (s.setBucket k x).sec = s.sec := rfl
@[simp] theorem State.setBucket_rel (s : State) (k : Nat) (x : Buckets) : (s.setBucket k x).rel = s.rel := rfl
@[simp] theorem State.setBucket_map (s : State) (k : Nat) (x : Buckets) : (s.setBucket k x).map = s.map := rfl
@[simp] theorem State.setBucket_boot (s : State) (k : Nat) (x : Buckets) : (s.setBucket k x).boot = s.boot := rfl
@[simp] theorem State.setBucket_port_at (s : State) (k : Nat) (x : Buckets) (j : Nat) : (s.setBucket k x).port j = s.port j := rfl
@[simp] theorem State.setBucket_lane_at (s : State) (k : Nat) (x : Buckets) (j : Nat) : (s.setBucket k x).lane j = s.lane j := rfl
@[simp] theorem State.setBucket_queue_at (s : State) (k : Nat) (x : Buckets) (j : Nat) : (s.setBucket k x).queue j = s.queue j := rfl
@[simp] theorem State.setBucket_park_at (s : State) (k : Nat) (x : Buckets) (j : Nat) : (s.setBucket k x).park j = s.park j := rfl
@[simp] theorem State.setBucket_buf_at (s : State) (k : Nat) (x : Buckets) (j : Nat) : (s.setBucket k x).buf j = s.buf j := rfl
@[simp] theorem State.setBucket_gate_at (s : State) (k : Nat) (x : Buckets) (j : Nat) : (s.setBucket k x).gate j = s.gate j := rfl
@[simp] theorem State.setBucket_tile_at (s : State) (k : Nat) (x : Buckets) (j : Nat) : (s.setBucket k x).tile j = s.tile j := rfl
@[simp] theorem State.setBucket_slot_at (s : State) (k : Nat) (x : Buckets) (j : Nat) : (s.setBucket k x).slot j = s.slot j := rfl
@[simp] theorem State.setBucket_thread_at (s : State) (k : Nat) (x : Buckets) (j : Nat) : (s.setBucket k x).thread j = s.thread j := rfl
@[simp] theorem State.setBucket_plan_at (s : State) (k : Nat) (x : Buckets) (j : Nat) : (s.setBucket k x).plan j = s.plan j := rfl
@[simp] theorem State.setBucket_stream_at (s : State) (k : Nat) (x : Buckets) (j : Nat) : (s.setBucket k x).stream j = s.stream j := rfl
@[simp] theorem State.setBucket_expert_at (s : State) (k : Nat) (x : Buckets) (j : Nat) : (s.setBucket k x).expert j = s.expert j := rfl
@[simp] theorem State.setBucket_hport_at (s : State) (k : Nat) (x : Buckets) (j : Nat) : (s.setBucket k x).hport j = s.hport j := rfl
@[simp] theorem State.setBucket_func_at (s : State) (k : Nat) (x : Buckets) (j : Nat) : (s.setBucket k x).func j = s.func j := rfl
@[simp] theorem State.setBucket_fifo_at (s : State) (k : Nat) (x : Buckets) (j : Nat) : (s.setBucket k x).fifo j = s.fifo j := rfl
@[simp] theorem State.setBucket_sensor_at (s : State) (k : Nat) (x : Buckets) (j : Nat) : (s.setBucket k x).sensor j = s.sensor j := rfl
@[simp] theorem State.setBucket_phase_at (s : State) (k : Nat) (x : Buckets) (j : Nat) : (s.setBucket k x).phase j = s.phase j := rfl
@[simp] theorem State.setBucket_block_at (s : State) (k : Nat) (x : Buckets) (j : Nat) : (s.setBucket k x).block j = s.block j := rfl
@[simp] theorem State.setBucket_line_at (s : State) (k : Nat) (x : Buckets) (j : Nat) : (s.setBucket k x).line j = s.line j := rfl
@[simp] theorem State.setBucket_droop_at (s : State) (k : Nat) (x : Buckets) (j : Nat) : (s.setBucket k x).droop j = s.droop j := rfl
@[simp] theorem State.setBucket_limit_at (s : State) (k : Nat) (x : Buckets) (j : Nat) : (s.setBucket k x).limit j = s.limit j := rfl
@[simp] theorem State.setBucket_shed_at (s : State) (k : Nat) (x : Buckets) (j : Nat) : (s.setBucket k x).shed j = s.shed j := rfl
@[simp] theorem State.setBucket_recDie_at (s : State) (k : Nat) (x : Buckets) (j : Nat) : (s.setBucket k x).recDie j = s.recDie j := rfl
@[simp] theorem State.setBucket_nbr_at (s : State) (k : Nat) (x : Buckets) (j : Nat) : (s.setBucket k x).nbr j = s.nbr j := rfl
@[simp] theorem State.setBucket_image_at (s : State) (k : Nat) (x : Buckets) (j : Nat) : (s.setBucket k x).image j = s.image j := rfl
@[simp] theorem State.setBucket_spdm_at (s : State) (k : Nat) (x : Buckets) (j : Nat) : (s.setBucket k x).spdm j = s.spdm j := rfl

/-! ### Gate -/

@[simp] theorem State.modGate_eq (s : State) (k : Nat) (f : Gate → Gate) : s.modGate k f = s.setGate k (f (s.gate k)) := rfl
@[simp] theorem State.setGate_same (s : State) (k : Nat) (x : Gate) : (s.setGate k x).gate k = x := mget_mset_same _ x k _
theorem State.setGate_ne (s : State) {j k : Nat} (h : j ≠ k) (x : Gate) : (s.setGate k x).gate j = s.gate j := mget_mset_ne h _ x _
@[simp] theorem State.setGate_pending (s : State) (k : Nat) (x : Gate) : (s.setGate k x).pending = s.pending := rfl
@[simp] theorem State.setGate_free (s : State) (k : Nat) (x : Gate) : (s.setGate k x).free = s.free := rfl
@[simp] theorem State.setGate_out (s : State) (k : Nat) (x : Gate) : (s.setGate k x).out = s.out := rfl
@[simp] theorem State.setGate_clk (s : State) (k : Nat) (x : Gate) : (s.setGate k x).clk = s.clk := rfl
@[simp] theorem State.setGate_evr (s : State) (k : Nat) (x : Gate) : (s.setGate k x).evr = s.evr := rfl
@[simp] theorem State.setGate_chv (s : State) (k : Nat) (x : Gate) : (s.setGate k x).chv = s.chv := rfl
@[simp] theorem State.setGate_ports (s : State) (k : Nat) (x : Gate) : (s.setGate k x).ports = s.ports := rfl
@[simp] theorem State.setGate_lanes (s : State) (k : Nat) (x : Gate) : (s.setGate k x).lanes = s.lanes := rfl
@[simp] theorem State.setGate_mf (s : State) (k : Nat) (x : Gate) : (s.setGate k x).mf = s.mf := rfl
@[simp] theorem State.setGate_coh (s : State) (k : Nat) (x : Gate) : (s.setGate k x).coh = s.coh := rfl
@[simp] theorem State.setGate_ctl (s : State) (k : Nat) (x : Gate) : (s.setGate k x).ctl = s.ctl := rfl
@[simp] theorem State.setGate_tab (s : State) (k : Nat) (x : Gate) : (s.setGate k x).tab = s.tab := rfl
@[simp] theorem State.setGate_svc (s : State) (k : Nat) (x : Gate) : (s.setGate k x).svc = s.svc := rfl
@[simp] theorem State.setGate_cod (s : State) (k : Nat) (x : Gate) : (s.setGate k x).cod = s.cod := rfl
@[simp] theorem State.setGate_per (s : State) (k : Nat) (x : Gate) : (s.setGate k x).per = s.per := rfl
@[simp] theorem State.setGate_tier (s : State) (k : Nat) (x : Gate) : (s.setGate k x).tier = s.tier := rfl
@[simp] theorem State.setGate_hst (s : State) (k : Nat) (x : Gate) : (s.setGate k x).hst = s.hst := rfl
@[simp] theorem State.setGate_cx (s : State) (k : Nat) (x : Gate) : (s.setGate k x).cx = s.cx := rfl
@[simp] theorem State.setGate_sec (s : State) (k : Nat) (x : Gate) : (s.setGate k x).sec = s.sec := rfl
@[simp] theorem State.setGate_rel (s : State) (k : Nat) (x : Gate) : (s.setGate k x).rel = s.rel := rfl
@[simp] theorem State.setGate_map (s : State) (k : Nat) (x : Gate) : (s.setGate k x).map = s.map := rfl
@[simp] theorem State.setGate_boot (s : State) (k : Nat) (x : Gate) : (s.setGate k x).boot = s.boot := rfl
@[simp] theorem State.setGate_port_at (s : State) (k : Nat) (x : Gate) (j : Nat) : (s.setGate k x).port j = s.port j := rfl
@[simp] theorem State.setGate_lane_at (s : State) (k : Nat) (x : Gate) (j : Nat) : (s.setGate k x).lane j = s.lane j := rfl
@[simp] theorem State.setGate_queue_at (s : State) (k : Nat) (x : Gate) (j : Nat) : (s.setGate k x).queue j = s.queue j := rfl
@[simp] theorem State.setGate_park_at (s : State) (k : Nat) (x : Gate) (j : Nat) : (s.setGate k x).park j = s.park j := rfl
@[simp] theorem State.setGate_buf_at (s : State) (k : Nat) (x : Gate) (j : Nat) : (s.setGate k x).buf j = s.buf j := rfl
@[simp] theorem State.setGate_bucket_at (s : State) (k : Nat) (x : Gate) (j : Nat) : (s.setGate k x).bucket j = s.bucket j := rfl
@[simp] theorem State.setGate_tile_at (s : State) (k : Nat) (x : Gate) (j : Nat) : (s.setGate k x).tile j = s.tile j := rfl
@[simp] theorem State.setGate_slot_at (s : State) (k : Nat) (x : Gate) (j : Nat) : (s.setGate k x).slot j = s.slot j := rfl
@[simp] theorem State.setGate_thread_at (s : State) (k : Nat) (x : Gate) (j : Nat) : (s.setGate k x).thread j = s.thread j := rfl
@[simp] theorem State.setGate_plan_at (s : State) (k : Nat) (x : Gate) (j : Nat) : (s.setGate k x).plan j = s.plan j := rfl
@[simp] theorem State.setGate_stream_at (s : State) (k : Nat) (x : Gate) (j : Nat) : (s.setGate k x).stream j = s.stream j := rfl
@[simp] theorem State.setGate_expert_at (s : State) (k : Nat) (x : Gate) (j : Nat) : (s.setGate k x).expert j = s.expert j := rfl
@[simp] theorem State.setGate_hport_at (s : State) (k : Nat) (x : Gate) (j : Nat) : (s.setGate k x).hport j = s.hport j := rfl
@[simp] theorem State.setGate_func_at (s : State) (k : Nat) (x : Gate) (j : Nat) : (s.setGate k x).func j = s.func j := rfl
@[simp] theorem State.setGate_fifo_at (s : State) (k : Nat) (x : Gate) (j : Nat) : (s.setGate k x).fifo j = s.fifo j := rfl
@[simp] theorem State.setGate_sensor_at (s : State) (k : Nat) (x : Gate) (j : Nat) : (s.setGate k x).sensor j = s.sensor j := rfl
@[simp] theorem State.setGate_phase_at (s : State) (k : Nat) (x : Gate) (j : Nat) : (s.setGate k x).phase j = s.phase j := rfl
@[simp] theorem State.setGate_block_at (s : State) (k : Nat) (x : Gate) (j : Nat) : (s.setGate k x).block j = s.block j := rfl
@[simp] theorem State.setGate_line_at (s : State) (k : Nat) (x : Gate) (j : Nat) : (s.setGate k x).line j = s.line j := rfl
@[simp] theorem State.setGate_droop_at (s : State) (k : Nat) (x : Gate) (j : Nat) : (s.setGate k x).droop j = s.droop j := rfl
@[simp] theorem State.setGate_limit_at (s : State) (k : Nat) (x : Gate) (j : Nat) : (s.setGate k x).limit j = s.limit j := rfl
@[simp] theorem State.setGate_shed_at (s : State) (k : Nat) (x : Gate) (j : Nat) : (s.setGate k x).shed j = s.shed j := rfl
@[simp] theorem State.setGate_recDie_at (s : State) (k : Nat) (x : Gate) (j : Nat) : (s.setGate k x).recDie j = s.recDie j := rfl
@[simp] theorem State.setGate_nbr_at (s : State) (k : Nat) (x : Gate) (j : Nat) : (s.setGate k x).nbr j = s.nbr j := rfl
@[simp] theorem State.setGate_image_at (s : State) (k : Nat) (x : Gate) (j : Nat) : (s.setGate k x).image j = s.image j := rfl
@[simp] theorem State.setGate_spdm_at (s : State) (k : Nat) (x : Gate) (j : Nat) : (s.setGate k x).spdm j = s.spdm j := rfl

/-! ### Tile -/

@[simp] theorem State.modTile_eq (s : State) (k : Nat) (f : Tile → Tile) : s.modTile k f = s.setTile k (f (s.tile k)) := rfl
@[simp] theorem State.setTile_same (s : State) (k : Nat) (x : Tile) : (s.setTile k x).tile k = x := mget_mset_same _ x k _
theorem State.setTile_ne (s : State) {j k : Nat} (h : j ≠ k) (x : Tile) : (s.setTile k x).tile j = s.tile j := mget_mset_ne h _ x _
@[simp] theorem State.setTile_pending (s : State) (k : Nat) (x : Tile) : (s.setTile k x).pending = s.pending := rfl
@[simp] theorem State.setTile_free (s : State) (k : Nat) (x : Tile) : (s.setTile k x).free = s.free := rfl
@[simp] theorem State.setTile_out (s : State) (k : Nat) (x : Tile) : (s.setTile k x).out = s.out := rfl
@[simp] theorem State.setTile_clk (s : State) (k : Nat) (x : Tile) : (s.setTile k x).clk = s.clk := rfl
@[simp] theorem State.setTile_evr (s : State) (k : Nat) (x : Tile) : (s.setTile k x).evr = s.evr := rfl
@[simp] theorem State.setTile_chv (s : State) (k : Nat) (x : Tile) : (s.setTile k x).chv = s.chv := rfl
@[simp] theorem State.setTile_ports (s : State) (k : Nat) (x : Tile) : (s.setTile k x).ports = s.ports := rfl
@[simp] theorem State.setTile_lanes (s : State) (k : Nat) (x : Tile) : (s.setTile k x).lanes = s.lanes := rfl
@[simp] theorem State.setTile_sw (s : State) (k : Nat) (x : Tile) : (s.setTile k x).sw = s.sw := rfl
@[simp] theorem State.setTile_mf (s : State) (k : Nat) (x : Tile) : (s.setTile k x).mf = s.mf := rfl
@[simp] theorem State.setTile_coh (s : State) (k : Nat) (x : Tile) : (s.setTile k x).coh = s.coh := rfl
@[simp] theorem State.setTile_tab (s : State) (k : Nat) (x : Tile) : (s.setTile k x).tab = s.tab := rfl
@[simp] theorem State.setTile_svc (s : State) (k : Nat) (x : Tile) : (s.setTile k x).svc = s.svc := rfl
@[simp] theorem State.setTile_cod (s : State) (k : Nat) (x : Tile) : (s.setTile k x).cod = s.cod := rfl
@[simp] theorem State.setTile_per (s : State) (k : Nat) (x : Tile) : (s.setTile k x).per = s.per := rfl
@[simp] theorem State.setTile_tier (s : State) (k : Nat) (x : Tile) : (s.setTile k x).tier = s.tier := rfl
@[simp] theorem State.setTile_hst (s : State) (k : Nat) (x : Tile) : (s.setTile k x).hst = s.hst := rfl
@[simp] theorem State.setTile_cx (s : State) (k : Nat) (x : Tile) : (s.setTile k x).cx = s.cx := rfl
@[simp] theorem State.setTile_sec (s : State) (k : Nat) (x : Tile) : (s.setTile k x).sec = s.sec := rfl
@[simp] theorem State.setTile_rel (s : State) (k : Nat) (x : Tile) : (s.setTile k x).rel = s.rel := rfl
@[simp] theorem State.setTile_map (s : State) (k : Nat) (x : Tile) : (s.setTile k x).map = s.map := rfl
@[simp] theorem State.setTile_boot (s : State) (k : Nat) (x : Tile) : (s.setTile k x).boot = s.boot := rfl
@[simp] theorem State.setTile_port_at (s : State) (k : Nat) (x : Tile) (j : Nat) : (s.setTile k x).port j = s.port j := rfl
@[simp] theorem State.setTile_lane_at (s : State) (k : Nat) (x : Tile) (j : Nat) : (s.setTile k x).lane j = s.lane j := rfl
@[simp] theorem State.setTile_queue_at (s : State) (k : Nat) (x : Tile) (j : Nat) : (s.setTile k x).queue j = s.queue j := rfl
@[simp] theorem State.setTile_park_at (s : State) (k : Nat) (x : Tile) (j : Nat) : (s.setTile k x).park j = s.park j := rfl
@[simp] theorem State.setTile_buf_at (s : State) (k : Nat) (x : Tile) (j : Nat) : (s.setTile k x).buf j = s.buf j := rfl
@[simp] theorem State.setTile_bucket_at (s : State) (k : Nat) (x : Tile) (j : Nat) : (s.setTile k x).bucket j = s.bucket j := rfl
@[simp] theorem State.setTile_gate_at (s : State) (k : Nat) (x : Tile) (j : Nat) : (s.setTile k x).gate j = s.gate j := rfl
@[simp] theorem State.setTile_slot_at (s : State) (k : Nat) (x : Tile) (j : Nat) : (s.setTile k x).slot j = s.slot j := rfl
@[simp] theorem State.setTile_thread_at (s : State) (k : Nat) (x : Tile) (j : Nat) : (s.setTile k x).thread j = s.thread j := rfl
@[simp] theorem State.setTile_plan_at (s : State) (k : Nat) (x : Tile) (j : Nat) : (s.setTile k x).plan j = s.plan j := rfl
@[simp] theorem State.setTile_stream_at (s : State) (k : Nat) (x : Tile) (j : Nat) : (s.setTile k x).stream j = s.stream j := rfl
@[simp] theorem State.setTile_expert_at (s : State) (k : Nat) (x : Tile) (j : Nat) : (s.setTile k x).expert j = s.expert j := rfl
@[simp] theorem State.setTile_hport_at (s : State) (k : Nat) (x : Tile) (j : Nat) : (s.setTile k x).hport j = s.hport j := rfl
@[simp] theorem State.setTile_func_at (s : State) (k : Nat) (x : Tile) (j : Nat) : (s.setTile k x).func j = s.func j := rfl
@[simp] theorem State.setTile_fifo_at (s : State) (k : Nat) (x : Tile) (j : Nat) : (s.setTile k x).fifo j = s.fifo j := rfl
@[simp] theorem State.setTile_sensor_at (s : State) (k : Nat) (x : Tile) (j : Nat) : (s.setTile k x).sensor j = s.sensor j := rfl
@[simp] theorem State.setTile_phase_at (s : State) (k : Nat) (x : Tile) (j : Nat) : (s.setTile k x).phase j = s.phase j := rfl
@[simp] theorem State.setTile_block_at (s : State) (k : Nat) (x : Tile) (j : Nat) : (s.setTile k x).block j = s.block j := rfl
@[simp] theorem State.setTile_line_at (s : State) (k : Nat) (x : Tile) (j : Nat) : (s.setTile k x).line j = s.line j := rfl
@[simp] theorem State.setTile_droop_at (s : State) (k : Nat) (x : Tile) (j : Nat) : (s.setTile k x).droop j = s.droop j := rfl
@[simp] theorem State.setTile_limit_at (s : State) (k : Nat) (x : Tile) (j : Nat) : (s.setTile k x).limit j = s.limit j := rfl
@[simp] theorem State.setTile_shed_at (s : State) (k : Nat) (x : Tile) (j : Nat) : (s.setTile k x).shed j = s.shed j := rfl
@[simp] theorem State.setTile_recDie_at (s : State) (k : Nat) (x : Tile) (j : Nat) : (s.setTile k x).recDie j = s.recDie j := rfl
@[simp] theorem State.setTile_nbr_at (s : State) (k : Nat) (x : Tile) (j : Nat) : (s.setTile k x).nbr j = s.nbr j := rfl
@[simp] theorem State.setTile_image_at (s : State) (k : Nat) (x : Tile) (j : Nat) : (s.setTile k x).image j = s.image j := rfl
@[simp] theorem State.setTile_spdm_at (s : State) (k : Nat) (x : Tile) (j : Nat) : (s.setTile k x).spdm j = s.spdm j := rfl

/-! ### Slot -/

@[simp] theorem State.modSlot_eq (s : State) (k : Nat) (f : Slot → Slot) : s.modSlot k f = s.setSlot k (f (s.slot k)) := rfl
@[simp] theorem State.setSlot_same (s : State) (k : Nat) (x : Slot) : (s.setSlot k x).slot k = x := mget_mset_same _ x k _
theorem State.setSlot_ne (s : State) {j k : Nat} (h : j ≠ k) (x : Slot) : (s.setSlot k x).slot j = s.slot j := mget_mset_ne h _ x _
@[simp] theorem State.setSlot_pending (s : State) (k : Nat) (x : Slot) : (s.setSlot k x).pending = s.pending := rfl
@[simp] theorem State.setSlot_free (s : State) (k : Nat) (x : Slot) : (s.setSlot k x).free = s.free := rfl
@[simp] theorem State.setSlot_out (s : State) (k : Nat) (x : Slot) : (s.setSlot k x).out = s.out := rfl
@[simp] theorem State.setSlot_clk (s : State) (k : Nat) (x : Slot) : (s.setSlot k x).clk = s.clk := rfl
@[simp] theorem State.setSlot_evr (s : State) (k : Nat) (x : Slot) : (s.setSlot k x).evr = s.evr := rfl
@[simp] theorem State.setSlot_chv (s : State) (k : Nat) (x : Slot) : (s.setSlot k x).chv = s.chv := rfl
@[simp] theorem State.setSlot_ports (s : State) (k : Nat) (x : Slot) : (s.setSlot k x).ports = s.ports := rfl
@[simp] theorem State.setSlot_lanes (s : State) (k : Nat) (x : Slot) : (s.setSlot k x).lanes = s.lanes := rfl
@[simp] theorem State.setSlot_sw (s : State) (k : Nat) (x : Slot) : (s.setSlot k x).sw = s.sw := rfl
@[simp] theorem State.setSlot_mf (s : State) (k : Nat) (x : Slot) : (s.setSlot k x).mf = s.mf := rfl
@[simp] theorem State.setSlot_coh (s : State) (k : Nat) (x : Slot) : (s.setSlot k x).coh = s.coh := rfl
@[simp] theorem State.setSlot_tab (s : State) (k : Nat) (x : Slot) : (s.setSlot k x).tab = s.tab := rfl
@[simp] theorem State.setSlot_svc (s : State) (k : Nat) (x : Slot) : (s.setSlot k x).svc = s.svc := rfl
@[simp] theorem State.setSlot_cod (s : State) (k : Nat) (x : Slot) : (s.setSlot k x).cod = s.cod := rfl
@[simp] theorem State.setSlot_per (s : State) (k : Nat) (x : Slot) : (s.setSlot k x).per = s.per := rfl
@[simp] theorem State.setSlot_tier (s : State) (k : Nat) (x : Slot) : (s.setSlot k x).tier = s.tier := rfl
@[simp] theorem State.setSlot_hst (s : State) (k : Nat) (x : Slot) : (s.setSlot k x).hst = s.hst := rfl
@[simp] theorem State.setSlot_cx (s : State) (k : Nat) (x : Slot) : (s.setSlot k x).cx = s.cx := rfl
@[simp] theorem State.setSlot_sec (s : State) (k : Nat) (x : Slot) : (s.setSlot k x).sec = s.sec := rfl
@[simp] theorem State.setSlot_rel (s : State) (k : Nat) (x : Slot) : (s.setSlot k x).rel = s.rel := rfl
@[simp] theorem State.setSlot_map (s : State) (k : Nat) (x : Slot) : (s.setSlot k x).map = s.map := rfl
@[simp] theorem State.setSlot_boot (s : State) (k : Nat) (x : Slot) : (s.setSlot k x).boot = s.boot := rfl
@[simp] theorem State.setSlot_port_at (s : State) (k : Nat) (x : Slot) (j : Nat) : (s.setSlot k x).port j = s.port j := rfl
@[simp] theorem State.setSlot_lane_at (s : State) (k : Nat) (x : Slot) (j : Nat) : (s.setSlot k x).lane j = s.lane j := rfl
@[simp] theorem State.setSlot_queue_at (s : State) (k : Nat) (x : Slot) (j : Nat) : (s.setSlot k x).queue j = s.queue j := rfl
@[simp] theorem State.setSlot_park_at (s : State) (k : Nat) (x : Slot) (j : Nat) : (s.setSlot k x).park j = s.park j := rfl
@[simp] theorem State.setSlot_buf_at (s : State) (k : Nat) (x : Slot) (j : Nat) : (s.setSlot k x).buf j = s.buf j := rfl
@[simp] theorem State.setSlot_bucket_at (s : State) (k : Nat) (x : Slot) (j : Nat) : (s.setSlot k x).bucket j = s.bucket j := rfl
@[simp] theorem State.setSlot_gate_at (s : State) (k : Nat) (x : Slot) (j : Nat) : (s.setSlot k x).gate j = s.gate j := rfl
@[simp] theorem State.setSlot_tile_at (s : State) (k : Nat) (x : Slot) (j : Nat) : (s.setSlot k x).tile j = s.tile j := rfl
@[simp] theorem State.setSlot_thread_at (s : State) (k : Nat) (x : Slot) (j : Nat) : (s.setSlot k x).thread j = s.thread j := rfl
@[simp] theorem State.setSlot_plan_at (s : State) (k : Nat) (x : Slot) (j : Nat) : (s.setSlot k x).plan j = s.plan j := rfl
@[simp] theorem State.setSlot_stream_at (s : State) (k : Nat) (x : Slot) (j : Nat) : (s.setSlot k x).stream j = s.stream j := rfl
@[simp] theorem State.setSlot_expert_at (s : State) (k : Nat) (x : Slot) (j : Nat) : (s.setSlot k x).expert j = s.expert j := rfl
@[simp] theorem State.setSlot_hport_at (s : State) (k : Nat) (x : Slot) (j : Nat) : (s.setSlot k x).hport j = s.hport j := rfl
@[simp] theorem State.setSlot_func_at (s : State) (k : Nat) (x : Slot) (j : Nat) : (s.setSlot k x).func j = s.func j := rfl
@[simp] theorem State.setSlot_fifo_at (s : State) (k : Nat) (x : Slot) (j : Nat) : (s.setSlot k x).fifo j = s.fifo j := rfl
@[simp] theorem State.setSlot_sensor_at (s : State) (k : Nat) (x : Slot) (j : Nat) : (s.setSlot k x).sensor j = s.sensor j := rfl
@[simp] theorem State.setSlot_phase_at (s : State) (k : Nat) (x : Slot) (j : Nat) : (s.setSlot k x).phase j = s.phase j := rfl
@[simp] theorem State.setSlot_block_at (s : State) (k : Nat) (x : Slot) (j : Nat) : (s.setSlot k x).block j = s.block j := rfl
@[simp] theorem State.setSlot_line_at (s : State) (k : Nat) (x : Slot) (j : Nat) : (s.setSlot k x).line j = s.line j := rfl
@[simp] theorem State.setSlot_droop_at (s : State) (k : Nat) (x : Slot) (j : Nat) : (s.setSlot k x).droop j = s.droop j := rfl
@[simp] theorem State.setSlot_limit_at (s : State) (k : Nat) (x : Slot) (j : Nat) : (s.setSlot k x).limit j = s.limit j := rfl
@[simp] theorem State.setSlot_shed_at (s : State) (k : Nat) (x : Slot) (j : Nat) : (s.setSlot k x).shed j = s.shed j := rfl
@[simp] theorem State.setSlot_recDie_at (s : State) (k : Nat) (x : Slot) (j : Nat) : (s.setSlot k x).recDie j = s.recDie j := rfl
@[simp] theorem State.setSlot_nbr_at (s : State) (k : Nat) (x : Slot) (j : Nat) : (s.setSlot k x).nbr j = s.nbr j := rfl
@[simp] theorem State.setSlot_image_at (s : State) (k : Nat) (x : Slot) (j : Nat) : (s.setSlot k x).image j = s.image j := rfl
@[simp] theorem State.setSlot_spdm_at (s : State) (k : Nat) (x : Slot) (j : Nat) : (s.setSlot k x).spdm j = s.spdm j := rfl

/-! ### Thread -/

@[simp] theorem State.modThread_eq (s : State) (k : Nat) (f : Thread → Thread) : s.modThread k f = s.setThread k (f (s.thread k)) := rfl
@[simp] theorem State.setThread_same (s : State) (k : Nat) (x : Thread) : (s.setThread k x).thread k = x := mget_mset_same _ x k _
theorem State.setThread_ne (s : State) {j k : Nat} (h : j ≠ k) (x : Thread) : (s.setThread k x).thread j = s.thread j := mget_mset_ne h _ x _
@[simp] theorem State.setThread_pending (s : State) (k : Nat) (x : Thread) : (s.setThread k x).pending = s.pending := rfl
@[simp] theorem State.setThread_free (s : State) (k : Nat) (x : Thread) : (s.setThread k x).free = s.free := rfl
@[simp] theorem State.setThread_out (s : State) (k : Nat) (x : Thread) : (s.setThread k x).out = s.out := rfl
@[simp] theorem State.setThread_clk (s : State) (k : Nat) (x : Thread) : (s.setThread k x).clk = s.clk := rfl
@[simp] theorem State.setThread_evr (s : State) (k : Nat) (x : Thread) : (s.setThread k x).evr = s.evr := rfl
@[simp] theorem State.setThread_chv (s : State) (k : Nat) (x : Thread) : (s.setThread k x).chv = s.chv := rfl
@[simp] theorem State.setThread_ports (s : State) (k : Nat) (x : Thread) : (s.setThread k x).ports = s.ports := rfl
@[simp] theorem State.setThread_lanes (s : State) (k : Nat) (x : Thread) : (s.setThread k x).lanes = s.lanes := rfl
@[simp] theorem State.setThread_sw (s : State) (k : Nat) (x : Thread) : (s.setThread k x).sw = s.sw := rfl
@[simp] theorem State.setThread_mf (s : State) (k : Nat) (x : Thread) : (s.setThread k x).mf = s.mf := rfl
@[simp] theorem State.setThread_coh (s : State) (k : Nat) (x : Thread) : (s.setThread k x).coh = s.coh := rfl
@[simp] theorem State.setThread_tab (s : State) (k : Nat) (x : Thread) : (s.setThread k x).tab = s.tab := rfl
@[simp] theorem State.setThread_svc (s : State) (k : Nat) (x : Thread) : (s.setThread k x).svc = s.svc := rfl
@[simp] theorem State.setThread_cod (s : State) (k : Nat) (x : Thread) : (s.setThread k x).cod = s.cod := rfl
@[simp] theorem State.setThread_per (s : State) (k : Nat) (x : Thread) : (s.setThread k x).per = s.per := rfl
@[simp] theorem State.setThread_tier (s : State) (k : Nat) (x : Thread) : (s.setThread k x).tier = s.tier := rfl
@[simp] theorem State.setThread_hst (s : State) (k : Nat) (x : Thread) : (s.setThread k x).hst = s.hst := rfl
@[simp] theorem State.setThread_cx (s : State) (k : Nat) (x : Thread) : (s.setThread k x).cx = s.cx := rfl
@[simp] theorem State.setThread_sec (s : State) (k : Nat) (x : Thread) : (s.setThread k x).sec = s.sec := rfl
@[simp] theorem State.setThread_rel (s : State) (k : Nat) (x : Thread) : (s.setThread k x).rel = s.rel := rfl
@[simp] theorem State.setThread_map (s : State) (k : Nat) (x : Thread) : (s.setThread k x).map = s.map := rfl
@[simp] theorem State.setThread_boot (s : State) (k : Nat) (x : Thread) : (s.setThread k x).boot = s.boot := rfl
@[simp] theorem State.setThread_port_at (s : State) (k : Nat) (x : Thread) (j : Nat) : (s.setThread k x).port j = s.port j := rfl
@[simp] theorem State.setThread_lane_at (s : State) (k : Nat) (x : Thread) (j : Nat) : (s.setThread k x).lane j = s.lane j := rfl
@[simp] theorem State.setThread_queue_at (s : State) (k : Nat) (x : Thread) (j : Nat) : (s.setThread k x).queue j = s.queue j := rfl
@[simp] theorem State.setThread_park_at (s : State) (k : Nat) (x : Thread) (j : Nat) : (s.setThread k x).park j = s.park j := rfl
@[simp] theorem State.setThread_buf_at (s : State) (k : Nat) (x : Thread) (j : Nat) : (s.setThread k x).buf j = s.buf j := rfl
@[simp] theorem State.setThread_bucket_at (s : State) (k : Nat) (x : Thread) (j : Nat) : (s.setThread k x).bucket j = s.bucket j := rfl
@[simp] theorem State.setThread_gate_at (s : State) (k : Nat) (x : Thread) (j : Nat) : (s.setThread k x).gate j = s.gate j := rfl
@[simp] theorem State.setThread_tile_at (s : State) (k : Nat) (x : Thread) (j : Nat) : (s.setThread k x).tile j = s.tile j := rfl
@[simp] theorem State.setThread_slot_at (s : State) (k : Nat) (x : Thread) (j : Nat) : (s.setThread k x).slot j = s.slot j := rfl
@[simp] theorem State.setThread_plan_at (s : State) (k : Nat) (x : Thread) (j : Nat) : (s.setThread k x).plan j = s.plan j := rfl
@[simp] theorem State.setThread_stream_at (s : State) (k : Nat) (x : Thread) (j : Nat) : (s.setThread k x).stream j = s.stream j := rfl
@[simp] theorem State.setThread_expert_at (s : State) (k : Nat) (x : Thread) (j : Nat) : (s.setThread k x).expert j = s.expert j := rfl
@[simp] theorem State.setThread_hport_at (s : State) (k : Nat) (x : Thread) (j : Nat) : (s.setThread k x).hport j = s.hport j := rfl
@[simp] theorem State.setThread_func_at (s : State) (k : Nat) (x : Thread) (j : Nat) : (s.setThread k x).func j = s.func j := rfl
@[simp] theorem State.setThread_fifo_at (s : State) (k : Nat) (x : Thread) (j : Nat) : (s.setThread k x).fifo j = s.fifo j := rfl
@[simp] theorem State.setThread_sensor_at (s : State) (k : Nat) (x : Thread) (j : Nat) : (s.setThread k x).sensor j = s.sensor j := rfl
@[simp] theorem State.setThread_phase_at (s : State) (k : Nat) (x : Thread) (j : Nat) : (s.setThread k x).phase j = s.phase j := rfl
@[simp] theorem State.setThread_block_at (s : State) (k : Nat) (x : Thread) (j : Nat) : (s.setThread k x).block j = s.block j := rfl
@[simp] theorem State.setThread_line_at (s : State) (k : Nat) (x : Thread) (j : Nat) : (s.setThread k x).line j = s.line j := rfl
@[simp] theorem State.setThread_droop_at (s : State) (k : Nat) (x : Thread) (j : Nat) : (s.setThread k x).droop j = s.droop j := rfl
@[simp] theorem State.setThread_limit_at (s : State) (k : Nat) (x : Thread) (j : Nat) : (s.setThread k x).limit j = s.limit j := rfl
@[simp] theorem State.setThread_shed_at (s : State) (k : Nat) (x : Thread) (j : Nat) : (s.setThread k x).shed j = s.shed j := rfl
@[simp] theorem State.setThread_recDie_at (s : State) (k : Nat) (x : Thread) (j : Nat) : (s.setThread k x).recDie j = s.recDie j := rfl
@[simp] theorem State.setThread_nbr_at (s : State) (k : Nat) (x : Thread) (j : Nat) : (s.setThread k x).nbr j = s.nbr j := rfl
@[simp] theorem State.setThread_image_at (s : State) (k : Nat) (x : Thread) (j : Nat) : (s.setThread k x).image j = s.image j := rfl
@[simp] theorem State.setThread_spdm_at (s : State) (k : Nat) (x : Thread) (j : Nat) : (s.setThread k x).spdm j = s.spdm j := rfl

/-! ### Plan -/

@[simp] theorem State.modPlan_eq (s : State) (k : Nat) (f : Plan → Plan) : s.modPlan k f = s.setPlan k (f (s.plan k)) := rfl
@[simp] theorem State.setPlan_same (s : State) (k : Nat) (x : Plan) : (s.setPlan k x).plan k = x := mget_mset_same _ x k _
theorem State.setPlan_ne (s : State) {j k : Nat} (h : j ≠ k) (x : Plan) : (s.setPlan k x).plan j = s.plan j := mget_mset_ne h _ x _
@[simp] theorem State.setPlan_pending (s : State) (k : Nat) (x : Plan) : (s.setPlan k x).pending = s.pending := rfl
@[simp] theorem State.setPlan_free (s : State) (k : Nat) (x : Plan) : (s.setPlan k x).free = s.free := rfl
@[simp] theorem State.setPlan_out (s : State) (k : Nat) (x : Plan) : (s.setPlan k x).out = s.out := rfl
@[simp] theorem State.setPlan_clk (s : State) (k : Nat) (x : Plan) : (s.setPlan k x).clk = s.clk := rfl
@[simp] theorem State.setPlan_evr (s : State) (k : Nat) (x : Plan) : (s.setPlan k x).evr = s.evr := rfl
@[simp] theorem State.setPlan_chv (s : State) (k : Nat) (x : Plan) : (s.setPlan k x).chv = s.chv := rfl
@[simp] theorem State.setPlan_ports (s : State) (k : Nat) (x : Plan) : (s.setPlan k x).ports = s.ports := rfl
@[simp] theorem State.setPlan_lanes (s : State) (k : Nat) (x : Plan) : (s.setPlan k x).lanes = s.lanes := rfl
@[simp] theorem State.setPlan_sw (s : State) (k : Nat) (x : Plan) : (s.setPlan k x).sw = s.sw := rfl
@[simp] theorem State.setPlan_mf (s : State) (k : Nat) (x : Plan) : (s.setPlan k x).mf = s.mf := rfl
@[simp] theorem State.setPlan_coh (s : State) (k : Nat) (x : Plan) : (s.setPlan k x).coh = s.coh := rfl
@[simp] theorem State.setPlan_ctl (s : State) (k : Nat) (x : Plan) : (s.setPlan k x).ctl = s.ctl := rfl
@[simp] theorem State.setPlan_tab (s : State) (k : Nat) (x : Plan) : (s.setPlan k x).tab = s.tab := rfl
@[simp] theorem State.setPlan_cod (s : State) (k : Nat) (x : Plan) : (s.setPlan k x).cod = s.cod := rfl
@[simp] theorem State.setPlan_per (s : State) (k : Nat) (x : Plan) : (s.setPlan k x).per = s.per := rfl
@[simp] theorem State.setPlan_tier (s : State) (k : Nat) (x : Plan) : (s.setPlan k x).tier = s.tier := rfl
@[simp] theorem State.setPlan_hst (s : State) (k : Nat) (x : Plan) : (s.setPlan k x).hst = s.hst := rfl
@[simp] theorem State.setPlan_cx (s : State) (k : Nat) (x : Plan) : (s.setPlan k x).cx = s.cx := rfl
@[simp] theorem State.setPlan_sec (s : State) (k : Nat) (x : Plan) : (s.setPlan k x).sec = s.sec := rfl
@[simp] theorem State.setPlan_rel (s : State) (k : Nat) (x : Plan) : (s.setPlan k x).rel = s.rel := rfl
@[simp] theorem State.setPlan_map (s : State) (k : Nat) (x : Plan) : (s.setPlan k x).map = s.map := rfl
@[simp] theorem State.setPlan_boot (s : State) (k : Nat) (x : Plan) : (s.setPlan k x).boot = s.boot := rfl
@[simp] theorem State.setPlan_port_at (s : State) (k : Nat) (x : Plan) (j : Nat) : (s.setPlan k x).port j = s.port j := rfl
@[simp] theorem State.setPlan_lane_at (s : State) (k : Nat) (x : Plan) (j : Nat) : (s.setPlan k x).lane j = s.lane j := rfl
@[simp] theorem State.setPlan_queue_at (s : State) (k : Nat) (x : Plan) (j : Nat) : (s.setPlan k x).queue j = s.queue j := rfl
@[simp] theorem State.setPlan_park_at (s : State) (k : Nat) (x : Plan) (j : Nat) : (s.setPlan k x).park j = s.park j := rfl
@[simp] theorem State.setPlan_buf_at (s : State) (k : Nat) (x : Plan) (j : Nat) : (s.setPlan k x).buf j = s.buf j := rfl
@[simp] theorem State.setPlan_bucket_at (s : State) (k : Nat) (x : Plan) (j : Nat) : (s.setPlan k x).bucket j = s.bucket j := rfl
@[simp] theorem State.setPlan_gate_at (s : State) (k : Nat) (x : Plan) (j : Nat) : (s.setPlan k x).gate j = s.gate j := rfl
@[simp] theorem State.setPlan_tile_at (s : State) (k : Nat) (x : Plan) (j : Nat) : (s.setPlan k x).tile j = s.tile j := rfl
@[simp] theorem State.setPlan_slot_at (s : State) (k : Nat) (x : Plan) (j : Nat) : (s.setPlan k x).slot j = s.slot j := rfl
@[simp] theorem State.setPlan_thread_at (s : State) (k : Nat) (x : Plan) (j : Nat) : (s.setPlan k x).thread j = s.thread j := rfl
@[simp] theorem State.setPlan_stream_at (s : State) (k : Nat) (x : Plan) (j : Nat) : (s.setPlan k x).stream j = s.stream j := rfl
@[simp] theorem State.setPlan_expert_at (s : State) (k : Nat) (x : Plan) (j : Nat) : (s.setPlan k x).expert j = s.expert j := rfl
@[simp] theorem State.setPlan_hport_at (s : State) (k : Nat) (x : Plan) (j : Nat) : (s.setPlan k x).hport j = s.hport j := rfl
@[simp] theorem State.setPlan_func_at (s : State) (k : Nat) (x : Plan) (j : Nat) : (s.setPlan k x).func j = s.func j := rfl
@[simp] theorem State.setPlan_fifo_at (s : State) (k : Nat) (x : Plan) (j : Nat) : (s.setPlan k x).fifo j = s.fifo j := rfl
@[simp] theorem State.setPlan_sensor_at (s : State) (k : Nat) (x : Plan) (j : Nat) : (s.setPlan k x).sensor j = s.sensor j := rfl
@[simp] theorem State.setPlan_phase_at (s : State) (k : Nat) (x : Plan) (j : Nat) : (s.setPlan k x).phase j = s.phase j := rfl
@[simp] theorem State.setPlan_block_at (s : State) (k : Nat) (x : Plan) (j : Nat) : (s.setPlan k x).block j = s.block j := rfl
@[simp] theorem State.setPlan_line_at (s : State) (k : Nat) (x : Plan) (j : Nat) : (s.setPlan k x).line j = s.line j := rfl
@[simp] theorem State.setPlan_droop_at (s : State) (k : Nat) (x : Plan) (j : Nat) : (s.setPlan k x).droop j = s.droop j := rfl
@[simp] theorem State.setPlan_limit_at (s : State) (k : Nat) (x : Plan) (j : Nat) : (s.setPlan k x).limit j = s.limit j := rfl
@[simp] theorem State.setPlan_shed_at (s : State) (k : Nat) (x : Plan) (j : Nat) : (s.setPlan k x).shed j = s.shed j := rfl
@[simp] theorem State.setPlan_recDie_at (s : State) (k : Nat) (x : Plan) (j : Nat) : (s.setPlan k x).recDie j = s.recDie j := rfl
@[simp] theorem State.setPlan_nbr_at (s : State) (k : Nat) (x : Plan) (j : Nat) : (s.setPlan k x).nbr j = s.nbr j := rfl
@[simp] theorem State.setPlan_image_at (s : State) (k : Nat) (x : Plan) (j : Nat) : (s.setPlan k x).image j = s.image j := rfl
@[simp] theorem State.setPlan_spdm_at (s : State) (k : Nat) (x : Plan) (j : Nat) : (s.setPlan k x).spdm j = s.spdm j := rfl

/-! ### WStream -/

@[simp] theorem State.modStream_eq (s : State) (k : Nat) (f : WStream → WStream) : s.modStream k f = s.setStream k (f (s.stream k)) := rfl
@[simp] theorem State.setStream_same (s : State) (k : Nat) (x : WStream) : (s.setStream k x).stream k = x := mget_mset_same _ x k _
theorem State.setStream_ne (s : State) {j k : Nat} (h : j ≠ k) (x : WStream) : (s.setStream k x).stream j = s.stream j := mget_mset_ne h _ x _
@[simp] theorem State.setStream_pending (s : State) (k : Nat) (x : WStream) : (s.setStream k x).pending = s.pending := rfl
@[simp] theorem State.setStream_free (s : State) (k : Nat) (x : WStream) : (s.setStream k x).free = s.free := rfl
@[simp] theorem State.setStream_out (s : State) (k : Nat) (x : WStream) : (s.setStream k x).out = s.out := rfl
@[simp] theorem State.setStream_clk (s : State) (k : Nat) (x : WStream) : (s.setStream k x).clk = s.clk := rfl
@[simp] theorem State.setStream_evr (s : State) (k : Nat) (x : WStream) : (s.setStream k x).evr = s.evr := rfl
@[simp] theorem State.setStream_chv (s : State) (k : Nat) (x : WStream) : (s.setStream k x).chv = s.chv := rfl
@[simp] theorem State.setStream_ports (s : State) (k : Nat) (x : WStream) : (s.setStream k x).ports = s.ports := rfl
@[simp] theorem State.setStream_lanes (s : State) (k : Nat) (x : WStream) : (s.setStream k x).lanes = s.lanes := rfl
@[simp] theorem State.setStream_sw (s : State) (k : Nat) (x : WStream) : (s.setStream k x).sw = s.sw := rfl
@[simp] theorem State.setStream_mf (s : State) (k : Nat) (x : WStream) : (s.setStream k x).mf = s.mf := rfl
@[simp] theorem State.setStream_coh (s : State) (k : Nat) (x : WStream) : (s.setStream k x).coh = s.coh := rfl
@[simp] theorem State.setStream_ctl (s : State) (k : Nat) (x : WStream) : (s.setStream k x).ctl = s.ctl := rfl
@[simp] theorem State.setStream_tab (s : State) (k : Nat) (x : WStream) : (s.setStream k x).tab = s.tab := rfl
@[simp] theorem State.setStream_cod (s : State) (k : Nat) (x : WStream) : (s.setStream k x).cod = s.cod := rfl
@[simp] theorem State.setStream_per (s : State) (k : Nat) (x : WStream) : (s.setStream k x).per = s.per := rfl
@[simp] theorem State.setStream_tier (s : State) (k : Nat) (x : WStream) : (s.setStream k x).tier = s.tier := rfl
@[simp] theorem State.setStream_hst (s : State) (k : Nat) (x : WStream) : (s.setStream k x).hst = s.hst := rfl
@[simp] theorem State.setStream_cx (s : State) (k : Nat) (x : WStream) : (s.setStream k x).cx = s.cx := rfl
@[simp] theorem State.setStream_sec (s : State) (k : Nat) (x : WStream) : (s.setStream k x).sec = s.sec := rfl
@[simp] theorem State.setStream_rel (s : State) (k : Nat) (x : WStream) : (s.setStream k x).rel = s.rel := rfl
@[simp] theorem State.setStream_map (s : State) (k : Nat) (x : WStream) : (s.setStream k x).map = s.map := rfl
@[simp] theorem State.setStream_boot (s : State) (k : Nat) (x : WStream) : (s.setStream k x).boot = s.boot := rfl
@[simp] theorem State.setStream_port_at (s : State) (k : Nat) (x : WStream) (j : Nat) : (s.setStream k x).port j = s.port j := rfl
@[simp] theorem State.setStream_lane_at (s : State) (k : Nat) (x : WStream) (j : Nat) : (s.setStream k x).lane j = s.lane j := rfl
@[simp] theorem State.setStream_queue_at (s : State) (k : Nat) (x : WStream) (j : Nat) : (s.setStream k x).queue j = s.queue j := rfl
@[simp] theorem State.setStream_park_at (s : State) (k : Nat) (x : WStream) (j : Nat) : (s.setStream k x).park j = s.park j := rfl
@[simp] theorem State.setStream_buf_at (s : State) (k : Nat) (x : WStream) (j : Nat) : (s.setStream k x).buf j = s.buf j := rfl
@[simp] theorem State.setStream_bucket_at (s : State) (k : Nat) (x : WStream) (j : Nat) : (s.setStream k x).bucket j = s.bucket j := rfl
@[simp] theorem State.setStream_gate_at (s : State) (k : Nat) (x : WStream) (j : Nat) : (s.setStream k x).gate j = s.gate j := rfl
@[simp] theorem State.setStream_tile_at (s : State) (k : Nat) (x : WStream) (j : Nat) : (s.setStream k x).tile j = s.tile j := rfl
@[simp] theorem State.setStream_slot_at (s : State) (k : Nat) (x : WStream) (j : Nat) : (s.setStream k x).slot j = s.slot j := rfl
@[simp] theorem State.setStream_thread_at (s : State) (k : Nat) (x : WStream) (j : Nat) : (s.setStream k x).thread j = s.thread j := rfl
@[simp] theorem State.setStream_plan_at (s : State) (k : Nat) (x : WStream) (j : Nat) : (s.setStream k x).plan j = s.plan j := rfl
@[simp] theorem State.setStream_expert_at (s : State) (k : Nat) (x : WStream) (j : Nat) : (s.setStream k x).expert j = s.expert j := rfl
@[simp] theorem State.setStream_hport_at (s : State) (k : Nat) (x : WStream) (j : Nat) : (s.setStream k x).hport j = s.hport j := rfl
@[simp] theorem State.setStream_func_at (s : State) (k : Nat) (x : WStream) (j : Nat) : (s.setStream k x).func j = s.func j := rfl
@[simp] theorem State.setStream_fifo_at (s : State) (k : Nat) (x : WStream) (j : Nat) : (s.setStream k x).fifo j = s.fifo j := rfl
@[simp] theorem State.setStream_sensor_at (s : State) (k : Nat) (x : WStream) (j : Nat) : (s.setStream k x).sensor j = s.sensor j := rfl
@[simp] theorem State.setStream_phase_at (s : State) (k : Nat) (x : WStream) (j : Nat) : (s.setStream k x).phase j = s.phase j := rfl
@[simp] theorem State.setStream_block_at (s : State) (k : Nat) (x : WStream) (j : Nat) : (s.setStream k x).block j = s.block j := rfl
@[simp] theorem State.setStream_line_at (s : State) (k : Nat) (x : WStream) (j : Nat) : (s.setStream k x).line j = s.line j := rfl
@[simp] theorem State.setStream_droop_at (s : State) (k : Nat) (x : WStream) (j : Nat) : (s.setStream k x).droop j = s.droop j := rfl
@[simp] theorem State.setStream_limit_at (s : State) (k : Nat) (x : WStream) (j : Nat) : (s.setStream k x).limit j = s.limit j := rfl
@[simp] theorem State.setStream_shed_at (s : State) (k : Nat) (x : WStream) (j : Nat) : (s.setStream k x).shed j = s.shed j := rfl
@[simp] theorem State.setStream_recDie_at (s : State) (k : Nat) (x : WStream) (j : Nat) : (s.setStream k x).recDie j = s.recDie j := rfl
@[simp] theorem State.setStream_nbr_at (s : State) (k : Nat) (x : WStream) (j : Nat) : (s.setStream k x).nbr j = s.nbr j := rfl
@[simp] theorem State.setStream_image_at (s : State) (k : Nat) (x : WStream) (j : Nat) : (s.setStream k x).image j = s.image j := rfl
@[simp] theorem State.setStream_spdm_at (s : State) (k : Nat) (x : WStream) (j : Nat) : (s.setStream k x).spdm j = s.spdm j := rfl

/-! ### Expert -/

@[simp] theorem State.modExpert_eq (s : State) (k : Nat) (f : Expert → Expert) : s.modExpert k f = s.setExpert k (f (s.expert k)) := rfl
@[simp] theorem State.setExpert_same (s : State) (k : Nat) (x : Expert) : (s.setExpert k x).expert k = x := mget_mset_same _ x k _
theorem State.setExpert_ne (s : State) {j k : Nat} (h : j ≠ k) (x : Expert) : (s.setExpert k x).expert j = s.expert j := mget_mset_ne h _ x _
@[simp] theorem State.setExpert_pending (s : State) (k : Nat) (x : Expert) : (s.setExpert k x).pending = s.pending := rfl
@[simp] theorem State.setExpert_free (s : State) (k : Nat) (x : Expert) : (s.setExpert k x).free = s.free := rfl
@[simp] theorem State.setExpert_out (s : State) (k : Nat) (x : Expert) : (s.setExpert k x).out = s.out := rfl
@[simp] theorem State.setExpert_clk (s : State) (k : Nat) (x : Expert) : (s.setExpert k x).clk = s.clk := rfl
@[simp] theorem State.setExpert_evr (s : State) (k : Nat) (x : Expert) : (s.setExpert k x).evr = s.evr := rfl
@[simp] theorem State.setExpert_chv (s : State) (k : Nat) (x : Expert) : (s.setExpert k x).chv = s.chv := rfl
@[simp] theorem State.setExpert_ports (s : State) (k : Nat) (x : Expert) : (s.setExpert k x).ports = s.ports := rfl
@[simp] theorem State.setExpert_lanes (s : State) (k : Nat) (x : Expert) : (s.setExpert k x).lanes = s.lanes := rfl
@[simp] theorem State.setExpert_sw (s : State) (k : Nat) (x : Expert) : (s.setExpert k x).sw = s.sw := rfl
@[simp] theorem State.setExpert_mf (s : State) (k : Nat) (x : Expert) : (s.setExpert k x).mf = s.mf := rfl
@[simp] theorem State.setExpert_coh (s : State) (k : Nat) (x : Expert) : (s.setExpert k x).coh = s.coh := rfl
@[simp] theorem State.setExpert_ctl (s : State) (k : Nat) (x : Expert) : (s.setExpert k x).ctl = s.ctl := rfl
@[simp] theorem State.setExpert_tab (s : State) (k : Nat) (x : Expert) : (s.setExpert k x).tab = s.tab := rfl
@[simp] theorem State.setExpert_cod (s : State) (k : Nat) (x : Expert) : (s.setExpert k x).cod = s.cod := rfl
@[simp] theorem State.setExpert_per (s : State) (k : Nat) (x : Expert) : (s.setExpert k x).per = s.per := rfl
@[simp] theorem State.setExpert_tier (s : State) (k : Nat) (x : Expert) : (s.setExpert k x).tier = s.tier := rfl
@[simp] theorem State.setExpert_hst (s : State) (k : Nat) (x : Expert) : (s.setExpert k x).hst = s.hst := rfl
@[simp] theorem State.setExpert_cx (s : State) (k : Nat) (x : Expert) : (s.setExpert k x).cx = s.cx := rfl
@[simp] theorem State.setExpert_sec (s : State) (k : Nat) (x : Expert) : (s.setExpert k x).sec = s.sec := rfl
@[simp] theorem State.setExpert_rel (s : State) (k : Nat) (x : Expert) : (s.setExpert k x).rel = s.rel := rfl
@[simp] theorem State.setExpert_map (s : State) (k : Nat) (x : Expert) : (s.setExpert k x).map = s.map := rfl
@[simp] theorem State.setExpert_boot (s : State) (k : Nat) (x : Expert) : (s.setExpert k x).boot = s.boot := rfl
@[simp] theorem State.setExpert_port_at (s : State) (k : Nat) (x : Expert) (j : Nat) : (s.setExpert k x).port j = s.port j := rfl
@[simp] theorem State.setExpert_lane_at (s : State) (k : Nat) (x : Expert) (j : Nat) : (s.setExpert k x).lane j = s.lane j := rfl
@[simp] theorem State.setExpert_queue_at (s : State) (k : Nat) (x : Expert) (j : Nat) : (s.setExpert k x).queue j = s.queue j := rfl
@[simp] theorem State.setExpert_park_at (s : State) (k : Nat) (x : Expert) (j : Nat) : (s.setExpert k x).park j = s.park j := rfl
@[simp] theorem State.setExpert_buf_at (s : State) (k : Nat) (x : Expert) (j : Nat) : (s.setExpert k x).buf j = s.buf j := rfl
@[simp] theorem State.setExpert_bucket_at (s : State) (k : Nat) (x : Expert) (j : Nat) : (s.setExpert k x).bucket j = s.bucket j := rfl
@[simp] theorem State.setExpert_gate_at (s : State) (k : Nat) (x : Expert) (j : Nat) : (s.setExpert k x).gate j = s.gate j := rfl
@[simp] theorem State.setExpert_tile_at (s : State) (k : Nat) (x : Expert) (j : Nat) : (s.setExpert k x).tile j = s.tile j := rfl
@[simp] theorem State.setExpert_slot_at (s : State) (k : Nat) (x : Expert) (j : Nat) : (s.setExpert k x).slot j = s.slot j := rfl
@[simp] theorem State.setExpert_thread_at (s : State) (k : Nat) (x : Expert) (j : Nat) : (s.setExpert k x).thread j = s.thread j := rfl
@[simp] theorem State.setExpert_plan_at (s : State) (k : Nat) (x : Expert) (j : Nat) : (s.setExpert k x).plan j = s.plan j := rfl
@[simp] theorem State.setExpert_stream_at (s : State) (k : Nat) (x : Expert) (j : Nat) : (s.setExpert k x).stream j = s.stream j := rfl
@[simp] theorem State.setExpert_hport_at (s : State) (k : Nat) (x : Expert) (j : Nat) : (s.setExpert k x).hport j = s.hport j := rfl
@[simp] theorem State.setExpert_func_at (s : State) (k : Nat) (x : Expert) (j : Nat) : (s.setExpert k x).func j = s.func j := rfl
@[simp] theorem State.setExpert_fifo_at (s : State) (k : Nat) (x : Expert) (j : Nat) : (s.setExpert k x).fifo j = s.fifo j := rfl
@[simp] theorem State.setExpert_sensor_at (s : State) (k : Nat) (x : Expert) (j : Nat) : (s.setExpert k x).sensor j = s.sensor j := rfl
@[simp] theorem State.setExpert_phase_at (s : State) (k : Nat) (x : Expert) (j : Nat) : (s.setExpert k x).phase j = s.phase j := rfl
@[simp] theorem State.setExpert_block_at (s : State) (k : Nat) (x : Expert) (j : Nat) : (s.setExpert k x).block j = s.block j := rfl
@[simp] theorem State.setExpert_line_at (s : State) (k : Nat) (x : Expert) (j : Nat) : (s.setExpert k x).line j = s.line j := rfl
@[simp] theorem State.setExpert_droop_at (s : State) (k : Nat) (x : Expert) (j : Nat) : (s.setExpert k x).droop j = s.droop j := rfl
@[simp] theorem State.setExpert_limit_at (s : State) (k : Nat) (x : Expert) (j : Nat) : (s.setExpert k x).limit j = s.limit j := rfl
@[simp] theorem State.setExpert_shed_at (s : State) (k : Nat) (x : Expert) (j : Nat) : (s.setExpert k x).shed j = s.shed j := rfl
@[simp] theorem State.setExpert_recDie_at (s : State) (k : Nat) (x : Expert) (j : Nat) : (s.setExpert k x).recDie j = s.recDie j := rfl
@[simp] theorem State.setExpert_nbr_at (s : State) (k : Nat) (x : Expert) (j : Nat) : (s.setExpert k x).nbr j = s.nbr j := rfl
@[simp] theorem State.setExpert_image_at (s : State) (k : Nat) (x : Expert) (j : Nat) : (s.setExpert k x).image j = s.image j := rfl
@[simp] theorem State.setExpert_spdm_at (s : State) (k : Nat) (x : Expert) (j : Nat) : (s.setExpert k x).spdm j = s.spdm j := rfl

/-! ### HostPort -/

@[simp] theorem State.modHport_eq (s : State) (k : Nat) (f : HostPort → HostPort) : s.modHport k f = s.setHport k (f (s.hport k)) := rfl
@[simp] theorem State.setHport_same (s : State) (k : Nat) (x : HostPort) : (s.setHport k x).hport k = x := mget_mset_same _ x k _
theorem State.setHport_ne (s : State) {j k : Nat} (h : j ≠ k) (x : HostPort) : (s.setHport k x).hport j = s.hport j := mget_mset_ne h _ x _
@[simp] theorem State.setHport_pending (s : State) (k : Nat) (x : HostPort) : (s.setHport k x).pending = s.pending := rfl
@[simp] theorem State.setHport_free (s : State) (k : Nat) (x : HostPort) : (s.setHport k x).free = s.free := rfl
@[simp] theorem State.setHport_out (s : State) (k : Nat) (x : HostPort) : (s.setHport k x).out = s.out := rfl
@[simp] theorem State.setHport_clk (s : State) (k : Nat) (x : HostPort) : (s.setHport k x).clk = s.clk := rfl
@[simp] theorem State.setHport_evr (s : State) (k : Nat) (x : HostPort) : (s.setHport k x).evr = s.evr := rfl
@[simp] theorem State.setHport_chv (s : State) (k : Nat) (x : HostPort) : (s.setHport k x).chv = s.chv := rfl
@[simp] theorem State.setHport_ports (s : State) (k : Nat) (x : HostPort) : (s.setHport k x).ports = s.ports := rfl
@[simp] theorem State.setHport_lanes (s : State) (k : Nat) (x : HostPort) : (s.setHport k x).lanes = s.lanes := rfl
@[simp] theorem State.setHport_sw (s : State) (k : Nat) (x : HostPort) : (s.setHport k x).sw = s.sw := rfl
@[simp] theorem State.setHport_mf (s : State) (k : Nat) (x : HostPort) : (s.setHport k x).mf = s.mf := rfl
@[simp] theorem State.setHport_coh (s : State) (k : Nat) (x : HostPort) : (s.setHport k x).coh = s.coh := rfl
@[simp] theorem State.setHport_ctl (s : State) (k : Nat) (x : HostPort) : (s.setHport k x).ctl = s.ctl := rfl
@[simp] theorem State.setHport_tab (s : State) (k : Nat) (x : HostPort) : (s.setHport k x).tab = s.tab := rfl
@[simp] theorem State.setHport_svc (s : State) (k : Nat) (x : HostPort) : (s.setHport k x).svc = s.svc := rfl
@[simp] theorem State.setHport_cod (s : State) (k : Nat) (x : HostPort) : (s.setHport k x).cod = s.cod := rfl
@[simp] theorem State.setHport_per (s : State) (k : Nat) (x : HostPort) : (s.setHport k x).per = s.per := rfl
@[simp] theorem State.setHport_tier (s : State) (k : Nat) (x : HostPort) : (s.setHport k x).tier = s.tier := rfl
@[simp] theorem State.setHport_cx (s : State) (k : Nat) (x : HostPort) : (s.setHport k x).cx = s.cx := rfl
@[simp] theorem State.setHport_sec (s : State) (k : Nat) (x : HostPort) : (s.setHport k x).sec = s.sec := rfl
@[simp] theorem State.setHport_rel (s : State) (k : Nat) (x : HostPort) : (s.setHport k x).rel = s.rel := rfl
@[simp] theorem State.setHport_map (s : State) (k : Nat) (x : HostPort) : (s.setHport k x).map = s.map := rfl
@[simp] theorem State.setHport_boot (s : State) (k : Nat) (x : HostPort) : (s.setHport k x).boot = s.boot := rfl
@[simp] theorem State.setHport_port_at (s : State) (k : Nat) (x : HostPort) (j : Nat) : (s.setHport k x).port j = s.port j := rfl
@[simp] theorem State.setHport_lane_at (s : State) (k : Nat) (x : HostPort) (j : Nat) : (s.setHport k x).lane j = s.lane j := rfl
@[simp] theorem State.setHport_queue_at (s : State) (k : Nat) (x : HostPort) (j : Nat) : (s.setHport k x).queue j = s.queue j := rfl
@[simp] theorem State.setHport_park_at (s : State) (k : Nat) (x : HostPort) (j : Nat) : (s.setHport k x).park j = s.park j := rfl
@[simp] theorem State.setHport_buf_at (s : State) (k : Nat) (x : HostPort) (j : Nat) : (s.setHport k x).buf j = s.buf j := rfl
@[simp] theorem State.setHport_bucket_at (s : State) (k : Nat) (x : HostPort) (j : Nat) : (s.setHport k x).bucket j = s.bucket j := rfl
@[simp] theorem State.setHport_gate_at (s : State) (k : Nat) (x : HostPort) (j : Nat) : (s.setHport k x).gate j = s.gate j := rfl
@[simp] theorem State.setHport_tile_at (s : State) (k : Nat) (x : HostPort) (j : Nat) : (s.setHport k x).tile j = s.tile j := rfl
@[simp] theorem State.setHport_slot_at (s : State) (k : Nat) (x : HostPort) (j : Nat) : (s.setHport k x).slot j = s.slot j := rfl
@[simp] theorem State.setHport_thread_at (s : State) (k : Nat) (x : HostPort) (j : Nat) : (s.setHport k x).thread j = s.thread j := rfl
@[simp] theorem State.setHport_plan_at (s : State) (k : Nat) (x : HostPort) (j : Nat) : (s.setHport k x).plan j = s.plan j := rfl
@[simp] theorem State.setHport_stream_at (s : State) (k : Nat) (x : HostPort) (j : Nat) : (s.setHport k x).stream j = s.stream j := rfl
@[simp] theorem State.setHport_expert_at (s : State) (k : Nat) (x : HostPort) (j : Nat) : (s.setHport k x).expert j = s.expert j := rfl
@[simp] theorem State.setHport_func_at (s : State) (k : Nat) (x : HostPort) (j : Nat) : (s.setHport k x).func j = s.func j := rfl
@[simp] theorem State.setHport_fifo_at (s : State) (k : Nat) (x : HostPort) (j : Nat) : (s.setHport k x).fifo j = s.fifo j := rfl
@[simp] theorem State.setHport_sensor_at (s : State) (k : Nat) (x : HostPort) (j : Nat) : (s.setHport k x).sensor j = s.sensor j := rfl
@[simp] theorem State.setHport_phase_at (s : State) (k : Nat) (x : HostPort) (j : Nat) : (s.setHport k x).phase j = s.phase j := rfl
@[simp] theorem State.setHport_block_at (s : State) (k : Nat) (x : HostPort) (j : Nat) : (s.setHport k x).block j = s.block j := rfl
@[simp] theorem State.setHport_line_at (s : State) (k : Nat) (x : HostPort) (j : Nat) : (s.setHport k x).line j = s.line j := rfl
@[simp] theorem State.setHport_droop_at (s : State) (k : Nat) (x : HostPort) (j : Nat) : (s.setHport k x).droop j = s.droop j := rfl
@[simp] theorem State.setHport_limit_at (s : State) (k : Nat) (x : HostPort) (j : Nat) : (s.setHport k x).limit j = s.limit j := rfl
@[simp] theorem State.setHport_shed_at (s : State) (k : Nat) (x : HostPort) (j : Nat) : (s.setHport k x).shed j = s.shed j := rfl
@[simp] theorem State.setHport_recDie_at (s : State) (k : Nat) (x : HostPort) (j : Nat) : (s.setHport k x).recDie j = s.recDie j := rfl
@[simp] theorem State.setHport_nbr_at (s : State) (k : Nat) (x : HostPort) (j : Nat) : (s.setHport k x).nbr j = s.nbr j := rfl
@[simp] theorem State.setHport_image_at (s : State) (k : Nat) (x : HostPort) (j : Nat) : (s.setHport k x).image j = s.image j := rfl
@[simp] theorem State.setHport_spdm_at (s : State) (k : Nat) (x : HostPort) (j : Nat) : (s.setHport k x).spdm j = s.spdm j := rfl

/-! ### Func -/

@[simp] theorem State.modFunc_eq (s : State) (k : Nat) (f : Func → Func) : s.modFunc k f = s.setFunc k (f (s.func k)) := rfl
@[simp] theorem State.setFunc_same (s : State) (k : Nat) (x : Func) : (s.setFunc k x).func k = x := mget_mset_same _ x k _
theorem State.setFunc_ne (s : State) {j k : Nat} (h : j ≠ k) (x : Func) : (s.setFunc k x).func j = s.func j := mget_mset_ne h _ x _
@[simp] theorem State.setFunc_pending (s : State) (k : Nat) (x : Func) : (s.setFunc k x).pending = s.pending := rfl
@[simp] theorem State.setFunc_free (s : State) (k : Nat) (x : Func) : (s.setFunc k x).free = s.free := rfl
@[simp] theorem State.setFunc_out (s : State) (k : Nat) (x : Func) : (s.setFunc k x).out = s.out := rfl
@[simp] theorem State.setFunc_clk (s : State) (k : Nat) (x : Func) : (s.setFunc k x).clk = s.clk := rfl
@[simp] theorem State.setFunc_evr (s : State) (k : Nat) (x : Func) : (s.setFunc k x).evr = s.evr := rfl
@[simp] theorem State.setFunc_chv (s : State) (k : Nat) (x : Func) : (s.setFunc k x).chv = s.chv := rfl
@[simp] theorem State.setFunc_ports (s : State) (k : Nat) (x : Func) : (s.setFunc k x).ports = s.ports := rfl
@[simp] theorem State.setFunc_lanes (s : State) (k : Nat) (x : Func) : (s.setFunc k x).lanes = s.lanes := rfl
@[simp] theorem State.setFunc_sw (s : State) (k : Nat) (x : Func) : (s.setFunc k x).sw = s.sw := rfl
@[simp] theorem State.setFunc_mf (s : State) (k : Nat) (x : Func) : (s.setFunc k x).mf = s.mf := rfl
@[simp] theorem State.setFunc_coh (s : State) (k : Nat) (x : Func) : (s.setFunc k x).coh = s.coh := rfl
@[simp] theorem State.setFunc_ctl (s : State) (k : Nat) (x : Func) : (s.setFunc k x).ctl = s.ctl := rfl
@[simp] theorem State.setFunc_tab (s : State) (k : Nat) (x : Func) : (s.setFunc k x).tab = s.tab := rfl
@[simp] theorem State.setFunc_svc (s : State) (k : Nat) (x : Func) : (s.setFunc k x).svc = s.svc := rfl
@[simp] theorem State.setFunc_cod (s : State) (k : Nat) (x : Func) : (s.setFunc k x).cod = s.cod := rfl
@[simp] theorem State.setFunc_per (s : State) (k : Nat) (x : Func) : (s.setFunc k x).per = s.per := rfl
@[simp] theorem State.setFunc_tier (s : State) (k : Nat) (x : Func) : (s.setFunc k x).tier = s.tier := rfl
@[simp] theorem State.setFunc_cx (s : State) (k : Nat) (x : Func) : (s.setFunc k x).cx = s.cx := rfl
@[simp] theorem State.setFunc_sec (s : State) (k : Nat) (x : Func) : (s.setFunc k x).sec = s.sec := rfl
@[simp] theorem State.setFunc_rel (s : State) (k : Nat) (x : Func) : (s.setFunc k x).rel = s.rel := rfl
@[simp] theorem State.setFunc_map (s : State) (k : Nat) (x : Func) : (s.setFunc k x).map = s.map := rfl
@[simp] theorem State.setFunc_boot (s : State) (k : Nat) (x : Func) : (s.setFunc k x).boot = s.boot := rfl
@[simp] theorem State.setFunc_port_at (s : State) (k : Nat) (x : Func) (j : Nat) : (s.setFunc k x).port j = s.port j := rfl
@[simp] theorem State.setFunc_lane_at (s : State) (k : Nat) (x : Func) (j : Nat) : (s.setFunc k x).lane j = s.lane j := rfl
@[simp] theorem State.setFunc_queue_at (s : State) (k : Nat) (x : Func) (j : Nat) : (s.setFunc k x).queue j = s.queue j := rfl
@[simp] theorem State.setFunc_park_at (s : State) (k : Nat) (x : Func) (j : Nat) : (s.setFunc k x).park j = s.park j := rfl
@[simp] theorem State.setFunc_buf_at (s : State) (k : Nat) (x : Func) (j : Nat) : (s.setFunc k x).buf j = s.buf j := rfl
@[simp] theorem State.setFunc_bucket_at (s : State) (k : Nat) (x : Func) (j : Nat) : (s.setFunc k x).bucket j = s.bucket j := rfl
@[simp] theorem State.setFunc_gate_at (s : State) (k : Nat) (x : Func) (j : Nat) : (s.setFunc k x).gate j = s.gate j := rfl
@[simp] theorem State.setFunc_tile_at (s : State) (k : Nat) (x : Func) (j : Nat) : (s.setFunc k x).tile j = s.tile j := rfl
@[simp] theorem State.setFunc_slot_at (s : State) (k : Nat) (x : Func) (j : Nat) : (s.setFunc k x).slot j = s.slot j := rfl
@[simp] theorem State.setFunc_thread_at (s : State) (k : Nat) (x : Func) (j : Nat) : (s.setFunc k x).thread j = s.thread j := rfl
@[simp] theorem State.setFunc_plan_at (s : State) (k : Nat) (x : Func) (j : Nat) : (s.setFunc k x).plan j = s.plan j := rfl
@[simp] theorem State.setFunc_stream_at (s : State) (k : Nat) (x : Func) (j : Nat) : (s.setFunc k x).stream j = s.stream j := rfl
@[simp] theorem State.setFunc_expert_at (s : State) (k : Nat) (x : Func) (j : Nat) : (s.setFunc k x).expert j = s.expert j := rfl
@[simp] theorem State.setFunc_hport_at (s : State) (k : Nat) (x : Func) (j : Nat) : (s.setFunc k x).hport j = s.hport j := rfl
@[simp] theorem State.setFunc_fifo_at (s : State) (k : Nat) (x : Func) (j : Nat) : (s.setFunc k x).fifo j = s.fifo j := rfl
@[simp] theorem State.setFunc_sensor_at (s : State) (k : Nat) (x : Func) (j : Nat) : (s.setFunc k x).sensor j = s.sensor j := rfl
@[simp] theorem State.setFunc_phase_at (s : State) (k : Nat) (x : Func) (j : Nat) : (s.setFunc k x).phase j = s.phase j := rfl
@[simp] theorem State.setFunc_block_at (s : State) (k : Nat) (x : Func) (j : Nat) : (s.setFunc k x).block j = s.block j := rfl
@[simp] theorem State.setFunc_line_at (s : State) (k : Nat) (x : Func) (j : Nat) : (s.setFunc k x).line j = s.line j := rfl
@[simp] theorem State.setFunc_droop_at (s : State) (k : Nat) (x : Func) (j : Nat) : (s.setFunc k x).droop j = s.droop j := rfl
@[simp] theorem State.setFunc_limit_at (s : State) (k : Nat) (x : Func) (j : Nat) : (s.setFunc k x).limit j = s.limit j := rfl
@[simp] theorem State.setFunc_shed_at (s : State) (k : Nat) (x : Func) (j : Nat) : (s.setFunc k x).shed j = s.shed j := rfl
@[simp] theorem State.setFunc_recDie_at (s : State) (k : Nat) (x : Func) (j : Nat) : (s.setFunc k x).recDie j = s.recDie j := rfl
@[simp] theorem State.setFunc_nbr_at (s : State) (k : Nat) (x : Func) (j : Nat) : (s.setFunc k x).nbr j = s.nbr j := rfl
@[simp] theorem State.setFunc_image_at (s : State) (k : Nat) (x : Func) (j : Nat) : (s.setFunc k x).image j = s.image j := rfl
@[simp] theorem State.setFunc_spdm_at (s : State) (k : Nat) (x : Func) (j : Nat) : (s.setFunc k x).spdm j = s.spdm j := rfl

/-! ### Fifo -/

@[simp] theorem State.modFifo_eq (s : State) (k : Nat) (f : Fifo → Fifo) : s.modFifo k f = s.setFifo k (f (s.fifo k)) := rfl
@[simp] theorem State.setFifo_same (s : State) (k : Nat) (x : Fifo) : (s.setFifo k x).fifo k = x := mget_mset_same _ x k _
theorem State.setFifo_ne (s : State) {j k : Nat} (h : j ≠ k) (x : Fifo) : (s.setFifo k x).fifo j = s.fifo j := mget_mset_ne h _ x _
@[simp] theorem State.setFifo_pending (s : State) (k : Nat) (x : Fifo) : (s.setFifo k x).pending = s.pending := rfl
@[simp] theorem State.setFifo_free (s : State) (k : Nat) (x : Fifo) : (s.setFifo k x).free = s.free := rfl
@[simp] theorem State.setFifo_out (s : State) (k : Nat) (x : Fifo) : (s.setFifo k x).out = s.out := rfl
@[simp] theorem State.setFifo_clk (s : State) (k : Nat) (x : Fifo) : (s.setFifo k x).clk = s.clk := rfl
@[simp] theorem State.setFifo_evr (s : State) (k : Nat) (x : Fifo) : (s.setFifo k x).evr = s.evr := rfl
@[simp] theorem State.setFifo_chv (s : State) (k : Nat) (x : Fifo) : (s.setFifo k x).chv = s.chv := rfl
@[simp] theorem State.setFifo_ports (s : State) (k : Nat) (x : Fifo) : (s.setFifo k x).ports = s.ports := rfl
@[simp] theorem State.setFifo_lanes (s : State) (k : Nat) (x : Fifo) : (s.setFifo k x).lanes = s.lanes := rfl
@[simp] theorem State.setFifo_sw (s : State) (k : Nat) (x : Fifo) : (s.setFifo k x).sw = s.sw := rfl
@[simp] theorem State.setFifo_mf (s : State) (k : Nat) (x : Fifo) : (s.setFifo k x).mf = s.mf := rfl
@[simp] theorem State.setFifo_coh (s : State) (k : Nat) (x : Fifo) : (s.setFifo k x).coh = s.coh := rfl
@[simp] theorem State.setFifo_ctl (s : State) (k : Nat) (x : Fifo) : (s.setFifo k x).ctl = s.ctl := rfl
@[simp] theorem State.setFifo_tab (s : State) (k : Nat) (x : Fifo) : (s.setFifo k x).tab = s.tab := rfl
@[simp] theorem State.setFifo_svc (s : State) (k : Nat) (x : Fifo) : (s.setFifo k x).svc = s.svc := rfl
@[simp] theorem State.setFifo_cod (s : State) (k : Nat) (x : Fifo) : (s.setFifo k x).cod = s.cod := rfl
@[simp] theorem State.setFifo_per (s : State) (k : Nat) (x : Fifo) : (s.setFifo k x).per = s.per := rfl
@[simp] theorem State.setFifo_tier (s : State) (k : Nat) (x : Fifo) : (s.setFifo k x).tier = s.tier := rfl
@[simp] theorem State.setFifo_cx (s : State) (k : Nat) (x : Fifo) : (s.setFifo k x).cx = s.cx := rfl
@[simp] theorem State.setFifo_sec (s : State) (k : Nat) (x : Fifo) : (s.setFifo k x).sec = s.sec := rfl
@[simp] theorem State.setFifo_rel (s : State) (k : Nat) (x : Fifo) : (s.setFifo k x).rel = s.rel := rfl
@[simp] theorem State.setFifo_map (s : State) (k : Nat) (x : Fifo) : (s.setFifo k x).map = s.map := rfl
@[simp] theorem State.setFifo_boot (s : State) (k : Nat) (x : Fifo) : (s.setFifo k x).boot = s.boot := rfl
@[simp] theorem State.setFifo_port_at (s : State) (k : Nat) (x : Fifo) (j : Nat) : (s.setFifo k x).port j = s.port j := rfl
@[simp] theorem State.setFifo_lane_at (s : State) (k : Nat) (x : Fifo) (j : Nat) : (s.setFifo k x).lane j = s.lane j := rfl
@[simp] theorem State.setFifo_queue_at (s : State) (k : Nat) (x : Fifo) (j : Nat) : (s.setFifo k x).queue j = s.queue j := rfl
@[simp] theorem State.setFifo_park_at (s : State) (k : Nat) (x : Fifo) (j : Nat) : (s.setFifo k x).park j = s.park j := rfl
@[simp] theorem State.setFifo_buf_at (s : State) (k : Nat) (x : Fifo) (j : Nat) : (s.setFifo k x).buf j = s.buf j := rfl
@[simp] theorem State.setFifo_bucket_at (s : State) (k : Nat) (x : Fifo) (j : Nat) : (s.setFifo k x).bucket j = s.bucket j := rfl
@[simp] theorem State.setFifo_gate_at (s : State) (k : Nat) (x : Fifo) (j : Nat) : (s.setFifo k x).gate j = s.gate j := rfl
@[simp] theorem State.setFifo_tile_at (s : State) (k : Nat) (x : Fifo) (j : Nat) : (s.setFifo k x).tile j = s.tile j := rfl
@[simp] theorem State.setFifo_slot_at (s : State) (k : Nat) (x : Fifo) (j : Nat) : (s.setFifo k x).slot j = s.slot j := rfl
@[simp] theorem State.setFifo_thread_at (s : State) (k : Nat) (x : Fifo) (j : Nat) : (s.setFifo k x).thread j = s.thread j := rfl
@[simp] theorem State.setFifo_plan_at (s : State) (k : Nat) (x : Fifo) (j : Nat) : (s.setFifo k x).plan j = s.plan j := rfl
@[simp] theorem State.setFifo_stream_at (s : State) (k : Nat) (x : Fifo) (j : Nat) : (s.setFifo k x).stream j = s.stream j := rfl
@[simp] theorem State.setFifo_expert_at (s : State) (k : Nat) (x : Fifo) (j : Nat) : (s.setFifo k x).expert j = s.expert j := rfl
@[simp] theorem State.setFifo_hport_at (s : State) (k : Nat) (x : Fifo) (j : Nat) : (s.setFifo k x).hport j = s.hport j := rfl
@[simp] theorem State.setFifo_func_at (s : State) (k : Nat) (x : Fifo) (j : Nat) : (s.setFifo k x).func j = s.func j := rfl
@[simp] theorem State.setFifo_sensor_at (s : State) (k : Nat) (x : Fifo) (j : Nat) : (s.setFifo k x).sensor j = s.sensor j := rfl
@[simp] theorem State.setFifo_phase_at (s : State) (k : Nat) (x : Fifo) (j : Nat) : (s.setFifo k x).phase j = s.phase j := rfl
@[simp] theorem State.setFifo_block_at (s : State) (k : Nat) (x : Fifo) (j : Nat) : (s.setFifo k x).block j = s.block j := rfl
@[simp] theorem State.setFifo_line_at (s : State) (k : Nat) (x : Fifo) (j : Nat) : (s.setFifo k x).line j = s.line j := rfl
@[simp] theorem State.setFifo_droop_at (s : State) (k : Nat) (x : Fifo) (j : Nat) : (s.setFifo k x).droop j = s.droop j := rfl
@[simp] theorem State.setFifo_limit_at (s : State) (k : Nat) (x : Fifo) (j : Nat) : (s.setFifo k x).limit j = s.limit j := rfl
@[simp] theorem State.setFifo_shed_at (s : State) (k : Nat) (x : Fifo) (j : Nat) : (s.setFifo k x).shed j = s.shed j := rfl
@[simp] theorem State.setFifo_recDie_at (s : State) (k : Nat) (x : Fifo) (j : Nat) : (s.setFifo k x).recDie j = s.recDie j := rfl
@[simp] theorem State.setFifo_nbr_at (s : State) (k : Nat) (x : Fifo) (j : Nat) : (s.setFifo k x).nbr j = s.nbr j := rfl
@[simp] theorem State.setFifo_image_at (s : State) (k : Nat) (x : Fifo) (j : Nat) : (s.setFifo k x).image j = s.image j := rfl
@[simp] theorem State.setFifo_spdm_at (s : State) (k : Nat) (x : Fifo) (j : Nat) : (s.setFifo k x).spdm j = s.spdm j := rfl

/-! ### Sensor -/

@[simp] theorem State.modSensor_eq (s : State) (k : Nat) (f : Sensor → Sensor) : s.modSensor k f = s.setSensor k (f (s.sensor k)) := rfl
@[simp] theorem State.setSensor_same (s : State) (k : Nat) (x : Sensor) : (s.setSensor k x).sensor k = x := mget_mset_same _ x k _
theorem State.setSensor_ne (s : State) {j k : Nat} (h : j ≠ k) (x : Sensor) : (s.setSensor k x).sensor j = s.sensor j := mget_mset_ne h _ x _
@[simp] theorem State.setSensor_pending (s : State) (k : Nat) (x : Sensor) : (s.setSensor k x).pending = s.pending := rfl
@[simp] theorem State.setSensor_free (s : State) (k : Nat) (x : Sensor) : (s.setSensor k x).free = s.free := rfl
@[simp] theorem State.setSensor_out (s : State) (k : Nat) (x : Sensor) : (s.setSensor k x).out = s.out := rfl
@[simp] theorem State.setSensor_clk (s : State) (k : Nat) (x : Sensor) : (s.setSensor k x).clk = s.clk := rfl
@[simp] theorem State.setSensor_evr (s : State) (k : Nat) (x : Sensor) : (s.setSensor k x).evr = s.evr := rfl
@[simp] theorem State.setSensor_ports (s : State) (k : Nat) (x : Sensor) : (s.setSensor k x).ports = s.ports := rfl
@[simp] theorem State.setSensor_lanes (s : State) (k : Nat) (x : Sensor) : (s.setSensor k x).lanes = s.lanes := rfl
@[simp] theorem State.setSensor_sw (s : State) (k : Nat) (x : Sensor) : (s.setSensor k x).sw = s.sw := rfl
@[simp] theorem State.setSensor_mf (s : State) (k : Nat) (x : Sensor) : (s.setSensor k x).mf = s.mf := rfl
@[simp] theorem State.setSensor_coh (s : State) (k : Nat) (x : Sensor) : (s.setSensor k x).coh = s.coh := rfl
@[simp] theorem State.setSensor_ctl (s : State) (k : Nat) (x : Sensor) : (s.setSensor k x).ctl = s.ctl := rfl
@[simp] theorem State.setSensor_tab (s : State) (k : Nat) (x : Sensor) : (s.setSensor k x).tab = s.tab := rfl
@[simp] theorem State.setSensor_svc (s : State) (k : Nat) (x : Sensor) : (s.setSensor k x).svc = s.svc := rfl
@[simp] theorem State.setSensor_cod (s : State) (k : Nat) (x : Sensor) : (s.setSensor k x).cod = s.cod := rfl
@[simp] theorem State.setSensor_per (s : State) (k : Nat) (x : Sensor) : (s.setSensor k x).per = s.per := rfl
@[simp] theorem State.setSensor_tier (s : State) (k : Nat) (x : Sensor) : (s.setSensor k x).tier = s.tier := rfl
@[simp] theorem State.setSensor_hst (s : State) (k : Nat) (x : Sensor) : (s.setSensor k x).hst = s.hst := rfl
@[simp] theorem State.setSensor_cx (s : State) (k : Nat) (x : Sensor) : (s.setSensor k x).cx = s.cx := rfl
@[simp] theorem State.setSensor_sec (s : State) (k : Nat) (x : Sensor) : (s.setSensor k x).sec = s.sec := rfl
@[simp] theorem State.setSensor_rel (s : State) (k : Nat) (x : Sensor) : (s.setSensor k x).rel = s.rel := rfl
@[simp] theorem State.setSensor_map (s : State) (k : Nat) (x : Sensor) : (s.setSensor k x).map = s.map := rfl
@[simp] theorem State.setSensor_boot (s : State) (k : Nat) (x : Sensor) : (s.setSensor k x).boot = s.boot := rfl
@[simp] theorem State.setSensor_port_at (s : State) (k : Nat) (x : Sensor) (j : Nat) : (s.setSensor k x).port j = s.port j := rfl
@[simp] theorem State.setSensor_lane_at (s : State) (k : Nat) (x : Sensor) (j : Nat) : (s.setSensor k x).lane j = s.lane j := rfl
@[simp] theorem State.setSensor_queue_at (s : State) (k : Nat) (x : Sensor) (j : Nat) : (s.setSensor k x).queue j = s.queue j := rfl
@[simp] theorem State.setSensor_park_at (s : State) (k : Nat) (x : Sensor) (j : Nat) : (s.setSensor k x).park j = s.park j := rfl
@[simp] theorem State.setSensor_buf_at (s : State) (k : Nat) (x : Sensor) (j : Nat) : (s.setSensor k x).buf j = s.buf j := rfl
@[simp] theorem State.setSensor_bucket_at (s : State) (k : Nat) (x : Sensor) (j : Nat) : (s.setSensor k x).bucket j = s.bucket j := rfl
@[simp] theorem State.setSensor_gate_at (s : State) (k : Nat) (x : Sensor) (j : Nat) : (s.setSensor k x).gate j = s.gate j := rfl
@[simp] theorem State.setSensor_tile_at (s : State) (k : Nat) (x : Sensor) (j : Nat) : (s.setSensor k x).tile j = s.tile j := rfl
@[simp] theorem State.setSensor_slot_at (s : State) (k : Nat) (x : Sensor) (j : Nat) : (s.setSensor k x).slot j = s.slot j := rfl
@[simp] theorem State.setSensor_thread_at (s : State) (k : Nat) (x : Sensor) (j : Nat) : (s.setSensor k x).thread j = s.thread j := rfl
@[simp] theorem State.setSensor_plan_at (s : State) (k : Nat) (x : Sensor) (j : Nat) : (s.setSensor k x).plan j = s.plan j := rfl
@[simp] theorem State.setSensor_stream_at (s : State) (k : Nat) (x : Sensor) (j : Nat) : (s.setSensor k x).stream j = s.stream j := rfl
@[simp] theorem State.setSensor_expert_at (s : State) (k : Nat) (x : Sensor) (j : Nat) : (s.setSensor k x).expert j = s.expert j := rfl
@[simp] theorem State.setSensor_hport_at (s : State) (k : Nat) (x : Sensor) (j : Nat) : (s.setSensor k x).hport j = s.hport j := rfl
@[simp] theorem State.setSensor_func_at (s : State) (k : Nat) (x : Sensor) (j : Nat) : (s.setSensor k x).func j = s.func j := rfl
@[simp] theorem State.setSensor_fifo_at (s : State) (k : Nat) (x : Sensor) (j : Nat) : (s.setSensor k x).fifo j = s.fifo j := rfl
@[simp] theorem State.setSensor_phase_at (s : State) (k : Nat) (x : Sensor) (j : Nat) : (s.setSensor k x).phase j = s.phase j := rfl
@[simp] theorem State.setSensor_block_at (s : State) (k : Nat) (x : Sensor) (j : Nat) : (s.setSensor k x).block j = s.block j := rfl
@[simp] theorem State.setSensor_line_at (s : State) (k : Nat) (x : Sensor) (j : Nat) : (s.setSensor k x).line j = s.line j := rfl
@[simp] theorem State.setSensor_droop_at (s : State) (k : Nat) (x : Sensor) (j : Nat) : (s.setSensor k x).droop j = s.droop j := rfl
@[simp] theorem State.setSensor_limit_at (s : State) (k : Nat) (x : Sensor) (j : Nat) : (s.setSensor k x).limit j = s.limit j := rfl
@[simp] theorem State.setSensor_shed_at (s : State) (k : Nat) (x : Sensor) (j : Nat) : (s.setSensor k x).shed j = s.shed j := rfl
@[simp] theorem State.setSensor_recDie_at (s : State) (k : Nat) (x : Sensor) (j : Nat) : (s.setSensor k x).recDie j = s.recDie j := rfl
@[simp] theorem State.setSensor_nbr_at (s : State) (k : Nat) (x : Sensor) (j : Nat) : (s.setSensor k x).nbr j = s.nbr j := rfl
@[simp] theorem State.setSensor_image_at (s : State) (k : Nat) (x : Sensor) (j : Nat) : (s.setSensor k x).image j = s.image j := rfl
@[simp] theorem State.setSensor_spdm_at (s : State) (k : Nat) (x : Sensor) (j : Nat) : (s.setSensor k x).spdm j = s.spdm j := rfl

/-! ### Phase -/

@[simp] theorem State.modPhase_eq (s : State) (k : Nat) (f : Phase → Phase) : s.modPhase k f = s.setPhase k (f (s.phase k)) := rfl
@[simp] theorem State.setPhase_same (s : State) (k : Nat) (x : Phase) : (s.setPhase k x).phase k = x := mget_mset_same _ x k _
theorem State.setPhase_ne (s : State) {j k : Nat} (h : j ≠ k) (x : Phase) : (s.setPhase k x).phase j = s.phase j := mget_mset_ne h _ x _
@[simp] theorem State.setPhase_pending (s : State) (k : Nat) (x : Phase) : (s.setPhase k x).pending = s.pending := rfl
@[simp] theorem State.setPhase_free (s : State) (k : Nat) (x : Phase) : (s.setPhase k x).free = s.free := rfl
@[simp] theorem State.setPhase_out (s : State) (k : Nat) (x : Phase) : (s.setPhase k x).out = s.out := rfl
@[simp] theorem State.setPhase_clk (s : State) (k : Nat) (x : Phase) : (s.setPhase k x).clk = s.clk := rfl
@[simp] theorem State.setPhase_evr (s : State) (k : Nat) (x : Phase) : (s.setPhase k x).evr = s.evr := rfl
@[simp] theorem State.setPhase_ports (s : State) (k : Nat) (x : Phase) : (s.setPhase k x).ports = s.ports := rfl
@[simp] theorem State.setPhase_lanes (s : State) (k : Nat) (x : Phase) : (s.setPhase k x).lanes = s.lanes := rfl
@[simp] theorem State.setPhase_sw (s : State) (k : Nat) (x : Phase) : (s.setPhase k x).sw = s.sw := rfl
@[simp] theorem State.setPhase_mf (s : State) (k : Nat) (x : Phase) : (s.setPhase k x).mf = s.mf := rfl
@[simp] theorem State.setPhase_coh (s : State) (k : Nat) (x : Phase) : (s.setPhase k x).coh = s.coh := rfl
@[simp] theorem State.setPhase_ctl (s : State) (k : Nat) (x : Phase) : (s.setPhase k x).ctl = s.ctl := rfl
@[simp] theorem State.setPhase_tab (s : State) (k : Nat) (x : Phase) : (s.setPhase k x).tab = s.tab := rfl
@[simp] theorem State.setPhase_svc (s : State) (k : Nat) (x : Phase) : (s.setPhase k x).svc = s.svc := rfl
@[simp] theorem State.setPhase_cod (s : State) (k : Nat) (x : Phase) : (s.setPhase k x).cod = s.cod := rfl
@[simp] theorem State.setPhase_per (s : State) (k : Nat) (x : Phase) : (s.setPhase k x).per = s.per := rfl
@[simp] theorem State.setPhase_tier (s : State) (k : Nat) (x : Phase) : (s.setPhase k x).tier = s.tier := rfl
@[simp] theorem State.setPhase_hst (s : State) (k : Nat) (x : Phase) : (s.setPhase k x).hst = s.hst := rfl
@[simp] theorem State.setPhase_cx (s : State) (k : Nat) (x : Phase) : (s.setPhase k x).cx = s.cx := rfl
@[simp] theorem State.setPhase_sec (s : State) (k : Nat) (x : Phase) : (s.setPhase k x).sec = s.sec := rfl
@[simp] theorem State.setPhase_rel (s : State) (k : Nat) (x : Phase) : (s.setPhase k x).rel = s.rel := rfl
@[simp] theorem State.setPhase_map (s : State) (k : Nat) (x : Phase) : (s.setPhase k x).map = s.map := rfl
@[simp] theorem State.setPhase_boot (s : State) (k : Nat) (x : Phase) : (s.setPhase k x).boot = s.boot := rfl
@[simp] theorem State.setPhase_port_at (s : State) (k : Nat) (x : Phase) (j : Nat) : (s.setPhase k x).port j = s.port j := rfl
@[simp] theorem State.setPhase_lane_at (s : State) (k : Nat) (x : Phase) (j : Nat) : (s.setPhase k x).lane j = s.lane j := rfl
@[simp] theorem State.setPhase_queue_at (s : State) (k : Nat) (x : Phase) (j : Nat) : (s.setPhase k x).queue j = s.queue j := rfl
@[simp] theorem State.setPhase_park_at (s : State) (k : Nat) (x : Phase) (j : Nat) : (s.setPhase k x).park j = s.park j := rfl
@[simp] theorem State.setPhase_buf_at (s : State) (k : Nat) (x : Phase) (j : Nat) : (s.setPhase k x).buf j = s.buf j := rfl
@[simp] theorem State.setPhase_bucket_at (s : State) (k : Nat) (x : Phase) (j : Nat) : (s.setPhase k x).bucket j = s.bucket j := rfl
@[simp] theorem State.setPhase_gate_at (s : State) (k : Nat) (x : Phase) (j : Nat) : (s.setPhase k x).gate j = s.gate j := rfl
@[simp] theorem State.setPhase_tile_at (s : State) (k : Nat) (x : Phase) (j : Nat) : (s.setPhase k x).tile j = s.tile j := rfl
@[simp] theorem State.setPhase_slot_at (s : State) (k : Nat) (x : Phase) (j : Nat) : (s.setPhase k x).slot j = s.slot j := rfl
@[simp] theorem State.setPhase_thread_at (s : State) (k : Nat) (x : Phase) (j : Nat) : (s.setPhase k x).thread j = s.thread j := rfl
@[simp] theorem State.setPhase_plan_at (s : State) (k : Nat) (x : Phase) (j : Nat) : (s.setPhase k x).plan j = s.plan j := rfl
@[simp] theorem State.setPhase_stream_at (s : State) (k : Nat) (x : Phase) (j : Nat) : (s.setPhase k x).stream j = s.stream j := rfl
@[simp] theorem State.setPhase_expert_at (s : State) (k : Nat) (x : Phase) (j : Nat) : (s.setPhase k x).expert j = s.expert j := rfl
@[simp] theorem State.setPhase_hport_at (s : State) (k : Nat) (x : Phase) (j : Nat) : (s.setPhase k x).hport j = s.hport j := rfl
@[simp] theorem State.setPhase_func_at (s : State) (k : Nat) (x : Phase) (j : Nat) : (s.setPhase k x).func j = s.func j := rfl
@[simp] theorem State.setPhase_fifo_at (s : State) (k : Nat) (x : Phase) (j : Nat) : (s.setPhase k x).fifo j = s.fifo j := rfl
@[simp] theorem State.setPhase_sensor_at (s : State) (k : Nat) (x : Phase) (j : Nat) : (s.setPhase k x).sensor j = s.sensor j := rfl
@[simp] theorem State.setPhase_block_at (s : State) (k : Nat) (x : Phase) (j : Nat) : (s.setPhase k x).block j = s.block j := rfl
@[simp] theorem State.setPhase_line_at (s : State) (k : Nat) (x : Phase) (j : Nat) : (s.setPhase k x).line j = s.line j := rfl
@[simp] theorem State.setPhase_droop_at (s : State) (k : Nat) (x : Phase) (j : Nat) : (s.setPhase k x).droop j = s.droop j := rfl
@[simp] theorem State.setPhase_limit_at (s : State) (k : Nat) (x : Phase) (j : Nat) : (s.setPhase k x).limit j = s.limit j := rfl
@[simp] theorem State.setPhase_shed_at (s : State) (k : Nat) (x : Phase) (j : Nat) : (s.setPhase k x).shed j = s.shed j := rfl
@[simp] theorem State.setPhase_recDie_at (s : State) (k : Nat) (x : Phase) (j : Nat) : (s.setPhase k x).recDie j = s.recDie j := rfl
@[simp] theorem State.setPhase_nbr_at (s : State) (k : Nat) (x : Phase) (j : Nat) : (s.setPhase k x).nbr j = s.nbr j := rfl
@[simp] theorem State.setPhase_image_at (s : State) (k : Nat) (x : Phase) (j : Nat) : (s.setPhase k x).image j = s.image j := rfl
@[simp] theorem State.setPhase_spdm_at (s : State) (k : Nat) (x : Phase) (j : Nat) : (s.setPhase k x).spdm j = s.spdm j := rfl

/-! ### Block -/

@[simp] theorem State.modBlock_eq (s : State) (k : Nat) (f : Block → Block) : s.modBlock k f = s.setBlock k (f (s.block k)) := rfl
@[simp] theorem State.setBlock_same (s : State) (k : Nat) (x : Block) : (s.setBlock k x).block k = x := mget_mset_same _ x k _
theorem State.setBlock_ne (s : State) {j k : Nat} (h : j ≠ k) (x : Block) : (s.setBlock k x).block j = s.block j := mget_mset_ne h _ x _
@[simp] theorem State.setBlock_pending (s : State) (k : Nat) (x : Block) : (s.setBlock k x).pending = s.pending := rfl
@[simp] theorem State.setBlock_free (s : State) (k : Nat) (x : Block) : (s.setBlock k x).free = s.free := rfl
@[simp] theorem State.setBlock_out (s : State) (k : Nat) (x : Block) : (s.setBlock k x).out = s.out := rfl
@[simp] theorem State.setBlock_clk (s : State) (k : Nat) (x : Block) : (s.setBlock k x).clk = s.clk := rfl
@[simp] theorem State.setBlock_evr (s : State) (k : Nat) (x : Block) : (s.setBlock k x).evr = s.evr := rfl
@[simp] theorem State.setBlock_ports (s : State) (k : Nat) (x : Block) : (s.setBlock k x).ports = s.ports := rfl
@[simp] theorem State.setBlock_lanes (s : State) (k : Nat) (x : Block) : (s.setBlock k x).lanes = s.lanes := rfl
@[simp] theorem State.setBlock_sw (s : State) (k : Nat) (x : Block) : (s.setBlock k x).sw = s.sw := rfl
@[simp] theorem State.setBlock_mf (s : State) (k : Nat) (x : Block) : (s.setBlock k x).mf = s.mf := rfl
@[simp] theorem State.setBlock_coh (s : State) (k : Nat) (x : Block) : (s.setBlock k x).coh = s.coh := rfl
@[simp] theorem State.setBlock_ctl (s : State) (k : Nat) (x : Block) : (s.setBlock k x).ctl = s.ctl := rfl
@[simp] theorem State.setBlock_tab (s : State) (k : Nat) (x : Block) : (s.setBlock k x).tab = s.tab := rfl
@[simp] theorem State.setBlock_svc (s : State) (k : Nat) (x : Block) : (s.setBlock k x).svc = s.svc := rfl
@[simp] theorem State.setBlock_cod (s : State) (k : Nat) (x : Block) : (s.setBlock k x).cod = s.cod := rfl
@[simp] theorem State.setBlock_per (s : State) (k : Nat) (x : Block) : (s.setBlock k x).per = s.per := rfl
@[simp] theorem State.setBlock_tier (s : State) (k : Nat) (x : Block) : (s.setBlock k x).tier = s.tier := rfl
@[simp] theorem State.setBlock_hst (s : State) (k : Nat) (x : Block) : (s.setBlock k x).hst = s.hst := rfl
@[simp] theorem State.setBlock_cx (s : State) (k : Nat) (x : Block) : (s.setBlock k x).cx = s.cx := rfl
@[simp] theorem State.setBlock_sec (s : State) (k : Nat) (x : Block) : (s.setBlock k x).sec = s.sec := rfl
@[simp] theorem State.setBlock_rel (s : State) (k : Nat) (x : Block) : (s.setBlock k x).rel = s.rel := rfl
@[simp] theorem State.setBlock_map (s : State) (k : Nat) (x : Block) : (s.setBlock k x).map = s.map := rfl
@[simp] theorem State.setBlock_boot (s : State) (k : Nat) (x : Block) : (s.setBlock k x).boot = s.boot := rfl
@[simp] theorem State.setBlock_port_at (s : State) (k : Nat) (x : Block) (j : Nat) : (s.setBlock k x).port j = s.port j := rfl
@[simp] theorem State.setBlock_lane_at (s : State) (k : Nat) (x : Block) (j : Nat) : (s.setBlock k x).lane j = s.lane j := rfl
@[simp] theorem State.setBlock_queue_at (s : State) (k : Nat) (x : Block) (j : Nat) : (s.setBlock k x).queue j = s.queue j := rfl
@[simp] theorem State.setBlock_park_at (s : State) (k : Nat) (x : Block) (j : Nat) : (s.setBlock k x).park j = s.park j := rfl
@[simp] theorem State.setBlock_buf_at (s : State) (k : Nat) (x : Block) (j : Nat) : (s.setBlock k x).buf j = s.buf j := rfl
@[simp] theorem State.setBlock_bucket_at (s : State) (k : Nat) (x : Block) (j : Nat) : (s.setBlock k x).bucket j = s.bucket j := rfl
@[simp] theorem State.setBlock_gate_at (s : State) (k : Nat) (x : Block) (j : Nat) : (s.setBlock k x).gate j = s.gate j := rfl
@[simp] theorem State.setBlock_tile_at (s : State) (k : Nat) (x : Block) (j : Nat) : (s.setBlock k x).tile j = s.tile j := rfl
@[simp] theorem State.setBlock_slot_at (s : State) (k : Nat) (x : Block) (j : Nat) : (s.setBlock k x).slot j = s.slot j := rfl
@[simp] theorem State.setBlock_thread_at (s : State) (k : Nat) (x : Block) (j : Nat) : (s.setBlock k x).thread j = s.thread j := rfl
@[simp] theorem State.setBlock_plan_at (s : State) (k : Nat) (x : Block) (j : Nat) : (s.setBlock k x).plan j = s.plan j := rfl
@[simp] theorem State.setBlock_stream_at (s : State) (k : Nat) (x : Block) (j : Nat) : (s.setBlock k x).stream j = s.stream j := rfl
@[simp] theorem State.setBlock_expert_at (s : State) (k : Nat) (x : Block) (j : Nat) : (s.setBlock k x).expert j = s.expert j := rfl
@[simp] theorem State.setBlock_hport_at (s : State) (k : Nat) (x : Block) (j : Nat) : (s.setBlock k x).hport j = s.hport j := rfl
@[simp] theorem State.setBlock_func_at (s : State) (k : Nat) (x : Block) (j : Nat) : (s.setBlock k x).func j = s.func j := rfl
@[simp] theorem State.setBlock_fifo_at (s : State) (k : Nat) (x : Block) (j : Nat) : (s.setBlock k x).fifo j = s.fifo j := rfl
@[simp] theorem State.setBlock_sensor_at (s : State) (k : Nat) (x : Block) (j : Nat) : (s.setBlock k x).sensor j = s.sensor j := rfl
@[simp] theorem State.setBlock_phase_at (s : State) (k : Nat) (x : Block) (j : Nat) : (s.setBlock k x).phase j = s.phase j := rfl
@[simp] theorem State.setBlock_line_at (s : State) (k : Nat) (x : Block) (j : Nat) : (s.setBlock k x).line j = s.line j := rfl
@[simp] theorem State.setBlock_droop_at (s : State) (k : Nat) (x : Block) (j : Nat) : (s.setBlock k x).droop j = s.droop j := rfl
@[simp] theorem State.setBlock_limit_at (s : State) (k : Nat) (x : Block) (j : Nat) : (s.setBlock k x).limit j = s.limit j := rfl
@[simp] theorem State.setBlock_shed_at (s : State) (k : Nat) (x : Block) (j : Nat) : (s.setBlock k x).shed j = s.shed j := rfl
@[simp] theorem State.setBlock_recDie_at (s : State) (k : Nat) (x : Block) (j : Nat) : (s.setBlock k x).recDie j = s.recDie j := rfl
@[simp] theorem State.setBlock_nbr_at (s : State) (k : Nat) (x : Block) (j : Nat) : (s.setBlock k x).nbr j = s.nbr j := rfl
@[simp] theorem State.setBlock_image_at (s : State) (k : Nat) (x : Block) (j : Nat) : (s.setBlock k x).image j = s.image j := rfl
@[simp] theorem State.setBlock_spdm_at (s : State) (k : Nat) (x : Block) (j : Nat) : (s.setBlock k x).spdm j = s.spdm j := rfl

/-! ### DelayLine -/

@[simp] theorem State.modLine_eq (s : State) (k : Nat) (f : DelayLine → DelayLine) : s.modLine k f = s.setLine k (f (s.line k)) := rfl
@[simp] theorem State.setLine_same (s : State) (k : Nat) (x : DelayLine) : (s.setLine k x).line k = x := mget_mset_same _ x k _
theorem State.setLine_ne (s : State) {j k : Nat} (h : j ≠ k) (x : DelayLine) : (s.setLine k x).line j = s.line j := mget_mset_ne h _ x _
@[simp] theorem State.setLine_pending (s : State) (k : Nat) (x : DelayLine) : (s.setLine k x).pending = s.pending := rfl
@[simp] theorem State.setLine_free (s : State) (k : Nat) (x : DelayLine) : (s.setLine k x).free = s.free := rfl
@[simp] theorem State.setLine_out (s : State) (k : Nat) (x : DelayLine) : (s.setLine k x).out = s.out := rfl
@[simp] theorem State.setLine_clk (s : State) (k : Nat) (x : DelayLine) : (s.setLine k x).clk = s.clk := rfl
@[simp] theorem State.setLine_evr (s : State) (k : Nat) (x : DelayLine) : (s.setLine k x).evr = s.evr := rfl
@[simp] theorem State.setLine_ports (s : State) (k : Nat) (x : DelayLine) : (s.setLine k x).ports = s.ports := rfl
@[simp] theorem State.setLine_lanes (s : State) (k : Nat) (x : DelayLine) : (s.setLine k x).lanes = s.lanes := rfl
@[simp] theorem State.setLine_sw (s : State) (k : Nat) (x : DelayLine) : (s.setLine k x).sw = s.sw := rfl
@[simp] theorem State.setLine_mf (s : State) (k : Nat) (x : DelayLine) : (s.setLine k x).mf = s.mf := rfl
@[simp] theorem State.setLine_coh (s : State) (k : Nat) (x : DelayLine) : (s.setLine k x).coh = s.coh := rfl
@[simp] theorem State.setLine_ctl (s : State) (k : Nat) (x : DelayLine) : (s.setLine k x).ctl = s.ctl := rfl
@[simp] theorem State.setLine_tab (s : State) (k : Nat) (x : DelayLine) : (s.setLine k x).tab = s.tab := rfl
@[simp] theorem State.setLine_svc (s : State) (k : Nat) (x : DelayLine) : (s.setLine k x).svc = s.svc := rfl
@[simp] theorem State.setLine_cod (s : State) (k : Nat) (x : DelayLine) : (s.setLine k x).cod = s.cod := rfl
@[simp] theorem State.setLine_per (s : State) (k : Nat) (x : DelayLine) : (s.setLine k x).per = s.per := rfl
@[simp] theorem State.setLine_tier (s : State) (k : Nat) (x : DelayLine) : (s.setLine k x).tier = s.tier := rfl
@[simp] theorem State.setLine_hst (s : State) (k : Nat) (x : DelayLine) : (s.setLine k x).hst = s.hst := rfl
@[simp] theorem State.setLine_cx (s : State) (k : Nat) (x : DelayLine) : (s.setLine k x).cx = s.cx := rfl
@[simp] theorem State.setLine_sec (s : State) (k : Nat) (x : DelayLine) : (s.setLine k x).sec = s.sec := rfl
@[simp] theorem State.setLine_rel (s : State) (k : Nat) (x : DelayLine) : (s.setLine k x).rel = s.rel := rfl
@[simp] theorem State.setLine_map (s : State) (k : Nat) (x : DelayLine) : (s.setLine k x).map = s.map := rfl
@[simp] theorem State.setLine_boot (s : State) (k : Nat) (x : DelayLine) : (s.setLine k x).boot = s.boot := rfl
@[simp] theorem State.setLine_port_at (s : State) (k : Nat) (x : DelayLine) (j : Nat) : (s.setLine k x).port j = s.port j := rfl
@[simp] theorem State.setLine_lane_at (s : State) (k : Nat) (x : DelayLine) (j : Nat) : (s.setLine k x).lane j = s.lane j := rfl
@[simp] theorem State.setLine_queue_at (s : State) (k : Nat) (x : DelayLine) (j : Nat) : (s.setLine k x).queue j = s.queue j := rfl
@[simp] theorem State.setLine_park_at (s : State) (k : Nat) (x : DelayLine) (j : Nat) : (s.setLine k x).park j = s.park j := rfl
@[simp] theorem State.setLine_buf_at (s : State) (k : Nat) (x : DelayLine) (j : Nat) : (s.setLine k x).buf j = s.buf j := rfl
@[simp] theorem State.setLine_bucket_at (s : State) (k : Nat) (x : DelayLine) (j : Nat) : (s.setLine k x).bucket j = s.bucket j := rfl
@[simp] theorem State.setLine_gate_at (s : State) (k : Nat) (x : DelayLine) (j : Nat) : (s.setLine k x).gate j = s.gate j := rfl
@[simp] theorem State.setLine_tile_at (s : State) (k : Nat) (x : DelayLine) (j : Nat) : (s.setLine k x).tile j = s.tile j := rfl
@[simp] theorem State.setLine_slot_at (s : State) (k : Nat) (x : DelayLine) (j : Nat) : (s.setLine k x).slot j = s.slot j := rfl
@[simp] theorem State.setLine_thread_at (s : State) (k : Nat) (x : DelayLine) (j : Nat) : (s.setLine k x).thread j = s.thread j := rfl
@[simp] theorem State.setLine_plan_at (s : State) (k : Nat) (x : DelayLine) (j : Nat) : (s.setLine k x).plan j = s.plan j := rfl
@[simp] theorem State.setLine_stream_at (s : State) (k : Nat) (x : DelayLine) (j : Nat) : (s.setLine k x).stream j = s.stream j := rfl
@[simp] theorem State.setLine_expert_at (s : State) (k : Nat) (x : DelayLine) (j : Nat) : (s.setLine k x).expert j = s.expert j := rfl
@[simp] theorem State.setLine_hport_at (s : State) (k : Nat) (x : DelayLine) (j : Nat) : (s.setLine k x).hport j = s.hport j := rfl
@[simp] theorem State.setLine_func_at (s : State) (k : Nat) (x : DelayLine) (j : Nat) : (s.setLine k x).func j = s.func j := rfl
@[simp] theorem State.setLine_fifo_at (s : State) (k : Nat) (x : DelayLine) (j : Nat) : (s.setLine k x).fifo j = s.fifo j := rfl
@[simp] theorem State.setLine_sensor_at (s : State) (k : Nat) (x : DelayLine) (j : Nat) : (s.setLine k x).sensor j = s.sensor j := rfl
@[simp] theorem State.setLine_phase_at (s : State) (k : Nat) (x : DelayLine) (j : Nat) : (s.setLine k x).phase j = s.phase j := rfl
@[simp] theorem State.setLine_block_at (s : State) (k : Nat) (x : DelayLine) (j : Nat) : (s.setLine k x).block j = s.block j := rfl
@[simp] theorem State.setLine_droop_at (s : State) (k : Nat) (x : DelayLine) (j : Nat) : (s.setLine k x).droop j = s.droop j := rfl
@[simp] theorem State.setLine_limit_at (s : State) (k : Nat) (x : DelayLine) (j : Nat) : (s.setLine k x).limit j = s.limit j := rfl
@[simp] theorem State.setLine_shed_at (s : State) (k : Nat) (x : DelayLine) (j : Nat) : (s.setLine k x).shed j = s.shed j := rfl
@[simp] theorem State.setLine_recDie_at (s : State) (k : Nat) (x : DelayLine) (j : Nat) : (s.setLine k x).recDie j = s.recDie j := rfl
@[simp] theorem State.setLine_nbr_at (s : State) (k : Nat) (x : DelayLine) (j : Nat) : (s.setLine k x).nbr j = s.nbr j := rfl
@[simp] theorem State.setLine_image_at (s : State) (k : Nat) (x : DelayLine) (j : Nat) : (s.setLine k x).image j = s.image j := rfl
@[simp] theorem State.setLine_spdm_at (s : State) (k : Nat) (x : DelayLine) (j : Nat) : (s.setLine k x).spdm j = s.spdm j := rfl

/-! ### Droop -/

@[simp] theorem State.modDroop_eq (s : State) (k : Nat) (f : Droop → Droop) : s.modDroop k f = s.setDroop k (f (s.droop k)) := rfl
@[simp] theorem State.setDroop_same (s : State) (k : Nat) (x : Droop) : (s.setDroop k x).droop k = x := mget_mset_same _ x k _
theorem State.setDroop_ne (s : State) {j k : Nat} (h : j ≠ k) (x : Droop) : (s.setDroop k x).droop j = s.droop j := mget_mset_ne h _ x _
@[simp] theorem State.setDroop_pending (s : State) (k : Nat) (x : Droop) : (s.setDroop k x).pending = s.pending := rfl
@[simp] theorem State.setDroop_free (s : State) (k : Nat) (x : Droop) : (s.setDroop k x).free = s.free := rfl
@[simp] theorem State.setDroop_out (s : State) (k : Nat) (x : Droop) : (s.setDroop k x).out = s.out := rfl
@[simp] theorem State.setDroop_clk (s : State) (k : Nat) (x : Droop) : (s.setDroop k x).clk = s.clk := rfl
@[simp] theorem State.setDroop_evr (s : State) (k : Nat) (x : Droop) : (s.setDroop k x).evr = s.evr := rfl
@[simp] theorem State.setDroop_ports (s : State) (k : Nat) (x : Droop) : (s.setDroop k x).ports = s.ports := rfl
@[simp] theorem State.setDroop_lanes (s : State) (k : Nat) (x : Droop) : (s.setDroop k x).lanes = s.lanes := rfl
@[simp] theorem State.setDroop_sw (s : State) (k : Nat) (x : Droop) : (s.setDroop k x).sw = s.sw := rfl
@[simp] theorem State.setDroop_mf (s : State) (k : Nat) (x : Droop) : (s.setDroop k x).mf = s.mf := rfl
@[simp] theorem State.setDroop_coh (s : State) (k : Nat) (x : Droop) : (s.setDroop k x).coh = s.coh := rfl
@[simp] theorem State.setDroop_ctl (s : State) (k : Nat) (x : Droop) : (s.setDroop k x).ctl = s.ctl := rfl
@[simp] theorem State.setDroop_tab (s : State) (k : Nat) (x : Droop) : (s.setDroop k x).tab = s.tab := rfl
@[simp] theorem State.setDroop_svc (s : State) (k : Nat) (x : Droop) : (s.setDroop k x).svc = s.svc := rfl
@[simp] theorem State.setDroop_cod (s : State) (k : Nat) (x : Droop) : (s.setDroop k x).cod = s.cod := rfl
@[simp] theorem State.setDroop_per (s : State) (k : Nat) (x : Droop) : (s.setDroop k x).per = s.per := rfl
@[simp] theorem State.setDroop_tier (s : State) (k : Nat) (x : Droop) : (s.setDroop k x).tier = s.tier := rfl
@[simp] theorem State.setDroop_hst (s : State) (k : Nat) (x : Droop) : (s.setDroop k x).hst = s.hst := rfl
@[simp] theorem State.setDroop_cx (s : State) (k : Nat) (x : Droop) : (s.setDroop k x).cx = s.cx := rfl
@[simp] theorem State.setDroop_sec (s : State) (k : Nat) (x : Droop) : (s.setDroop k x).sec = s.sec := rfl
@[simp] theorem State.setDroop_rel (s : State) (k : Nat) (x : Droop) : (s.setDroop k x).rel = s.rel := rfl
@[simp] theorem State.setDroop_map (s : State) (k : Nat) (x : Droop) : (s.setDroop k x).map = s.map := rfl
@[simp] theorem State.setDroop_boot (s : State) (k : Nat) (x : Droop) : (s.setDroop k x).boot = s.boot := rfl
@[simp] theorem State.setDroop_port_at (s : State) (k : Nat) (x : Droop) (j : Nat) : (s.setDroop k x).port j = s.port j := rfl
@[simp] theorem State.setDroop_lane_at (s : State) (k : Nat) (x : Droop) (j : Nat) : (s.setDroop k x).lane j = s.lane j := rfl
@[simp] theorem State.setDroop_queue_at (s : State) (k : Nat) (x : Droop) (j : Nat) : (s.setDroop k x).queue j = s.queue j := rfl
@[simp] theorem State.setDroop_park_at (s : State) (k : Nat) (x : Droop) (j : Nat) : (s.setDroop k x).park j = s.park j := rfl
@[simp] theorem State.setDroop_buf_at (s : State) (k : Nat) (x : Droop) (j : Nat) : (s.setDroop k x).buf j = s.buf j := rfl
@[simp] theorem State.setDroop_bucket_at (s : State) (k : Nat) (x : Droop) (j : Nat) : (s.setDroop k x).bucket j = s.bucket j := rfl
@[simp] theorem State.setDroop_gate_at (s : State) (k : Nat) (x : Droop) (j : Nat) : (s.setDroop k x).gate j = s.gate j := rfl
@[simp] theorem State.setDroop_tile_at (s : State) (k : Nat) (x : Droop) (j : Nat) : (s.setDroop k x).tile j = s.tile j := rfl
@[simp] theorem State.setDroop_slot_at (s : State) (k : Nat) (x : Droop) (j : Nat) : (s.setDroop k x).slot j = s.slot j := rfl
@[simp] theorem State.setDroop_thread_at (s : State) (k : Nat) (x : Droop) (j : Nat) : (s.setDroop k x).thread j = s.thread j := rfl
@[simp] theorem State.setDroop_plan_at (s : State) (k : Nat) (x : Droop) (j : Nat) : (s.setDroop k x).plan j = s.plan j := rfl
@[simp] theorem State.setDroop_stream_at (s : State) (k : Nat) (x : Droop) (j : Nat) : (s.setDroop k x).stream j = s.stream j := rfl
@[simp] theorem State.setDroop_expert_at (s : State) (k : Nat) (x : Droop) (j : Nat) : (s.setDroop k x).expert j = s.expert j := rfl
@[simp] theorem State.setDroop_hport_at (s : State) (k : Nat) (x : Droop) (j : Nat) : (s.setDroop k x).hport j = s.hport j := rfl
@[simp] theorem State.setDroop_func_at (s : State) (k : Nat) (x : Droop) (j : Nat) : (s.setDroop k x).func j = s.func j := rfl
@[simp] theorem State.setDroop_fifo_at (s : State) (k : Nat) (x : Droop) (j : Nat) : (s.setDroop k x).fifo j = s.fifo j := rfl
@[simp] theorem State.setDroop_sensor_at (s : State) (k : Nat) (x : Droop) (j : Nat) : (s.setDroop k x).sensor j = s.sensor j := rfl
@[simp] theorem State.setDroop_phase_at (s : State) (k : Nat) (x : Droop) (j : Nat) : (s.setDroop k x).phase j = s.phase j := rfl
@[simp] theorem State.setDroop_block_at (s : State) (k : Nat) (x : Droop) (j : Nat) : (s.setDroop k x).block j = s.block j := rfl
@[simp] theorem State.setDroop_line_at (s : State) (k : Nat) (x : Droop) (j : Nat) : (s.setDroop k x).line j = s.line j := rfl
@[simp] theorem State.setDroop_limit_at (s : State) (k : Nat) (x : Droop) (j : Nat) : (s.setDroop k x).limit j = s.limit j := rfl
@[simp] theorem State.setDroop_shed_at (s : State) (k : Nat) (x : Droop) (j : Nat) : (s.setDroop k x).shed j = s.shed j := rfl
@[simp] theorem State.setDroop_recDie_at (s : State) (k : Nat) (x : Droop) (j : Nat) : (s.setDroop k x).recDie j = s.recDie j := rfl
@[simp] theorem State.setDroop_nbr_at (s : State) (k : Nat) (x : Droop) (j : Nat) : (s.setDroop k x).nbr j = s.nbr j := rfl
@[simp] theorem State.setDroop_image_at (s : State) (k : Nat) (x : Droop) (j : Nat) : (s.setDroop k x).image j = s.image j := rfl
@[simp] theorem State.setDroop_spdm_at (s : State) (k : Nat) (x : Droop) (j : Nat) : (s.setDroop k x).spdm j = s.spdm j := rfl

/-! ### Limits -/

@[simp] theorem State.modLimit_eq (s : State) (k : Nat) (f : Limits → Limits) : s.modLimit k f = s.setLimit k (f (s.limit k)) := rfl
@[simp] theorem State.setLimit_same (s : State) (k : Nat) (x : Limits) : (s.setLimit k x).limit k = x := mget_mset_same _ x k _
theorem State.setLimit_ne (s : State) {j k : Nat} (h : j ≠ k) (x : Limits) : (s.setLimit k x).limit j = s.limit j := mget_mset_ne h _ x _
@[simp] theorem State.setLimit_pending (s : State) (k : Nat) (x : Limits) : (s.setLimit k x).pending = s.pending := rfl
@[simp] theorem State.setLimit_free (s : State) (k : Nat) (x : Limits) : (s.setLimit k x).free = s.free := rfl
@[simp] theorem State.setLimit_out (s : State) (k : Nat) (x : Limits) : (s.setLimit k x).out = s.out := rfl
@[simp] theorem State.setLimit_clk (s : State) (k : Nat) (x : Limits) : (s.setLimit k x).clk = s.clk := rfl
@[simp] theorem State.setLimit_evr (s : State) (k : Nat) (x : Limits) : (s.setLimit k x).evr = s.evr := rfl
@[simp] theorem State.setLimit_ports (s : State) (k : Nat) (x : Limits) : (s.setLimit k x).ports = s.ports := rfl
@[simp] theorem State.setLimit_lanes (s : State) (k : Nat) (x : Limits) : (s.setLimit k x).lanes = s.lanes := rfl
@[simp] theorem State.setLimit_sw (s : State) (k : Nat) (x : Limits) : (s.setLimit k x).sw = s.sw := rfl
@[simp] theorem State.setLimit_mf (s : State) (k : Nat) (x : Limits) : (s.setLimit k x).mf = s.mf := rfl
@[simp] theorem State.setLimit_coh (s : State) (k : Nat) (x : Limits) : (s.setLimit k x).coh = s.coh := rfl
@[simp] theorem State.setLimit_ctl (s : State) (k : Nat) (x : Limits) : (s.setLimit k x).ctl = s.ctl := rfl
@[simp] theorem State.setLimit_tab (s : State) (k : Nat) (x : Limits) : (s.setLimit k x).tab = s.tab := rfl
@[simp] theorem State.setLimit_svc (s : State) (k : Nat) (x : Limits) : (s.setLimit k x).svc = s.svc := rfl
@[simp] theorem State.setLimit_cod (s : State) (k : Nat) (x : Limits) : (s.setLimit k x).cod = s.cod := rfl
@[simp] theorem State.setLimit_per (s : State) (k : Nat) (x : Limits) : (s.setLimit k x).per = s.per := rfl
@[simp] theorem State.setLimit_tier (s : State) (k : Nat) (x : Limits) : (s.setLimit k x).tier = s.tier := rfl
@[simp] theorem State.setLimit_hst (s : State) (k : Nat) (x : Limits) : (s.setLimit k x).hst = s.hst := rfl
@[simp] theorem State.setLimit_cx (s : State) (k : Nat) (x : Limits) : (s.setLimit k x).cx = s.cx := rfl
@[simp] theorem State.setLimit_sec (s : State) (k : Nat) (x : Limits) : (s.setLimit k x).sec = s.sec := rfl
@[simp] theorem State.setLimit_rel (s : State) (k : Nat) (x : Limits) : (s.setLimit k x).rel = s.rel := rfl
@[simp] theorem State.setLimit_map (s : State) (k : Nat) (x : Limits) : (s.setLimit k x).map = s.map := rfl
@[simp] theorem State.setLimit_boot (s : State) (k : Nat) (x : Limits) : (s.setLimit k x).boot = s.boot := rfl
@[simp] theorem State.setLimit_port_at (s : State) (k : Nat) (x : Limits) (j : Nat) : (s.setLimit k x).port j = s.port j := rfl
@[simp] theorem State.setLimit_lane_at (s : State) (k : Nat) (x : Limits) (j : Nat) : (s.setLimit k x).lane j = s.lane j := rfl
@[simp] theorem State.setLimit_queue_at (s : State) (k : Nat) (x : Limits) (j : Nat) : (s.setLimit k x).queue j = s.queue j := rfl
@[simp] theorem State.setLimit_park_at (s : State) (k : Nat) (x : Limits) (j : Nat) : (s.setLimit k x).park j = s.park j := rfl
@[simp] theorem State.setLimit_buf_at (s : State) (k : Nat) (x : Limits) (j : Nat) : (s.setLimit k x).buf j = s.buf j := rfl
@[simp] theorem State.setLimit_bucket_at (s : State) (k : Nat) (x : Limits) (j : Nat) : (s.setLimit k x).bucket j = s.bucket j := rfl
@[simp] theorem State.setLimit_gate_at (s : State) (k : Nat) (x : Limits) (j : Nat) : (s.setLimit k x).gate j = s.gate j := rfl
@[simp] theorem State.setLimit_tile_at (s : State) (k : Nat) (x : Limits) (j : Nat) : (s.setLimit k x).tile j = s.tile j := rfl
@[simp] theorem State.setLimit_slot_at (s : State) (k : Nat) (x : Limits) (j : Nat) : (s.setLimit k x).slot j = s.slot j := rfl
@[simp] theorem State.setLimit_thread_at (s : State) (k : Nat) (x : Limits) (j : Nat) : (s.setLimit k x).thread j = s.thread j := rfl
@[simp] theorem State.setLimit_plan_at (s : State) (k : Nat) (x : Limits) (j : Nat) : (s.setLimit k x).plan j = s.plan j := rfl
@[simp] theorem State.setLimit_stream_at (s : State) (k : Nat) (x : Limits) (j : Nat) : (s.setLimit k x).stream j = s.stream j := rfl
@[simp] theorem State.setLimit_expert_at (s : State) (k : Nat) (x : Limits) (j : Nat) : (s.setLimit k x).expert j = s.expert j := rfl
@[simp] theorem State.setLimit_hport_at (s : State) (k : Nat) (x : Limits) (j : Nat) : (s.setLimit k x).hport j = s.hport j := rfl
@[simp] theorem State.setLimit_func_at (s : State) (k : Nat) (x : Limits) (j : Nat) : (s.setLimit k x).func j = s.func j := rfl
@[simp] theorem State.setLimit_fifo_at (s : State) (k : Nat) (x : Limits) (j : Nat) : (s.setLimit k x).fifo j = s.fifo j := rfl
@[simp] theorem State.setLimit_sensor_at (s : State) (k : Nat) (x : Limits) (j : Nat) : (s.setLimit k x).sensor j = s.sensor j := rfl
@[simp] theorem State.setLimit_phase_at (s : State) (k : Nat) (x : Limits) (j : Nat) : (s.setLimit k x).phase j = s.phase j := rfl
@[simp] theorem State.setLimit_block_at (s : State) (k : Nat) (x : Limits) (j : Nat) : (s.setLimit k x).block j = s.block j := rfl
@[simp] theorem State.setLimit_line_at (s : State) (k : Nat) (x : Limits) (j : Nat) : (s.setLimit k x).line j = s.line j := rfl
@[simp] theorem State.setLimit_droop_at (s : State) (k : Nat) (x : Limits) (j : Nat) : (s.setLimit k x).droop j = s.droop j := rfl
@[simp] theorem State.setLimit_shed_at (s : State) (k : Nat) (x : Limits) (j : Nat) : (s.setLimit k x).shed j = s.shed j := rfl
@[simp] theorem State.setLimit_recDie_at (s : State) (k : Nat) (x : Limits) (j : Nat) : (s.setLimit k x).recDie j = s.recDie j := rfl
@[simp] theorem State.setLimit_nbr_at (s : State) (k : Nat) (x : Limits) (j : Nat) : (s.setLimit k x).nbr j = s.nbr j := rfl
@[simp] theorem State.setLimit_image_at (s : State) (k : Nat) (x : Limits) (j : Nat) : (s.setLimit k x).image j = s.image j := rfl
@[simp] theorem State.setLimit_spdm_at (s : State) (k : Nat) (x : Limits) (j : Nat) : (s.setLimit k x).spdm j = s.spdm j := rfl

/-! ### ShedDie -/

@[simp] theorem State.modShed_eq (s : State) (k : Nat) (f : ShedDie → ShedDie) : s.modShed k f = s.setShed k (f (s.shed k)) := rfl
@[simp] theorem State.setShed_same (s : State) (k : Nat) (x : ShedDie) : (s.setShed k x).shed k = x := mget_mset_same _ x k _
theorem State.setShed_ne (s : State) {j k : Nat} (h : j ≠ k) (x : ShedDie) : (s.setShed k x).shed j = s.shed j := mget_mset_ne h _ x _
@[simp] theorem State.setShed_pending (s : State) (k : Nat) (x : ShedDie) : (s.setShed k x).pending = s.pending := rfl
@[simp] theorem State.setShed_free (s : State) (k : Nat) (x : ShedDie) : (s.setShed k x).free = s.free := rfl
@[simp] theorem State.setShed_out (s : State) (k : Nat) (x : ShedDie) : (s.setShed k x).out = s.out := rfl
@[simp] theorem State.setShed_clk (s : State) (k : Nat) (x : ShedDie) : (s.setShed k x).clk = s.clk := rfl
@[simp] theorem State.setShed_evr (s : State) (k : Nat) (x : ShedDie) : (s.setShed k x).evr = s.evr := rfl
@[simp] theorem State.setShed_ports (s : State) (k : Nat) (x : ShedDie) : (s.setShed k x).ports = s.ports := rfl
@[simp] theorem State.setShed_lanes (s : State) (k : Nat) (x : ShedDie) : (s.setShed k x).lanes = s.lanes := rfl
@[simp] theorem State.setShed_sw (s : State) (k : Nat) (x : ShedDie) : (s.setShed k x).sw = s.sw := rfl
@[simp] theorem State.setShed_mf (s : State) (k : Nat) (x : ShedDie) : (s.setShed k x).mf = s.mf := rfl
@[simp] theorem State.setShed_coh (s : State) (k : Nat) (x : ShedDie) : (s.setShed k x).coh = s.coh := rfl
@[simp] theorem State.setShed_ctl (s : State) (k : Nat) (x : ShedDie) : (s.setShed k x).ctl = s.ctl := rfl
@[simp] theorem State.setShed_tab (s : State) (k : Nat) (x : ShedDie) : (s.setShed k x).tab = s.tab := rfl
@[simp] theorem State.setShed_svc (s : State) (k : Nat) (x : ShedDie) : (s.setShed k x).svc = s.svc := rfl
@[simp] theorem State.setShed_cod (s : State) (k : Nat) (x : ShedDie) : (s.setShed k x).cod = s.cod := rfl
@[simp] theorem State.setShed_per (s : State) (k : Nat) (x : ShedDie) : (s.setShed k x).per = s.per := rfl
@[simp] theorem State.setShed_tier (s : State) (k : Nat) (x : ShedDie) : (s.setShed k x).tier = s.tier := rfl
@[simp] theorem State.setShed_hst (s : State) (k : Nat) (x : ShedDie) : (s.setShed k x).hst = s.hst := rfl
@[simp] theorem State.setShed_cx (s : State) (k : Nat) (x : ShedDie) : (s.setShed k x).cx = s.cx := rfl
@[simp] theorem State.setShed_sec (s : State) (k : Nat) (x : ShedDie) : (s.setShed k x).sec = s.sec := rfl
@[simp] theorem State.setShed_rel (s : State) (k : Nat) (x : ShedDie) : (s.setShed k x).rel = s.rel := rfl
@[simp] theorem State.setShed_map (s : State) (k : Nat) (x : ShedDie) : (s.setShed k x).map = s.map := rfl
@[simp] theorem State.setShed_boot (s : State) (k : Nat) (x : ShedDie) : (s.setShed k x).boot = s.boot := rfl
@[simp] theorem State.setShed_port_at (s : State) (k : Nat) (x : ShedDie) (j : Nat) : (s.setShed k x).port j = s.port j := rfl
@[simp] theorem State.setShed_lane_at (s : State) (k : Nat) (x : ShedDie) (j : Nat) : (s.setShed k x).lane j = s.lane j := rfl
@[simp] theorem State.setShed_queue_at (s : State) (k : Nat) (x : ShedDie) (j : Nat) : (s.setShed k x).queue j = s.queue j := rfl
@[simp] theorem State.setShed_park_at (s : State) (k : Nat) (x : ShedDie) (j : Nat) : (s.setShed k x).park j = s.park j := rfl
@[simp] theorem State.setShed_buf_at (s : State) (k : Nat) (x : ShedDie) (j : Nat) : (s.setShed k x).buf j = s.buf j := rfl
@[simp] theorem State.setShed_bucket_at (s : State) (k : Nat) (x : ShedDie) (j : Nat) : (s.setShed k x).bucket j = s.bucket j := rfl
@[simp] theorem State.setShed_gate_at (s : State) (k : Nat) (x : ShedDie) (j : Nat) : (s.setShed k x).gate j = s.gate j := rfl
@[simp] theorem State.setShed_tile_at (s : State) (k : Nat) (x : ShedDie) (j : Nat) : (s.setShed k x).tile j = s.tile j := rfl
@[simp] theorem State.setShed_slot_at (s : State) (k : Nat) (x : ShedDie) (j : Nat) : (s.setShed k x).slot j = s.slot j := rfl
@[simp] theorem State.setShed_thread_at (s : State) (k : Nat) (x : ShedDie) (j : Nat) : (s.setShed k x).thread j = s.thread j := rfl
@[simp] theorem State.setShed_plan_at (s : State) (k : Nat) (x : ShedDie) (j : Nat) : (s.setShed k x).plan j = s.plan j := rfl
@[simp] theorem State.setShed_stream_at (s : State) (k : Nat) (x : ShedDie) (j : Nat) : (s.setShed k x).stream j = s.stream j := rfl
@[simp] theorem State.setShed_expert_at (s : State) (k : Nat) (x : ShedDie) (j : Nat) : (s.setShed k x).expert j = s.expert j := rfl
@[simp] theorem State.setShed_hport_at (s : State) (k : Nat) (x : ShedDie) (j : Nat) : (s.setShed k x).hport j = s.hport j := rfl
@[simp] theorem State.setShed_func_at (s : State) (k : Nat) (x : ShedDie) (j : Nat) : (s.setShed k x).func j = s.func j := rfl
@[simp] theorem State.setShed_fifo_at (s : State) (k : Nat) (x : ShedDie) (j : Nat) : (s.setShed k x).fifo j = s.fifo j := rfl
@[simp] theorem State.setShed_sensor_at (s : State) (k : Nat) (x : ShedDie) (j : Nat) : (s.setShed k x).sensor j = s.sensor j := rfl
@[simp] theorem State.setShed_phase_at (s : State) (k : Nat) (x : ShedDie) (j : Nat) : (s.setShed k x).phase j = s.phase j := rfl
@[simp] theorem State.setShed_block_at (s : State) (k : Nat) (x : ShedDie) (j : Nat) : (s.setShed k x).block j = s.block j := rfl
@[simp] theorem State.setShed_line_at (s : State) (k : Nat) (x : ShedDie) (j : Nat) : (s.setShed k x).line j = s.line j := rfl
@[simp] theorem State.setShed_droop_at (s : State) (k : Nat) (x : ShedDie) (j : Nat) : (s.setShed k x).droop j = s.droop j := rfl
@[simp] theorem State.setShed_limit_at (s : State) (k : Nat) (x : ShedDie) (j : Nat) : (s.setShed k x).limit j = s.limit j := rfl
@[simp] theorem State.setShed_recDie_at (s : State) (k : Nat) (x : ShedDie) (j : Nat) : (s.setShed k x).recDie j = s.recDie j := rfl
@[simp] theorem State.setShed_nbr_at (s : State) (k : Nat) (x : ShedDie) (j : Nat) : (s.setShed k x).nbr j = s.nbr j := rfl
@[simp] theorem State.setShed_image_at (s : State) (k : Nat) (x : ShedDie) (j : Nat) : (s.setShed k x).image j = s.image j := rfl
@[simp] theorem State.setShed_spdm_at (s : State) (k : Nat) (x : ShedDie) (j : Nat) : (s.setShed k x).spdm j = s.spdm j := rfl

/-! ### RecDie -/

@[simp] theorem State.modRecDie_eq (s : State) (k : Nat) (f : RecDie → RecDie) : s.modRecDie k f = s.setRecDie k (f (s.recDie k)) := rfl
@[simp] theorem State.setRecDie_same (s : State) (k : Nat) (x : RecDie) : (s.setRecDie k x).recDie k = x := mget_mset_same _ x k _
theorem State.setRecDie_ne (s : State) {j k : Nat} (h : j ≠ k) (x : RecDie) : (s.setRecDie k x).recDie j = s.recDie j := mget_mset_ne h _ x _
@[simp] theorem State.setRecDie_pending (s : State) (k : Nat) (x : RecDie) : (s.setRecDie k x).pending = s.pending := rfl
@[simp] theorem State.setRecDie_free (s : State) (k : Nat) (x : RecDie) : (s.setRecDie k x).free = s.free := rfl
@[simp] theorem State.setRecDie_out (s : State) (k : Nat) (x : RecDie) : (s.setRecDie k x).out = s.out := rfl
@[simp] theorem State.setRecDie_clk (s : State) (k : Nat) (x : RecDie) : (s.setRecDie k x).clk = s.clk := rfl
@[simp] theorem State.setRecDie_chv (s : State) (k : Nat) (x : RecDie) : (s.setRecDie k x).chv = s.chv := rfl
@[simp] theorem State.setRecDie_ports (s : State) (k : Nat) (x : RecDie) : (s.setRecDie k x).ports = s.ports := rfl
@[simp] theorem State.setRecDie_lanes (s : State) (k : Nat) (x : RecDie) : (s.setRecDie k x).lanes = s.lanes := rfl
@[simp] theorem State.setRecDie_sw (s : State) (k : Nat) (x : RecDie) : (s.setRecDie k x).sw = s.sw := rfl
@[simp] theorem State.setRecDie_mf (s : State) (k : Nat) (x : RecDie) : (s.setRecDie k x).mf = s.mf := rfl
@[simp] theorem State.setRecDie_coh (s : State) (k : Nat) (x : RecDie) : (s.setRecDie k x).coh = s.coh := rfl
@[simp] theorem State.setRecDie_ctl (s : State) (k : Nat) (x : RecDie) : (s.setRecDie k x).ctl = s.ctl := rfl
@[simp] theorem State.setRecDie_tab (s : State) (k : Nat) (x : RecDie) : (s.setRecDie k x).tab = s.tab := rfl
@[simp] theorem State.setRecDie_svc (s : State) (k : Nat) (x : RecDie) : (s.setRecDie k x).svc = s.svc := rfl
@[simp] theorem State.setRecDie_cod (s : State) (k : Nat) (x : RecDie) : (s.setRecDie k x).cod = s.cod := rfl
@[simp] theorem State.setRecDie_per (s : State) (k : Nat) (x : RecDie) : (s.setRecDie k x).per = s.per := rfl
@[simp] theorem State.setRecDie_tier (s : State) (k : Nat) (x : RecDie) : (s.setRecDie k x).tier = s.tier := rfl
@[simp] theorem State.setRecDie_hst (s : State) (k : Nat) (x : RecDie) : (s.setRecDie k x).hst = s.hst := rfl
@[simp] theorem State.setRecDie_cx (s : State) (k : Nat) (x : RecDie) : (s.setRecDie k x).cx = s.cx := rfl
@[simp] theorem State.setRecDie_sec (s : State) (k : Nat) (x : RecDie) : (s.setRecDie k x).sec = s.sec := rfl
@[simp] theorem State.setRecDie_rel (s : State) (k : Nat) (x : RecDie) : (s.setRecDie k x).rel = s.rel := rfl
@[simp] theorem State.setRecDie_map (s : State) (k : Nat) (x : RecDie) : (s.setRecDie k x).map = s.map := rfl
@[simp] theorem State.setRecDie_boot (s : State) (k : Nat) (x : RecDie) : (s.setRecDie k x).boot = s.boot := rfl
@[simp] theorem State.setRecDie_port_at (s : State) (k : Nat) (x : RecDie) (j : Nat) : (s.setRecDie k x).port j = s.port j := rfl
@[simp] theorem State.setRecDie_lane_at (s : State) (k : Nat) (x : RecDie) (j : Nat) : (s.setRecDie k x).lane j = s.lane j := rfl
@[simp] theorem State.setRecDie_queue_at (s : State) (k : Nat) (x : RecDie) (j : Nat) : (s.setRecDie k x).queue j = s.queue j := rfl
@[simp] theorem State.setRecDie_park_at (s : State) (k : Nat) (x : RecDie) (j : Nat) : (s.setRecDie k x).park j = s.park j := rfl
@[simp] theorem State.setRecDie_buf_at (s : State) (k : Nat) (x : RecDie) (j : Nat) : (s.setRecDie k x).buf j = s.buf j := rfl
@[simp] theorem State.setRecDie_bucket_at (s : State) (k : Nat) (x : RecDie) (j : Nat) : (s.setRecDie k x).bucket j = s.bucket j := rfl
@[simp] theorem State.setRecDie_gate_at (s : State) (k : Nat) (x : RecDie) (j : Nat) : (s.setRecDie k x).gate j = s.gate j := rfl
@[simp] theorem State.setRecDie_tile_at (s : State) (k : Nat) (x : RecDie) (j : Nat) : (s.setRecDie k x).tile j = s.tile j := rfl
@[simp] theorem State.setRecDie_slot_at (s : State) (k : Nat) (x : RecDie) (j : Nat) : (s.setRecDie k x).slot j = s.slot j := rfl
@[simp] theorem State.setRecDie_thread_at (s : State) (k : Nat) (x : RecDie) (j : Nat) : (s.setRecDie k x).thread j = s.thread j := rfl
@[simp] theorem State.setRecDie_plan_at (s : State) (k : Nat) (x : RecDie) (j : Nat) : (s.setRecDie k x).plan j = s.plan j := rfl
@[simp] theorem State.setRecDie_stream_at (s : State) (k : Nat) (x : RecDie) (j : Nat) : (s.setRecDie k x).stream j = s.stream j := rfl
@[simp] theorem State.setRecDie_expert_at (s : State) (k : Nat) (x : RecDie) (j : Nat) : (s.setRecDie k x).expert j = s.expert j := rfl
@[simp] theorem State.setRecDie_hport_at (s : State) (k : Nat) (x : RecDie) (j : Nat) : (s.setRecDie k x).hport j = s.hport j := rfl
@[simp] theorem State.setRecDie_func_at (s : State) (k : Nat) (x : RecDie) (j : Nat) : (s.setRecDie k x).func j = s.func j := rfl
@[simp] theorem State.setRecDie_fifo_at (s : State) (k : Nat) (x : RecDie) (j : Nat) : (s.setRecDie k x).fifo j = s.fifo j := rfl
@[simp] theorem State.setRecDie_sensor_at (s : State) (k : Nat) (x : RecDie) (j : Nat) : (s.setRecDie k x).sensor j = s.sensor j := rfl
@[simp] theorem State.setRecDie_phase_at (s : State) (k : Nat) (x : RecDie) (j : Nat) : (s.setRecDie k x).phase j = s.phase j := rfl
@[simp] theorem State.setRecDie_block_at (s : State) (k : Nat) (x : RecDie) (j : Nat) : (s.setRecDie k x).block j = s.block j := rfl
@[simp] theorem State.setRecDie_line_at (s : State) (k : Nat) (x : RecDie) (j : Nat) : (s.setRecDie k x).line j = s.line j := rfl
@[simp] theorem State.setRecDie_droop_at (s : State) (k : Nat) (x : RecDie) (j : Nat) : (s.setRecDie k x).droop j = s.droop j := rfl
@[simp] theorem State.setRecDie_limit_at (s : State) (k : Nat) (x : RecDie) (j : Nat) : (s.setRecDie k x).limit j = s.limit j := rfl
@[simp] theorem State.setRecDie_shed_at (s : State) (k : Nat) (x : RecDie) (j : Nat) : (s.setRecDie k x).shed j = s.shed j := rfl
@[simp] theorem State.setRecDie_nbr_at (s : State) (k : Nat) (x : RecDie) (j : Nat) : (s.setRecDie k x).nbr j = s.nbr j := rfl
@[simp] theorem State.setRecDie_image_at (s : State) (k : Nat) (x : RecDie) (j : Nat) : (s.setRecDie k x).image j = s.image j := rfl
@[simp] theorem State.setRecDie_spdm_at (s : State) (k : Nat) (x : RecDie) (j : Nat) : (s.setRecDie k x).spdm j = s.spdm j := rfl

/-! ### Nbr -/

@[simp] theorem State.modNbr_eq (s : State) (k : Nat) (f : Nbr → Nbr) : s.modNbr k f = s.setNbr k (f (s.nbr k)) := rfl
@[simp] theorem State.setNbr_same (s : State) (k : Nat) (x : Nbr) : (s.setNbr k x).nbr k = x := mget_mset_same _ x k _
theorem State.setNbr_ne (s : State) {j k : Nat} (h : j ≠ k) (x : Nbr) : (s.setNbr k x).nbr j = s.nbr j := mget_mset_ne h _ x _
@[simp] theorem State.setNbr_pending (s : State) (k : Nat) (x : Nbr) : (s.setNbr k x).pending = s.pending := rfl
@[simp] theorem State.setNbr_free (s : State) (k : Nat) (x : Nbr) : (s.setNbr k x).free = s.free := rfl
@[simp] theorem State.setNbr_out (s : State) (k : Nat) (x : Nbr) : (s.setNbr k x).out = s.out := rfl
@[simp] theorem State.setNbr_clk (s : State) (k : Nat) (x : Nbr) : (s.setNbr k x).clk = s.clk := rfl
@[simp] theorem State.setNbr_evr (s : State) (k : Nat) (x : Nbr) : (s.setNbr k x).evr = s.evr := rfl
@[simp] theorem State.setNbr_chv (s : State) (k : Nat) (x : Nbr) : (s.setNbr k x).chv = s.chv := rfl
@[simp] theorem State.setNbr_ports (s : State) (k : Nat) (x : Nbr) : (s.setNbr k x).ports = s.ports := rfl
@[simp] theorem State.setNbr_lanes (s : State) (k : Nat) (x : Nbr) : (s.setNbr k x).lanes = s.lanes := rfl
@[simp] theorem State.setNbr_sw (s : State) (k : Nat) (x : Nbr) : (s.setNbr k x).sw = s.sw := rfl
@[simp] theorem State.setNbr_mf (s : State) (k : Nat) (x : Nbr) : (s.setNbr k x).mf = s.mf := rfl
@[simp] theorem State.setNbr_coh (s : State) (k : Nat) (x : Nbr) : (s.setNbr k x).coh = s.coh := rfl
@[simp] theorem State.setNbr_ctl (s : State) (k : Nat) (x : Nbr) : (s.setNbr k x).ctl = s.ctl := rfl
@[simp] theorem State.setNbr_tab (s : State) (k : Nat) (x : Nbr) : (s.setNbr k x).tab = s.tab := rfl
@[simp] theorem State.setNbr_svc (s : State) (k : Nat) (x : Nbr) : (s.setNbr k x).svc = s.svc := rfl
@[simp] theorem State.setNbr_cod (s : State) (k : Nat) (x : Nbr) : (s.setNbr k x).cod = s.cod := rfl
@[simp] theorem State.setNbr_per (s : State) (k : Nat) (x : Nbr) : (s.setNbr k x).per = s.per := rfl
@[simp] theorem State.setNbr_tier (s : State) (k : Nat) (x : Nbr) : (s.setNbr k x).tier = s.tier := rfl
@[simp] theorem State.setNbr_hst (s : State) (k : Nat) (x : Nbr) : (s.setNbr k x).hst = s.hst := rfl
@[simp] theorem State.setNbr_cx (s : State) (k : Nat) (x : Nbr) : (s.setNbr k x).cx = s.cx := rfl
@[simp] theorem State.setNbr_sec (s : State) (k : Nat) (x : Nbr) : (s.setNbr k x).sec = s.sec := rfl
@[simp] theorem State.setNbr_map (s : State) (k : Nat) (x : Nbr) : (s.setNbr k x).map = s.map := rfl
@[simp] theorem State.setNbr_boot (s : State) (k : Nat) (x : Nbr) : (s.setNbr k x).boot = s.boot := rfl
@[simp] theorem State.setNbr_port_at (s : State) (k : Nat) (x : Nbr) (j : Nat) : (s.setNbr k x).port j = s.port j := rfl
@[simp] theorem State.setNbr_lane_at (s : State) (k : Nat) (x : Nbr) (j : Nat) : (s.setNbr k x).lane j = s.lane j := rfl
@[simp] theorem State.setNbr_queue_at (s : State) (k : Nat) (x : Nbr) (j : Nat) : (s.setNbr k x).queue j = s.queue j := rfl
@[simp] theorem State.setNbr_park_at (s : State) (k : Nat) (x : Nbr) (j : Nat) : (s.setNbr k x).park j = s.park j := rfl
@[simp] theorem State.setNbr_buf_at (s : State) (k : Nat) (x : Nbr) (j : Nat) : (s.setNbr k x).buf j = s.buf j := rfl
@[simp] theorem State.setNbr_bucket_at (s : State) (k : Nat) (x : Nbr) (j : Nat) : (s.setNbr k x).bucket j = s.bucket j := rfl
@[simp] theorem State.setNbr_gate_at (s : State) (k : Nat) (x : Nbr) (j : Nat) : (s.setNbr k x).gate j = s.gate j := rfl
@[simp] theorem State.setNbr_tile_at (s : State) (k : Nat) (x : Nbr) (j : Nat) : (s.setNbr k x).tile j = s.tile j := rfl
@[simp] theorem State.setNbr_slot_at (s : State) (k : Nat) (x : Nbr) (j : Nat) : (s.setNbr k x).slot j = s.slot j := rfl
@[simp] theorem State.setNbr_thread_at (s : State) (k : Nat) (x : Nbr) (j : Nat) : (s.setNbr k x).thread j = s.thread j := rfl
@[simp] theorem State.setNbr_plan_at (s : State) (k : Nat) (x : Nbr) (j : Nat) : (s.setNbr k x).plan j = s.plan j := rfl
@[simp] theorem State.setNbr_stream_at (s : State) (k : Nat) (x : Nbr) (j : Nat) : (s.setNbr k x).stream j = s.stream j := rfl
@[simp] theorem State.setNbr_expert_at (s : State) (k : Nat) (x : Nbr) (j : Nat) : (s.setNbr k x).expert j = s.expert j := rfl
@[simp] theorem State.setNbr_hport_at (s : State) (k : Nat) (x : Nbr) (j : Nat) : (s.setNbr k x).hport j = s.hport j := rfl
@[simp] theorem State.setNbr_func_at (s : State) (k : Nat) (x : Nbr) (j : Nat) : (s.setNbr k x).func j = s.func j := rfl
@[simp] theorem State.setNbr_fifo_at (s : State) (k : Nat) (x : Nbr) (j : Nat) : (s.setNbr k x).fifo j = s.fifo j := rfl
@[simp] theorem State.setNbr_sensor_at (s : State) (k : Nat) (x : Nbr) (j : Nat) : (s.setNbr k x).sensor j = s.sensor j := rfl
@[simp] theorem State.setNbr_phase_at (s : State) (k : Nat) (x : Nbr) (j : Nat) : (s.setNbr k x).phase j = s.phase j := rfl
@[simp] theorem State.setNbr_block_at (s : State) (k : Nat) (x : Nbr) (j : Nat) : (s.setNbr k x).block j = s.block j := rfl
@[simp] theorem State.setNbr_line_at (s : State) (k : Nat) (x : Nbr) (j : Nat) : (s.setNbr k x).line j = s.line j := rfl
@[simp] theorem State.setNbr_droop_at (s : State) (k : Nat) (x : Nbr) (j : Nat) : (s.setNbr k x).droop j = s.droop j := rfl
@[simp] theorem State.setNbr_limit_at (s : State) (k : Nat) (x : Nbr) (j : Nat) : (s.setNbr k x).limit j = s.limit j := rfl
@[simp] theorem State.setNbr_shed_at (s : State) (k : Nat) (x : Nbr) (j : Nat) : (s.setNbr k x).shed j = s.shed j := rfl
@[simp] theorem State.setNbr_recDie_at (s : State) (k : Nat) (x : Nbr) (j : Nat) : (s.setNbr k x).recDie j = s.recDie j := rfl
@[simp] theorem State.setNbr_image_at (s : State) (k : Nat) (x : Nbr) (j : Nat) : (s.setNbr k x).image j = s.image j := rfl
@[simp] theorem State.setNbr_spdm_at (s : State) (k : Nat) (x : Nbr) (j : Nat) : (s.setNbr k x).spdm j = s.spdm j := rfl

/-! ### Image -/

@[simp] theorem State.modImage_eq (s : State) (k : Nat) (f : Image → Image) : s.modImage k f = s.setImage k (f (s.image k)) := rfl
@[simp] theorem State.setImage_same (s : State) (k : Nat) (x : Image) : (s.setImage k x).image k = x := mget_mset_same _ x k _
theorem State.setImage_ne (s : State) {j k : Nat} (h : j ≠ k) (x : Image) : (s.setImage k x).image j = s.image j := mget_mset_ne h _ x _
@[simp] theorem State.setImage_pending (s : State) (k : Nat) (x : Image) : (s.setImage k x).pending = s.pending := rfl
@[simp] theorem State.setImage_free (s : State) (k : Nat) (x : Image) : (s.setImage k x).free = s.free := rfl
@[simp] theorem State.setImage_out (s : State) (k : Nat) (x : Image) : (s.setImage k x).out = s.out := rfl
@[simp] theorem State.setImage_clk (s : State) (k : Nat) (x : Image) : (s.setImage k x).clk = s.clk := rfl
@[simp] theorem State.setImage_evr (s : State) (k : Nat) (x : Image) : (s.setImage k x).evr = s.evr := rfl
@[simp] theorem State.setImage_chv (s : State) (k : Nat) (x : Image) : (s.setImage k x).chv = s.chv := rfl
@[simp] theorem State.setImage_ports (s : State) (k : Nat) (x : Image) : (s.setImage k x).ports = s.ports := rfl
@[simp] theorem State.setImage_lanes (s : State) (k : Nat) (x : Image) : (s.setImage k x).lanes = s.lanes := rfl
@[simp] theorem State.setImage_sw (s : State) (k : Nat) (x : Image) : (s.setImage k x).sw = s.sw := rfl
@[simp] theorem State.setImage_mf (s : State) (k : Nat) (x : Image) : (s.setImage k x).mf = s.mf := rfl
@[simp] theorem State.setImage_coh (s : State) (k : Nat) (x : Image) : (s.setImage k x).coh = s.coh := rfl
@[simp] theorem State.setImage_ctl (s : State) (k : Nat) (x : Image) : (s.setImage k x).ctl = s.ctl := rfl
@[simp] theorem State.setImage_tab (s : State) (k : Nat) (x : Image) : (s.setImage k x).tab = s.tab := rfl
@[simp] theorem State.setImage_svc (s : State) (k : Nat) (x : Image) : (s.setImage k x).svc = s.svc := rfl
@[simp] theorem State.setImage_cod (s : State) (k : Nat) (x : Image) : (s.setImage k x).cod = s.cod := rfl
@[simp] theorem State.setImage_per (s : State) (k : Nat) (x : Image) : (s.setImage k x).per = s.per := rfl
@[simp] theorem State.setImage_tier (s : State) (k : Nat) (x : Image) : (s.setImage k x).tier = s.tier := rfl
@[simp] theorem State.setImage_hst (s : State) (k : Nat) (x : Image) : (s.setImage k x).hst = s.hst := rfl
@[simp] theorem State.setImage_cx (s : State) (k : Nat) (x : Image) : (s.setImage k x).cx = s.cx := rfl
@[simp] theorem State.setImage_rel (s : State) (k : Nat) (x : Image) : (s.setImage k x).rel = s.rel := rfl
@[simp] theorem State.setImage_map (s : State) (k : Nat) (x : Image) : (s.setImage k x).map = s.map := rfl
@[simp] theorem State.setImage_boot (s : State) (k : Nat) (x : Image) : (s.setImage k x).boot = s.boot := rfl
@[simp] theorem State.setImage_port_at (s : State) (k : Nat) (x : Image) (j : Nat) : (s.setImage k x).port j = s.port j := rfl
@[simp] theorem State.setImage_lane_at (s : State) (k : Nat) (x : Image) (j : Nat) : (s.setImage k x).lane j = s.lane j := rfl
@[simp] theorem State.setImage_queue_at (s : State) (k : Nat) (x : Image) (j : Nat) : (s.setImage k x).queue j = s.queue j := rfl
@[simp] theorem State.setImage_park_at (s : State) (k : Nat) (x : Image) (j : Nat) : (s.setImage k x).park j = s.park j := rfl
@[simp] theorem State.setImage_buf_at (s : State) (k : Nat) (x : Image) (j : Nat) : (s.setImage k x).buf j = s.buf j := rfl
@[simp] theorem State.setImage_bucket_at (s : State) (k : Nat) (x : Image) (j : Nat) : (s.setImage k x).bucket j = s.bucket j := rfl
@[simp] theorem State.setImage_gate_at (s : State) (k : Nat) (x : Image) (j : Nat) : (s.setImage k x).gate j = s.gate j := rfl
@[simp] theorem State.setImage_tile_at (s : State) (k : Nat) (x : Image) (j : Nat) : (s.setImage k x).tile j = s.tile j := rfl
@[simp] theorem State.setImage_slot_at (s : State) (k : Nat) (x : Image) (j : Nat) : (s.setImage k x).slot j = s.slot j := rfl
@[simp] theorem State.setImage_thread_at (s : State) (k : Nat) (x : Image) (j : Nat) : (s.setImage k x).thread j = s.thread j := rfl
@[simp] theorem State.setImage_plan_at (s : State) (k : Nat) (x : Image) (j : Nat) : (s.setImage k x).plan j = s.plan j := rfl
@[simp] theorem State.setImage_stream_at (s : State) (k : Nat) (x : Image) (j : Nat) : (s.setImage k x).stream j = s.stream j := rfl
@[simp] theorem State.setImage_expert_at (s : State) (k : Nat) (x : Image) (j : Nat) : (s.setImage k x).expert j = s.expert j := rfl
@[simp] theorem State.setImage_hport_at (s : State) (k : Nat) (x : Image) (j : Nat) : (s.setImage k x).hport j = s.hport j := rfl
@[simp] theorem State.setImage_func_at (s : State) (k : Nat) (x : Image) (j : Nat) : (s.setImage k x).func j = s.func j := rfl
@[simp] theorem State.setImage_fifo_at (s : State) (k : Nat) (x : Image) (j : Nat) : (s.setImage k x).fifo j = s.fifo j := rfl
@[simp] theorem State.setImage_sensor_at (s : State) (k : Nat) (x : Image) (j : Nat) : (s.setImage k x).sensor j = s.sensor j := rfl
@[simp] theorem State.setImage_phase_at (s : State) (k : Nat) (x : Image) (j : Nat) : (s.setImage k x).phase j = s.phase j := rfl
@[simp] theorem State.setImage_block_at (s : State) (k : Nat) (x : Image) (j : Nat) : (s.setImage k x).block j = s.block j := rfl
@[simp] theorem State.setImage_line_at (s : State) (k : Nat) (x : Image) (j : Nat) : (s.setImage k x).line j = s.line j := rfl
@[simp] theorem State.setImage_droop_at (s : State) (k : Nat) (x : Image) (j : Nat) : (s.setImage k x).droop j = s.droop j := rfl
@[simp] theorem State.setImage_limit_at (s : State) (k : Nat) (x : Image) (j : Nat) : (s.setImage k x).limit j = s.limit j := rfl
@[simp] theorem State.setImage_shed_at (s : State) (k : Nat) (x : Image) (j : Nat) : (s.setImage k x).shed j = s.shed j := rfl
@[simp] theorem State.setImage_recDie_at (s : State) (k : Nat) (x : Image) (j : Nat) : (s.setImage k x).recDie j = s.recDie j := rfl
@[simp] theorem State.setImage_nbr_at (s : State) (k : Nat) (x : Image) (j : Nat) : (s.setImage k x).nbr j = s.nbr j := rfl
@[simp] theorem State.setImage_spdm_at (s : State) (k : Nat) (x : Image) (j : Nat) : (s.setImage k x).spdm j = s.spdm j := rfl

/-! ### Spdm -/

@[simp] theorem State.modSpdm_eq (s : State) (k : Nat) (f : Spdm → Spdm) : s.modSpdm k f = s.setSpdm k (f (s.spdm k)) := rfl
@[simp] theorem State.setSpdm_same (s : State) (k : Nat) (x : Spdm) : (s.setSpdm k x).spdm k = x := mget_mset_same _ x k _
theorem State.setSpdm_ne (s : State) {j k : Nat} (h : j ≠ k) (x : Spdm) : (s.setSpdm k x).spdm j = s.spdm j := mget_mset_ne h _ x _
@[simp] theorem State.setSpdm_pending (s : State) (k : Nat) (x : Spdm) : (s.setSpdm k x).pending = s.pending := rfl
@[simp] theorem State.setSpdm_free (s : State) (k : Nat) (x : Spdm) : (s.setSpdm k x).free = s.free := rfl
@[simp] theorem State.setSpdm_out (s : State) (k : Nat) (x : Spdm) : (s.setSpdm k x).out = s.out := rfl
@[simp] theorem State.setSpdm_clk (s : State) (k : Nat) (x : Spdm) : (s.setSpdm k x).clk = s.clk := rfl
@[simp] theorem State.setSpdm_evr (s : State) (k : Nat) (x : Spdm) : (s.setSpdm k x).evr = s.evr := rfl
@[simp] theorem State.setSpdm_chv (s : State) (k : Nat) (x : Spdm) : (s.setSpdm k x).chv = s.chv := rfl
@[simp] theorem State.setSpdm_ports (s : State) (k : Nat) (x : Spdm) : (s.setSpdm k x).ports = s.ports := rfl
@[simp] theorem State.setSpdm_lanes (s : State) (k : Nat) (x : Spdm) : (s.setSpdm k x).lanes = s.lanes := rfl
@[simp] theorem State.setSpdm_sw (s : State) (k : Nat) (x : Spdm) : (s.setSpdm k x).sw = s.sw := rfl
@[simp] theorem State.setSpdm_mf (s : State) (k : Nat) (x : Spdm) : (s.setSpdm k x).mf = s.mf := rfl
@[simp] theorem State.setSpdm_coh (s : State) (k : Nat) (x : Spdm) : (s.setSpdm k x).coh = s.coh := rfl
@[simp] theorem State.setSpdm_ctl (s : State) (k : Nat) (x : Spdm) : (s.setSpdm k x).ctl = s.ctl := rfl
@[simp] theorem State.setSpdm_tab (s : State) (k : Nat) (x : Spdm) : (s.setSpdm k x).tab = s.tab := rfl
@[simp] theorem State.setSpdm_svc (s : State) (k : Nat) (x : Spdm) : (s.setSpdm k x).svc = s.svc := rfl
@[simp] theorem State.setSpdm_cod (s : State) (k : Nat) (x : Spdm) : (s.setSpdm k x).cod = s.cod := rfl
@[simp] theorem State.setSpdm_per (s : State) (k : Nat) (x : Spdm) : (s.setSpdm k x).per = s.per := rfl
@[simp] theorem State.setSpdm_tier (s : State) (k : Nat) (x : Spdm) : (s.setSpdm k x).tier = s.tier := rfl
@[simp] theorem State.setSpdm_hst (s : State) (k : Nat) (x : Spdm) : (s.setSpdm k x).hst = s.hst := rfl
@[simp] theorem State.setSpdm_cx (s : State) (k : Nat) (x : Spdm) : (s.setSpdm k x).cx = s.cx := rfl
@[simp] theorem State.setSpdm_rel (s : State) (k : Nat) (x : Spdm) : (s.setSpdm k x).rel = s.rel := rfl
@[simp] theorem State.setSpdm_map (s : State) (k : Nat) (x : Spdm) : (s.setSpdm k x).map = s.map := rfl
@[simp] theorem State.setSpdm_boot (s : State) (k : Nat) (x : Spdm) : (s.setSpdm k x).boot = s.boot := rfl
@[simp] theorem State.setSpdm_port_at (s : State) (k : Nat) (x : Spdm) (j : Nat) : (s.setSpdm k x).port j = s.port j := rfl
@[simp] theorem State.setSpdm_lane_at (s : State) (k : Nat) (x : Spdm) (j : Nat) : (s.setSpdm k x).lane j = s.lane j := rfl
@[simp] theorem State.setSpdm_queue_at (s : State) (k : Nat) (x : Spdm) (j : Nat) : (s.setSpdm k x).queue j = s.queue j := rfl
@[simp] theorem State.setSpdm_park_at (s : State) (k : Nat) (x : Spdm) (j : Nat) : (s.setSpdm k x).park j = s.park j := rfl
@[simp] theorem State.setSpdm_buf_at (s : State) (k : Nat) (x : Spdm) (j : Nat) : (s.setSpdm k x).buf j = s.buf j := rfl
@[simp] theorem State.setSpdm_bucket_at (s : State) (k : Nat) (x : Spdm) (j : Nat) : (s.setSpdm k x).bucket j = s.bucket j := rfl
@[simp] theorem State.setSpdm_gate_at (s : State) (k : Nat) (x : Spdm) (j : Nat) : (s.setSpdm k x).gate j = s.gate j := rfl
@[simp] theorem State.setSpdm_tile_at (s : State) (k : Nat) (x : Spdm) (j : Nat) : (s.setSpdm k x).tile j = s.tile j := rfl
@[simp] theorem State.setSpdm_slot_at (s : State) (k : Nat) (x : Spdm) (j : Nat) : (s.setSpdm k x).slot j = s.slot j := rfl
@[simp] theorem State.setSpdm_thread_at (s : State) (k : Nat) (x : Spdm) (j : Nat) : (s.setSpdm k x).thread j = s.thread j := rfl
@[simp] theorem State.setSpdm_plan_at (s : State) (k : Nat) (x : Spdm) (j : Nat) : (s.setSpdm k x).plan j = s.plan j := rfl
@[simp] theorem State.setSpdm_stream_at (s : State) (k : Nat) (x : Spdm) (j : Nat) : (s.setSpdm k x).stream j = s.stream j := rfl
@[simp] theorem State.setSpdm_expert_at (s : State) (k : Nat) (x : Spdm) (j : Nat) : (s.setSpdm k x).expert j = s.expert j := rfl
@[simp] theorem State.setSpdm_hport_at (s : State) (k : Nat) (x : Spdm) (j : Nat) : (s.setSpdm k x).hport j = s.hport j := rfl
@[simp] theorem State.setSpdm_func_at (s : State) (k : Nat) (x : Spdm) (j : Nat) : (s.setSpdm k x).func j = s.func j := rfl
@[simp] theorem State.setSpdm_fifo_at (s : State) (k : Nat) (x : Spdm) (j : Nat) : (s.setSpdm k x).fifo j = s.fifo j := rfl
@[simp] theorem State.setSpdm_sensor_at (s : State) (k : Nat) (x : Spdm) (j : Nat) : (s.setSpdm k x).sensor j = s.sensor j := rfl
@[simp] theorem State.setSpdm_phase_at (s : State) (k : Nat) (x : Spdm) (j : Nat) : (s.setSpdm k x).phase j = s.phase j := rfl
@[simp] theorem State.setSpdm_block_at (s : State) (k : Nat) (x : Spdm) (j : Nat) : (s.setSpdm k x).block j = s.block j := rfl
@[simp] theorem State.setSpdm_line_at (s : State) (k : Nat) (x : Spdm) (j : Nat) : (s.setSpdm k x).line j = s.line j := rfl
@[simp] theorem State.setSpdm_droop_at (s : State) (k : Nat) (x : Spdm) (j : Nat) : (s.setSpdm k x).droop j = s.droop j := rfl
@[simp] theorem State.setSpdm_limit_at (s : State) (k : Nat) (x : Spdm) (j : Nat) : (s.setSpdm k x).limit j = s.limit j := rfl
@[simp] theorem State.setSpdm_shed_at (s : State) (k : Nat) (x : Spdm) (j : Nat) : (s.setSpdm k x).shed j = s.shed j := rfl
@[simp] theorem State.setSpdm_recDie_at (s : State) (k : Nat) (x : Spdm) (j : Nat) : (s.setSpdm k x).recDie j = s.recDie j := rfl
@[simp] theorem State.setSpdm_nbr_at (s : State) (k : Nat) (x : Spdm) (j : Nat) : (s.setSpdm k x).nbr j = s.nbr j := rfl
@[simp] theorem State.setSpdm_image_at (s : State) (k : Nat) (x : Spdm) (j : Nat) : (s.setSpdm k x).image j = s.image j := rfl

end Sys2Proof.Machine
end

