-- ==== Sys2Proof/Laws/Ops.lean ====
section
/-!
SUPPORT. Laws of the shared operations of Machine/Ops.lean: what each leaves as it was.
-/
namespace Sys2Proof.Machine

/-- What every turn of a fold keeps, the fold keeps. -/
theorem foldl_keeps {β γ : Type} (g : State → γ) (f : State → β → State) (hf : ∀ t b, g (f t b) = g t) (l : List β) (s : State) :
    g (l.foldl f s) = g s := by
  induction l generalizing s with
  | nil => rfl
  | cons b t ih => rw [List.foldl_cons, ih, hf]
theorem foldl_inv {β : Type} (P : State → Prop) (f : State → β → State) (hf : ∀ t b, P t → P (f t b)) (l : List β) (s : State) (h : P s) :
    P (l.foldl f s) := by
  induction l generalizing s with
  | nil => exact h
  | cons b t ih => exact ih _ (hf _ _ h)

/-! ### put -/

@[simp] theorem put_pending (o : Out) (s : State) : (put o s).pending = s.pending := rfl
@[simp] theorem put_free (o : Out) (s : State) : (put o s).free = s.free := rfl
@[simp] theorem put_clk (o : Out) (s : State) : (put o s).clk = s.clk := rfl
@[simp] theorem put_evr (o : Out) (s : State) : (put o s).evr = s.evr := rfl
@[simp] theorem put_chv (o : Out) (s : State) : (put o s).chv = s.chv := rfl
@[simp] theorem put_ports (o : Out) (s : State) : (put o s).ports = s.ports := rfl
@[simp] theorem put_lanes (o : Out) (s : State) : (put o s).lanes = s.lanes := rfl
@[simp] theorem put_sw (o : Out) (s : State) : (put o s).sw = s.sw := rfl
@[simp] theorem put_mf (o : Out) (s : State) : (put o s).mf = s.mf := rfl
@[simp] theorem put_coh (o : Out) (s : State) : (put o s).coh = s.coh := rfl
@[simp] theorem put_ctl (o : Out) (s : State) : (put o s).ctl = s.ctl := rfl
@[simp] theorem put_tab (o : Out) (s : State) : (put o s).tab = s.tab := rfl
@[simp] theorem put_svc (o : Out) (s : State) : (put o s).svc = s.svc := rfl
@[simp] theorem put_cod (o : Out) (s : State) : (put o s).cod = s.cod := rfl
@[simp] theorem put_per (o : Out) (s : State) : (put o s).per = s.per := rfl
@[simp] theorem put_tier (o : Out) (s : State) : (put o s).tier = s.tier := rfl
@[simp] theorem put_hst (o : Out) (s : State) : (put o s).hst = s.hst := rfl
@[simp] theorem put_cx (o : Out) (s : State) : (put o s).cx = s.cx := rfl
@[simp] theorem put_sec (o : Out) (s : State) : (put o s).sec = s.sec := rfl
@[simp] theorem put_rel (o : Out) (s : State) : (put o s).rel = s.rel := rfl
@[simp] theorem put_map (o : Out) (s : State) : (put o s).map = s.map := rfl
@[simp] theorem put_boot (o : Out) (s : State) : (put o s).boot = s.boot := rfl
@[simp] theorem draw_pending (s : State) : (draw s).2.pending = s.pending := rfl
@[simp] theorem draw_out (s : State) : (draw s).2.out = s.out := rfl
@[simp] theorem draw_clk (s : State) : (draw s).2.clk = s.clk := rfl
@[simp] theorem draw_evr (s : State) : (draw s).2.evr = s.evr := rfl
@[simp] theorem draw_chv (s : State) : (draw s).2.chv = s.chv := rfl
@[simp] theorem draw_ports (s : State) : (draw s).2.ports = s.ports := rfl
@[simp] theorem draw_lanes (s : State) : (draw s).2.lanes = s.lanes := rfl
@[simp] theorem draw_sw (s : State) : (draw s).2.sw = s.sw := rfl
@[simp] theorem draw_mf (s : State) : (draw s).2.mf = s.mf := rfl
@[simp] theorem draw_coh (s : State) : (draw s).2.coh = s.coh := rfl
@[simp] theorem draw_ctl (s : State) : (draw s).2.ctl = s.ctl := rfl
@[simp] theorem draw_tab (s : State) : (draw s).2.tab = s.tab := rfl
@[simp] theorem draw_svc (s : State) : (draw s).2.svc = s.svc := rfl
@[simp] theorem draw_cod (s : State) : (draw s).2.cod = s.cod := rfl
@[simp] theorem draw_per (s : State) : (draw s).2.per = s.per := rfl
@[simp] theorem draw_tier (s : State) : (draw s).2.tier = s.tier := rfl
@[simp] theorem draw_hst (s : State) : (draw s).2.hst = s.hst := rfl
@[simp] theorem draw_cx (s : State) : (draw s).2.cx = s.cx := rfl
@[simp] theorem draw_sec (s : State) : (draw s).2.sec = s.sec := rfl
@[simp] theorem draw_rel (s : State) : (draw s).2.rel = s.rel := rfl
@[simp] theorem draw_map (s : State) : (draw s).2.map = s.map := rfl
@[simp] theorem draw_boot (s : State) : (draw s).2.boot = s.boot := rfl
@[simp] theorem drawCoin_pending (s : State) : (drawCoin s).2.pending = s.pending := rfl
@[simp] theorem drawCoin_out (s : State) : (drawCoin s).2.out = s.out := rfl
@[simp] theorem drawCoin_clk (s : State) : (drawCoin s).2.clk = s.clk := rfl
@[simp] theorem drawCoin_evr (s : State) : (drawCoin s).2.evr = s.evr := rfl
@[simp] theorem drawCoin_chv (s : State) : (drawCoin s).2.chv = s.chv := rfl
@[simp] theorem drawCoin_ports (s : State) : (drawCoin s).2.ports = s.ports := rfl
@[simp] theorem drawCoin_lanes (s : State) : (drawCoin s).2.lanes = s.lanes := rfl
@[simp] theorem drawCoin_sw (s : State) : (drawCoin s).2.sw = s.sw := rfl
@[simp] theorem drawCoin_mf (s : State) : (drawCoin s).2.mf = s.mf := rfl
@[simp] theorem drawCoin_coh (s : State) : (drawCoin s).2.coh = s.coh := rfl
@[simp] theorem drawCoin_ctl (s : State) : (drawCoin s).2.ctl = s.ctl := rfl
@[simp] theorem drawCoin_tab (s : State) : (drawCoin s).2.tab = s.tab := rfl
@[simp] theorem drawCoin_svc (s : State) : (drawCoin s).2.svc = s.svc := rfl
@[simp] theorem drawCoin_cod (s : State) : (drawCoin s).2.cod = s.cod := rfl
@[simp] theorem drawCoin_per (s : State) : (drawCoin s).2.per = s.per := rfl
@[simp] theorem drawCoin_tier (s : State) : (drawCoin s).2.tier = s.tier := rfl
@[simp] theorem drawCoin_hst (s : State) : (drawCoin s).2.hst = s.hst := rfl
@[simp] theorem drawCoin_cx (s : State) : (drawCoin s).2.cx = s.cx := rfl
@[simp] theorem drawCoin_sec (s : State) : (drawCoin s).2.sec = s.sec := rfl
@[simp] theorem drawCoin_rel (s : State) : (drawCoin s).2.rel = s.rel := rfl
@[simp] theorem drawCoin_map (s : State) : (drawCoin s).2.map = s.map := rfl
@[simp] theorem drawCoin_boot (s : State) : (drawCoin s).2.boot = s.boot := rfl

/-! ### sendMsix -/

@[simp] theorem sendMsix_pending (port func vec : Nat) (s : State) : (sendMsix port func vec s).pending = s.pending := by unfold sendMsix; split <;> simp
@[simp] theorem sendMsix_free (port func vec : Nat) (s : State) : (sendMsix port func vec s).free = s.free := by unfold sendMsix; split <;> simp
@[simp] theorem sendMsix_clk (port func vec : Nat) (s : State) : (sendMsix port func vec s).clk = s.clk := by unfold sendMsix; split <;> simp
@[simp] theorem sendMsix_evr (port func vec : Nat) (s : State) : (sendMsix port func vec s).evr = s.evr := by unfold sendMsix; split <;> simp
@[simp] theorem sendMsix_chv (port func vec : Nat) (s : State) : (sendMsix port func vec s).chv = s.chv := by unfold sendMsix; split <;> simp
@[simp] theorem sendMsix_ports (port func vec : Nat) (s : State) : (sendMsix port func vec s).ports = s.ports := by unfold sendMsix; split <;> simp
@[simp] theorem sendMsix_lanes (port func vec : Nat) (s : State) : (sendMsix port func vec s).lanes = s.lanes := by unfold sendMsix; split <;> simp
@[simp] theorem sendMsix_sw (port func vec : Nat) (s : State) : (sendMsix port func vec s).sw = s.sw := by unfold sendMsix; split <;> simp
@[simp] theorem sendMsix_mf (port func vec : Nat) (s : State) : (sendMsix port func vec s).mf = s.mf := by unfold sendMsix; split <;> simp
@[simp] theorem sendMsix_coh (port func vec : Nat) (s : State) : (sendMsix port func vec s).coh = s.coh := by unfold sendMsix; split <;> simp
@[simp] theorem sendMsix_ctl (port func vec : Nat) (s : State) : (sendMsix port func vec s).ctl = s.ctl := by unfold sendMsix; split <;> simp
@[simp] theorem sendMsix_tab (port func vec : Nat) (s : State) : (sendMsix port func vec s).tab = s.tab := by unfold sendMsix; split <;> simp
@[simp] theorem sendMsix_svc (port func vec : Nat) (s : State) : (sendMsix port func vec s).svc = s.svc := by unfold sendMsix; split <;> simp
@[simp] theorem sendMsix_cod (port func vec : Nat) (s : State) : (sendMsix port func vec s).cod = s.cod := by unfold sendMsix; split <;> simp
@[simp] theorem sendMsix_per (port func vec : Nat) (s : State) : (sendMsix port func vec s).per = s.per := by unfold sendMsix; split <;> simp
@[simp] theorem sendMsix_tier (port func vec : Nat) (s : State) : (sendMsix port func vec s).tier = s.tier := by unfold sendMsix; split <;> simp
@[simp] theorem sendMsix_cx (port func vec : Nat) (s : State) : (sendMsix port func vec s).cx = s.cx := by unfold sendMsix; split <;> simp
@[simp] theorem sendMsix_sec (port func vec : Nat) (s : State) : (sendMsix port func vec s).sec = s.sec := by unfold sendMsix; split <;> simp
@[simp] theorem sendMsix_rel (port func vec : Nat) (s : State) : (sendMsix port func vec s).rel = s.rel := by unfold sendMsix; split <;> simp
@[simp] theorem sendMsix_map (port func vec : Nat) (s : State) : (sendMsix port func vec s).map = s.map := by unfold sendMsix; split <;> simp
@[simp] theorem sendMsix_boot (port func vec : Nat) (s : State) : (sendMsix port func vec s).boot = s.boot := by unfold sendMsix; split <;> simp

/-! ### modEdgesOf -/

@[simp] theorem modEdgesOf_pending (port : Nat) (b : State) (s : State) : (modEdgesOf port b s).pending = s.pending := by unfold modEdgesOf; exact foldl_keeps (·.pending) _ (fun t i => by split <;> simp) _ s
@[simp] theorem modEdgesOf_free (port : Nat) (b : State) (s : State) : (modEdgesOf port b s).free = s.free := by unfold modEdgesOf; exact foldl_keeps (·.free) _ (fun t i => by split <;> simp) _ s
@[simp] theorem modEdgesOf_clk (port : Nat) (b : State) (s : State) : (modEdgesOf port b s).clk = s.clk := by unfold modEdgesOf; exact foldl_keeps (·.clk) _ (fun t i => by split <;> simp) _ s
@[simp] theorem modEdgesOf_evr (port : Nat) (b : State) (s : State) : (modEdgesOf port b s).evr = s.evr := by unfold modEdgesOf; exact foldl_keeps (·.evr) _ (fun t i => by split <;> simp) _ s
@[simp] theorem modEdgesOf_chv (port : Nat) (b : State) (s : State) : (modEdgesOf port b s).chv = s.chv := by unfold modEdgesOf; exact foldl_keeps (·.chv) _ (fun t i => by split <;> simp) _ s
@[simp] theorem modEdgesOf_ports (port : Nat) (b : State) (s : State) : (modEdgesOf port b s).ports = s.ports := by unfold modEdgesOf; exact foldl_keeps (·.ports) _ (fun t i => by split <;> simp) _ s
@[simp] theorem modEdgesOf_lanes (port : Nat) (b : State) (s : State) : (modEdgesOf port b s).lanes = s.lanes := by unfold modEdgesOf; exact foldl_keeps (·.lanes) _ (fun t i => by split <;> simp) _ s
@[simp] theorem modEdgesOf_sw (port : Nat) (b : State) (s : State) : (modEdgesOf port b s).sw = s.sw := by unfold modEdgesOf; exact foldl_keeps (·.sw) _ (fun t i => by split <;> simp) _ s
@[simp] theorem modEdgesOf_mf (port : Nat) (b : State) (s : State) : (modEdgesOf port b s).mf = s.mf := by unfold modEdgesOf; exact foldl_keeps (·.mf) _ (fun t i => by split <;> simp) _ s
@[simp] theorem modEdgesOf_coh (port : Nat) (b : State) (s : State) : (modEdgesOf port b s).coh = s.coh := by unfold modEdgesOf; exact foldl_keeps (·.coh) _ (fun t i => by split <;> simp) _ s
@[simp] theorem modEdgesOf_ctl (port : Nat) (b : State) (s : State) : (modEdgesOf port b s).ctl = s.ctl := by unfold modEdgesOf; exact foldl_keeps (·.ctl) _ (fun t i => by split <;> simp) _ s
@[simp] theorem modEdgesOf_tab (port : Nat) (b : State) (s : State) : (modEdgesOf port b s).tab = s.tab := by unfold modEdgesOf; exact foldl_keeps (·.tab) _ (fun t i => by split <;> simp) _ s
@[simp] theorem modEdgesOf_svc (port : Nat) (b : State) (s : State) : (modEdgesOf port b s).svc = s.svc := by unfold modEdgesOf; exact foldl_keeps (·.svc) _ (fun t i => by split <;> simp) _ s
@[simp] theorem modEdgesOf_cod (port : Nat) (b : State) (s : State) : (modEdgesOf port b s).cod = s.cod := by unfold modEdgesOf; exact foldl_keeps (·.cod) _ (fun t i => by split <;> simp) _ s
@[simp] theorem modEdgesOf_per (port : Nat) (b : State) (s : State) : (modEdgesOf port b s).per = s.per := by unfold modEdgesOf; exact foldl_keeps (·.per) _ (fun t i => by split <;> simp) _ s
@[simp] theorem modEdgesOf_tier (port : Nat) (b : State) (s : State) : (modEdgesOf port b s).tier = s.tier := by unfold modEdgesOf; exact foldl_keeps (·.tier) _ (fun t i => by split <;> simp) _ s
@[simp] theorem modEdgesOf_cx (port : Nat) (b : State) (s : State) : (modEdgesOf port b s).cx = s.cx := by unfold modEdgesOf; exact foldl_keeps (·.cx) _ (fun t i => by split <;> simp) _ s
@[simp] theorem modEdgesOf_sec (port : Nat) (b : State) (s : State) : (modEdgesOf port b s).sec = s.sec := by unfold modEdgesOf; exact foldl_keeps (·.sec) _ (fun t i => by split <;> simp) _ s
@[simp] theorem modEdgesOf_rel (port : Nat) (b : State) (s : State) : (modEdgesOf port b s).rel = s.rel := by unfold modEdgesOf; exact foldl_keeps (·.rel) _ (fun t i => by split <;> simp) _ s
@[simp] theorem modEdgesOf_map (port : Nat) (b : State) (s : State) : (modEdgesOf port b s).map = s.map := by unfold modEdgesOf; exact foldl_keeps (·.map) _ (fun t i => by split <;> simp) _ s
@[simp] theorem modEdgesOf_boot (port : Nat) (b : State) (s : State) : (modEdgesOf port b s).boot = s.boot := by unfold modEdgesOf; exact foldl_keeps (·.boot) _ (fun t i => by split <;> simp) _ s

/-! ### modEdges -/

@[simp] theorem modEdges_pending (b : State) (s : State) : (modEdges b s).pending = s.pending := by simp [modEdges]
@[simp] theorem modEdges_free (b : State) (s : State) : (modEdges b s).free = s.free := by simp [modEdges]
@[simp] theorem modEdges_clk (b : State) (s : State) : (modEdges b s).clk = s.clk := by simp [modEdges]
@[simp] theorem modEdges_evr (b : State) (s : State) : (modEdges b s).evr = s.evr := by simp [modEdges]
@[simp] theorem modEdges_chv (b : State) (s : State) : (modEdges b s).chv = s.chv := by simp [modEdges]
@[simp] theorem modEdges_ports (b : State) (s : State) : (modEdges b s).ports = s.ports := by simp [modEdges]
@[simp] theorem modEdges_lanes (b : State) (s : State) : (modEdges b s).lanes = s.lanes := by simp [modEdges]
@[simp] theorem modEdges_sw (b : State) (s : State) : (modEdges b s).sw = s.sw := by simp [modEdges]
@[simp] theorem modEdges_mf (b : State) (s : State) : (modEdges b s).mf = s.mf := by simp [modEdges]
@[simp] theorem modEdges_coh (b : State) (s : State) : (modEdges b s).coh = s.coh := by simp [modEdges]
@[simp] theorem modEdges_ctl (b : State) (s : State) : (modEdges b s).ctl = s.ctl := by simp [modEdges]
@[simp] theorem modEdges_tab (b : State) (s : State) : (modEdges b s).tab = s.tab := by simp [modEdges]
@[simp] theorem modEdges_svc (b : State) (s : State) : (modEdges b s).svc = s.svc := by simp [modEdges]
@[simp] theorem modEdges_cod (b : State) (s : State) : (modEdges b s).cod = s.cod := by simp [modEdges]
@[simp] theorem modEdges_per (b : State) (s : State) : (modEdges b s).per = s.per := by simp [modEdges]
@[simp] theorem modEdges_tier (b : State) (s : State) : (modEdges b s).tier = s.tier := by simp [modEdges]
@[simp] theorem modEdges_cx (b : State) (s : State) : (modEdges b s).cx = s.cx := by simp [modEdges]
@[simp] theorem modEdges_sec (b : State) (s : State) : (modEdges b s).sec = s.sec := by simp [modEdges]
@[simp] theorem modEdges_rel (b : State) (s : State) : (modEdges b s).rel = s.rel := by simp [modEdges]
@[simp] theorem modEdges_map (b : State) (s : State) : (modEdges b s).map = s.map := by simp [modEdges]
@[simp] theorem modEdges_boot (b : State) (s : State) : (modEdges b s).boot = s.boot := by simp [modEdges]

/-! ### setModBit -/

@[simp] theorem setModBit_pending (i : Nat) (s : State) : (setModBit i s).pending = s.pending := by simp [setModBit]
@[simp] theorem setModBit_free (i : Nat) (s : State) : (setModBit i s).free = s.free := by simp [setModBit]
@[simp] theorem setModBit_clk (i : Nat) (s : State) : (setModBit i s).clk = s.clk := by simp [setModBit]
@[simp] theorem setModBit_evr (i : Nat) (s : State) : (setModBit i s).evr = s.evr := by simp [setModBit]
@[simp] theorem setModBit_chv (i : Nat) (s : State) : (setModBit i s).chv = s.chv := by simp [setModBit]
@[simp] theorem setModBit_ports (i : Nat) (s : State) : (setModBit i s).ports = s.ports := by simp [setModBit]
@[simp] theorem setModBit_lanes (i : Nat) (s : State) : (setModBit i s).lanes = s.lanes := by simp [setModBit]
@[simp] theorem setModBit_sw (i : Nat) (s : State) : (setModBit i s).sw = s.sw := by simp [setModBit]
@[simp] theorem setModBit_mf (i : Nat) (s : State) : (setModBit i s).mf = s.mf := by simp [setModBit]
@[simp] theorem setModBit_coh (i : Nat) (s : State) : (setModBit i s).coh = s.coh := by simp [setModBit]
@[simp] theorem setModBit_ctl (i : Nat) (s : State) : (setModBit i s).ctl = s.ctl := by simp [setModBit]
@[simp] theorem setModBit_tab (i : Nat) (s : State) : (setModBit i s).tab = s.tab := by simp [setModBit]
@[simp] theorem setModBit_svc (i : Nat) (s : State) : (setModBit i s).svc = s.svc := by simp [setModBit]
@[simp] theorem setModBit_cod (i : Nat) (s : State) : (setModBit i s).cod = s.cod := by simp [setModBit]
@[simp] theorem setModBit_per (i : Nat) (s : State) : (setModBit i s).per = s.per := by simp [setModBit]
@[simp] theorem setModBit_tier (i : Nat) (s : State) : (setModBit i s).tier = s.tier := by simp [setModBit]
@[simp] theorem setModBit_cx (i : Nat) (s : State) : (setModBit i s).cx = s.cx := by simp [setModBit]
@[simp] theorem setModBit_sec (i : Nat) (s : State) : (setModBit i s).sec = s.sec := by simp [setModBit]
@[simp] theorem setModBit_rel (i : Nat) (s : State) : (setModBit i s).rel = s.rel := by simp [setModBit]
@[simp] theorem setModBit_map (i : Nat) (s : State) : (setModBit i s).map = s.map := by simp [setModBit]
@[simp] theorem setModBit_boot (i : Nat) (s : State) : (setModBit i s).boot = s.boot := by simp [setModBit]

/-! ### ringWrite -/

@[simp] theorem ringWrite_pending (die : Nat) (r : Record) (s : State) : (ringWrite die r s).pending = s.pending := rfl
@[simp] theorem ringWrite_free (die : Nat) (r : Record) (s : State) : (ringWrite die r s).free = s.free := rfl
@[simp] theorem ringWrite_out (die : Nat) (r : Record) (s : State) : (ringWrite die r s).out = s.out := rfl
@[simp] theorem ringWrite_clk (die : Nat) (r : Record) (s : State) : (ringWrite die r s).clk = s.clk := rfl
@[simp] theorem ringWrite_chv (die : Nat) (r : Record) (s : State) : (ringWrite die r s).chv = s.chv := rfl
@[simp] theorem ringWrite_ports (die : Nat) (r : Record) (s : State) : (ringWrite die r s).ports = s.ports := rfl
@[simp] theorem ringWrite_lanes (die : Nat) (r : Record) (s : State) : (ringWrite die r s).lanes = s.lanes := rfl
@[simp] theorem ringWrite_sw (die : Nat) (r : Record) (s : State) : (ringWrite die r s).sw = s.sw := rfl
@[simp] theorem ringWrite_mf (die : Nat) (r : Record) (s : State) : (ringWrite die r s).mf = s.mf := rfl
@[simp] theorem ringWrite_coh (die : Nat) (r : Record) (s : State) : (ringWrite die r s).coh = s.coh := rfl
@[simp] theorem ringWrite_ctl (die : Nat) (r : Record) (s : State) : (ringWrite die r s).ctl = s.ctl := rfl
@[simp] theorem ringWrite_tab (die : Nat) (r : Record) (s : State) : (ringWrite die r s).tab = s.tab := rfl
@[simp] theorem ringWrite_svc (die : Nat) (r : Record) (s : State) : (ringWrite die r s).svc = s.svc := rfl
@[simp] theorem ringWrite_cod (die : Nat) (r : Record) (s : State) : (ringWrite die r s).cod = s.cod := rfl
@[simp] theorem ringWrite_per (die : Nat) (r : Record) (s : State) : (ringWrite die r s).per = s.per := rfl
@[simp] theorem ringWrite_tier (die : Nat) (r : Record) (s : State) : (ringWrite die r s).tier = s.tier := rfl
@[simp] theorem ringWrite_hst (die : Nat) (r : Record) (s : State) : (ringWrite die r s).hst = s.hst := rfl
@[simp] theorem ringWrite_cx (die : Nat) (r : Record) (s : State) : (ringWrite die r s).cx = s.cx := rfl
@[simp] theorem ringWrite_sec (die : Nat) (r : Record) (s : State) : (ringWrite die r s).sec = s.sec := rfl
@[simp] theorem ringWrite_rel (die : Nat) (r : Record) (s : State) : (ringWrite die r s).rel = s.rel := rfl
@[simp] theorem ringWrite_map (die : Nat) (r : Record) (s : State) : (ringWrite die r s).map = s.map := rfl
@[simp] theorem ringWrite_boot (die : Nat) (r : Record) (s : State) : (ringWrite die r s).boot = s.boot := rfl

/-! ### loseRecord -/

@[simp] theorem loseRecord_pending (die : Nat) (s : State) : (loseRecord die s).pending = s.pending := rfl
@[simp] theorem loseRecord_free (die : Nat) (s : State) : (loseRecord die s).free = s.free := rfl
@[simp] theorem loseRecord_out (die : Nat) (s : State) : (loseRecord die s).out = s.out := rfl
@[simp] theorem loseRecord_clk (die : Nat) (s : State) : (loseRecord die s).clk = s.clk := rfl
@[simp] theorem loseRecord_chv (die : Nat) (s : State) : (loseRecord die s).chv = s.chv := rfl
@[simp] theorem loseRecord_ports (die : Nat) (s : State) : (loseRecord die s).ports = s.ports := rfl
@[simp] theorem loseRecord_lanes (die : Nat) (s : State) : (loseRecord die s).lanes = s.lanes := rfl
@[simp] theorem loseRecord_sw (die : Nat) (s : State) : (loseRecord die s).sw = s.sw := rfl
@[simp] theorem loseRecord_mf (die : Nat) (s : State) : (loseRecord die s).mf = s.mf := rfl
@[simp] theorem loseRecord_coh (die : Nat) (s : State) : (loseRecord die s).coh = s.coh := rfl
@[simp] theorem loseRecord_ctl (die : Nat) (s : State) : (loseRecord die s).ctl = s.ctl := rfl
@[simp] theorem loseRecord_tab (die : Nat) (s : State) : (loseRecord die s).tab = s.tab := rfl
@[simp] theorem loseRecord_svc (die : Nat) (s : State) : (loseRecord die s).svc = s.svc := rfl
@[simp] theorem loseRecord_cod (die : Nat) (s : State) : (loseRecord die s).cod = s.cod := rfl
@[simp] theorem loseRecord_per (die : Nat) (s : State) : (loseRecord die s).per = s.per := rfl
@[simp] theorem loseRecord_tier (die : Nat) (s : State) : (loseRecord die s).tier = s.tier := rfl
@[simp] theorem loseRecord_hst (die : Nat) (s : State) : (loseRecord die s).hst = s.hst := rfl
@[simp] theorem loseRecord_cx (die : Nat) (s : State) : (loseRecord die s).cx = s.cx := rfl
@[simp] theorem loseRecord_sec (die : Nat) (s : State) : (loseRecord die s).sec = s.sec := rfl
@[simp] theorem loseRecord_rel (die : Nat) (s : State) : (loseRecord die s).rel = s.rel := rfl
@[simp] theorem loseRecord_map (die : Nat) (s : State) : (loseRecord die s).map = s.map := rfl
@[simp] theorem loseRecord_boot (die : Nat) (s : State) : (loseRecord die s).boot = s.boot := rfl

/-! ### keepRecord -/

@[simp] theorem keepRecord_pending (die : Nat) (full : Bool) (r : Record) (s : State) : (keepRecord die full r s).pending = s.pending := by unfold keepRecord; split <;> simp
@[simp] theorem keepRecord_free (die : Nat) (full : Bool) (r : Record) (s : State) : (keepRecord die full r s).free = s.free := by unfold keepRecord; split <;> simp
@[simp] theorem keepRecord_out (die : Nat) (full : Bool) (r : Record) (s : State) : (keepRecord die full r s).out = s.out := by unfold keepRecord; split <;> simp
@[simp] theorem keepRecord_clk (die : Nat) (full : Bool) (r : Record) (s : State) : (keepRecord die full r s).clk = s.clk := by unfold keepRecord; split <;> simp
@[simp] theorem keepRecord_chv (die : Nat) (full : Bool) (r : Record) (s : State) : (keepRecord die full r s).chv = s.chv := by unfold keepRecord; split <;> simp
@[simp] theorem keepRecord_ports (die : Nat) (full : Bool) (r : Record) (s : State) : (keepRecord die full r s).ports = s.ports := by unfold keepRecord; split <;> simp
@[simp] theorem keepRecord_lanes (die : Nat) (full : Bool) (r : Record) (s : State) : (keepRecord die full r s).lanes = s.lanes := by unfold keepRecord; split <;> simp
@[simp] theorem keepRecord_sw (die : Nat) (full : Bool) (r : Record) (s : State) : (keepRecord die full r s).sw = s.sw := by unfold keepRecord; split <;> simp
@[simp] theorem keepRecord_mf (die : Nat) (full : Bool) (r : Record) (s : State) : (keepRecord die full r s).mf = s.mf := by unfold keepRecord; split <;> simp
@[simp] theorem keepRecord_coh (die : Nat) (full : Bool) (r : Record) (s : State) : (keepRecord die full r s).coh = s.coh := by unfold keepRecord; split <;> simp
@[simp] theorem keepRecord_ctl (die : Nat) (full : Bool) (r : Record) (s : State) : (keepRecord die full r s).ctl = s.ctl := by unfold keepRecord; split <;> simp
@[simp] theorem keepRecord_tab (die : Nat) (full : Bool) (r : Record) (s : State) : (keepRecord die full r s).tab = s.tab := by unfold keepRecord; split <;> simp
@[simp] theorem keepRecord_svc (die : Nat) (full : Bool) (r : Record) (s : State) : (keepRecord die full r s).svc = s.svc := by unfold keepRecord; split <;> simp
@[simp] theorem keepRecord_cod (die : Nat) (full : Bool) (r : Record) (s : State) : (keepRecord die full r s).cod = s.cod := by unfold keepRecord; split <;> simp
@[simp] theorem keepRecord_per (die : Nat) (full : Bool) (r : Record) (s : State) : (keepRecord die full r s).per = s.per := by unfold keepRecord; split <;> simp
@[simp] theorem keepRecord_tier (die : Nat) (full : Bool) (r : Record) (s : State) : (keepRecord die full r s).tier = s.tier := by unfold keepRecord; split <;> simp
@[simp] theorem keepRecord_hst (die : Nat) (full : Bool) (r : Record) (s : State) : (keepRecord die full r s).hst = s.hst := by unfold keepRecord; split <;> simp
@[simp] theorem keepRecord_cx (die : Nat) (full : Bool) (r : Record) (s : State) : (keepRecord die full r s).cx = s.cx := by unfold keepRecord; split <;> simp
@[simp] theorem keepRecord_sec (die : Nat) (full : Bool) (r : Record) (s : State) : (keepRecord die full r s).sec = s.sec := by unfold keepRecord; split <;> simp
@[simp] theorem keepRecord_rel (die : Nat) (full : Bool) (r : Record) (s : State) : (keepRecord die full r s).rel = s.rel := by unfold keepRecord; split <;> simp
@[simp] theorem keepRecord_map (die : Nat) (full : Bool) (r : Record) (s : State) : (keepRecord die full r s).map = s.map := by unfold keepRecord; split <;> simp
@[simp] theorem keepRecord_boot (die : Nat) (full : Bool) (r : Record) (s : State) : (keepRecord die full r s).boot = s.boot := by unfold keepRecord; split <;> simp

/-! ### emit -/

@[simp] theorem emit_pending (die code sev p0 p1 p2 p3 : Nat) (s : State) : (emit die code sev p0 p1 p2 p3 s).pending = s.pending := by unfold emit; dsimp only; split <;> simp
@[simp] theorem emit_free (die code sev p0 p1 p2 p3 : Nat) (s : State) : (emit die code sev p0 p1 p2 p3 s).free = s.free := by unfold emit; dsimp only; split <;> simp
@[simp] theorem emit_clk (die code sev p0 p1 p2 p3 : Nat) (s : State) : (emit die code sev p0 p1 p2 p3 s).clk = s.clk := by unfold emit; dsimp only; split <;> simp
@[simp] theorem emit_chv (die code sev p0 p1 p2 p3 : Nat) (s : State) : (emit die code sev p0 p1 p2 p3 s).chv = s.chv := by unfold emit; dsimp only; split <;> simp
@[simp] theorem emit_ports (die code sev p0 p1 p2 p3 : Nat) (s : State) : (emit die code sev p0 p1 p2 p3 s).ports = s.ports := by unfold emit; dsimp only; split <;> simp
@[simp] theorem emit_lanes (die code sev p0 p1 p2 p3 : Nat) (s : State) : (emit die code sev p0 p1 p2 p3 s).lanes = s.lanes := by unfold emit; dsimp only; split <;> simp
@[simp] theorem emit_sw (die code sev p0 p1 p2 p3 : Nat) (s : State) : (emit die code sev p0 p1 p2 p3 s).sw = s.sw := by unfold emit; dsimp only; split <;> simp
@[simp] theorem emit_mf (die code sev p0 p1 p2 p3 : Nat) (s : State) : (emit die code sev p0 p1 p2 p3 s).mf = s.mf := by unfold emit; dsimp only; split <;> simp
@[simp] theorem emit_coh (die code sev p0 p1 p2 p3 : Nat) (s : State) : (emit die code sev p0 p1 p2 p3 s).coh = s.coh := by unfold emit; dsimp only; split <;> simp
@[simp] theorem emit_ctl (die code sev p0 p1 p2 p3 : Nat) (s : State) : (emit die code sev p0 p1 p2 p3 s).ctl = s.ctl := by unfold emit; dsimp only; split <;> simp
@[simp] theorem emit_tab (die code sev p0 p1 p2 p3 : Nat) (s : State) : (emit die code sev p0 p1 p2 p3 s).tab = s.tab := by unfold emit; dsimp only; split <;> simp
@[simp] theorem emit_svc (die code sev p0 p1 p2 p3 : Nat) (s : State) : (emit die code sev p0 p1 p2 p3 s).svc = s.svc := by unfold emit; dsimp only; split <;> simp
@[simp] theorem emit_cod (die code sev p0 p1 p2 p3 : Nat) (s : State) : (emit die code sev p0 p1 p2 p3 s).cod = s.cod := by unfold emit; dsimp only; split <;> simp
@[simp] theorem emit_per (die code sev p0 p1 p2 p3 : Nat) (s : State) : (emit die code sev p0 p1 p2 p3 s).per = s.per := by unfold emit; dsimp only; split <;> simp
@[simp] theorem emit_tier (die code sev p0 p1 p2 p3 : Nat) (s : State) : (emit die code sev p0 p1 p2 p3 s).tier = s.tier := by unfold emit; dsimp only; split <;> simp
@[simp] theorem emit_cx (die code sev p0 p1 p2 p3 : Nat) (s : State) : (emit die code sev p0 p1 p2 p3 s).cx = s.cx := by unfold emit; dsimp only; split <;> simp
@[simp] theorem emit_sec (die code sev p0 p1 p2 p3 : Nat) (s : State) : (emit die code sev p0 p1 p2 p3 s).sec = s.sec := by unfold emit; dsimp only; split <;> simp
@[simp] theorem emit_rel (die code sev p0 p1 p2 p3 : Nat) (s : State) : (emit die code sev p0 p1 p2 p3 s).rel = s.rel := by unfold emit; dsimp only; split <;> simp
@[simp] theorem emit_map (die code sev p0 p1 p2 p3 : Nat) (s : State) : (emit die code sev p0 p1 p2 p3 s).map = s.map := by unfold emit; dsimp only; split <;> simp
@[simp] theorem emit_boot (die code sev p0 p1 p2 p3 : Nat) (s : State) : (emit die code sev p0 p1 p2 p3 s).boot = s.boot := by unfold emit; dsimp only; split <;> simp

/-! ### emitClass -/

@[simp] theorem emitClass_pending (die cls p0 p1 p2 p3 : Nat) (s : State) : (emitClass die cls p0 p1 p2 p3 s).pending = s.pending := by simp [emitClass]
@[simp] theorem emitClass_free (die cls p0 p1 p2 p3 : Nat) (s : State) : (emitClass die cls p0 p1 p2 p3 s).free = s.free := by simp [emitClass]
@[simp] theorem emitClass_clk (die cls p0 p1 p2 p3 : Nat) (s : State) : (emitClass die cls p0 p1 p2 p3 s).clk = s.clk := by simp [emitClass]
@[simp] theorem emitClass_chv (die cls p0 p1 p2 p3 : Nat) (s : State) : (emitClass die cls p0 p1 p2 p3 s).chv = s.chv := by simp [emitClass]
@[simp] theorem emitClass_ports (die cls p0 p1 p2 p3 : Nat) (s : State) : (emitClass die cls p0 p1 p2 p3 s).ports = s.ports := by simp [emitClass]
@[simp] theorem emitClass_lanes (die cls p0 p1 p2 p3 : Nat) (s : State) : (emitClass die cls p0 p1 p2 p3 s).lanes = s.lanes := by simp [emitClass]
@[simp] theorem emitClass_sw (die cls p0 p1 p2 p3 : Nat) (s : State) : (emitClass die cls p0 p1 p2 p3 s).sw = s.sw := by simp [emitClass]
@[simp] theorem emitClass_mf (die cls p0 p1 p2 p3 : Nat) (s : State) : (emitClass die cls p0 p1 p2 p3 s).mf = s.mf := by simp [emitClass]
@[simp] theorem emitClass_coh (die cls p0 p1 p2 p3 : Nat) (s : State) : (emitClass die cls p0 p1 p2 p3 s).coh = s.coh := by simp [emitClass]
@[simp] theorem emitClass_ctl (die cls p0 p1 p2 p3 : Nat) (s : State) : (emitClass die cls p0 p1 p2 p3 s).ctl = s.ctl := by simp [emitClass]
@[simp] theorem emitClass_tab (die cls p0 p1 p2 p3 : Nat) (s : State) : (emitClass die cls p0 p1 p2 p3 s).tab = s.tab := by simp [emitClass]
@[simp] theorem emitClass_svc (die cls p0 p1 p2 p3 : Nat) (s : State) : (emitClass die cls p0 p1 p2 p3 s).svc = s.svc := by simp [emitClass]
@[simp] theorem emitClass_cod (die cls p0 p1 p2 p3 : Nat) (s : State) : (emitClass die cls p0 p1 p2 p3 s).cod = s.cod := by simp [emitClass]
@[simp] theorem emitClass_per (die cls p0 p1 p2 p3 : Nat) (s : State) : (emitClass die cls p0 p1 p2 p3 s).per = s.per := by simp [emitClass]
@[simp] theorem emitClass_tier (die cls p0 p1 p2 p3 : Nat) (s : State) : (emitClass die cls p0 p1 p2 p3 s).tier = s.tier := by simp [emitClass]
@[simp] theorem emitClass_cx (die cls p0 p1 p2 p3 : Nat) (s : State) : (emitClass die cls p0 p1 p2 p3 s).cx = s.cx := by simp [emitClass]
@[simp] theorem emitClass_sec (die cls p0 p1 p2 p3 : Nat) (s : State) : (emitClass die cls p0 p1 p2 p3 s).sec = s.sec := by simp [emitClass]
@[simp] theorem emitClass_rel (die cls p0 p1 p2 p3 : Nat) (s : State) : (emitClass die cls p0 p1 p2 p3 s).rel = s.rel := by simp [emitClass]
@[simp] theorem emitClass_map (die cls p0 p1 p2 p3 : Nat) (s : State) : (emitClass die cls p0 p1 p2 p3 s).map = s.map := by simp [emitClass]
@[simp] theorem emitClass_boot (die cls p0 p1 p2 p3 : Nat) (s : State) : (emitClass die cls p0 p1 p2 p3 s).boot = s.boot := by simp [emitClass]

/-! ### capacity -/

@[simp] theorem capacity_pending (level step die u sp n : Nat) (s : State) : (capacity level step die u sp n s).pending = s.pending := by simp [capacity]
@[simp] theorem capacity_free (level step die u sp n : Nat) (s : State) : (capacity level step die u sp n s).free = s.free := by simp [capacity]
@[simp] theorem capacity_clk (level step die u sp n : Nat) (s : State) : (capacity level step die u sp n s).clk = s.clk := by simp [capacity]
@[simp] theorem capacity_chv (level step die u sp n : Nat) (s : State) : (capacity level step die u sp n s).chv = s.chv := by simp [capacity]
@[simp] theorem capacity_ports (level step die u sp n : Nat) (s : State) : (capacity level step die u sp n s).ports = s.ports := by simp [capacity]
@[simp] theorem capacity_lanes (level step die u sp n : Nat) (s : State) : (capacity level step die u sp n s).lanes = s.lanes := by simp [capacity]
@[simp] theorem capacity_sw (level step die u sp n : Nat) (s : State) : (capacity level step die u sp n s).sw = s.sw := by simp [capacity]
@[simp] theorem capacity_mf (level step die u sp n : Nat) (s : State) : (capacity level step die u sp n s).mf = s.mf := by simp [capacity]
@[simp] theorem capacity_coh (level step die u sp n : Nat) (s : State) : (capacity level step die u sp n s).coh = s.coh := by simp [capacity]
@[simp] theorem capacity_ctl (level step die u sp n : Nat) (s : State) : (capacity level step die u sp n s).ctl = s.ctl := by simp [capacity]
@[simp] theorem capacity_tab (level step die u sp n : Nat) (s : State) : (capacity level step die u sp n s).tab = s.tab := by simp [capacity]
@[simp] theorem capacity_svc (level step die u sp n : Nat) (s : State) : (capacity level step die u sp n s).svc = s.svc := by simp [capacity]
@[simp] theorem capacity_cod (level step die u sp n : Nat) (s : State) : (capacity level step die u sp n s).cod = s.cod := by simp [capacity]
@[simp] theorem capacity_per (level step die u sp n : Nat) (s : State) : (capacity level step die u sp n s).per = s.per := by simp [capacity]
@[simp] theorem capacity_tier (level step die u sp n : Nat) (s : State) : (capacity level step die u sp n s).tier = s.tier := by simp [capacity]
@[simp] theorem capacity_cx (level step die u sp n : Nat) (s : State) : (capacity level step die u sp n s).cx = s.cx := by simp [capacity]
@[simp] theorem capacity_sec (level step die u sp n : Nat) (s : State) : (capacity level step die u sp n s).sec = s.sec := by simp [capacity]
@[simp] theorem capacity_rel (level step die u sp n : Nat) (s : State) : (capacity level step die u sp n s).rel = s.rel := by simp [capacity]
@[simp] theorem capacity_map (level step die u sp n : Nat) (s : State) : (capacity level step die u sp n s).map = s.map := by simp [capacity]
@[simp] theorem capacity_boot (level step die u sp n : Nat) (s : State) : (capacity level step die u sp n s).boot = s.boot := by simp [capacity]

/-! ### raiseThread -/

@[simp] theorem raiseThread_pending (h kind : Nat) (d : List Byte) (s : State) : (raiseThread h kind d s).pending = s.pending := by unfold raiseThread; split <;> rfl
@[simp] theorem raiseThread_free (h kind : Nat) (d : List Byte) (s : State) : (raiseThread h kind d s).free = s.free := by unfold raiseThread; split <;> rfl
@[simp] theorem raiseThread_out (h kind : Nat) (d : List Byte) (s : State) : (raiseThread h kind d s).out = s.out := by unfold raiseThread; split <;> rfl
@[simp] theorem raiseThread_clk (h kind : Nat) (d : List Byte) (s : State) : (raiseThread h kind d s).clk = s.clk := by unfold raiseThread; split <;> rfl
@[simp] theorem raiseThread_evr (h kind : Nat) (d : List Byte) (s : State) : (raiseThread h kind d s).evr = s.evr := by unfold raiseThread; split <;> rfl
@[simp] theorem raiseThread_chv (h kind : Nat) (d : List Byte) (s : State) : (raiseThread h kind d s).chv = s.chv := by unfold raiseThread; split <;> rfl
@[simp] theorem raiseThread_ports (h kind : Nat) (d : List Byte) (s : State) : (raiseThread h kind d s).ports = s.ports := by unfold raiseThread; split <;> rfl
@[simp] theorem raiseThread_lanes (h kind : Nat) (d : List Byte) (s : State) : (raiseThread h kind d s).lanes = s.lanes := by unfold raiseThread; split <;> rfl
@[simp] theorem raiseThread_sw (h kind : Nat) (d : List Byte) (s : State) : (raiseThread h kind d s).sw = s.sw := by unfold raiseThread; split <;> rfl
@[simp] theorem raiseThread_mf (h kind : Nat) (d : List Byte) (s : State) : (raiseThread h kind d s).mf = s.mf := by unfold raiseThread; split <;> rfl
@[simp] theorem raiseThread_coh (h kind : Nat) (d : List Byte) (s : State) : (raiseThread h kind d s).coh = s.coh := by unfold raiseThread; split <;> rfl
@[simp] theorem raiseThread_tab (h kind : Nat) (d : List Byte) (s : State) : (raiseThread h kind d s).tab = s.tab := by unfold raiseThread; split <;> rfl
@[simp] theorem raiseThread_svc (h kind : Nat) (d : List Byte) (s : State) : (raiseThread h kind d s).svc = s.svc := by unfold raiseThread; split <;> rfl
@[simp] theorem raiseThread_cod (h kind : Nat) (d : List Byte) (s : State) : (raiseThread h kind d s).cod = s.cod := by unfold raiseThread; split <;> rfl
@[simp] theorem raiseThread_per (h kind : Nat) (d : List Byte) (s : State) : (raiseThread h kind d s).per = s.per := by unfold raiseThread; split <;> rfl
@[simp] theorem raiseThread_tier (h kind : Nat) (d : List Byte) (s : State) : (raiseThread h kind d s).tier = s.tier := by unfold raiseThread; split <;> rfl
@[simp] theorem raiseThread_hst (h kind : Nat) (d : List Byte) (s : State) : (raiseThread h kind d s).hst = s.hst := by unfold raiseThread; split <;> rfl
@[simp] theorem raiseThread_cx (h kind : Nat) (d : List Byte) (s : State) : (raiseThread h kind d s).cx = s.cx := by unfold raiseThread; split <;> rfl
@[simp] theorem raiseThread_sec (h kind : Nat) (d : List Byte) (s : State) : (raiseThread h kind d s).sec = s.sec := by unfold raiseThread; split <;> rfl
@[simp] theorem raiseThread_rel (h kind : Nat) (d : List Byte) (s : State) : (raiseThread h kind d s).rel = s.rel := by unfold raiseThread; split <;> rfl
@[simp] theorem raiseThread_map (h kind : Nat) (d : List Byte) (s : State) : (raiseThread h kind d s).map = s.map := by unfold raiseThread; split <;> rfl
@[simp] theorem raiseThread_boot (h kind : Nat) (d : List Byte) (s : State) : (raiseThread h kind d s).boot = s.boot := by unfold raiseThread; split <;> rfl

/-! ### alert -/

@[simp] theorem alert_pending (code die v : Nat) (s : State) : (alert code die v s).pending = s.pending := by unfold alert; dsimp only; split <;> simp
@[simp] theorem alert_free (code die v : Nat) (s : State) : (alert code die v s).free = s.free := by unfold alert; dsimp only; split <;> simp
@[simp] theorem alert_clk (code die v : Nat) (s : State) : (alert code die v s).clk = s.clk := by unfold alert; dsimp only; split <;> simp
@[simp] theorem alert_chv (code die v : Nat) (s : State) : (alert code die v s).chv = s.chv := by unfold alert; dsimp only; split <;> simp
@[simp] theorem alert_ports (code die v : Nat) (s : State) : (alert code die v s).ports = s.ports := by unfold alert; dsimp only; split <;> simp
@[simp] theorem alert_lanes (code die v : Nat) (s : State) : (alert code die v s).lanes = s.lanes := by unfold alert; dsimp only; split <;> simp
@[simp] theorem alert_sw (code die v : Nat) (s : State) : (alert code die v s).sw = s.sw := by unfold alert; dsimp only; split <;> simp
@[simp] theorem alert_mf (code die v : Nat) (s : State) : (alert code die v s).mf = s.mf := by unfold alert; dsimp only; split <;> simp
@[simp] theorem alert_coh (code die v : Nat) (s : State) : (alert code die v s).coh = s.coh := by unfold alert; dsimp only; split <;> simp
@[simp] theorem alert_tab (code die v : Nat) (s : State) : (alert code die v s).tab = s.tab := by unfold alert; dsimp only; split <;> simp
@[simp] theorem alert_svc (code die v : Nat) (s : State) : (alert code die v s).svc = s.svc := by unfold alert; dsimp only; split <;> simp
@[simp] theorem alert_cod (code die v : Nat) (s : State) : (alert code die v s).cod = s.cod := by unfold alert; dsimp only; split <;> simp
@[simp] theorem alert_per (code die v : Nat) (s : State) : (alert code die v s).per = s.per := by unfold alert; dsimp only; split <;> simp
@[simp] theorem alert_tier (code die v : Nat) (s : State) : (alert code die v s).tier = s.tier := by unfold alert; dsimp only; split <;> simp
@[simp] theorem alert_cx (code die v : Nat) (s : State) : (alert code die v s).cx = s.cx := by unfold alert; dsimp only; split <;> simp
@[simp] theorem alert_sec (code die v : Nat) (s : State) : (alert code die v s).sec = s.sec := by unfold alert; dsimp only; split <;> simp
@[simp] theorem alert_rel (code die v : Nat) (s : State) : (alert code die v s).rel = s.rel := by unfold alert; dsimp only; split <;> simp
@[simp] theorem alert_map (code die v : Nat) (s : State) : (alert code die v s).map = s.map := by unfold alert; dsimp only; split <;> simp
@[simp] theorem alert_boot (code die v : Nat) (s : State) : (alert code die v s).boot = s.boot := by unfold alert; dsimp only; split <;> simp

/-! ### setLink -/

@[simp] theorem setLink_pending (p : Nat) (st : LinkState) (s : State) : (setLink p st s).pending = s.pending := by unfold setLink; dsimp only; split <;> simp
@[simp] theorem setLink_free (p : Nat) (st : LinkState) (s : State) : (setLink p st s).free = s.free := by unfold setLink; dsimp only; split <;> simp
@[simp] theorem setLink_clk (p : Nat) (st : LinkState) (s : State) : (setLink p st s).clk = s.clk := by unfold setLink; dsimp only; split <;> simp
@[simp] theorem setLink_chv (p : Nat) (st : LinkState) (s : State) : (setLink p st s).chv = s.chv := by unfold setLink; dsimp only; split <;> simp
@[simp] theorem setLink_lanes (p : Nat) (st : LinkState) (s : State) : (setLink p st s).lanes = s.lanes := by unfold setLink; dsimp only; split <;> simp
@[simp] theorem setLink_sw (p : Nat) (st : LinkState) (s : State) : (setLink p st s).sw = s.sw := by unfold setLink; dsimp only; split <;> simp
@[simp] theorem setLink_mf (p : Nat) (st : LinkState) (s : State) : (setLink p st s).mf = s.mf := by unfold setLink; dsimp only; split <;> simp
@[simp] theorem setLink_coh (p : Nat) (st : LinkState) (s : State) : (setLink p st s).coh = s.coh := by unfold setLink; dsimp only; split <;> simp
@[simp] theorem setLink_ctl (p : Nat) (st : LinkState) (s : State) : (setLink p st s).ctl = s.ctl := by unfold setLink; dsimp only; split <;> simp
@[simp] theorem setLink_tab (p : Nat) (st : LinkState) (s : State) : (setLink p st s).tab = s.tab := by unfold setLink; dsimp only; split <;> simp
@[simp] theorem setLink_svc (p : Nat) (st : LinkState) (s : State) : (setLink p st s).svc = s.svc := by unfold setLink; dsimp only; split <;> simp
@[simp] theorem setLink_cod (p : Nat) (st : LinkState) (s : State) : (setLink p st s).cod = s.cod := by unfold setLink; dsimp only; split <;> simp
@[simp] theorem setLink_per (p : Nat) (st : LinkState) (s : State) : (setLink p st s).per = s.per := by unfold setLink; dsimp only; split <;> simp
@[simp] theorem setLink_tier (p : Nat) (st : LinkState) (s : State) : (setLink p st s).tier = s.tier := by unfold setLink; dsimp only; split <;> simp
@[simp] theorem setLink_cx (p : Nat) (st : LinkState) (s : State) : (setLink p st s).cx = s.cx := by unfold setLink; dsimp only; split <;> simp
@[simp] theorem setLink_sec (p : Nat) (st : LinkState) (s : State) : (setLink p st s).sec = s.sec := by unfold setLink; dsimp only; split <;> simp
@[simp] theorem setLink_rel (p : Nat) (st : LinkState) (s : State) : (setLink p st s).rel = s.rel := by unfold setLink; dsimp only; split <;> simp
@[simp] theorem setLink_map (p : Nat) (st : LinkState) (s : State) : (setLink p st s).map = s.map := by unfold setLink; dsimp only; split <;> simp
@[simp] theorem setLink_boot (p : Nat) (st : LinkState) (s : State) : (setLink p st s).boot = s.boot := by unfold setLink; dsimp only; split <;> simp

/-! ### portToDown -/

@[simp] theorem portToDown_pending (p : Nat) (s : State) : (portToDown p s).pending = s.pending := by simp [portToDown]
@[simp] theorem portToDown_free (p : Nat) (s : State) : (portToDown p s).free = s.free := by simp [portToDown]
@[simp] theorem portToDown_clk (p : Nat) (s : State) : (portToDown p s).clk = s.clk := by simp [portToDown]
@[simp] theorem portToDown_chv (p : Nat) (s : State) : (portToDown p s).chv = s.chv := by simp [portToDown]
@[simp] theorem portToDown_lanes (p : Nat) (s : State) : (portToDown p s).lanes = s.lanes := by simp [portToDown]
@[simp] theorem portToDown_sw (p : Nat) (s : State) : (portToDown p s).sw = s.sw := by simp [portToDown]
@[simp] theorem portToDown_mf (p : Nat) (s : State) : (portToDown p s).mf = s.mf := by simp [portToDown]
@[simp] theorem portToDown_coh (p : Nat) (s : State) : (portToDown p s).coh = s.coh := by simp [portToDown]
@[simp] theorem portToDown_ctl (p : Nat) (s : State) : (portToDown p s).ctl = s.ctl := by simp [portToDown]
@[simp] theorem portToDown_tab (p : Nat) (s : State) : (portToDown p s).tab = s.tab := by simp [portToDown]
@[simp] theorem portToDown_svc (p : Nat) (s : State) : (portToDown p s).svc = s.svc := by simp [portToDown]
@[simp] theorem portToDown_cod (p : Nat) (s : State) : (portToDown p s).cod = s.cod := by simp [portToDown]
@[simp] theorem portToDown_per (p : Nat) (s : State) : (portToDown p s).per = s.per := by simp [portToDown]
@[simp] theorem portToDown_tier (p : Nat) (s : State) : (portToDown p s).tier = s.tier := by simp [portToDown]
@[simp] theorem portToDown_cx (p : Nat) (s : State) : (portToDown p s).cx = s.cx := by simp [portToDown]
@[simp] theorem portToDown_sec (p : Nat) (s : State) : (portToDown p s).sec = s.sec := by simp [portToDown]
@[simp] theorem portToDown_rel (p : Nat) (s : State) : (portToDown p s).rel = s.rel := by simp [portToDown]
@[simp] theorem portToDown_map (p : Nat) (s : State) : (portToDown p s).map = s.map := by simp [portToDown]
@[simp] theorem portToDown_boot (p : Nat) (s : State) : (portToDown p s).boot = s.boot := by simp [portToDown]
@[simp] theorem setEntry_pending (s : State) (id idx v : Nat) : (setEntry s id idx v).pending = s.pending := rfl
@[simp] theorem setEntry_free (s : State) (id idx v : Nat) : (setEntry s id idx v).free = s.free := rfl
@[simp] theorem setEntry_out (s : State) (id idx v : Nat) : (setEntry s id idx v).out = s.out := rfl
@[simp] theorem setEntry_clk (s : State) (id idx v : Nat) : (setEntry s id idx v).clk = s.clk := rfl
@[simp] theorem setEntry_evr (s : State) (id idx v : Nat) : (setEntry s id idx v).evr = s.evr := rfl
@[simp] theorem setEntry_chv (s : State) (id idx v : Nat) : (setEntry s id idx v).chv = s.chv := rfl
@[simp] theorem setEntry_ports (s : State) (id idx v : Nat) : (setEntry s id idx v).ports = s.ports := rfl
@[simp] theorem setEntry_lanes (s : State) (id idx v : Nat) : (setEntry s id idx v).lanes = s.lanes := rfl
@[simp] theorem setEntry_sw (s : State) (id idx v : Nat) : (setEntry s id idx v).sw = s.sw := rfl
@[simp] theorem setEntry_mf (s : State) (id idx v : Nat) : (setEntry s id idx v).mf = s.mf := rfl
@[simp] theorem setEntry_coh (s : State) (id idx v : Nat) : (setEntry s id idx v).coh = s.coh := rfl
@[simp] theorem setEntry_ctl (s : State) (id idx v : Nat) : (setEntry s id idx v).ctl = s.ctl := rfl
@[simp] theorem setEntry_svc (s : State) (id idx v : Nat) : (setEntry s id idx v).svc = s.svc := rfl
@[simp] theorem setEntry_cod (s : State) (id idx v : Nat) : (setEntry s id idx v).cod = s.cod := rfl
@[simp] theorem setEntry_per (s : State) (id idx v : Nat) : (setEntry s id idx v).per = s.per := rfl
@[simp] theorem setEntry_tier (s : State) (id idx v : Nat) : (setEntry s id idx v).tier = s.tier := rfl
@[simp] theorem setEntry_hst (s : State) (id idx v : Nat) : (setEntry s id idx v).hst = s.hst := rfl
@[simp] theorem setEntry_cx (s : State) (id idx v : Nat) : (setEntry s id idx v).cx = s.cx := rfl
@[simp] theorem setEntry_sec (s : State) (id idx v : Nat) : (setEntry s id idx v).sec = s.sec := rfl
@[simp] theorem setEntry_rel (s : State) (id idx v : Nat) : (setEntry s id idx v).rel = s.rel := rfl
@[simp] theorem setEntry_map (s : State) (id idx v : Nat) : (setEntry s id idx v).map = s.map := rfl
@[simp] theorem setEntry_boot (s : State) (id idx v : Nat) : (setEntry s id idx v).boot = s.boot := rfl

/-! ### Ports -/

theorem emit_port (die code sev p0 p1 p2 p3 : Nat) (s : State) (k : Nat) : (emit die code sev p0 p1 p2 p3 s).port k = s.port k := by
  simp [State.port]
/-- A port that enters a state is in it. -/
@[simp] theorem setLink_st (p : Nat) (st : LinkState) (s : State) : ((setLink p st s).port p).st = st := by
  unfold setLink
  by_cases h : (s.port p).st = st
  · simp [h]
  · have : ((s.port p).st == st) = false := by simp [h]
    simp [this, emit_port]
/-- A port that goes to DOWN is DOWN. -/
theorem portToDown_st (p : Nat) (s : State) : ((portToDown p s).port p).st = .down := by
  simp [portToDown, portReset]
/-- Another port stays as it was when one enters a state. -/
theorem setLink_ne (p : Nat) (st : LinkState) (s : State) {k : Nat} (h : k ≠ p) : (setLink p st s).port k = s.port k := by
  unfold setLink
  dsimp only
  split
  · rfl
  · simp only [emit_port, State.modPort_eq, State.setPort_ne _ h]

/-! ### Table entries -/

theorem tkey_inj {i j a b : Nat} (ha : a < 2 ^ 24) (hb : b < 2 ^ 24) (h : tkey i a = tkey j b) : i = j ∧ a = b := by
  unfold tkey at h; omega
theorem resetEntry_setEntry (s : State) (id idx v i j : Nat) : resetEntry (setEntry s id idx v) i j = resetEntry s i j := rfl
@[simp] theorem entry_setEntry_same (s : State) (id idx v : Nat) : entry (setEntry s id idx v) id idx = v := by
  unfold entry
  rw [resetEntry_setEntry]
  unfold setEntry
  dsimp only
  split
  · next h => rw [mfind_mdel_same, Option.getD_none, h]
  · rw [mfind_mput_same, Option.getD_some]
theorem entry_setEntry_ne (s : State) (id idx v : Nat) {i j : Nat} (h : tkey i j ≠ tkey id idx) :
    entry (setEntry s id idx v) i j = entry s i j := by
  unfold entry
  rw [resetEntry_setEntry]
  unfold setEntry
  dsimp only
  split
  · rw [mfind_mdel_ne h]
  · rw [mfind_mput_ne h]

/-! ### Time -/

theorem now_of_clk {s t : State} (h : t.clk = s.clk) : now t = now s := by simp [now, h]

end Sys2Proof.Machine
end

