-- ==== Sys2Proof/Laws/Links.lean ====
section
/-!
SUPPORT. Laws of a link's transmit side: what sending frames can change of a port, and that it changes no other port and no other part than ports, outputs and gossip.
-/
namespace Sys2Proof.Machine

/-- What sending never touches of a port: all but its transmit counters, groups, keys, acknowledgements and messages that wait. -/
def Port.still (x : Port) : Port :=
  { x with txSeq := 0, txGroup := [], sinceCtl := 0, txCtr := 0, replay := [], txKey := 0, txU := 0, txPhase := false, keyAt := 0,
           txUpdate := none, txOld := none, keyWord := 0, rxKeyNext := none, nbrDue := [], nextLane := 0,
           ackDue := false, nakDue := none, crSpent := [], ackAt := 0 }

/-- One state follows another by sending on a port. -/
structure SentOn (p : Nat) (s t : State) : Prop where
  still : (t.port p).still = (s.port p).still
  others : ∀ k, k ≠ p → t.port k = s.port k
  parts : { t with ports := s.ports, out := s.out, rel := s.rel } = s

theorem SentOn.refl (p : Nat) (s : State) : SentOn p s s := ⟨rfl, fun _ _ => rfl, rfl⟩
theorem SentOn.trans {p : Nat} {s t u : State} (h : SentOn p s t) (g : SentOn p t u) : SentOn p s u := by
  refine ⟨g.still.trans h.still, fun k hk => (g.others k hk).trans (h.others k hk), ?_⟩
  have h1 := h.parts
  have h2 := g.parts
  rw [← h1, ← h2]
theorem SentOn.ite {p : Nat} {s t u : State} {c : Prop} [Decidable c] (h : SentOn p s t) (g : SentOn p s u) :
    SentOn p s (if c then t else u) := by split <;> assumption
theorem SentOn.put (p : Nat) (o : Out) (s : State) : SentOn p s (put o s) := ⟨rfl, fun _ _ => rfl, rfl⟩
theorem SentOn.setPort (p : Nat) (x : Port) (s : State) (h : x.still = (s.port p).still) : SentOn p s (s.setPort p x) :=
  ⟨by simp [h], fun _ hk => State.setPort_ne s hk x, rfl⟩
theorem SentOn.foldl {β : Type} {p : Nat} (f : State → β → State) (hf : ∀ t b, SentOn p t (f t b)) (l : List β) (s : State) :
    SentOn p s (l.foldl f s) := by
  induction l generalizing s with
  | nil => exact .refl p s
  | cons b t ih => exact (hf s b).trans (ih _)
theorem SentOn.after {p : Nat} {x : Port} {s t : State} (g : SentOn p (s.setPort p x) t) (h : x.still = (s.port p).still) : SentOn p s t :=
  (SentOn.setPort p x s h).trans g
theorem emitFrame_sent (p : Nat) (f : List Byte) (s : State) : SentOn p s (emitFrame p f s) := by
  unfold emitFrame
  exact .after (.put p _ _) rfl
theorem sealGroup_sent (p : Nat) (s : State) : SentOn p s (sealGroup p s) := by
  unfold sealGroup
  dsimp only
  exact .after (SentOn.foldl _ (fun t f => emitFrame_sent p f t) _ _) rfl
theorem addFrame_sent (p type vl start used : Nat) (close : Bool) (body : List Byte) (s : State) :
    SentOn p s (addFrame p type vl start used close body s) := by
  unfold addFrame
  dsimp only
  split
  · exact .after (sealGroup_sent p _) rfl
  · exact SentOn.setPort p _ s rfl
/-- A control frame changes only the transmit side of its port, the outputs and the gossip position. -/
theorem sendControl_sent (p : Nat) (s : State) : SentOn p s (sendControl p s) := by
  unfold sendControl
  split
  · exact SentOn.setPort p _ s rfl
  · dsimp only
    have h0 : SentOn p s (if keyDue s p then s.modPort p announceKey else s) := .ite (SentOn.setPort p _ s rfl) (.refl p s)
    generalize (if keyDue s p then s.modPort p announceKey else s) = u at h0 ⊢
    have h := h0.trans (addFrame_sent p ftControl 0 63 0 true (controlBody u p) u)
    generalize addFrame p ftControl 0 63 0 true (controlBody u p) u = v at h ⊢
    refine h.trans ?_
    exact ⟨by simp [State.port, State.setPort, Port.still], fun k hk => State.setPort_ne _ hk _, rfl⟩
theorem sendBytes_sent (p vl n : Nat) (first : Bool) (bytes : List Byte) (s : State) : SentOn p s (sendBytes p vl n first bytes s) := by
  induction n generalizing first bytes s with
  | zero => exact .refl p s
  | succ n ih =>
    unfold sendBytes
    split
    · exact .refl p s
    · dsimp only
      refine SentOn.trans ?_ (ih _ _ _)
      exact .ite (.trans (addFrame_sent p _ _ _ _ _ _ s) (sendControl_sent p _)) (addFrame_sent p _ _ _ _ _ _ s)
/-- A packet sent on a port changes only its transmit side, the outputs and the gossip position. -/
theorem linkSend_sent (p : Nat) (q : Packet) (s : State) : SentOn p s (linkSend p q s) := by
  unfold linkSend
  dsimp only
  split
  · exact .after (sendBytes_sent p _ _ _ _ _) rfl
  · exact .after (SentOn.trans (sendBytes_sent p _ _ _ _ _) (sendControl_sent p _)) rfl
theorem sendNbr_sent (p mtype chunk : Nat) (payload : List Byte) (s : State) : SentOn p s (sendNbr p mtype chunk payload s) := by
  unfold sendNbr
  dsimp only
  split
  · exact linkSend_sent p _ s
  · exact SentOn.setPort p _ s rfl
/-- The state of a link is not sending's to change. -/
theorem SentOn.st {p : Nat} {s t : State} (h : SentOn p s t) : (t.port p).st = (s.port p).st := by
  have := congrArg Port.st h.still
  exact this
theorem SentOn.keeps {p : Nat} {s t : State} (h : SentOn p s t) {γ : Type} (g : Port → γ) (hg : ∀ x, g x.still = g x) :
    g (t.port p) = g (s.port p) := by rw [← hg, h.still, hg]
theorem SentOn.same {p : Nat} {s t : State} (h : SentOn p s t) {γ : Type} (g : State → γ)
    (hg : ∀ (u : State) a b c, g { u with ports := a, out := b, rel := c } = g u) : g t = g s := by
  have := congrArg g h.parts
  rw [hg] at this
  exact this

end Sys2Proof.Machine
end

