-- ==== Sys2Proof/Laws/Switch.lean ====
section
/-!
SUPPORT. Laws of the switch core: a packet that is admitted, parked, stalled, answered or looked up changes only queues, buffers and parked packets, the module's own packets, open records and filter entries, free values, and the credits and violation counters of ports.
-/
namespace Sys2Proof.Machine

/-- What the switch core never touches of a port: all but credits, receive words and violations. -/
def Port.calm (x : Port) : Port :=
  { x with crDebt := [], crHeld := [], crGiven := [], ackDue := false, viol := [], violAt := [], withhold := false, rxFill := 0 }

/-- One state follows another by work of the switch core. -/
structure Switched (s t : State) : Prop where
  calm : ∀ k, (t.port k).calm = (s.port k).calm
  parts : { t with
    sw := { s.sw with ingress := t.sw.ingress, gates := t.sw.gates, vtime := t.sw.vtime, rr := t.sw.rr }
    mf := { t.mf with modIn := s.mf.modIn, streamIn := s.mf.streamIn, open_ := s.mf.open_ }
    coh := { t.coh with filter := s.coh.filter, backing := s.coh.backing }
    ports := s.ports, free := s.free } = s

theorem Switched.refl (s : State) : Switched s s := ⟨fun _ => rfl, rfl⟩
theorem Switched.trans {s t u : State} (h : Switched s t) (g : Switched t u) : Switched s u := by
  refine ⟨fun k => (g.calm k).trans (h.calm k), ?_⟩
  have h1 := h.parts
  have h2 := g.parts
  rw [← h1, ← h2]
theorem Switched.into {s t u : State} (g : Switched t u) (h : Switched s t) : Switched s u := h.trans g
theorem Switched.ite {s t u : State} {c : Prop} [Decidable c] (h : Switched s t) (g : Switched s u) : Switched s (if c then t else u) := by
  split <;> assumption
theorem Switched.foldl {β : Type} (f : State → β → State) (hf : ∀ t b, Switched t (f t b)) (l : List β) (s : State) :
    Switched s (l.foldl f s) := by
  induction l generalizing s with
  | nil => exact .refl s
  | cons b t ih => exact (hf s b).trans (ih _)
/-- A fold that carries a result beside the state. -/
theorem Switched.foldl_snd {α β : Type} (f : α × State → β → α × State) (hf : ∀ t b, Switched t.2 (f t b).2) (l : List β) (t : α × State) :
    Switched t.2 (l.foldl f t).2 := by
  induction l generalizing t with
  | nil => exact .refl _
  | cons b l ih => exact (hf t b).trans (ih _)
theorem Switched.same {s t : State} (h : Switched s t) {γ : Type} (g : State → γ)
    (hg : ∀ (u : State) a b c d e, g { u with sw := a, mf := b, ports := c, coh := d, free := e } = g u) : g t = g s := by
  have := congrArg g h.parts
  rw [hg] at this
  exact this
theorem Switched.keeps {s t : State} (h : Switched s t) {γ : Type} (g : Port → γ) (hg : ∀ x, g x.calm = g x) (k : Nat) :
    g (t.port k) = g (s.port k) := by rw [← hg, h.calm k, hg]
theorem Switched.mf {s t : State} (h : Switched s t) : t.mf = { s.mf with modIn := t.mf.modIn, streamIn := t.mf.streamIn, open_ := t.mf.open_ } := by
  have := congrArg (·.mf) h.parts
  dsimp only at this
  rw [← this]
theorem Switched.coh {s t : State} (h : Switched s t) : t.coh = { s.coh with filter := t.coh.filter, backing := t.coh.backing } := by
  have := congrArg (·.coh) h.parts
  dsimp only at this
  rw [← this]
theorem Switched.ingress {s t : State} (h : Switched s t) : t.sw.ingress = s.sw.ingress := congrArg (·.sw.ingress) h.parts
theorem Switched.gates {s t : State} (h : Switched s t) : t.sw.gates = s.sw.gates := congrArg (·.sw.gates) h.parts
theorem Switched.vtime {s t : State} (h : Switched s t) : t.sw.vtime = s.sw.vtime := congrArg (·.sw.vtime) h.parts
theorem Switched.rr {s t : State} (h : Switched s t) : t.sw.rr = s.sw.rr := congrArg (·.sw.rr) h.parts

/-! ### One law per operation -/

theorem setPort_switched (p : Nat) (x : Port) (s : State) (h : x.calm = (s.port p).calm) : Switched s (s.setPort p x) := by
  refine ⟨fun k => ?_, rfl⟩
  by_cases hk : k = p
  · subst hk; simp [h]
  · rw [State.setPort_ne s hk x]
theorem returnCredit_switched (p tc n : Nat) (s : State) : Switched s (returnCredit p tc n s) := by
  refine setPort_switched p _ s ?_
  dsimp only
  split
  · rfl
  · split <;> rfl
theorem leaveHeadroom_switched (ing tc n : Nat) (s : State) : Switched s (leaveHeadroom ing tc n s) := by
  unfold leaveHeadroom
  have h : Switched s { s with sw := { s.sw with hrUsed := mmod 0 (qkey ing tc) (· - n) s.sw.hrUsed } } := ⟨fun _ => rfl, rfl⟩
  exact .ite (h.trans (returnCredit_switched _ _ _ _)) h
theorem violate_switched (ep row : Nat) (s : State) : Switched s (violate ep row s) := by
  unfold violate
  split
  · exact setPort_switched ep _ s rfl
  · exact .refl s
theorem lookupCount_switched (die row : Nat) (s : State) : Switched s (lookupCount die row s) := ⟨fun _ => rfl, rfl⟩
theorem modBuf_switched (die : Nat) (f : BufDie → BufDie) (s : State) : Switched s (s.modBuf die f) := ⟨fun _ => rfl, rfl⟩
theorem modQueue_switched (k : Nat) (f : EQueue → EQueue) (s : State) : Switched s (s.modQueue k f) := ⟨fun _ => rfl, rfl⟩
theorem draw_switched (s : State) : Switched s (draw s).2 := ⟨fun _ => rfl, rfl⟩
theorem clearCells_switched (cells : List Nat) (s : State) : Switched s (clearCells cells s) :=
  Switched.foldl _ (fun t _ => modBuf_switched _ _ t) cells s
theorem allocCells_switched (die k n : Nat) (s : State) : Switched s (allocCells die k n s).2 := by
  induction n generalizing s with
  | zero => exact .refl s
  | succ n ih =>
    unfold allocCells
    split
    · exact .refl s
    · exact ((modBuf_switched _ _ s).trans (modQueue_switched _ _ _)).trans (ih _)
theorem police_switched (ep : Nat) (p : Packet) (s : State) : Switched s (police ep p s).2 := by
  unfold police
  split
  · exact .refl s
  · dsimp only
    split
    · exact ⟨fun _ => rfl, rfl⟩
    · split <;> exact ⟨fun _ => rfl, rfl⟩
theorem redTest_switched (die k c : Nat) (s : State) : Switched s (redTest die k c s).2 := by
  unfold redTest
  dsimp only
  have h : Switched s (s.setQueue k { s.queue k with avg := ((s.queue k).avg * 15 + depth (s.queue k) * 65536) / 16 }) := ⟨fun _ => rfl, rfl⟩
  generalize s.setQueue k { s.queue k with avg := ((s.queue k).avg * 15 + depth (s.queue k) * 65536) / 16 } = u at h ⊢
  repeat' split
  all_goals first
    | exact h
    | exact h.trans (draw_switched u)
theorem qcount_switched (k row n : Nat) (s : State) : Switched s (qcount k row n s) := ⟨fun _ => rfl, rfl⟩
theorem tagHead_switched (ep k : Nat) (s : State) : Switched s (tagHead ep k s) := ⟨fun _ => rfl, rfl⟩
theorem stallTime_switched (k row : Nat) (o : Option Nat) (on : Bool) (s : State) : Switched s (stallTime k row o on s).2 := by
  unfold stallTime
  split
  · split
    · exact .refl s
    · exact qcount_switched _ _ _ _
  · exact .refl s
theorem clockQueue_switched (ep tc : Nat) (s : State) : Switched s (clockQueue ep tc s) := by
  unfold clockQueue
  exact ((stallTime_switched _ _ _ _ s).trans (stallTime_switched _ _ _ _ _)).trans (modQueue_switched _ _ _)
theorem enqueue_switched (ep : Nat) (x : QPkt) (s : State) : Switched s (enqueue ep x s) := by
  unfold enqueue
  dsimp only
  have h0 : ∀ f, Switched s (s.modQueue (qkey ep x.pkt.tc) f) := fun f => ⟨fun _ => rfl, rfl⟩
  have h1 : ∀ f, Switched s (qcount (qkey ep x.pkt.tc) 1 (pBytes x.pkt) (qcount (qkey ep x.pkt.tc) 0 1 (s.modQueue (qkey ep x.pkt.tc) f))) :=
    fun f => ((h0 f).trans (qcount_switched _ _ _ _)).trans (qcount_switched _ _ _ _)
  exact .ite (((h1 _).trans (tagHead_switched _ _ _)).trans (clockQueue_switched _ _ _)) (h1 _)
theorem takeCells_switched (die n : Nat) (r : Bool) (s : State) : Switched s (takeCells die n r s) := by
  unfold takeCells notePool
  exact Switched.trans (modBuf_switched die _ s) (modBuf_switched die _ _)
theorem linkInto_switched (die : Nat) (k : Parked) (c : Nat) (r : Bool) (q : List (Nat × Nat)) (s : State) :
    Switched s (linkInto die k c r q s) := by
  unfold linkInto
  dsimp only
  refine Switched.trans ?_ (Switched.foldl _ (fun t b => enqueue_switched _ _ t) _ _)
  have h : Switched s (if k.cells.isEmpty then allocCells die (firstQueue k.pkt.tc q) (pCells k.pkt) s else (k.cells, s)).2 := by
    split
    · exact allocCells_switched _ _ _ _
    · exact .refl s
  refine h.trans ?_
  exact .ite (takeCells_switched _ _ _ _) ⟨fun _ => rfl, rfl⟩
theorem pruneLegs_switched (die : Nat) (l : List (Nat × Nat)) (s : State) : Switched s (pruneLegs die l s).2 :=
  Switched.foldl _ (fun t _ => lookupCount_switched _ _ t) _ s
/-- The legs a packet still has: what is done for a downed endpoint is the caller's. -/
theorem liveLegs_switched (f : Nat → Packet → State → State) (hf : ∀ i p s, Switched s (f i p s)) (die : Nat) (k : Parked) (s : State) :
    Switched s (liveLegs f die k s).2 := by
  unfold liveLegs
  split
  · split
    · exact hf _ _ _
    · exact .refl s
  · exact pruneLegs_switched _ _ _
theorem colourOf_switched (ing : Nat) (k : Parked) (s : State) : Switched s (colourOf ing k s).2 := by
  unfold colourOf
  split
  · exact .refl s
  · exact police_switched _ _ _
theorem tryTake_switched (f : Nat → Packet → State → State) (hf : ∀ i p s, Switched s (f i p s)) (die ing : Nat) (k : Parked) (s : State) :
    Switched s (tryTake f die ing k s).2 := by
  unfold tryTake
  have h := liveLegs_switched f hf die k s
  dsimp only
  generalize liveLegs f die k s = pr at h ⊢
  split
  · exact h.trans (clearCells_switched _ _)
  · split
    · have hp := h.trans (colourOf_switched ing k pr.2)
      split
      · exact hp
      · exact hp.trans (linkInto_switched _ _ _ _ _ _)
    · exact .refl s
theorem colourTest_switched (die c q : Nat) (s : State) : Switched s (colourTest die c q s).2 := by
  unfold colourTest
  have h := redTest_switched die q c s
  generalize redTest die q c s = r at h ⊢
  split
  · exact qcount_switched _ _ _ _
  · split
    · exact h.trans (qcount_switched _ _ _ _)
    · exact h
theorem roomTest_switched (die n q : Nat) (s : State) : Switched s (roomTest die n q s).2 := by
  unfold roomTest
  repeat' split
  · exact qcount_switched _ _ _ _
  · exact qcount_switched _ _ _ _
  · exact .refl _
theorem testQueues_switched (f : Nat → State → Bool × State) (hf : ∀ q t, Switched t (f q t).2) (tc : Nat) (l : List (Nat × Nat)) (s : State) :
    Switched s (testQueues f tc l s).2 := by
  unfold testQueues
  exact Switched.foldl_snd (α := List (Nat × Nat)) _ (fun t b => hf (qkey b.1 tc) t.2) l ([], s)
theorem admitDroppable_switched (f : Nat → Packet → State → State) (hf : ∀ i p s, Switched s (f i p s)) (die ing : Nat) (k : Parked) (s : State) :
    Switched s (admitDroppable f die ing k s) := by
  unfold admitDroppable
  dsimp only
  have h1 := colourOf_switched ing k s
  generalize colourOf ing k s = c at h1 ⊢
  have h2 := h1.trans (liveLegs_switched f hf die k c.2)
  generalize liveLegs f die k c.2 = pr at h2 ⊢
  have h3 := h2.trans (testQueues_switched _ (colourTest_switched die c.1) k.pkt.tc (localLegs die pr.1) pr.2)
  generalize testQueues (colourTest die c.1) k.pkt.tc (localLegs die pr.1) pr.2 = a at h3 ⊢
  have h4 := h3.trans (testQueues_switched _ (roomTest_switched die (pCells k.pkt)) k.pkt.tc a.1 a.2)
  exact .ite h4 (h4.trans (linkInto_switched _ _ _ _ _ _))
theorem sourceDrops_switched (die ing : Nat) (k : Parked) (s : State) : Switched s (sourceDrops die ing k s).2 := by
  unfold sourceDrops
  split
  · exact (police_switched _ _ _).trans (testQueues_switched _ (colourTest_switched _ _) _ _ _)
  · exact .refl s
theorem markRed_switched (die ing : Nat) (k : Parked) (s : State) : Switched s (markRed die ing k s).2 := by
  unfold markRed
  split
  · exact ⟨fun _ => rfl, rfl⟩
  · exact .refl s
theorem parkPacket_switched (ing : Nat) (k : Parked) (s : State) : Switched s (parkPacket ing k s) :=
  (allocCells_switched _ _ _ s).trans ⟨fun _ => rfl, rfl⟩
/-- Admission is work of the switch core if what it does for a downed port is. -/
theorem admit_switched (f : Nat → Packet → State → State) (hf : ∀ i p s, Switched s (f i p s)) (ing : Nat) (k : Parked) (s : State) :
    Switched s (takeIn f ing k s) := by
  unfold takeIn
  dsimp only
  split
  · have hd := sourceDrops_switched (ingDie ing) ing k s
    generalize sourceDrops (ingDie ing) ing k s = d at hd ⊢
    split
    · exact hd
    · next k' _ =>
      have h : Switched s (if (mget [] (qkey ing k.pkt.tc) s.sw.stalled).isEmpty then tryTake f (ingDie ing) ing k' d.2 else (false, d.2)).2 := by
        split
        · exact hd.trans (tryTake_switched f hf _ _ _ _)
        · exact hd
      generalize (if (mget [] (qkey ing k.pkt.tc) s.sw.stalled).isEmpty then tryTake f (ingDie ing) ing k' d.2 else (false, d.2)) = r at h ⊢
      split
      · exact h
      · exact h.trans ⟨fun _ => rfl, rfl⟩
  · split
    · exact (admitDroppable_switched f hf _ _ _ _).trans (leaveHeadroom_switched _ _ _ _)
    · split
      · have h := tryTake_switched f hf (ingDie ing) ing k s
        split
        · exact h.trans (leaveHeadroom_switched _ _ _ _)
        · exact (h.trans (markRed_switched _ _ _ _)).trans (parkPacket_switched _ _ _)
      · exact parkPacket_switched _ _ _
theorem unpark_switched (ing tc : Nat) (s : State) : Switched s (unpark ing tc s) := by
  unfold unpark
  dsimp only
  split
  · exact .refl s
  · exact .into (leaveHeadroom_switched _ _ _ _) ⟨fun _ => rfl, rfl⟩
theorem takeParked_switched (f : Nat → Packet → State → State) (hf : ∀ i p s, Switched s (f i p s)) (ing tc : Nat) (s : State) :
    Switched s (takeParked f ing tc s).2 := by
  unfold takeParked
  split
  · exact .refl s
  · next k rest _ =>
    dsimp only
    have h := tryTake_switched f hf (ingDie ing) ing k s
    split
    · exact h.trans (unpark_switched _ _ _)
    · exact (h.trans (markRed_switched _ _ _ _)).trans ⟨fun _ => rfl, rfl⟩

/-! ### Answers and the lookup -/

theorem lostPacket_switched (ep : Nat) (s : State) : Switched s (lostPacket ep s) := lookupCount_switched _ _ _
theorem keepHere_switched (ep h : Nat) (p : Packet) (s : State) : Switched s (keepHere ep h p s) := by
  unfold keepHere
  exact .ite ⟨fun _ => rfl, rfl⟩ ⟨fun _ => rfl, rfl⟩
theorem placeResponse_switched (ep : Nat) (r : Packet) (s : State) : Switched s (placeResponse ep r s) := by
  unfold placeResponse
  refine .ite ((violate_switched _ _ _).trans (lostPacket_switched _ _)) (.ite ((violate_switched _ _ _).trans (lostPacket_switched _ _))
    (.ite (violate_switched _ _ _) ?_))
  split
  · exact admit_switched _ (fun _ _ _ => lostPacket_switched _ _) _ _ _
  · exact keepHere_switched _ _ _ _
  · exact lostPacket_switched _ _
theorem refuseAt_switched (ep : Nat) (p : Packet) (st r : Nat) (s : State) : Switched s (refuseAt ep p st r s) := by
  unfold refuseAt
  exact .ite (placeResponse_switched _ _ _) (lostPacket_switched _ _)
theorem pathLost_switched (ep : Nat) (p : Packet) (s : State) : Switched s (pathLost ep p s) := refuseAt_switched _ _ _ _ _
theorem setFent_switched (k v : Nat) (s : State) : Switched s (setFent k v s) := ⟨fun _ => rfl, rfl⟩
theorem clearRecord_switched (a l : Nat) (s : State) : Switched s (clearRecord a l s) := by
  unfold clearRecord
  split
  · exact setFent_switched _ _ _
  · exact .refl s
theorem dropHead_switched (ep head : Nat) (p : Packet) (s : State) : Switched s (dropHead ep head p s) := by
  unfold dropHead
  exact .ite (.refl s) (leaveHeadroom_switched _ _ _ _)
theorem wbRevoked_switched (p : Packet) (st : Nat) (s : State) : Switched s (wbRevoked p st s) := by
  unfold wbRevoked
  split
  · split
    · exact clearRecord_switched _ _ _
    · exact .refl s
  · exact .refl s
theorem passEdge_switched (ep : Nat) (p : Packet) (s : State) : Switched s (passEdge ep p s).2 := by
  unfold passEdge
  split
  · exact .refl s
  · split
    · exact .refl s
    · dsimp only
      exact .ite ⟨fun _ => rfl, rfl⟩ (.refl s)
theorem violateRow_switched (ep : Nat) (row : Option Nat) (s : State) : Switched s ((row.map (violate ep · s)).getD s) := by
  cases row with
  | none => exact .refl s
  | some r => exact violate_switched _ _ _
/-- A lookup is work of the switch core. -/
theorem lookup_switched (ep head : Nat) (p : Packet) (s : State) : Switched s (lookup ep head p s) := by
  unfold lookup
  split
  · exact .into (dropHead_switched _ _ _ _) ⟨fun _ => rfl, rfl⟩
  · dsimp only
    split
    · exact (violateRow_switched _ _ _).trans (dropHead_switched _ _ _ _)
    · next row status reason _ =>
      have h := (violateRow_switched ep row s).trans (wbRevoked_switched p status _)
      generalize wbRevoked p status ((row.map (violate ep · s)).getD s) = u at h ⊢
      split
      · exact (h.trans (placeResponse_switched _ _ _)).trans (dropHead_switched _ _ _ _)
      · exact h.trans (dropHead_switched _ _ _ _)
    · split
      · exact (pathLost_switched _ _ _).trans (dropHead_switched _ _ _ _)
      · exact (lookupCount_switched _ _ _).trans (dropHead_switched _ _ _ _)
      · exact .ite (keepHere_switched _ _ _ _) ((dropHead_switched _ _ _ _).trans (keepHere_switched _ _ _ _))
      · have h := Switched.foldl (fun s (_ : Nat) => lookupCount (coreOfEp ep) 0 s) (fun t _ => lookupCount_switched _ _ t)
          (List.range (groupDrops s (lookupTests s ep p).2 ep p)) s
        generalize List.foldl (fun s (_ : Nat) => lookupCount (coreOfEp ep) 0 s) s _ = u at h ⊢
        next l _ =>
        have h1 := h.trans (Switched.foldl (fun s (e : Nat × Nat) => violate e.1 8 s) (fun t _ => violate_switched _ _ t)
          (l.filter (fun e => !egressAllowed u e.1 p)) u)
        generalize List.foldl (fun s (e : Nat × Nat) => violate e.1 8 s) u _ = u at h1 ⊢
        have h2 := h1.trans (passEdge_switched ep p u)
        split
        · exact h2.trans (dropHead_switched _ _ _ _)
        · exact h2.trans (admit_switched _ (fun _ _ _ => pathLost_switched _ _ _) _ _ _)
/-- A unit's packet into the crossbar is work of the switch core. -/
theorem sendFrom_switched (ep : Nat) (p : Packet) (s : State) : Switched s (sendFrom ep p s) := lookup_switched ep 0 p s

end Sys2Proof.Machine
end

