-- ==== Sys2Proof/Tests/Base.lean ====
section
/-!
SUPPORT. Small states that the tests start from, and what a test asks of a command's outcome.
-/
namespace Sys2Proof.Tests
open Sys2Proof.Machine

/-- A module that has booted: power, stage 5, its core up, module time 10 s. -/
def base : State := { clk := { cycles := 1562500000 }, boot := { pwrgd := true, coreUp := true, held := false, stage := 5, step := 5, node := 1, full := true } }
/-- The same with one port. -/
def onPort (p : Nat) (x : Port) : State := { base with ports := [(p, x)] }
/-- The command answers a next state that passes a test. -/
def after (c : Instr) (s : State) (p : State → Bool) : Bool :=
  match exec c s with
  | .next t => p t
  | _ => false

/-- Tile 0 runs a handler of slot 0, of program 5 version 1 with instruction words 8 to 15, and stands on word 8. -/
def onTileWord (w : Nat) (h : Handler) : State := { base with ctl := {
  ptab := [(0, 5 + 2 ^ 16 + 2 ^ 45 * 16 + 2 ^ 59 * 2)]
  store := [(8, BitVec.ofNat 64 w)]
  slots := [(0, { st := .live, ctx := 3, prog := 5, wbase := 1, wsize := 1 })]
  tiles := [(0, { run := some { h with ver := 1, pc := 8 } })] } }
/-- Control thread 33 stands on word 8 of words 0 to 63. -/
def onThreadWord (w : Nat) (x : Thread) : State := { base with ctl := {
  prog := [(65536 + 8, BitVec.ofNat 64 w)]
  threads := [(33, { x with running := true, ctx := 3, lo := 0, hi := 64, pc := 8 })] } }
/-- Chervil stands on word 8 of words 0 to 63. -/
def onChervilWord (w : Nat) (x : Thread) : State := { base with ctl := {
  prog := [(65536 * 8 + 8, BitVec.ofNat 64 w)]
  threads := [(256, { x with running := true, lo := 0, hi := 64, pc := 8 })] } }

end Sys2Proof.Tests
end

