-- ==== Sys2Proof/Tests/Slice0.lean ====
section
/-!
SUPPORT. Tests: ill-formed commands are refused by the check; a witness for the hypotheses of every statement; single commands on small states, with results worked out from the rules of spec/.
-/
namespace Sys2Proof.Tests
open Sys2Proof.Machine

set_option Elab.async false

/-- Ill-formed commands, one for each check of WellFormed.lean, the wrong operand just past its range: part one. -/
theorem test_ill_formed_refused_one : ([
    .tempSample [], .delayCodeApply 328, .droopDetect 34 0, .thermalPortShed 4, .hbmTempSample [], .heartbeatCheck [10], .thermalTrip 51,
    .followerCheck [], .linkFrameReceive 384 (List.replicate 256 0), .linkFrameReceive 0 [], .controlFrameReceive 0 [], .marginScan 800,
    .portFence 0 9, .ingressLookup 470 0, .ingressLookup 0 8, .decodeTableLoad 0 4096, .telemetrySample 2, .leaseExpire 65536,
    .requestTimeout 1048576, .agentReclaim 64, .opCreate (.tile 256), .opblk 256, .timerExpire 1048576, .programLoadDone 32 0, .programLoadDone 0 64,
    .threadEventDeliver 257, .dmaRead (.post (.tile 256)), .dmaComplete 2 true] : List Instr).all (fun c => !wellFormed c) = true := by decide
/-- Ill-formed commands, one for each check of WellFormed.lean, the wrong operand just past its range: part two. -/
theorem test_ill_formed_refused_two : ([
    .collRun 4096, .serviceAdopt 256, .streamFetchIssue 128, .wsdataDecode 0 1024, .codecBuild 0 8, .matchWord 3 0, .pageMoveStart 67108864 0,
    .tierMove 16, .quotaEvict 1024, .sqPhaseRepoll 0 128 0 [], .sqPhaseRepoll 0 0 8 [], .resultWindowRead 0 0 1024 0 0 true,
    .fifoConfigWrite 0 256 0 0, .fifoConfigWrite 0 0 2 0, .flipReport 0 65536, .lockInterfaceRequest 0 128, .getVersion 4, .getReport 0 0 0 [] 256,
    .fwActivate 0 0 3, .keyProg 0 9 0 0 0, .patrolRead (.bank 96) .clean, .rowRepair 1280, .bankSpare 96, .frameReplace 4 0, .frameReplace 0 589824,
    .controlCoreDisable 8, .archiveCopy 7, .phaseSample [] []] : List Instr).all (fun c => !wellFormed c) = true := by decide
theorem test_ill_formed_faults : (match exec (.delayCodeApply 328) base with | .fault .noSuchUnit => true | _ => false) = true := by decide

/-! ### StepTakesTheFrontCommand -/
namespace F01

theorem witness_step : ({ base with pending := [.thaw (.thread 33), .autoThaw] } : State).pending = .thaw (.thread 33) :: [.autoThaw] ∧
    base.pending = [] ∧ base.boot.pwrgd = true ∧ State.reset.boot.pwrgd = false := by decide
theorem test_step : (match step { base with pending := [.mownRequest 0] } with | .next t => t.pending == [] | _ => false) = true := by decide +kernel

end F01

/-! ### CommandsAnswerOnRealUnits -/
namespace F02

theorem witness_answers : wellFormed (.mownRequest 0) = true ∧ wellFormed (.mownRequest 2) = false := by decide
theorem test_no_unit : (match exec (.mownRequest 2) base with | .fault .noSuchUnit => true | _ => false) = true := by decide +kernel

end F02

/-! ### EveryQueueIsServedInOrder -/
namespace F03

theorem witness_queue : QueueOk { base with pending := [.mownRequest 0, .autoThaw] } := by unfold QueueOk; decide

end F03

/-! ### QueuesKeepToRealUnits -/
namespace F04

theorem witness_real_units : (∃ t, step { base with pending := [.mownRequest 0] } = .next t) ∧ QueueOk { base with pending := [.mownRequest 0] } := ⟨⟨_, rfl⟩, by unfold QueueOk; decide⟩

end F04

/-! ### ResetStandsBeforePower -/
namespace F05

theorem test_reset : (State.reset.pending == [] && State.reset.ports == [] && State.reset.hst.owner == 0 && modstat State.reset 0 == 0) = true := by decide

end F05

/-! ### ModuleTimeOnlyMovesForward -/
namespace F06

theorem witness_time : (∃ t, exec (.mownRequest 0) base = .next t) ∧ State.reset.boot.pwrgd = false ∧ base.boot.pwrgd = true ∧ base.pending = [] ∧
    (∃ t, exec .powerOnReset base = .next t) ∧ (∃ t, step base = .next t) := ⟨⟨_, rfl⟩, rfl, rfl, rfl, ⟨_, rfl⟩, ⟨_, rfl⟩⟩
theorem test_time : (after .powerOn State.reset (fun t => t.clk.cycles == 0 && t.boot.pwrgd) && after (.coreReset 0 0 2) base (fun t => t.clk.cycles == 1562500000) &&
    after .powerOnReset base (fun t => t.clk.cycles == 0)) = true := by decide +kernel

end F06

/-! ### WindowReadsCountTheirHeader -/
namespace F07

/-- Port 0 with its link up and window 5 of its PF in a state. -/
def win07 (x : Window) : State := { base with hst := { ports := [(0, { linkUp := true })], funcs := mset {} 0 { wins := mset {} 5 x [] } [] } }
theorem witness_reads : ∀ r ∈ [true, false], boundTo (win07 { ready := r, seq := 65 }) 0 0 ≠ none ∧ heard (win07 { ready := r, seq := 65 }) 0 0 false = true ∧ (5 : Nat) < windowCount 0 ∧ ((win07 { ready := r, seq := 65 }).window 0 0 5).ready = r ∧ isWin 5 = true := by decide
theorem witness_unheard : heard { base with hst := { funcs := [(3, { tdi := .run })] } } 0 3 false = false ∧ isFunc 3 = true := by decide
theorem test_reads :
    (after (.resultWindowRead 0 0 5 0 64 false) (win07 { seq := 65 }) (fun t => t.out == [.hostReply 0 0 (natBytes 8 (stNotReady + 65 * 65536) ++ List.replicate 56 0)]) &&
     after (.resultWindowRead 0 0 5 0 8 false) (win07 { ready := true, seq := 66, rcount := 1, len := 24, data := natBytes 24 7 }) (fun t => t.out == [.hostReply 0 0 [0, 0, 66, 0, 2, 0, 24, 0]] && (t.window 0 0 5).rcount == 2) &&
     after (.resultWindowRead 0 0 5 8 8 false) (win07 { ready := true, seq := 66, rcount := 1, len := 24, data := natBytes 24 7 }) (fun t => t.out == [.hostReply 0 0 (natBytes 8 7)] && (t.window 0 0 5).rcount == 1)) = true := by decide +kernel

end F07

/-! ### AlertFollowsItsCauses -/
namespace F08

theorem witness_alert : base.boot.pwrgd = true := by decide
theorem test_alert : (alertL base && !alertL { base with chv := { inputLow := true } } && !alertL { base with hst := { modstat := [22] } } && after .powerOn State.reset (fun t => alertL t)) = true := by decide +kernel

end F08

/-! ### PostsBelowTheirRangeAreRefused -/
namespace F09

/-- Thread 33 stands on EVPOST s3 of code and severity in s1 with parameters at s2. -/
def post09 (code : Nat) : State := onThreadWord (0xEB + 2 ^ 16 * 3 + 2 ^ 20 + 2 ^ 24 * 2) { s := [(1, BitVec.ofNat 64 code), (2, 64)] }
theorem witness_posts : ∀ c ∈ [0x28001, 0x7001, 0x51101, 0x41102, 0x48001], let s := post09 c
    isThread 33 = true ∧ AtWord s (.thread 33) 0xEB (fun _ => fOpc + fD + fA + fB + fImm) (0xEB + 2 ^ 16 * 3 + 2 ^ 20 + 2 ^ 24 * 2) ∧ s.evr.frozen = false ∧ recFull s 4 = false ∧ (sreg s (.thread 33) 1).toNat = c ∧
    memOk s (.thread 33) (memAddrB s (.thread 33) (0xEB + 2 ^ 16 * 3 + 2 ^ 20 + 2 ^ 24 * 2)) 16 8 = true := by unfold AtWord; decide +kernel

end F09

/-! ### LinkTrainingMovesThePort -/
namespace F10

theorem witness_training :
    let s := base
    let r := onPort 0 { st := .trainR }
    let d := onPort 383 { st := .reduced, peerStage := 4 }
    let f := onPort 5 { st := .trainF, fromUp := true }
    let g := onPort 5 { st := .trainF, half := 1 }
    (isPort 0 = true ∧ portExists s 0 = true ∧ adminUp s 0 = true ∧ s.boot.held = false ∧ (s.port 0).st = .down ∧ shedPort s 0 = false ∧ dieOf 0 ∉ s.rel.dieFailed) ∧
    ((r.port 0).st = .trainR ∧ passed r (r.port 0).since 800000000 = true) ∧
    (isPort 383 = true ∧ (d.port 383).st = .reduced ∧ 4 ≤ d.boot.stage ∧ (isTrunk d 383 = true → 4 ≤ (d.port 383).peerStage)) ∧
    ((f.port 5).st = .trainF ∧ (f.port 5).half = 0 ∧ passed f (f.port 5).since 1100000000 = true) ∧
    ((g.port 5).st = .trainF ∧ (g.port 5).half ≠ 0) := by decide
theorem test_training : 
    (after (.signalDetect 0) base (fun t => (t.port 0).st == .trainR) &&
    after (.trainRDone 0) { onPort 0 { st := .trainR } with boot := { stage := 1 } } (fun t => (t.port 0).st == .reduced && (t.port 0).lanes == [0, 1, 2, 3]) &&
    after (.trainRTimeout 0) (onPort 0 { st := .trainR, keyed := true, bound := some 7 }) (fun t => (t.port 0).st == .down && !(t.port 0).keyed && (t.port 0).bound == some 7) &&
    after (.trainFStart 383) (onPort 383 { st := .reduced, peerStage := 4 }) (fun t => (t.port 383).st == .trainF) &&
    after (.trainFHalfDone 5) (onPort 5 { st := .trainF }) (fun t => (t.port 5).half == 1) &&
    after (.trainFHalfDone 5) (onPort 5 { st := .trainF, half := 1, pos := [20, 21, 22, 23] }) (fun t => (t.port 5).st == .up && (t.port 5).lanes == [20, 21, 22, 23]) &&
    after (.trainFTimeout 5) (onPort 5 { st := .trainF, fromUp := true }) (fun t => (t.port 5).st == .reduced && (t.port 5).flushDue == 2)) = true := by decide

end F10

/-! ### LinkFramesAreTakenInOrder -/
namespace F11

/-- A frame of a type and SEQ with an empty body. -/
def frame (type seq : Nat) (close : Bool) : List Byte := withCrc (natBytes 4 (frameHdr type 0 false close seq 63 0) ++ padTo 248 [])
theorem witness_frames :
    let s := onPort 3 { st := .up, rxSeq := 4095 }
    let b := frame 0 4095 false
    (b.length = 256 ∧ linkAlive s 3 = true ∧ crcBad b = false ∧ fhType (hdrOf b) = ftData ∧ fhClose (hdrOf b) = false ∧
      (s.port 3).rxGroup.length < 7 ∧ (s.port 3).nakWait = none ∧ (s.port 3).partnerDue = none ∧ fhSeq (hdrOf b) = (s.port 3).rxSeq) ∧
    (crcBad (List.replicate 256 1) = true) ∧
    (crcBad (frame 2 0 false) = false ∧ fhType (hdrOf (frame 2 0 false)) = ftIdle) := by decide +kernel
theorem witness_control_frames :
    let s := onPort 3 { st := .up, rxSeq := 4095 }
    let f := frame 1 4095 true
    (f.length = 256 ∧ crcBad f = false ∧ fhType (hdrOf f) = ftControl ∧ malformed f = false ∧ (s.port 3).keyed = false ∧ groupTag [f] = 0 ∧
      (s.port 3).rxGroup = [] ∧ fhSeq (hdrOf f) = (s.port 3).rxSeq) := by decide +kernel
theorem witness_link_transmit :
    let s := onPort 3 { st := .up, ackDue := true, replay := [⟨7, true, []⟩] }
    let r := onPort 3 { st := .up, replays := 8, replay := [⟨7, true, []⟩] }
    let k := onPort 3 { st := .up, keyed := true }
    (controlDue (s.port 3) = true ∧ linkAlive s 3 = true ∧ replayRoom s 3 1 = true) ∧
    ((s.port 3).replay = [⟨7, true, []⟩] ∧ passed s (s.port 3).ackAt 4000 = true ∧ (s.port 3).replays < 8) ∧
    (8 ≤ (r.port 3).replays ∧ (r.port 3).st = .up) ∧
    (linkAlive k 3 = true ∧ keyIdle (k.port 3) = true ∧ replayRoom k 3 1 = true) := by decide +kernel
theorem test_frames :
    (after (.linkFrameReceive 3 (frame 0 4095 false)) (onPort 3 { st := .up, rxSeq := 4095 }) (fun t => (t.port 3).rxSeq == 0 && (t.port 3).rxGroup.length == 1) &&
    after (.ackTimeoutReplay 3) (onPort 3 { st := .up, lanes := [4, 7], nextLane := 1, replay := [⟨7, true, []⟩] }) (fun t => t.out == [.frame 3 7 []] && (t.port 3).replays == 1) &&
    after (.ackTimeoutReplay 3) (onPort 3 { st := .up, replays := 8, replay := [⟨7, true, []⟩] }) (fun t => (t.port 3).st == .trainF)) = true := by decide +kernel
theorem test_control_frames :
    (after (.controlFrameReceive 3 (frame 1 4095 true)) (onPort 3 { st := .up, rxSeq := 4095, crGot := [(1, 5)] }) (fun t => (t.port 3).rxSeq == 0 && mget 0 1 (t.port 3).crGot == 0 && (t.port 3).ackDue)) = true := by decide +kernel
theorem test_control_send :
    (after (.controlFrameSend 3) (onPort 3 { st := .up, ackDue := true, txSeq := 4095 }) (fun t => (t.port 3).txSeq == 0 && !(t.port 3).ackDue && t.out.length == 1)) = true := by decide +kernel

end F11

/-! ### LanesAreClassedSparedAndNarrowed -/
namespace F12

/-- A state with one port and some lanes. -/
def onLanes (p : Nat) (x : Port) (l : SMap Lane) : State := { onPort p x with lanes := l }
theorem witness_lanes :
    let m := onLanes 0 {} [(799, { errs := [{ cdrLock := false }], mon := { cdrLock := false } })]
    let w := onLanes 0 { st := .up, pos := [0, 1, 2, 3], lanes := [0, 1, 2, 3], laneQ := [(1, 2)] } [(1, { cls := 2 }), (192, { hot := true, port := some 0 })]
    let n := onLanes 0 { st := .up, pos := [0, 1, 2, 3], lanes := [0, 1, 2, 3], laneQ := [(1, 2)] } [(1, { cls := 2 })]
    let d := onLanes 0 { st := .narrowed, pos := [0, 1, 2, 3], lanes := [0, 1] } []
    let r := { onLanes 0 {} [(5, { retired := true, cls := 1 }), (6, { retired := true, goodSince := some 0 })] with clk := { cycles := 10 ^ 10 } }
    (isLane 799 = true ∧ (m.lane 799).scans = 0 ∧ (m.lane 799).errs ≠ [] ∧ ((m.lane 799).errs.headD {}).cdrLock = false) ∧
    ((w.port 0).laneQ = [(1, 2)] ∧ mayChange w 0 = true ∧ mayChange n 0 = true ∧ mayChange d 0 = true ∧ 1 ∈ (w.port 0).pos ∧ spareFor w 0 = some 192) ∧
    (1 ∈ (n.port 0).lanes ∧ spareFor n 0 = none ∧ fitLanes (max 1 ((n.port 0).lanes.length / 2)) (healthyLanes n (n.port 0) 1).length ≠ 0) ∧
    ((d.port 0).st = .narrowed ∧ brokenLane d (d.port 0) = none) ∧
    ((r.lane 5).retired = true ∧ (r.lane 5).cls < 3 ∧ (r.lane 5).retrains < 3 ∧ (r.lane 5).goodSince = none ∧ passed r (r.lane 5).retrainAt 10000000000 = true) ∧
    ((r.lane 6).cls = 0 ∧ (r.lane 6).goodSince = some 0 ∧ passed r 0 60000000000 = true) := by decide
theorem test_lanes :
    (after (.laneSwap 0) (onLanes 0 { st := .up, pos := [0, 1, 2, 3], lanes := [0, 1, 2, 3], laneQ := [(1, 2)] } [(1, { cls := 2 }), (192, { hot := true, port := some 0 })])
      (fun t => (t.port 0).pos == [0, 192, 2, 3] && (t.lane 1).retired && !(t.lane 192).hot && (t.port 0).laneQ == []) &&
    after (.laneNarrow 0) (onLanes 0 { st := .up, pos := [0, 1, 2, 3], lanes := [0, 1, 2, 3], laneQ := [(1, 2)] } [(1, { cls := 2 })])
      (fun t => (t.port 0).st == .narrowed && (t.port 0).lanes == [0, 2] && (t.port 0).laneQ == []) &&
    after (.laneWiden 0) (onLanes 0 { st := .narrowed, pos := [0, 1, 2, 3], lanes := [0, 1] } []) (fun t => (t.port 0).st == .up && (t.port 0).lanes == [0, 1, 2, 3]) &&
    after (.laneClassify 799) (onLanes 0 {} [(799, { errs := [{ cdrLock := false }], mon := { cdrLock := false } })]) (fun t => (t.lane 799).cls == 3) &&
    after (.laneFailed 7) base (fun t => (t.lane 7).cls == 3) &&
    after (.retiredLaneRetrain 5 true) { onLanes 0 {} [(5, { retired := true, cls := 1 })] with clk := { cycles := 10 ^ 10 } } (fun t => (t.lane 5).goodSince == some 64000000000) &&
    after (.hotSpareRestore 6) { onLanes 0 {} [(6, { retired := true, goodSince := some 0 })] with clk := { cycles := 10 ^ 10 } } (fun t => (t.lane 6).hot)) = true := by decide

end F12

/-! ### DiscoveryBindsThePort -/
namespace F13

/-- A link-local message of a type that has come by a port. -/
def nbrIn (p mtype chunk : Nat) (x : Port) (payload : List Byte) : State :=
  { onPort p x with mf := { modIn := [(mkPkt 6 opNBRMSG 0 0 0 1 2 0 0 (mtype + 16 * chunk) payload, p)] } }
theorem witness_discovery :
    let h := nbrIn 9 1 0 { st := .reduced } (List.replicate 136 0)
    let c := nbrIn 9 2 0 { st := .reduced, disc := .certs } [1, 2, 3, 4, 5, 6, 7, 8]
    let q := nbrIn 9 3 0 { st := .reduced, disc := .proofSent } []
    let a := onPort 9 { st := .reduced, disc := .abandoned }
    let w := onPort 9 { st := .reduced, disc := .helloSent }
    let f := onPort 9 { st := .up, violAt := [(2, [9999999999, 9999999999, 9999999999, 9999999999])] }
    (mayDiscover h 9 = true ∧ (takeNbr 9 1 h).isSome = true ∧ ((takeNbr 9 1 h).map (fun r => r.1.payload.length)) = some 136) ∧
    (mayDiscover w 9 = true ∧ (w.port 9).disc = .helloSent ∧ passed w (w.port 9).helloAt 10000000 = true ∧ passed w (w.port 9).discAt 200000000 = true) ∧
    ((takeNbr 9 2 c).isSome = true ∧ (c.port 9).disc = .certs ∧ (takeNbr 9 2 c).map (fun r => hfld r.1 132 8) = some ((c.port 9).peerCert.length / 1024 % 256)) ∧
    ((takeNbr 9 3 q).isSome = true ∧ (q.port 9).disc = .proofSent) ∧
    ((takeNbr 9 4 (nbrIn 9 4 0 {} [])).isSome = true ∧ (takeNbr 9 5 (nbrIn 9 5 0 {} [])).isSome = true) ∧
    (mayDiscover a 9 = true ∧ (a.port 9).disc = .abandoned ∧ passed a (a.port 9).discAt 1000000000 = true) ∧
    (fenceThreshold 2 = some 4 ∧ linkAlive f 9 = true ∧ (f.port 9).st ≠ .fenced ∧ fenceEn f 9 = true ∧ 4 ≤ inWindow f 9 2) := by decide +kernel
theorem test_discovery :
    (after (.nbrmsgStage 9) (nbrIn 9 4 0 {} [3, 0, 0, 0, 7, 0, 0, 0]) (fun t => (t.port 9).peerStage == 3 && (t.port 9).peerMseq == 7 && t.mf.modIn == []) &&
    after (.nbrmsgFence 9) (nbrIn 9 5 0 {} []) (fun t => t.mf.modIn == []) &&
    after (.discoveryAbandon 9) (onPort 9 { st := .reduced, disc := .helloSent }) (fun t => (t.port 9).disc == .abandoned) &&
    after (.cert 9) (nbrIn 9 2 0 { st := .reduced, disc := .certs } (List.replicate 1024 1)) (fun t => (t.port 9).peerCert.length == 1024 && (t.port 9).disc == .certs) &&
    after (.portFence 9 2) (onPort 9 { st := .up, violAt := [(2, [9999999999, 9999999999, 9999999999, 9999999999])] }) (fun t => (t.port 9).st == .fenced)) = true := by decide +kernel

end F13

/-! ### HealthVotesStandAndExpire -/
namespace F14

/-- A vote of a kind that waits. -/
def voteIn (kind : Nat) (s : State) : State := { s with mf := { modIn := [(mkPkt 6 opHVOTE 0 0 0 1 3 0 0 0 ([9, 0, 3, 0] ++ natBytes 1 kind ++ natBytes 11 0), 448)] } }
/-- Pair 0 is a trunk, its first port bound to node 9. -/
def trunkTo (st : LinkState) : State := { onPort 0 { st := st, bound := some 9 } with tab := { live := [(tkey 1 0, 0xC030)] } }
theorem witness_health :
    let w := { trunkTo .up with rel := { nbrs := [(9, { doubtful := true, voted := some 0, nbrs := 3 })] } }
    let g := { trunkTo .up with rel := { nbrs := [(9, { doubtful := true, waiting := true, nbrs := 3 })] } }
    (chervilRuns base = true ∧ base.boot.held = false ∧ neighbours base = [] ∧ portDown base 383 = true) ∧
    ((takeVote 1 (voteIn 1 base)).map (fun r => (r.1, r.2.1)) = some (9, 3) ∧ (takeVote 2 (voteIn 2 base)).isSome = true ∧
      (takeVote 3 (voteIn 3 (trunkTo .up))).isSome = true ∧ portsTo (trunkTo .up) 9 = [0]) ∧
    (isNode 9 = true ∧ chervilRuns w = true ∧ (w.nbr 9).voted = some 0 ∧ (w.nbr 9).doubtful = true ∧ passed w 0 500000000 = true) ∧
    ((∀ x ∈ g.rel.firstVotes, x + 50000000 ≤ now g) ∧ (neighbours g).find? (fun n => (g.nbr n).waiting && (g.nbr n).doubtful) = some 9) ∧
    ({ base with chv := { base.chv with restarting := some 5 } } : State).chv.restarting = some 5 := by decide
theorem test_health :
    (after .hvoteExpel (voteIn 1 base) (fun t => t.rel.votes == [⟨9, 3, 10000000000⟩]) &&
    after .hvoteWithdraw (voteIn 2 { base with rel := { votes := [⟨9, 3, 1⟩, ⟨9, 4, 1⟩] } }) (fun t => t.rel.votes == [⟨9, 4, 1⟩]) &&
    after .hvoteExpelled (voteIn 3 (trunkTo .up)) (fun t => (t.port 0).st == .fenced) &&
    after .voteExpire { base with rel := { votes := [⟨9, 3, 1⟩, ⟨9, 4, 9900000000⟩] } } (fun t => t.rel.votes == [⟨9, 4, 9900000000⟩]) &&
    after .chervilRestart { base with chv := { base.chv with restarting := some 5 } } (fun t => t.chv.restarting == none)) = true := by decide +kernel
theorem test_vote_gap :
    (after .voteGapEnd { trunkTo .up with rel := { nbrs := [(9, { doubtful := true, waiting := true, nbrs := 3 })] } }
      (fun t => (t.nbr 9).voted == some 10000000000 && !(t.nbr 9).waiting && t.rel.firstVotes == [10000000000]) &&
    after (.voteRenew 9) { trunkTo .up with rel := { nbrs := [(9, { doubtful := true, voted := some 0, nbrs := 3 })] } }
      (fun t => (t.nbr 9).voted == some 10000000000)) = true := by decide +kernel

end F14

/-! ### TheMapChangesTogether -/
namespace F15

/-- Module 1 with a trunk to module 2, and both records. -/
def pairOf2 : State :=
  let s := { onPort 0 { st := .up, bound := some 2, keyed := true } with
    tab := { live := [(tkey 1 0, 0xC030)] }, boot := { base.boot with discDone := true } }
  { s with map := { db := [(1, ownRec s 1), (2, { node := 2, seq := 1, trunks := [(5, 1, true)], discDone := true })], seq := 1, floodAt := 1 } }
/-- A map message that waits at CC0. -/
def mapIn (mtype mseq coord status : Nat) (c : Option Change) : State :=
  { base with
    mf := { modIn := [(mkPkt 6 opMAPMSG 0 0 0 1 2 0 0 (mtype + 2 ^ 4 * mseq + 2 ^ 36 * coord + 2 ^ 50 * status) [], 448)] }
    map := { change := c } }
theorem witness_map :
    let c : Change := { mseq := 7, mods := [1, 2, 3], staged := [1] }
    let f : Change := { mseq := 7, mods := [1, 2], step := 2, flipped := [1, 2], retired := [1] }
    (changeReady pairOf2 = true ∧ changeIdle pairOf2 = true ∧ changeNeeded pairOf2 = true ∧ coordinator pairOf2 = 1 ∧ (stageMap pairOf2).1 = stOK ∧
      fabricMods pairOf2 = [1, 2]) ∧
    ((takeMap mapStaged (mapIn 1 7 1 0 (some c))).map (fun r => (mmCoord r.1, mmStatus r.1, pSrc r.1)) = some (1, 0, 2) ∧
      allStaged { c with staged := insertSet 2 c.staged } = false ∧
      (takeMap mapStaged (mapIn 1 7 1 4 (some c))).map (fun r => mmStatus r.1) = some 4) ∧
    ((takeMap mapFlipped (mapIn 3 7 1 0 (some { f with flipped := [1] }))).map (fun r => mmSeq r.1) = some 7) ∧
    ((takeMap mapRetired (mapIn 5 7 1 0 (some f))).map (fun r => (mmSeq r.1, r.2.map.change)) = some (7, some f)) ∧
    ((takeMap mapAbort (mapIn 4 7 1 0 none)).isSome = true) ∧
    (passed base c.startAt 5000000 = true ∧ passed base f.repeatAt 10000 = true ∧ passed base f.flipAt 50000 = true) ∧
    (base.boot.coreUp = true ∧ floodDue base = true ∧ base.map.floodAt = 0) ∧
    (portExists pairOf2 0 = true ∧ isTrunk pairOf2 0 = true ∧ carries (pairOf2.port 0).st 6 = true ∧ mfind? 9 pairOf2.map.db = none) := by decide +kernel
theorem test_map :
    (after .compositionChangeStart pairOf2 (fun t => t.map.change == some { mseq := 1, startAt := 10000000000, mods := [1, 2], staged := [1] } && t.tab.pending) &&
    after .mapStaged (mapIn 1 7 1 0 (some { mseq := 7, mods := [1, 2, 3], staged := [1] })) (fun t => (t.map.change.map (·.staged)) == some [1, 2]) &&
    after .mapRetired (mapIn 5 7 1 0 (some { mseq := 7, mods := [1, 2], step := 2, flipped := [1, 2], retired := [1] })) (fun t => t.map.change == none) &&
    after .mapStageTimeout (mapIn 4 7 1 0 (some { mseq := 7, mods := [1, 2, 3], staged := [1] })) (fun t => t.map.change == none) &&
    after .mapPeerMissing (mapIn 4 7 1 0 (some { mseq := 7, mods := [1, 2], step := 2, flipped := [1] })) (fun t => (t.map.change.map (·.missing)) == some [2]) &&
    after .linkStateFlood base (fun t => t.map.seq == 1 && t.map.db.length == 1) &&
    after (.linkStateRecord 0 { node := 9, seq := 4 }) pairOf2 (fun t => mhas 9 t.map.db)) = true := by decide +kernel
theorem witness_map_flip :
    (takeMap mapFlip { (stageMap pairOf2).2 with mf := (mapIn 2 6 2 0 none).mf }).bind (fun r => (flipMap (mmSeq r.1) r.2).map (fun v => (v.tab.mseq, v.tab.cur)))
      = some (6, 2) := by decide +kernel

end F15

/-! ### BootBringsTheCoreUp -/
namespace F16

theorem witness_boot :
    let off : State := { boot := { profile := some [] } }
    let one := { off with boot := { off.boot with pwrgd := true, step := 1 } }
    let b (n : Nat) : State := { base with boot := { base.boot with stage := n }, clk := { cycles := 10 ^ 9 }, tab := { live := (List.range 96).map (fun i => (tkey 1 i, 1)) } }
    (State.reset.boot.pwrgd = false) ∧
    (one.boot.pwrgd = true ∧ one.boot.step = 1 ∧ mayStart one = true ∧ (loadProfile (checkLms ([1, 0, 2].foldl verifyImage one))).sec.recovery = true) ∧
    (b 5).boot.coreUp = true ∧ (b 5).boot.depart = 0 ∧ (b 5).boot.gated = true ∧
    passed (b 2) 0 (stageBound 2) = true ∧ passed (b 3) 0 (stageBound 3) = true ∧ passed (b 5) 0 (stageBound 5) = true ∧
    ({ base with boot := { base.boot with stage := 3, gated := false } } : State).map.db.all (fun e => e.2.discDone) = true := by decide
theorem witness_stages :
    let b (n mseq : Nat) : State := { base with
      boot := { base.boot with stage := n }, tab := { mseq := mseq, live := (List.range 96).map (fun i => (tkey 1 i, 3)) } }
    stageOver (b 0 0) = true ∧ stageOver (b 3 1) = true ∧ stageOver (b 2 0) = true ∧ stageOver (b 5 0) = true := by decide +kernel
/-- Zero bytes. -/
def zeros (n : Nat) : List Byte := List.replicate n 0
/-- One byte into the CRC of R66. -/
def crcStep (c : Nat) (b : Byte) : Nat := crcByte 8 (c ^^^ b.toNat)
/-- A board profile of zeros but for its node 1, without its CRC. -/
def profileBody : List Byte := (natBytes 4 1 ++ zeros 228) ++ (zeros 231 ++ (zeros 231 ++ (zeros 231 ++ zeros 231)))
theorem crc_part1 : (natBytes 4 1 ++ zeros 228).foldl crcStep 0xFFFFFFFF = 1864809722 := by decide +kernel
theorem crc_part2 : (zeros 231).foldl crcStep 1864809722 = 557759905 := by decide +kernel
theorem crc_part3 : (zeros 231).foldl crcStep 557759905 = 2126887431 := by decide +kernel
theorem crc_part4 : (zeros 231).foldl crcStep 2126887431 = 4242238772 := by decide +kernel
theorem crc_part5 : (zeros 231).foldl crcStep 4242238772 = 1990357561 := by decide +kernel
theorem crc32_step (l : List Byte) : crc32 l = l.foldl crcStep 0xFFFFFFFF ^^^ 0xFFFFFFFF := rfl
theorem crc_profile : crc32 profileBody = 2304609734 := by
  have : profileBody.foldl crcStep 0xFFFFFFFF = 1990357561 := by
    rw [profileBody, List.foldl_append, crc_part1, List.foldl_append, crc_part2, List.foldl_append, crc_part3, List.foldl_append, crc_part4, crc_part5]
  rw [crc32_step, this]; decide
def profileBytes : List Byte := profileBody ++ natBytes 4 2304609734
theorem profile_sound : profileOk profileBytes = true := by
  have h : profileBody.length = 1156 := by decide +kernel
  have h2 : profileBytes.take 1156 = profileBody := by rw [profileBytes, ← h, List.take_left]
  have h3 : byteAt profileBytes 1156 4 = 2304609734 := by decide +kernel
  have h4 : (profileBytes.length == profileLen) = true := by decide +kernel
  simp only [profileOk, h2, crc_profile, h3, h4, beq_self_eq_true, Bool.and_self]
/-- A module that has power, sound images and a sound profile, before step 2 of its boot. -/
def bootable : State := { boot := { pwrgd := true, step := 1, profile := some profileBytes } }
theorem witness_boot_passes : (loadProfile (checkLms ([1, 0, 2].foldl verifyImage bootable))).sec.recovery = false := by
  have h : (checkLms ([1, 0, 2].foldl verifyImage bootable)).boot.profile = some profileBytes := by rfl
  have h2 : (checkLms ([1, 0, 2].foldl verifyImage bootable)).sec.recovery = false := by decide +kernel
  simp only [loadProfile, h, profile_sound, if_true, h2]
theorem test_boot :
    (after .powerOn State.reset (fun t => t.boot.pwrgd && t.boot.step == 1) &&
    after (.bootComplete []) { bootable with boot := { bootable.boot with profile := none } } (fun t => t.boot.step == 4 && !t.boot.coreUp) &&
    after .powerOnReset base (fun t => t.clk.cycles == 0 && !t.boot.pwrgd) &&
    after .stageEnd { base with boot := { base.boot with full := false }, tab := { live := (List.range 96).map (fun i => (tkey 1 i, 3)) } } (fun t => t.boot.stage == 6 && t.boot.full)) = true := by decide +kernel

end F16

/-! ### CoreResetsAndHostResets -/
namespace F17
open F16

/-- A host port whose link is up with some VFs. -/
def hosted : State := { base with hst := { ports := [(0, { linkUp := true, perst := false, vfEn := true, numVfs := 3 })] } }
theorem witness_resets :
    let q := { base with boot := { base.boot with depart := 2 } }
    let d := { base with boot := { base.boot with depart := 3 } }
    (base.boot.held = false ∧ base.boot.depart = 0) ∧
    (q.boot.depart = 2 ∧ passed q q.boot.departAt 10000 = true ∧ passed q q.boot.trunkAt 10000 = true) ∧
    (d.boot.depart = 3 ∧ coreEmpty d = true) ∧
    ((hosted.hport 0).linkUp = true ∧ (hosted.hport 0).vfEn = true ∧ funcUp hosted 0 3 = true ∧ funcCtx hosted 0 3 = none) ∧
    (base.boot.pwrgd = true ∧ 4 ≤ base.boot.step ∧ (({ base with hst := { ports := [(1, { perst := false })] } } : State).hport 1).perst = false ∧ 3 * 1 ∉ base.rel.dieFailed) := by
  decide +kernel
/-- A module that a core reset holds. -/
def heldState : State := { clk := { cycles := 1562500000 }, boot := { pwrgd := true, step := 5, held := true, coreReset := true, profile := some profileBytes } }
theorem witness_reinit :
    heldState.boot.held = true ∧ heldState.boot.coreReset = true ∧ mayStart heldState = true ∧ heldState.chv.pstate ≠ .sleep ∧ heldState.chv.sleepReq = false ∧
      (loadProfile heldState).sec.recovery = false := by
  refine ⟨rfl, rfl, by decide, by decide, rfl, ?_⟩
  have h : heldState.boot.profile = some profileBytes := rfl
  simp only [loadProfile, h, profile_sound, if_true]; rfl
theorem test_resets :
    (after .mreset base (fun t => t.boot.depart == 2 && !t.boot.full) &&
    after .departureDrained { base with boot := { base.boot with depart := 3 } } (fun t => t.boot.held && !t.boot.coreUp) &&
    after (.perst 0) hosted (fun t => (t.hport 0).perst && !(t.hport 0).linkUp && !(t.hport 0).vfEn) &&
    after (.hotReset 0) hosted (fun t => !(t.hport 0).linkUp) &&
    after (.vfEnableClear 0) hosted (fun t => !(t.hport 0).vfEn && (t.hport 0).linkUp) &&
    after (.flr 0 3) hosted (fun t => (t.func 3).flrAt == some 10000000000) &&
    after (.hostLinkDown 0) hosted (fun t => !(t.hport 0).linkUp) &&
    after (.hostLinkUp 1) { base with hst := { ports := [(1, { perst := false })] } } (fun t => (t.hport 1).linkUp)) = true := by decide +kernel

end F17

/-! ### TemperatureAndPowerLimits -/
namespace F18

/-- Port die 0 hot, with port 0 of it up. -/
def hotDie : State := { base with
  chv := { shed := [(0, { active := true })], sensors := [(34, { y := 16 * 104 * 65536 })] }, ports := [(0, { st := .up })] }
theorem witness_limits :
    (chervilRuns base = true) ∧
    ((({ base with chv := { lines := [(289, { pend := some 9 })] } } : State).line 289).pend = some 9 ∧ isDelayLine 289 = true) ∧
    (let q : State := { base with chv := { droop := [(3, { paceT := 32 })] } }
     (q.droop 3).since = some 0 ∧ passed q 0 (q.limit (droopDie 3)).dwell = true ∧ (q.droop 3).paceT < tileLimit q (droopDie 3) ∧ (q.block 3).low = false ∧ q.chv.pstate ≠ .waking) ∧
    (∀ d < 2, 16 ≤ (base.limit d).capT ∧ (base.limit d).capT ≤ 64 ∧ 16 ≤ (base.limit d).capL ∧ (base.limit d).capL ≤ 64) ∧
    (∀ d < 2, 16 ≤ (base.limit d).thT ∧ (base.limit d).thT ≤ 64 ∧ 16 ≤ (base.limit d).thL ∧ (base.limit d).thL ≤ 64) := by decide +kernel
theorem witness_shed :
    ((hotDie.shed 0).active = true ∧ deg 100 ≤ dieTemp hotDie 0 ∧ passed hotDie (hotDie.shed 0).lastShed 100000000 = true ∧
      portsDownward hotDie (fun q => dieOf q == 0) = [0]) ∧
    (let q : State := { base with chv := { shed := [(0, { coolSince := some 0, ports := [0] })] } }
     (q.shed 0).coolSince = some 0 ∧ passed q 0 10000000000 = true ∧ adminUp q 0 = true ∧ portExists q 0 = true ∧ (q.port 0).st = .down) := by decide +kernel
theorem test_limits :
    (after (.droopDetect 3 769) base (fun t => (t.droop 3).paceT == 32 && (t.droop 3).since == none) &&
     after (.droopDetect 3 770) base (fun t => (t.droop 3).paceT == 64 && (t.droop 3).since == none) &&
     after (.restoreStep 3) { base with chv := { droop := [(3, { paceT := 32 })] } } (fun t => (t.droop 3).paceT == 40) &&
     after (.restoreStep 3) { base with chv := { limits := [(0, { thT := 60 })], droop := [(3, { paceT := 56 })] } } (fun t => (t.droop 3).paceT == 60) &&
     after .thermalLimitTick { base with chv := { sensors := [(0, { y := 16 * 101 * 65536 })] } } (fun t => (t.limit 0).thT == 63 && (t.limit 1).thT == 64) &&
     after .powerCapTick { base with chv := { sensors := [(55, { y := 54000 * 65536 }), (56, { y := 400 * 65536 })] } } (fun t => (t.limit 0).capT == 63) &&
     after (.thermalPortShed 0) hotDie (fun t => (t.port 0).st == .down)) = true := by decide +kernel

end F18

/-! ### InputPhasesTripAndSleep -/
namespace F19

/-- A booted module with other Chervil state. -/
def withChv (x : Chervil) : State := { base with chv := x }
theorem witness_inputTrip :
    (let q := withChv { inRange := some 0, convStop := true }
     q.chv.inRange = some 0 ∧ q.chv.convStop = true ∧ passed q 0 100000000 = true) ∧
    (chervilRuns base = true ∧ base.boot.coreUp = true ∧ base.ctl.restartAt = none ∧ 0 ∈ beatCores base ∧ passed base (mget 0 0 base.chv.beats) 100000000 = true) ∧
    (passed base base.chv.lscanAt 10000000 = true) ∧
    (let q := withChv { trip := true }
     q.chv.trip = true ∧ q.boot.mreset = false ∧ (∀ i < 50, sensorTemp q i < deg 90)) ∧
    (let q := withChv { dozeEn := true }
     q.chv.dozeEn = true ∧ q.chv.pstate = .run ∧ q.boot.coreUp = true ∧ (∀ e ∈ q.ctl.slots, e.2.st = .free)) := by decide +kernel
/-- Heartbeats of all control cores 50 ms ago. -/
def beaten : State := withChv { beats := (List.range 8).map (fun c => (c, 9950000000)) }
theorem witness_beats : ∀ c ∈ beatCores beaten, c ∉ [0] → passed beaten (mget 0 c beaten.chv.beats) 100000000 = false := by decide +kernel
theorem test_inputTrip :
    (after (.inputSample none none) (withChv { sensors := [(55, { y := 73000 * 65536, lastAt := 9999999999 })] }) (fun t => t.boot.held && t.chv.convStop) &&
     after (.inputSample none none) base (fun t => !t.boot.held && (t.sensor 55).failed) &&
     after .inputRecover (withChv { inRange := some 0, convStop := true }) (fun t => !t.chv.convStop) &&
     after (.phaseSample ((0, 0, true) :: List.replicate 47 (0, 0, false)) [0, 0, 0, 0, 0]) base (fun t => (t.phase 0).failed && (t.phase 44).rail == 0) &&
     after (.heartbeatCheck [0]) beaten (fun t => t.chv.beatRaised == [1, 2, 3, 4, 5, 6, 7]) &&
     after (.heartbeatCheck [0]) base (fun t => t.ctl.restartAt == some 10000000000)) = true := by decide +kernel
theorem test_states :
    (after .leaseProgressCheck base (fun t => t.chv.stallRaised) &&
     after (.thermalTrip 3) base (fun t => t.boot.held && t.chv.trip) &&
     after (.thermalTrip 50) base (fun t => !t.boot.pwrgd) &&
     after (.dozeEnter 100000000) (withChv { dozeEn := true }) (fun t => t.chv.pstate == .doze) &&
     after (.dozeWake 26) (withChv { pstate := .doze }) (fun t => t.chv.pstate == .waking && (t.droop 33).paceT == 32) &&
     after .wakeComplete (withChv { pstate := .waking }) (fun t => t.chv.pstate == .run) &&
     after .sleepEnter (withChv { sleepReq := true }) (fun t => t.boot.depart == 2) &&
     after .sleepExit (withChv { pstate := .sleep }) (fun t => t.chv.pstate == .run)) = true := by decide +kernel

end F19

/-! ### RecordsProfileAndTime -/
namespace F20

/-- A die with two records not yet archived, and a critical record that waits. -/
def recorded : State := { base with evr := { dies := [(0, { wpos := 2, uncopied := 2 })], critPend := [{ code := 7 }] } }
theorem witness_records :
    (recorded.evr.frozen = false ∧ recorded.boot.held = false ∧ areasOf recorded 0 ≠ []) ∧
    (recorded.evr.critPend = [{ code := 7 }] ∧ (recorded.evr.critTimes.filter (fun t => decide (now recorded < t + 1000000000))).length < 100) ∧
    (let q : State := { base with clk := { cycles := 2 ^ 37 } }
     q.evr.epochs < now q / 2 ^ 36) ∧
    (base.boot.pwrgd = true ∧ base.hst.i3cAddr = none ∧ base.boot.profile = none ∧ base.clk.holdover = false) := by decide +kernel
theorem witness_critLost :
    100 ≤ ((({ base with evr := { critTimes := List.replicate 100 9999999999 } } : State).evr.critTimes.filter (fun t => decide (now base < t + 1000000000))).length) := by decide +kernel
theorem test_records :
    (after (.archiveCopy 0) recorded (fun t => (t.recDie 0).uncopied == 0 && (t.recDie 0).apos == 2) &&
     after .criticalArchiveWrite recorded (fun t => t.evr.critPend == [] && t.evr.critPos == 1) &&
     after .epoch { base with clk := { cycles := 2 ^ 37 } } (fun t => (t.recDie 3).nextSeq == 1) &&
     after (.entdaa 9) base (fun t => t.hst.i3cAddr == some 9) &&
     after (.setdasa 0x30 9) base (fun t => t.hst.i3cAddr == some 9) &&
     after (.followerCheck [9, -9, -2, 0, 0, 0]) base (fun t => t.clk.held == [0] && mget 0 1 t.clk.offs == 0 && mget 0 2 t.clk.offs == -2) &&
     after .holdoverEnter base (fun t => t.clk.holdover && (t.recDie 6).nextSeq == 1) &&
     after .holdoverExit { base with clk := { base.clk with holdover := true } } (fun t => !t.clk.holdover)) = true := by decide +kernel

end F20

/-! ### FaultsAreSparedOrRetired -/
namespace F21

/-- A booted module with one tile in a given state. -/
def onTile (k : Nat) (x : Tile) : State := { base with ctl := { base.ctl with tiles := [(k, x)] } }
/-- One in which a cluster has a shadow record to run. -/
def shadowed : State := { base with rel := { base.rel with shadows := [(0, [{ tile := 3, bin := 2 }])] } }
theorem witness_memory :
    (isHbmLine 5 = true ∧ lastLine 5 = false ∧ 5 ∉ base.mf.poison ∧ bufferedAt base 5 = false) ∧
    (5 ∉ (base.tile 3).poison) ∧ (isPlace (.scratch 3 5) = true) ∧
    (isMacro 7 = true ∧ chervilRuns base = true ∧ mget 0 7 base.rel.rows < 4) ∧
    (50 % 48 ∉ (base.buf 1).bankRetired ∧ mget 0 2 (base.buf 1).inUse = 0) := by decide +kernel
theorem witness_frames :
    (servedBy base 0 7 = some 7 ∧ (takeRemap 0 base).isSome = true) ∧
    (let q : State := { base with tier := { remapUsed := [(0, remapFrames 0)] } }
     servedBy q 0 7 = some 7 ∧ takeRemap 0 q = none ∧ pagesIn q 7 = []) := by decide +kernel
theorem witness_tiles :
    ((base.tile 3).run = none ∧ (base.tile 3).retired = false ∧ clusterOf 3 ∉ base.rel.spareUsed ∧ clusterOf 3 ∉ base.rel.spareGone ∧ slotsOf base 3 = []) ∧
    (((onTile 3 { retired := true }).tile 3).retired = true ∧ slotsOf (onTile 3 { retired := true }) 3 = []) ∧
    (0 ∉ base.rel.dieFailed ∧ 4 ∉ base.rel.dieFailed ∧ 0 ∉ base.tier.stacksFailed) ∧
    (let q : State := { base with ctl := { coreStops := [(2, [9000000000, 9500000000])] } }
     2 ∉ q.ctl.coreOff ∧ 2 ≤ ((mget [] 2 q.ctl.coreStops).filter (fun t => decide (now q ≤ t + 3600000000000))).length) ∧
    (mget [] 0 shadowed.rel.shadows = [{ tile := 3, bin := 2 }]) ∧
    (((onTile 3 { quarUntil := some 5 }).tile 3).quarUntil = some 5 ∧ reached (onTile 3 { quarUntil := some 5 }) 5 = true) := by decide +kernel
theorem test_faults :
    (after (.patrolRead (.hbm 5) .uncorrectable) base (fun t => t.mf.poison == [5]) &&
     after (.patrolRead (.scratch 3 5) .uncorrectable) base (fun t => (t.tile 3).poison == [5]) &&
     after (.rowRepair 7) base (fun t => mget 0 7 t.rel.rows == 1) &&
     after (.bankSpare 50) base (fun t => (t.buf 1).bankSpares + 1 == (base.buf 1).bankSpares) &&
     after (.tileSpare 3) base (fun t => (t.tile 3).onSpare) &&
     after (.tilePowerOff 3) (onTile 3 { retired := true }) (fun t => (t.tile 3).off) &&
     after (.hbmStackFail 2) base (fun t => t.tier.stacksFailed == [2]) &&
     after (.coreDieFail 1) base (fun t => t.boot.held)) = true := by decide +kernel
theorem test_margins :
    (after (.portDieFail 0) (onPort 3 { st := .up }) (fun t => (t.port 3).st == .down) &&
     after (.controlCoreDisable 2) { base with ctl := { coreStops := [(2, [9000000000, 9500000000])] } } (fun t => t.ctl.coreOff == [2]) &&
     after (.shadowRun 0 false true) shadowed (fun t => (t.tile 3).quarUntil == some 10010000000) &&
     after (.shadowRun 0 false false) shadowed (fun t => (t.tile 3).quarUntil == none && mget 0 (spareOffset 0 2) t.chv.offsets == 1) &&
     after (.quarantineEnd 3) (onTile 3 { quarUntil := some 5 }) (fun t => (t.tile 3).quarUntil == none)) = true := by decide +kernel

end F21

/-! ### PacketsMoveThroughTheSwitch -/
namespace F22

/-- An empty-payload packet of a class. -/
def bare (tc op : Nat) : Packet := mkPkt tc op 0 0 0 0 0 0 0 0 []
/-- A packet parked by port 5 for the home of core die 0, red, and the same stalled at cluster port 416 and queued. -/
def switching : State := { base with sw := {
  parked := [(qkey 5 0, { pkts := [{ pkt := bare 0 2, legs := [(462, 0)], red := true, src := 5 }] })]
  stalled := [(qkey 416 0, [{ pkt := bare 0 2, legs := [(462, 0)], src := 416 }])]
  queues := [(qkey 462 0, { pkts := [{ pkt := bare 0 2, wroteAt := 9999999000 }], tag := some (0, 0) })]
  ingress := [(qkey 5 0, [(bare 0 2, 0)])] } }
theorem witness_takes :
    (mget [] (qkey 5 0) switching.sw.ingress = [(bare 0 2, 0)]) ∧
    (takers switching 462 0 = [5] ∧ (switching.park (qkey 5 0)).pkts.map (·.legs) = [[(462, 0)]] ∧ (bare 0 2).tc = 0 ∧ coreOfEp 462 = ingDie 5 ∧
      epDown switching 462 = false ∧ belowThreshold switching (ingDie 5) (qkey 462 0) = true ∧ pCells (bare 0 2) ≤ poolFree switching (ingDie 5)) ∧
    ((switching.park (qkey 5 0)).pkts.all (fun k => (colourOf 5 k switching).1 != 2 && k.red) = true) ∧
    (coreOfEp 462 = coreOfEp 416 ∧ (mget [] (qkey 416 0) switching.sw.stalled).all (fun k => (colourOf 416 k switching).1 != 2) = true ∧
      belowThreshold switching (coreOfEp 416) (qkey 462 0) = true) := by decide +kernel
theorem witness_egress :
    pickClass (refreshAll 462 switching) 462 = some 0 ∧ overAge switching (coreOfEp 462) { pkt := bare 0 2, wroteAt := 9999999000 } = false ∧
      isResponse (pOp (applyLeg 0 (bare 0 2))) = false := by decide +kernel
theorem witness_keep :
    let p := mkPkt 2 opCNOTE 0 0 0 0 0 0 0 0 (List.replicate 8 0)
    let q : State := { base with sw := { ingress := [(qkey 448 2, [(p, 0)])] }, tab := { committed := true, live := [(tkey 0x0010 0, 3)] } }
    stalls 448 = true ∧ pOp p ≠ opNBRMSG ∧ mget [] (qkey 448 2) q.sw.ingress = [(p, 0)] ∧ (lookupTests q 448 p).1 = .pass ∧
      resolve q (lookupTests q 448 p).2 448 p = .keep := by decide +kernel
theorem witness_gates :
    (let q : State := { base with cod := { waits := [(40, 1, 9)] } }
     ((40, 1, 9) ∈ q.cod.waits)) ∧
    (let q : State := { base with sw := { gates := [(5, { next := some (0, [], 0) })] } }
     (q.gate 5).next = some (0, [], 0) ∧ reached q (switchAt (q.gate 5) 0 0) = true) ∧
    (let q := onPort 5 { flushDue := 2 }
     (q.port 5).flushDue = 2 ∧ ∀ tc < 8, ∀ x ∈ (q.queue (qkey 5 tc)).pkts, x.leg ≠ 0 ∨ isRequest (pOp x.pkt) = false) ∧
    ((base.buf 0).sampleAt / samplePeriod base 0 < now base / samplePeriod base 0) := by decide +kernel
theorem test_switch :
    (after (.ingressLookup 5 0) switching (fun t => mget [] (qkey 5 0) t.sw.ingress == []) &&
     after (.parkedTake 462 0) switching (fun t => (t.park (qkey 5 0)).pkts == [] && (t.queue (qkey 462 0)).pkts.length == 2) &&
     after (.policerRetest 5 0) switching (fun t => (t.park (qkey 5 0)).pkts == [] && (t.queue (qkey 462 0)).pkts.length == 2) &&
     after (.internalSendAdmit 416 0) switching (fun t => mget [] (qkey 416 0) t.sw.stalled == [] && (t.queue (qkey 462 0)).pkts.length == 2) &&
     after (.egressSend 462) switching (fun t => mget [] 0 t.mf.homeIn == [bare 0 2] && (t.queue (qkey 462 0)).pkts == []) &&
     after (.portFlush 5) (onPort 5 { flushDue := 2 }) (fun t => (t.port 5).flushDue == 0 && (t.recDie 4).nextSeq == 1) &&
     after (.telemetrySample 0) switching (fun t => mget 0 11 (t.queue (qkey 462 0)).ctr == 1) &&
     after (.decodeTableLoad 1 9) { base with cod := { waits := [(40, 1, 9)] } } (fun t => t.cod.waits == []) &&
     after (.gateListSwitch 5) { base with sw := { gates := [(5, { next := some (0, [], 0) })] } } (fun t => (t.gate 5).next == none)) = true := by decide +kernel

end F22

/-! ### HomesServeMemory -/
namespace F23

/-- A module whose page 0 is resident, with a request of an opcode at home 0. -/
def atHome (p : Packet) : State := { base with
  mf := { homeIn := [(0, [p])] }, tier := { pages := [(0, 1)] } }
def memReq (op nl : Nat) (data : List Byte) : Packet := mkPkt 0 op 0 0 0 0 0 0 0 (2 ^ 42 * nl) data
theorem witness_home :
    (FirstAtHome (atHome (memReq opRD64 0 [])) 0 opRD64 (memReq opRD64 0 []) []) ∧
    (FirstAtHome (atHome (memReq opRDN 1 [])) 0 opRDN (memReq opRDN 1 []) []) ∧
    (FirstAtHome (atHome (memReq opWR64 0 (List.replicate 64 7))) 0 opWR64 (memReq opWR64 0 (List.replicate 64 7)) []) ∧
    (FirstAtHome (atHome (memReq opWRN 1 (List.replicate 128 7))) 0 opWRN (memReq opWRN 1 (List.replicate 128 7)) []) ∧
    (FirstAtHome (atHome (memReq opWRP 0 [])) 0 opWRP (memReq opWRP 0 []) []) := by unfold FirstAtHome; decide +kernel
theorem witness_homeRest :
    (readLine (atHome (memReq opRD64 0 [])) 0).2 = false ∧ pNl (memReq opRD64 0 []) = 0 ∧ lineFailed (atHome (memReq opWR64 0 [])) 0 = false ∧
    (homeLines (atHome (memReq opWR64 0 [])) (homeOf 0)).length < 8189 ∧
    (let q : State := { base with mf := { lines := [(5, ⟨[], false, 0⟩)] } }
     mfind? 5 q.mf.lines = some ⟨[], false, 0⟩ ∧ passed q 0 1000 = true) := by decide +kernel
/-- A module with one leased extent in a state. -/
def leased (st : Nat) : State := { base with tab := { live := [(tkey 0x0013 9, 2 ^ 88 * st + 2 ^ 106)] } }
theorem witness_leases :
    (exState (extent (leased 1) 9) = 1 ∧ exLeased (extent (leased 1) 9) = true ∧ reached (leased 1) (exEnd (extent (leased 1) 9)) = true ∧
      reached (leased 1) (exEnd (extent (leased 1) 9) + exGrace (extent (leased 1) 9)) = true) ∧
    (exState (extent (leased 3) 9) = 3 ∧ inflight (leased 3) 9 = 0 ∧ extMigrating (leased 3) 9 = false) ∧
    (let q : State := { leased 3 with mf := { drainAt := [(9, 0)], open_ := [{ ext := 9 }] } }
     mfind? 9 q.mf.drainAt = some 0 ∧ exState (extent q 9) = 3 ∧ passed q 0 (pathBound q) = true ∧ inflight q 9 ≠ 0 ∧ extMigrating q 9 = false) := by decide +kernel
theorem test_home :
    (after (.rd64 0) (atHome (memReq opRD64 0 [])) (fun t => mget [] 0 t.mf.homeIn == [] && pgRef (page t 0)) &&
     after (.wr64 0) (atHome (memReq opWR64 0 (List.replicate 64 7))) (fun t => readLine t 0 == (List.replicate 64 7, false)) &&
     after (.wrn 0) (atHome (memReq opWRN 1 (List.replicate 128 7))) (fun t => readLine t 1 == (List.replicate 64 7, false)) &&
     after (.wrp 0) (atHome (mkPkt 0 opWRP 0 0 0 0 0 0 0 (2 ^ 48 * 3) (List.replicate 64 7))) (fun t => readLine t 0 == ([7, 7] ++ List.replicate 62 0, false)) &&
     after (.lineWriteback 5) { base with mf := { lines := [(5, ⟨[9], false, 0⟩)] } } (fun t => memByte t.mf.hbm 320 == 9 && t.mf.lines == []) &&
     after (.leaseExpire 9) (leased 1) (fun t => exState (extent t 9) == 2) &&
     after (.leaseLapse 9) (leased 2) (fun t => exState (extent t 9) == 3 && t.mf.drainAt == [(9, 10000000000)]) &&
     after (.drainComplete 9) (leased 3) (fun t => t.mf.drained == [9])) = true := by decide +kernel

end F23

/-! ### CoherenceAndRetries -/
namespace F24

/-- A module with a coherent extent on page 0 and agents 0 and 1 of nodes 5 and 6. -/
def coherent : State := { base with
  tab := { live := [(tkey 0x0013 0, 2 ^ 10 + 2 ^ 56 * 4 + 2 ^ 88), (tkey 0x0014 0, 2 ^ 16), (tkey 0x0015 0, 5 + 2 ^ 14 + 2 ^ 16), (tkey 0x0015 1, 6 + 2 ^ 14 + 2 ^ 16)] }
  tier := { pages := [(0, 1)] } }
def cohReq (op : Nat) (data : List Byte) : Packet := mkPkt 1 op 0 0 0 1 5 0 0 0 data
/-- The same with a packet at home 0, filter entries and transactions. -/
def cohAt (p : List Packet) (x : Coherence) : State := { coherent with mf := { homeIn := [(0, p)] }, coh := x }
/-- Agent 1 holds line 0 as M; agent 0 holds it as M. -/
def heldBy1 : Coherence := { filter := [(16384, 2 ^ 21 * 3)] }
def heldBy0 : Coherence := { filter := [(0, 2 ^ 21 * 3)] }
/-- An RDX of agent 1 that waits for the snoop of agent 0. -/
def snooping : Coherence := { filter := [(0, 2 ^ 21 * 3)], txns := [(0, [{ pkt := mkPkt 1 opRDX 0 0 0 1 6 0 0 0 [], agent := 1, snoops := [{ agent := 0 }] }])] }
/-- An RDS of agent 0 that is blocked. -/
def blockedTxn (n : Nat) : Coherence := { txns := [(0, [{ pkt := cohReq opRDS [], agent := 0, blocked := true, pins := n }])] }
/-- Transactions that keep the sixteen lines of set 0 that agent 0 holds. -/
def pinning : List Txn := (List.range 16).map (fun i => { line := 4096 * i, pkt := mkPkt 1 opRD64 0 0 0 1 6 0 0 (4096 * i) [], snoops := [{ agent := 1, line := 4096 * i }] })
/-- A request of agent 0 on another line of that set. -/
def fullSet : Coherence := {
  filter := (List.range 16).map (fun i => (i, i + 2 ^ 21 * 3))
  txns := [(0, { line := 65536, pkt := mkPkt 1 opRDS 0 0 0 1 5 0 0 65536 [], agent := 0, blocked := true, pins := 31 } :: pinning)] }
/-- The seventeen pages of those lines, of stack 0. -/
def fullState : State :=
  let q := cohAt [] fullSet
  { q with tier := { pages := (List.range 17).map (fun i => (4 * i, 1 + 2 ^ 32 * i)) } }
theorem witness_coherent :
    FirstCoherent (cohAt [cohReq opRDS []] {}) 0 opRDS 0 (cohReq opRDS []) [] ∧
    FirstCoherent (cohAt [cohReq opRDX []] {}) 0 opRDX 0 (cohReq opRDX []) [] ∧
    FirstCoherent (cohAt [cohReq opRDX []] heldBy1) 0 opRDX 0 (cohReq opRDX []) [] ∧
    FirstCoherent (cohAt [cohReq opWB (List.replicate 64 9)] heldBy0) 0 opWB 0 (cohReq opWB (List.replicate 64 9)) [] := by
  unfold FirstCoherent; decide +kernel
theorem witness_filter :
    (let q := cohAt [cohReq opRDS []] {}
     (∀ b < 64, record q b 0 = 0) ∧ waysUsed q 0 0 0 < 16 ∧ txnsOf q 0 = [] ∧ waitsOf q 0 = []) ∧
    (let q := cohAt [cohReq opRDX []] heldBy1
     record q 1 0 = 3 ∧ agentState q 1 = 1 ∧ (∀ c < 64, c ≠ 1 → record q c 0 = 0) ∧ waysUsed q 0 0 0 < 16) ∧
    (let q := cohAt [] heldBy0
     record q 0 0 = 3 ∧ (∀ b < 64, b ≠ 0 → record q b 0 = 0) ∧ (homeLines q (homeOf 0)).length < 8192) := by decide +kernel
theorem witness_snoops :
    (let q := cohAt [mkPkt 1 opDATA 0 0 0 1 5 0 0 0 (List.replicate 64 9)] snooping
     agentOf q 5 = some 0 ∧ (txnsOf q 0).length = 1 ∧ waitsOf q 0 = [] ∧ record q 0 0 = 3 ∧ agentState q 0 = 1 ∧
       passed q 0 (snoopLimit q 0) = true ∧ pagesOf (mkPkt 1 opRDX 0 0 0 1 6 0 0 0 []) = [linePage 0]) ∧
    (let q := fullState
     (∀ b < 64, record q b 65536 = 0) ∧ 16 ≤ waysUsed q 0 0 65536 ∧ agentState q 0 = 1 ∧ passed q 0 200 = true ∧
       (txnsOf q 0).drop 1 = pinning ∧ (∀ y ∈ pinning, y.blocked = false) ∧ victimWay (setTxns 0 pinning q) 0 0 65536 = none) ∧
    (let q := cohAt [] (blockedTxn 3)
     homeOf (linePage 0) = 0 ∧ dieLine q 0 < 2 ^ 31 ∧ (∀ b < 64, record q b 0 = 0) ∧ (∃ i < 16, fld (fent q (setBase q 0 0 + i)) 21 2 = 0) ∧
       pOp (cohReq opRDS []) = opRDS) ∧
    (let q := cohAt [] { heldBy0 with reclaim := [0] }
     0 ∈ q.coh.reclaim ∧ lineOfEntry q 0 0 = some 0 ∧ wayOf q 0 0 = some 0 ∧ fld (2 ^ 21 * 3) 21 2 = 3) := by decide +kernel
/-- A read of tile 0 that is out, tried so many times before. -/
def waitingRead (op n : Nat) (r : Option Nat) : State := { base with mf := { own := [(0, { pkt := mkPkt 0 op 0 0 0 1 0 0 0 0 [], user := 7, tries := n, retryAt := r })] } }
theorem witness_requests :
    (let q := waitingRead opRD64 0 none
     passed q 0 (ownTimeout q 0) = true ∧ 0 < ownRetries q 0 ∧ nextFreeTag q 0 = some 1) ∧
    (let q := waitingRead opWR64 0 none
     passed q 0 (ownTimeout q 0) = true ∧ 0 < ownRetries q 0) ∧
    (let q := waitingRead opRD64 7 none
     ownRetries q 0 ≤ 7) ∧
    (let q := waitingRead opRD64 0 (some 5)
     reached q 5 = true ∧ nextFreeTag q 0 = some 1) := by decide +kernel
theorem test_coherence :
    (after (.rds 0) (cohAt [cohReq opRDS []] {}) (fun t => record t 0 0 == 2) &&
     after (.rdx 0) (cohAt [cohReq opRDX []] {}) (fun t => record t 0 0 == 3) &&
     after (.rdx 0) (cohAt [cohReq opRDX []] heldBy1) (fun t => (txnsOf t 0).map (fun x => x.snoops.map (·.agent)) == [[1]]) &&
     after (.wb 0) (cohAt [cohReq opWB (List.replicate 64 9)] heldBy0) (fun t => record t 0 0 == 0 && readLine t 0 == (List.replicate 64 9, false)) &&
     after (.snoopAnswer 0) (cohAt [mkPkt 1 opDATA 0 0 0 1 5 0 0 0 (List.replicate 64 9)] snooping) (fun t => txnsOf t 0 == [] && record t 1 0 == 3 && record t 0 0 == 0) &&
     after (.snoopTimeout 0 0) (cohAt [] snooping) (fun t => txnsOf t 0 == [] && agentState t 0 == 2) &&
     after (.pinRetry 0 65536) fullState (fun t => txnsOf t 0 == pinning && mget 0 4 t.coh.ctr == 1) &&
     after (.pinRetry 0 0) (cohAt [] (blockedTxn 3)) (fun t => txnsOf t 0 == [] && record t 0 0 == 2)) = true := by decide +kernel
theorem test_reclaim :
    (after (.agentReclaim 0) (cohAt [] { heldBy0 with reclaim := [0] }) (fun t => t.coh.filter == [] && t.coh.reclaim == [] && (mfind? 0 t.mf.lines).any (·.poison)) &&
     after (.requestTimeout 0) (waitingRead opRD64 0 none) (fun t => mkeys t.mf.own == [1]) &&
     after (.requestTimeout 0) (waitingRead opRD64 7 none) (fun t => t.mf.own == []) &&
     after (.requestRetry 0) (waitingRead opRD64 0 (some 5)) (fun t => mkeys t.mf.own == [1])) = true := by decide +kernel

end F24

/-! ### TheLeaseManagerServes -/
namespace F25

/-- A module with a waiting request of the lease manager and extents. -/
def leaseMail (d : List Byte) (ext : SMap Nat) (free : List (Nat × Nat × Nat)) : State := { base with
  svc := { mail := [(6, [{ svc := 6, data := d, src := 7 }])], freeMap := free, table := [(6, 2)] }, tab := { live := ext } }
/-- Extent 9 of node 1, leased to node 7, in a state. -/
def extNine (st : Nat) : SMap Nat := [(tkey 0x0013 9, 2 ^ 10 + 2 ^ 56 * 4 + 2 ^ 88 * st + 2 ^ 106 + 2 ^ 107 * 7 + 2 ^ 212 * 500 + 2 ^ 228 * 100)]
/-- A GRANT of 8 pages of node 2 in the pool tier for 500 ms with a grace of 100 ms. -/
def grantMail : List Byte := [2, 0, 2, 0] ++ natBytes 4 8 ++ natBytes 4 0 ++ natBytes 4 1 ++ natBytes 2 500 ++ natBytes 2 100
theorem witness_leaseRegister :
    (takeMail 6 1 (leaseMail ([1, 0, 1, 0] ++ natBytes 4 64 ++ natBytes 4 16) [] [])).map (fun x => (x.1.ctx, cmdUnknown x.1, byteAt x.1.data 8 4, runMeets x.2.svc.freeMap 1 64 16, listedExtents x.2))
      = some (0, false, 16, false, []) := by decide +kernel
theorem witness_leaseGrant :
    (takeMail 6 2 (leaseMail grantMail [] [(2, 64, 16)])).map (fun x =>
      (byteAt x.1.data 4 4, fitRun x.2 2 8, leastBelow 65536 (fun e => exState (extent x.2 e) == 0), (freeRanges x.2 1).head?,
        (serviceCommit (leaseThread x.2) (groupOf (grantEntries x.2 x.1.data 0 0 2 64)) x.2).1))
      = some (8, some (2, 64), some 0, some 0, stOK) := by decide +kernel
theorem witness_leaseRenew :
    (takeMail 6 3 (leaseMail [3, 0, 1, 0, 9, 0] (extNine 2) [])).map (fun x => byteAt x.1.data 2 2) = some 1 ∧
    (takeMail 6 4 (leaseMail [4, 0] (extNine 2) [])).isSome = true ∧
    (takeMail 6 5 (leaseMail [5, 0, 9, 0] (extNine 2) [])).map (fun x => (exState (extent x.2 9), exHolder (extent x.2 9) == x.1.src,
      (serviceCommit (leaseThread x.2) (groupOf [extIn x.2 9 3]) x.2).1)) = some (2, true, stOK) ∧
    (takeMail 6 6 (leaseMail [6, 0, 9, 0] (extNine 1) [])).map (fun x => (exState (extent x.2 9), x.1.ctx,
      (serviceCommit (leaseThread x.2) (groupOf [extIn x.2 9 3]) x.2).1)) = some (1, 0, stOK) := by decide +kernel
/-- Extent 9 without a lease in a state, with a peer's request. -/
def peerMail (d : List Byte) (st : Nat) : State :=
  leaseMail d [(tkey 0x0013 9, 2 ^ 10 + 2 ^ 56 * 4 + 2 ^ 88 * st)] []
theorem witness_leasePeers :
    (takeMail 6 2 (peerMail ([2, 2] ++ List.replicate 54 0 ++ [9, 0]) 3)).map (fun x => (x.1.ctx, byteAt x.1.data 1 1, byteAt x.1.data 56 2, exLeased (extent x.2 9)))
      = some (0, 2, 9, false) ∧
    (takeMail 6 2 (peerMail ([2, 3] ++ List.replicate 54 0 ++ [9, 0]) 4)).map (fun x => (x.1.ctx, byteAt x.1.data 1 1, exLeased (extent x.2 9)))
      = some (0, 3, false) ∧
    (takeMail 6 6 (peerMail [6, 0, 9, 0] 1)).map (fun x =>
      let t := tellHolders 9 (serviceCommit (leaseThread x.2) (groupOf [extIn x.2 9 3]) x.2).2
      (x.1.ctx, exLeased (extent x.2 9), exState (extent t 9), t.mf.drained)) = some (0, false, 3, []) := by decide +kernel
theorem witness_leaseScrub :
    (let q := leaseMail [] (extNine 4) []
     exState (extent q 9) = 4 ∧ exLeased (extent q 9) = true ∧ mhas 9 q.svc.scrubs = false ∧ (scrubSlot 9 q).isSome = true) ∧
    (let q : State := { leaseMail [] (extNine 3) [] with mf := { drained := [9] } }
     exState (extent q 9) = 3 ∧ 9 ∈ q.mf.drained ∧ ctxState q (exOwner (extent q 9)) ≠ 2 ∧ (mget {} 9 q.svc.holds).undrained = [] ∧
       (serviceCommit (leaseThread q) (groupOf (scrubbingEntries q [9])) q).1 = stOK) := by decide +kernel
/-- Extent 9 SCRUBBING, its scrub done with key slot 5. -/
def scrubbed : State := { leaseMail [] (extNine 4) [] with svc := { table := [(6, 2)], scrubs := [(9, 5)] } }
theorem witness_leaseScrubbed :
    exState (extent scrubbed 9) = 4 ∧ exLeased (extent scrubbed 9) = true ∧ scrubDone scrubbed 9 = true ∧
    (let r := serviceCommit (leaseThread scrubbed) (groupOf (extIn scrubbed 9 0 :: (extRanges scrubbed 9).map (fun i => (0x0012, i, 0)))) scrubbed
     r.1 = stOK ∧ mfind? (exOwner (extent scrubbed 9)) r.2.cx.removals = none) := by decide +kernel
theorem test_lease :
    (after .leaseRegister (leaseMail ([1, 0, 1, 0] ++ natBytes 4 64 ++ natBytes 4 16) [] [(1, 32, 32)]) (fun t => t.svc.freeMap == [(1, 32, 48)]) &&
     after .leaseGrant (leaseMail grantMail [] [(2, 64, 16)]) (fun t => t.svc.freeMap == [(2, 72, 8)] && exState (extent t 0) == 1) &&
     after .leaseRenew (leaseMail [3, 0, 1, 0, 9, 0] (extNine 2) []) (fun t => exState (extent t 9) == 1 && exEnd (extent t 9) == 10500000000) &&
     after .leaseRenewAll (leaseMail [4, 0] (extNine 2) []) (fun t => exState (extent t 9) == 1) &&
     after .leaseRelease (leaseMail [5, 0, 9, 0] (extNine 2) []) (fun t => exState (extent t 9) == 3) &&
     after .leaseRevoke (leaseMail [6, 0, 9, 0] (extNine 1) []) (fun t => exState (extent t 9) == 3) &&
     after (.scrubComplete 9) scrubbed (fun t => t.svc.freeMap == [(1, 0, 4)] && exState (extent t 9) == 0) &&
     after (.scrubStart 9) (leaseMail [] (extNine 4) []) (fun t => mhas 9 t.svc.scrubs) &&
     after .leaseGrant { peerMail ([2, 2] ++ List.replicate 54 0 ++ [9, 0]) 3 with mf := { drained := [9] } } (fun t => exState (extent t 9) == 4) &&
     after .leaseRevoke (peerMail [6, 0, 9, 0] 1) (fun t => exState (extent t 9) == 3 && t.svc.drainWait.length == 1) &&
     after .leaseScan (leaseMail [] (extNine 1) []) (fun t => exState (extent t 9) == 3 && t.chv.lscanAt == 10000000000)) = true := by decide +kernel

end F25

/-! ### CodecJobsCodeTheirBlocks -/
namespace F26

/-- Codec job 2 of port die 1 with an operation, over two lines of FMT 2, its alias node 40 and group 3. -/
def codecState (op : Nat) (x : CodecRun) : State := { base with
  cod := { jobs := [(10, 1 + 4 * op + 16 * 2 + 2 ^ 8 * 5 + 2 ^ 28 * 40 + 2 ^ 128 * 2 ^ 24 + 2 ^ 192 * 2)], runs := [(10, x)]
           slots := [(7, 1 + 2 ^ 3 * 2 + 2 ^ 7 * 6)] }
  tab := { live := [(tkey 0x0010 40, 4 + 8 * 3), (tkey 0x0018 3, 2 ^ 16 + 2 ^ 27), (tkey 0x0019 0, 781)] } }
def withTable (s : State) : State := { s with cod := { s.cod with slots := [(7, 1 + 2 ^ 3 * 2 + 2 ^ 7 * 5)] } }
/-- Two lines: a RAW block of one line of zeros. -/
def rawTwo : List Byte := rawBlock 2 (List.replicate 64 0)
/-- Runs whose two source lines have come: zeros, or the RAW block. -/
def twoRead : CodecRun := { asked := 2, buf := [(0, List.replicate 128 0)] }
def rawRead : CodecRun := { asked := 2, buf := [(0, rawTwo.take 64), (1, rawTwo.drop 64)] }
/-- A BUILD that has read its two lines. -/
def counted : CodecRun := { read := 2, hist := expHist 2 (List.replicate 128 0) }
theorem witness_codecAsk :
    (jobRuns (codecState 1 {}) 10 1 = true ∧ jobBad (codecState 1 {}) 1 (codecJob (codecState 1 {}) 10) = false ∧ CodecQuiet (codecState 1 {}) 1 2 ∧
      nextLines (codecState 1 {}) 10 64 = 2) ∧
    (jobRuns (codecState 2 {}) 10 2 = true ∧ jobBad (codecState 2 {}) 1 (codecJob (codecState 2 {}) 10) = false ∧ nextLines (codecState 2 {}) 10 64 = 2) ∧
    (jobRuns (codecState 3 {}) 10 3 = true ∧ jobBad (codecState 3 {}) 1 (codecJob (codecState 3 {}) 10) = false ∧ nextLines (codecState 3 {}) 10 64 = 2) := by
  unfold CodecQuiet; decide +kernel
theorem witness_build :
    (let q := codecState 1 twoRead
     jobRuns q 10 1 = true ∧ jobBad q 1 (codecJob q 10) = false ∧ CodecQuiet q 1 2 ∧ nextLines q 10 64 = 2 ∧ (codecRun q 10).asked = 2) ∧
    (let q := codecState 1 counted
     jobRuns q 10 1 = true ∧ jobBad q 1 (codecJob q 10) = false ∧ CodecQuiet q 1 2 ∧ nextLines q 10 64 = 0 ∧ replacing q (cjTid (codecJob q 10)) = false ∧
      storeDown q = false ∧ leastBelow 4096 (fun n => tsState (tslot q n) == 0) = some 0) ∧
    storeDown { codecState 1 counted with tier := { stacksFailed := [1] } } = true := by unfold CodecQuiet; decide +kernel
theorem witness_code :
    (let q := withTable (codecState 2 twoRead)
     jobRuns q 10 2 = true ∧ jobBad q 1 (codecJob q 10) = false ∧ CodecQuiet q 1 2 ∧ nextLines q 10 64 = 2 ∧ currentSlot q (cjTid (codecJob q 10)) = some 7) ∧
    (let q := withTable (codecState 3 rawRead)
     jobRuns q 10 3 = true ∧ jobBad q 1 (codecJob q 10) = false ∧ CodecQuiet q 1 2 ∧ nextLines q 10 65 = 2 ∧ ((codecRun q 10).buf.map (·.2)).flatten = rawTwo ∧
       bhClen (byteAt rawTwo 0 16) = 2 ∧ headerOk (byteAt rawTwo 0 16) = true ∧ bhRaw (byteAt rawTwo 0 16) = true ∧ (decodeBlock none rawTwo).1 = stOK) ∧
    (headerOk (byteAt (List.replicate 128 0) 0 16) = false ∧ jobRuns (codecState 3 twoRead) 10 3 = true) ∧
    (jobRuns ({ codecState 2 {} with tab := {} }) 10 2 = true ∧ jobBad { codecState 2 {} with tab := {} } 1 (codecJob (codecState 2 {}) 10) = true) ∧
    (jobState (codecJob (codecState 2 { fin := some 0 }) 10) = 1 ∧ mhas 10 (codecState 2 { fin := some 0 }).cod.runs = true ∧ CodecQuiet (codecState 2 { fin := some 0 }) 1 2) := by
  unfold CodecQuiet; decide +kernel
theorem test_codec :
    (after (.codecBuild 1 2) (codecState 1 {}) (fun t => (codecRun t 10).asked == 2 && (codecRun t 10).out.length == 1) &&
     after (.codecBuild 1 2) (codecState 1 twoRead) (fun t => (codecRun t 10).read == 2 && (codecRun t 10).hist == counted.hist) &&
     after (.codecBuild 1 2) (codecState 1 counted) (fun t => (codecRun t 10).fin == some stOK && tsState (tslot t 0) == 1 && tsTid (tslot t 0) == 5) &&
     after (.codecReencode 1 2) (withTable (codecState 3 rawRead)) (fun t => (codecRun t 10).read == 2 && (codecRun t 10).out.length == 1) &&
     after (.codecReencode 1 2) (withTable (codecState 3 twoRead)) (fun t => (codecRun t 10).fin == some stViolation) &&
     after (.codecJobDone 1 2) (codecState 2 { read := 2, wrote := 9 }) (fun t => jobState (codecJob t 10) == 2 && fld (codecJob t 10) 224 32 == 9)) = true := by decide +kernel
theorem test_encode :
    after (.codecEncode 1 2) (withTable (codecState 2 twoRead)) (fun t => (codecRun t 10).read == 2 && (codecRun t 10).out.length == 1) = true := by decide +kernel

end F26

/-! ### PagesMoveBetweenTiers -/
namespace F27

/-- Page 4 of stack 0 at rest in the pool tier, with a read held for it. -/
def farPage : State := { base with tier := {
  pages := [(4, 2 + 2 ^ 3)], held := [(0, [{ page := 4 }])] }, tab := { live := [(tkey 0x0028 0, 5)] } }
/-- The same page on its way to frame 3, or to the pool. -/
def movingPage (x : Move) (v : Nat) : State := { base with tier := { pages := [(4, v)], moves := [x] } }
def inMove : Move := { page := 4, loc := 3, dest := 0, src := 1, reading := true }
def outMove : Move := { page := 4, loc := 3, dest := 1, src := 0, asked := true }
/-- Tier job 2 with an entry and a run. -/
def tierWork (v : Nat) (x : TierRun) : State := { farPage with tier := { farPage.tier with jobs := [(2, v)], runs := [(2, x)] } }
def moveJob (dest pages : Nat) : Nat := 1 + 2 ^ 2 + 2 ^ 4 * dest + 2 ^ 64 * 4 + 2 ^ 96 * pages
def prefetchJob (n : Nat) : Nat := 1 + 2 ^ 3 + 2 ^ 10 * 4 + 2 ^ 64 * n + 2 ^ 192 * (2 ^ 32 - 1)
/-- The order entry of extent 9 that covers page 4, and the extent. -/
def withOrder (s : State) : State := { s with tab := { live := [(tkey 0x0013 9, 2 ^ 10 + 2 ^ 24 * 4 + 2 ^ 56 * 1 + 2 ^ 88), (tkey 0x0028 0, 5)] } }
/-- The page on its way to frame 3 with what the pool has answered. -/
def readPage (st : Nat) (got : SMap (List Byte)) : State :=
  let q := movingPage inMove 11
  { q with svc := { reads := [(moveKey 4, { got := got, status := st })] } }
theorem witness_moves :
    (moveOf farPage 4 = none ∧ heldFor farPage 4 ≠ [] ∧ pgState (page farPage 4) = 2 ∧ pgTier (page farPage 4) ≠ 0 ∧
      quotaRoom farPage 0 (pgCtx (page farPage 4)) = true ∧ freeFrame farPage (stackOf farPage 4) = some 0) ∧
    (moveOf (movingPage inMove 11) 4 = some inMove ∧ pgState (page (movingPage inMove 11) 4) = 3 ∧ pgTier (page (movingPage inMove 11) 4) ≠ 0 ∧
      inMove.reading = true ∧ inMove.asked = false ∧
      freeFrame (dropMove 4 (movingPage inMove 11)) (stackOf (movingPage inMove 11) 4) = some 0 ∧ mget [] (homeOf 4) (movingPage inMove 11).tier.held = []) ∧
    (moveOf (movingPage outMove 3) 4 = some outMove ∧ ownOpen (movingPage outMove 3) 9 4 = false) ∧ pgFixed (page (movingPage outMove 3) 4) = false ∧
    (moveOf (movingPage { inMove with reading := false } 11) 4 = some { inMove with reading := false } ∧
      ownOpen (movingPage { inMove with reading := false } 11) 11 (moveKey 4) = false) ∧
    (poolGot (readPage stPoison []) (moveKey 4)).any (fun r => r.status != stOK) = true ∧
    sourceGot (readPage stOK [(0, List.replicate 65536 0)]) inMove [] = some { status := stOK, data := List.replicate 65536 0 } ∧
      (List.replicate 65536 (0 : Byte)).length = 65536 := by
  refine ⟨by decide +kernel, by decide +kernel, by decide +kernel, by decide +kernel, by decide +kernel, by decide +kernel, ?_, List.length_replicate ..⟩
  show some { status := stOK, data := List.flatten [List.replicate 65536 0] : PoolAns } = _
  rw [List.flatten_cons, List.flatten_nil, List.append_nil]
theorem witness_tierMove :
    (let q := tierWork (moveJob 1 1) {}
     tierRuns q 2 1 = true ∧ tjTo (tierJob q 2) = 1 ∧ (tierRun q 2).at_ < tjPages (tierJob q 2) ∧ mayName q 2 4 = true ∧ restTier (page q 4) = 1) ∧
    (let q := tierWork (moveJob 0 1) {}
     tierRuns q 2 1 = true ∧ tjFirst (tierJob q 2) = 4 ∧ mayName q 2 4 = true ∧ pgFixed (page q 4) = false ∧ moveOf q 4 = none ∧ quotaRoom q 0 0 = true) ∧
    (let q := tierWork (moveJob 0 1) { at_ := 1 }
     tierRuns q 2 1 = true ∧ tjPages (tierJob q 2) ≤ (tierRun q 2).at_ ∧ q.tier.moves = []) ∧
    (let q := tierWork (moveJob 0 1) { fin := some 0 }
     jobState (tierJob q 2) = 1 ∧ (tierRun q 2).fin = some 0) ∧
    (let q := tierWork (moveJob 0 1 + 2 ^ 17 * 9) {}
     jobState (tierJob q 2) = 1 ∧ (tierRun q 2).fin = none ∧ ctxState q (tjCtx (tierJob q 2)) ≠ 1) := by decide +kernel
theorem witness_tierPrefetch :
    (let q := withOrder (tierWork (prefetchJob 1) {})
     tierRuns q 2 2 = true ∧ tjFirst (tierJob q 2) = 1 ∧ lastNear q (tierRun q 2) 1 = false ∧ lookAhead q (tierRun q 2) 1 1 0 4 = .read 0 ∧
       mhas (tierKey 2) q.svc.reads = false ∧ ownOpen q 11 (tierKey 2) = false ∧
       poolGot ({ q with svc := { reads := [(tierKey 2, { got := [(0, List.replicate 64 0)] })] } }) (tierKey 2) = some { data := List.replicate 64 0 } ∧
       (tjAck (tierJob q 2) + 1) % 2 ^ 32 = 0 ∧ tjDepth (tierJob q 2) = 4) ∧
    (let q := withOrder (tierWork (prefetchJob 1) { ents := [(0, { ext := 9, lines := 1024 })] })
     lastNear q (tierRun q 2) 1 = false ∧ lookAhead q (tierRun q 2) 1 2 0 4 = .fetch 4 ∧ mayName q 2 4 = true ∧ freeFrame q (stackOf q 4) = some 0 ∧
       quotaRoom q 0 (pgCtx (page q 4)) = true) ∧
    (let q : State := { withOrder (tierWork (prefetchJob 1) {}) with tier := { pages := [(4, 1)], jobs := [(2, prefetchJob 1)], runs := [(2, { ents := [(0, { ext := 9, lines := 1024 })] })] } }
     tierRuns q 2 2 = true ∧ lastNear q (tierRun q 2) (tjFirst (tierJob q 2)) = true) := by decide +kernel
/-- A context with one near page more than its quota, and a backing extent. -/
def overQuota : State := { base with
  tier := { pages := [(4, 1)] }
  tab := { live := [(tkey 0x0013 9, 2 ^ 10 * 2 + 2 ^ 56 * 4 + 2 ^ 88 + 2 ^ 91 + 2 ^ 107 * 1), (tkey 0x0028 0, 2 ^ 22 * 4)] } }
/-- A context with one pool page more than its quota, and a host port's place for it. -/
def overFar : State := { base with
  tier := { pages := [(4, 2 + 2 ^ 3)] }
  tab := { live := [(tkey 0x0028 0, 2 ^ 54 * 4), (tkey 0x002A 0, 2 ^ 64 * 8 + 2 ^ 96)] }
  hst := { ports := [(0, { linkUp := true })] } }
theorem witness_quota : overNear overFar 0 = false ∧ (evictFar 0 1 overFar).isSome = true ∧ overNear overQuota 0 = true ∧ (evictOne 0 7 overQuota).isSome = true := by decide +kernel
theorem test_tier :
    (after (.pageMoveStart 4 0) farPage (fun t => t.tier.moves.map (·.loc) == [0] && t.tier.frames == [0]) &&
     after (.pageMoveFlip 4 []) (movingPage outMove 3) (fun t => pgState (page t 4) == 2 && t.tier.moves == []) &&
     after (.tierHoldTimeout 0) farPage (fun t => t.tier.held == []) &&
     after (.tierMove 2) (tierWork (moveJob 1 1) {}) (fun t => (tierRun t 2).at_ == 1) &&
     after (.tierMove 2) (tierWork (moveJob 0 1) {}) (fun t => t.tier.moves.map (·.job) == [some 2]) &&
     after (.tierMove 2) (tierWork (moveJob 0 1) { at_ := 1 }) (fun t => (tierRun t 2).fin == some stOK) &&
     after (.tierPrefetch 2) (let q := withOrder (tierWork (prefetchJob 1) {}); { q with svc := { reads := [(tierKey 2, { got := [(0, List.replicate 64 0)] })] } }) (fun t => mkeys (tierRun t 2).ents == [0]) &&
     after (.tierPrefetch 2) (withOrder (tierWork (prefetchJob 1) { ents := [(0, { ext := 9, lines := 1024 })] })) (fun t => t.tier.moves.map (·.page) == [4]) &&
     after (.tierJobDone 2) (tierWork (moveJob 0 1) { fin := some 0 }) (fun t => jobState (tierJob t 2) == 2)) = true := by decide +kernel
theorem test_quota : (evictOne 0 7 overQuota).map (fun t => t.tier.moves.map (fun m => (m.page, m.dest))) = some [(4, 1)] := by decide +kernel

end F27

/-! ### SearchesFindTheFirstEntry -/
namespace F28

/-- Table 7 of owner 3 on rows 16 to 47 of 160-bit entries, with an entry for key 9. -/
def withTable7 (c : Nat) (s : State) : State := { s with
  tab := { live := [(tkey 0x0020 7, 1 + 2 ^ 3 * 16 + 2 ^ 20 * 32 + 2 ^ 38 * 3 + 2 ^ 50 * c), (tkey 0x0022 0, 1 + 2 ^ 1 * 2 + 2 ^ 3 * 3)] }
  per := { s.per with rows := [(17, 9 + 2 ^ 256 * (2 ^ 160 - 1) + 2 ^ 512 * 77 + 2 ^ 544)] } }
def srchWord (opc d b : Nat) : Nat := opc + 2 ^ 16 * d + 2 ^ 20 * 2 + 2 ^ 24 * b + 2 ^ 32 * 7
def srchAt (opc d b : Nat) (a : List (Nat × Nat × Word)) : State :=
  let s := onTileWord (srchWord opc d b) { v := [(2, 9)], s := [(1, BitVec.ofNat 64 (2 ^ 19 + 16))] }
  let s := withTable7 0 s
  { s with per := { s.per with answers := a } }
def casAt (c : Nat) (p : Peridot) : State := withTable7 c { base with per := p }
theorem witness_srch :
    (∀ o d, (o = 0x80 ∧ d = 5) ∨ (o = 0x82 ∧ d = 3) → let s := srchAt o d 0 []
      isSite (.tile 0) = true ∧ siteReady s (.tile 0) = true ∧ fetchWord s (.tile 0) = some (srchWord o d 0) ∧
      srchWord o d 0 &&& (fOpc + fD + fA + fTable) = srchWord o d 0 ∧ vreg s (.tile 0) 2 = some 9 ∧ maySearch s (siteCtx s (.tile 0)) 7 = true ∧
      keysOut s 0 = 0 ∧ answersOf s 0 = [] ∧ stWidth (searchTable s 7) = 0) ∧
    (let s := srchAt 0x81 5 1 []
     fetchWord s (.tile 0) = some (srchWord 0x81 5 1) ∧ srchWord 0x81 5 1 &&& (fOpc + fD + fA + fB + fTable) = srchWord 0x81 5 1 ∧
       bit (sreg s (.tile 0) 1).toNat 19 = true) ∧
    maySearch { srchAt 0x80 5 0 [] with tab := {} } 3 7 = false ∧ searching (srchAt 0x80 5 0 []) 0 = false ∧
    (let s := casAt 0 { queue := [(2, [{ src := 20, table := 7, ctx := 3, key := 9 }])] }
     nextSource s 0 = some 2 ∧ otherPort s 0 { src := 20, table := 7, ctx := 3, key := 9 } = none) ∧
    (let s := casAt 0 { queue := [(34, [{ src := 148, table := 7, ctx := 3, key := 9 }])] }
     nextSource s 1 = some 2 ∧ otherPort s 1 { src := 148, table := 7, ctx := 3, key := 9 } = some 0) := by
  refine ⟨?_, by decide +kernel, by decide +kernel, by decide +kernel, by decide +kernel, by decide +kernel⟩
  rintro o d (⟨rfl, rfl⟩ | ⟨rfl, rfl⟩) <;> decide +kernel
theorem witness_cascade :
    (let s := casAt 1 { queue := [(0, [{ src := 4, table := 7, ctx := 3, key := 9 }])] }
     stCascade (searchTable s 7) = true ∧ casEn s = true ∧ ownCas s = 0 ∧ casPos s = 2 ∧ casSize s = 4) ∧
    (let s := casAt 1 { cas := [{ origin := 2, oseq := 5, src := 9, searched := true, words := [(0, false, false), (1, false, false)] }] }
     (findCas s 2 5).map (·.src) = some 9 ∧ (casPos s + 1 + 0) % 4 = 3) := by decide +kernel
theorem test_search :
    (after (.srch (.tile 0)) (srchAt 0x80 5 0 []) (fun u => (portKeys u 0).length == 1 && sitePc u (.tile 0) == 8) &&
     after (.srch (.tile 0)) (srchAt 0x80 5 0 [(0, 0, 6)]) (fun u => sreg u (.tile 0) 5 == 6 && sitePc u (.tile 0) == 9 && u.per.answers == []) &&
     after (.srch (.tile 0)) { srchAt 0x80 5 0 [] with tab := {} } (fun u => sreg u (.tile 0) 5 == deniedWord) &&
     after (.srchnext (.tile 0)) (srchAt 0x81 5 1 []) (fun u => (portKeys u 0).map (·.after) == [some 16]) &&
     after (.srchp (.tile 0)) (srchAt 0x82 3 0 [(0, 3, 2 ^ 19), (0, 1, 0), (0, 0, 2 ^ 19), (0, 2, 0)]) (fun u => preg u (.tile 0) 3 == some (2 ^ 32 - 1 + 2 ^ 128 - 2 ^ 96)) &&
     after (.peridotSearch 0) (casAt 0 { queue := [(0, [{ src := 4, table := 7, ctx := 3, key := 9 }])] }) (fun u => u.per.answers == [(4, 0, BitVec.ofNat 64 (17 + 2 ^ 19 + 2 ^ 32 * 77))]) &&
     after (.peridotSearch 0) (casAt 1 { queue := [(0, [{ src := 4, table := 7, ctx := 3, key := 9 }])] }) (fun u => u.out == [.casKey 2 0 7 3 9 none, .matchWord (2 + 2 ^ 10)] && u.per.answers == []) &&
     after (.cascadeKey 0 5 7 3 9 none) (casAt 1 {}) (fun u => u.out.length == 2) &&
     after (.matchWord 0 (2 + 4 * 5)) (casAt 1 { cas := [{ origin := 2, oseq := 5, src := 9, searched := true, words := [(0, false, false), (1, false, false)] }] })
       (fun u => u.per.answers == [(9, 0, missWord)] && u.per.cas == []) &&
     after (.matchWord 0 (2 + 4 * 5)) (casAt 1 { cas := [{ origin := 2, oseq := 5 }] }) (fun u => u.per.cas.map (·.words) == [[(3, false, false)]]) &&
     after (.cascadeResult 2 5 4) (casAt 1 { cas := [{ origin := 2, oseq := 5, src := 9, searched := true }] }) (fun u => u.per.answers == [(9, 0, 4)]) &&
     after (.cascadeTimeout 5) (casAt 1 { cas := [{ origin := 2, oseq := 5, src := 9, searched := true }] }) (fun u => u.per.broken && u.per.answers == [(9, 0, deniedWord)])) = true := by decide +kernel

end F28

/-! ### ScalarRowsWriteTheirRegister -/
namespace F29

/-- s2 = s1 op IMM 5 on a tile and on Chervil. -/
def aluWord (opc : Nat) : Nat := opc + 2 ^ 16 * 2 + 2 ^ 20 * 1 + 2 ^ 31 + 2 ^ 32 * 5
def aluAt (w : Nat) : State := onTileWord w { s := [(1, 0x8000000000000043)], v := [(3, 2 ^ 64 * 9 + 7)] }
theorem witness_alu :
    (∀ c ∈ [3, 4, 5, 6, 7, 8, 9, 10, 11, 12, 13], let s := aluAt (aluWord c)
      siteReady s (.tile 0) = true ∧ fetchWord s (.tile 0) = some (aluWord c) ∧ aluWord c % 256 = c ∧ aluWord c &&& fAlu (aluWord c) = aluWord c ∧
        wD (aluWord c) < 8 ∧ wA (aluWord c) < 8 ∧ wImmf (aluWord c) = true) ∧
    (let w := aluWord 3 + 2 ^ 19; fetchWord (aluAt w) (.tile 0) = some w ∧ w &&& fAlu w = w ∧ 8 ≤ wD w) ∧
    (let w := aluWord 3 + 2 ^ 8; fetchWord (aluAt w) (.tile 0) = some w ∧ w &&& fAlu w ≠ w) := by decide +kernel
theorem witness_moves_scalar :
    (let w := 0x01 + 2 ^ 16 * 2 + 2 ^ 24 * 1; fetchWord (aluAt w) (.tile 0) = some w ∧ w &&& (fOpc + fD + fLast w) = w ∧ wD w < 8 ∧ wB w < 8) ∧
    (let w := 0x02 + 2 ^ 16 * 2 + 2 ^ 32 * 77; fetchWord (aluAt w) (.tile 0) = some w ∧ w &&& (fOpc + fD + fImm) = w ∧ wD w < 8) ∧
    (let w := 0x10 + 2 ^ 16 * 2 + 2 ^ 20 * 3 + 2 ^ 32 * 1
     fetchWord (aluAt w) (.tile 0) = some w ∧ w &&& (fOpc + fD + fA + fImm) = w ∧ wImm w < 16 ∧ (vreg (aluAt w) (.tile 0) (wA w)).isSome = true ∧
       vreg (onTileWord w {}) (.tile 0) (wA w) = none ∧ fetchWord (onTileWord w {}) (.tile 0) = some w ∧
       fetchWord (onThreadWord w {}) (.thread 33) = some w ∧ siteReady (onThreadWord w {}) (.thread 33) = true) ∧
    (let w := 0x11 + 2 ^ 16 * 2
     fetchWord (onChervilWord w {}) .chervil = some w ∧ siteReady (onChervilWord w {}) .chervil = true ∧ w &&& (fOpc + fD) = w ∧
       fetchWord (aluAt w) (.tile 0) = some w) := by decide +kernel
theorem test_scalar :
    ([(Instr.sadd, 3, 0x8000000000000048), (Instr.ssub, 4, 0x800000000000003E), (Instr.smul, 5, 0x800000000000014F), (Instr.sand, 6, 1),
      (Instr.sor, 7, 0x8000000000000047), (Instr.sxor, 8, 0x8000000000000046), (Instr.sshl, 9, 0x860), (Instr.sshr, 10, 0x0400000000000002),
      (Instr.ssra, 11, 0xFC00000000000002), (Instr.smin, 12, 0x8000000000000043), (Instr.smax, 13, (5 : Word))].all
        (fun r => after (r.1 (.tile 0)) (aluAt (aluWord r.2.1)) (fun t => sreg t (.tile 0) 2 == r.2.2 && sreg t (.tile 0) 1 == 0x8000000000000043 && sitePc t (.tile 0) == 9)) &&
     after (.smov (.thread 33)) (onThreadWord (0x01 + 2 ^ 16 * 2 + 2 ^ 31 + 2 ^ 32 * (2 ^ 32 - 1)) {}) (fun t => sreg t (.thread 33) 2 == 0xFFFFFFFFFFFFFFFF) &&
     after (.smovh .chervil) (onChervilWord (0x02 + 2 ^ 16 * 2 + 2 ^ 32 * 77) { s := [(2, 0xFFFFFFFF00000005)] }) (fun t => sreg t .chervil 2 == 0x0000004D00000005) &&
     after (.sext (.tile 0)) (aluAt (0x10 + 2 ^ 16 * 2 + 2 ^ 20 * 3 + 2 ^ 32)) (fun t => sreg t (.tile 0) 2 == 9) &&
     after (.stime .chervil) (onChervilWord (0x11 + 2 ^ 16 * 2) {}) (fun t => sreg t .chervil 2 == 10000000000) &&
     after (.sadd (.thread 33)) (onThreadWord (0x03 + 2 ^ 8) {}) (fun t => !(t.thread 33).running)) = true := by decide +kernel

end F29

/-! ### LoadsStoresAndBranches -/
namespace F30

def memWord (opc d b disp : Nat) : Nat := opc + 2 ^ 16 * d + 2 ^ 20 * 1 + 2 ^ 24 * b + 2 ^ 32 * disp
def memAt (w : Nat) : State := onTileWord w { s := [(1, 264), (4, 0x1122334455667788)], p := [(2, 1)], stack := [12] }
/-- Line 10 of the scratch, the third of the window, poisoned. -/
def poisonAt (w : Nat) : State := { memAt w with ctl := { (memAt w).ctl with
  tiles := ((memAt w).ctl.tiles).map (fun e => (e.1, { e.2 with valid := [10], poison := [42] })) } }
def cmpWord (opc imm off : Nat) : Nat := opc + 2 ^ 20 * 1 + 2 ^ 31 + 2 ^ 32 * imm + 2 ^ 48 * off
theorem witness_mem :
    (let w := memWord 0x0E 2 0 (2 ^ 32 - 8)
     siteReady (memAt w) (.tile 0) = true ∧ fetchWord (memAt w) (.tile 0) = some w ∧ w &&& (fOpc + fD + fA + fImm) = w ∧ memAddr (memAt w) (.tile 0) w = 256 ∧
       memOk (memAt w) (.tile 0) 256 8 8 = true ∧ readPoison (memAt w) (.tile 0) 256 8 = false ∧ readPoison (poisonAt w) (.tile 0) 256 8 = true) ∧
    (let w := memWord 0x0F 0 4 760
     fetchWord (memAt w) (.tile 0) = some w ∧ w &&& (fOpc + fA + fB + fImm) = w ∧ memOk (memAt w) (.tile 0) (memAddr (memAt w) (.tile 0) w) 8 8 = false) ∧
    (∀ c ∈ [0x0E, 0x0F], let w := memWord c 0 0 (2 ^ 32 - 272); (sreg (memAt w) (.tile 0) (wA w)).toNat + sextN 32 (wImm w) < (0 : Int)) := by decide +kernel
theorem witness_branches :
    (∀ c ∈ [0x21, 0x22, 0x23, 0x24, 0x25, 0x26], let w := cmpWord c 264 3
      fetchWord (memAt w) (.tile 0) = some w ∧ w % 256 = c ∧ w &&& fCmp w = w ∧ (siteRange (memAt w) (.tile 0)) = (8, 16) ∧ sitePc (memAt w) (.tile 0) = 8) ∧
    (∀ c ∈ [0x20, 0x29], let w := c + 2 ^ 32 * 7; fetchWord (memAt w) (.tile 0) = some w ∧ w &&& (fOpc + fImm) = w) ∧
    (∀ c ∈ [0x27, 0x28], let w := c + 2 ^ 28 * 2 + 2 ^ 32 * 7
      fetchWord (memAt w) (.tile 0) = some w ∧ w &&& (fOpc + fP + fImm) = w ∧ preg (memAt w) (.tile 0) (wP w) = some 1 ∧ preg (onTileWord w {}) (.tile 0) (wP w) = none) ∧
    fetchWord (memAt 0x2A) (.tile 0) = some 0x2A ∧ siteStack (memAt 0x2A) (.tile 0) = [12] ∧ siteStack (onTileWord 0x2A {}) (.tile 0) = [] := by decide +kernel
theorem test_mem :
    (after (.sst (.tile 0)) (memAt (memWord 0x0F 0 4 (2 ^ 32 - 8))) (fun t => readMem t (.tile 0) 256 16 == natBytes 16 0x1122334455667788 && (t.tile 0).valid == [10]) &&
     after (.sst (.tile 0)) (memAt (memWord 0x0F 0 4 760)) (fun t => (t.tile 0).run == none) &&
     after (.sld (.thread 33)) { onThreadWord (memWord 0x0E 2 0 8) { s := [(1, 8)] } with ctl := { (onThreadWord (memWord 0x0E 2 0 8) { s := [(1, 8)] }).ctl with data := [(4194304 + 16, 9)] } }
       (fun t => sreg t (.thread 33) 2 == 9)) = true := by decide +kernel
theorem test_branches :
    ([(Instr.brEq, 0x21, 264, 11), (Instr.brNe, 0x22, 264, 9), (Instr.brLt, 0x23, 65535, 9), (Instr.brGe, 0x24, 65535, 11), (Instr.brLtu, 0x25, 65535, 11), (Instr.brGeu, 0x26, 65535, 9)].all
        (fun r => after (r.1 (.tile 0)) (memAt (cmpWord r.2.1 r.2.2.1 3)) (fun t => sitePc t (.tile 0) == r.2.2.2)) &&
     after (.br (.tile 0)) (memAt (0x20 + 2 ^ 32 * 7)) (fun t => sitePc t (.tile 0) == 15) &&
     after (.br (.tile 0)) (memAt (0x20 + 2 ^ 32 * 8)) (fun t => (t.tile 0).run == none) &&
     after (.brpAny (.tile 0)) (memAt (0x27 + 2 ^ 28 * 2 + 2 ^ 32 * 7)) (fun t => sitePc t (.tile 0) == 15) &&
     after (.brpNone (.tile 0)) (memAt (0x28 + 2 ^ 28 * 2 + 2 ^ 32 * 7)) (fun t => sitePc t (.tile 0) == 9) &&
     after (.call (.tile 0)) (memAt (0x29 + 2 ^ 32 * 7)) (fun t => sitePc t (.tile 0) == 15 && siteStack t (.tile 0) == [9, 12]) &&
     after (.ret (.tile 0)) (memAt 0x2A) (fun t => sitePc t (.tile 0) == 12 && siteStack t (.tile 0) == []) &&
     after (.ret (.tile 0)) (onTileWord 0x2A {}) (fun t => (t.tile 0).run == none)) = true := by decide +kernel

end F30

/-! ### VectorRowsWriteTheirRegister -/
namespace F31

def vWord (opc f d a b imm : Nat) : Nat := opc + 2 ^ 8 * f + 2 ^ 16 * d + 2 ^ 20 * a + 2 ^ 24 * b + 2 ^ 32 * imm
/-- v1 and v2 hold elements of 32 bits, 16-bit floats 1.0 and 2.0 elsewhere; p1 selects lanes 0 to 3; s1 is 128. -/
def vecAt (w : Nat) : State := onTileWord w {
  s := [(1, 128), (2, 0x3F80)], v := [(1, 7 + 2 ^ 32 * 9), (2, 3 + 2 ^ 32 * 12), (3, 0x3F80), (4, 0x4000)]
  scale := [(1, 0x7F), (2, 0x7F)], p := [(1, 15), (2, 9)] }
def hOf (s : State) : Handler := (s.tile 0).run.getD {}
theorem witness_vec :
    (∀ c ∈ [0x40, 0x41, 0x42, 0x44, 0x45], let w := vWord c 10 5 1 2 0
      siteReady (vecAt w) (.tile 0) = true ∧ fetchWord (vecAt w) (.tile 0) = some w ∧ w &&& fVec w = w ∧ formatFault w fAll true false 10 = none ∧
        predOf (hOf (vecAt w)) w = some none ∧ (srcInts (hOf (vecAt w)) 10 1).isSome = true ∧ (srcInts (hOf (vecAt w)) 10 2).isSome = true ∧
        (srcNums (hOf (vecAt w)) false 2 3).isSome = true ∧ (srcNums (hOf (vecAt w)) true 12 1).isSome = true ∧ vOf (hOf (vecAt w)) 9 = none) ∧
    (let w := vWord 0x43 2 3 3 4 0; fetchWord (vecAt w) (.tile 0) = some w ∧ w &&& fVec w = w ∧ formatFault w fFp true false 2 = none) ∧
    (let w := vWord 0x40 14 5 1 2 0; fetchWord (vecAt w) (.tile 0) = some w ∧ formatFault w fAll true false 14 = some 4) ∧
    (∀ f ∈ [1, 10], ∀ g ∈ [2, 11], let w := vWord 0x46 f 5 1 g 0
      fetchWord (vecAt w) (.tile 0) = some w ∧ w &&& (fVec w + fImm) = w ∧ 0 * min (fmtElems g) (fmtElems f) < max (fmtElems g) (fmtElems f) ∧
        formatFault w fAll true (isMx f || isMx g) f = none) ∧
    (let w := vWord 0x46 4 5 3 2 0 + 2 ^ 12
     fetchWord (vecAt w) (.tile 0) = some w ∧ w &&& (fVec w + fImm) = w ∧ wMx w = true ∧ formatFault w fAll true true 4 = none ∧
       (srcNums (hOf (vecAt w)) (isMx 2) 2 3).isSome = true) := by decide +kernel
theorem witness_vec_bits :
    (∀ c ∈ [0x47, 0x48, 0x49], let w := vWord c 15 5 1 2 0 + 2 ^ 28 + 2 ^ 30
      fetchWord (vecAt w) (.tile 0) = some w ∧ w &&& fVec w = w ∧ moveFault w (fun f => isInt f || f == 15) = none ∧ moveFault (w + 2 ^ 14) (fun f => isInt f || f == 15) = some 5 ∧ predOf (hOf (vecAt w)) w = some (some 15)) ∧
    (∀ c ∈ [0x4A, 0x4B], let w := vWord c 10 5 1 0 31; let u := vWord c 10 5 1 0 32
      fetchWord (vecAt w) (.tile 0) = some w ∧ w &&& fShift w = w ∧ formatFault w isInt false false 10 = none ∧ formatFault u isInt false false 10 = none ∧ fetchWord (vecAt u) (.tile 0) = some u ∧ u &&& fShift u = u ∧ fmtBits (wFmt u) ≤ wImm u) ∧
    (let w := vWord 0x4C 10 3 1 2 2; fetchWord (vecAt w) (.tile 0) = some w ∧ w &&& (fOpc + fFmt + fMode + fD + fA + fB + fImm + fPred w) = w ∧ moveFault w fAll = none) ∧
    (let w := vWord 0x4D 15 5 1 2 0 + 2 ^ 28 * 2 + 2 ^ 30
     fetchWord (vecAt w) (.tile 0) = some w ∧ w &&& (fOpc + fFmt + fMode + fD + fA + fB + fP + fPen) = w ∧ moveFault w fAny = none ∧ wPen w = true ∧ pOf (hOf (vecAt w)) 2 = some 9) ∧
    (let w := vWord 0x4E 2 5 2 0 0; fetchWord (vecAt w) (.tile 0) = some w ∧ w &&& (fOpc + fFmt + fMode + fD + fA + fPred w) = w ∧ moveFault w fAll = none) ∧
    (∀ o ∈ [0, 3], let w := vWord 0x53 0 3 1 2 o; moveFault w (· == 0) = none ∧ fetchWord (vecAt w) (.tile 0) = some w ∧ w &&& (fOpc + fFmt + fMode + fD + fA + fB + fImm + fPred w) = w) ∧
    (let w := vWord 0x53 0 3 0 0 6; fetchWord (vecAt w) (.tile 0) = some w ∧ w &&& (fOpc + fFmt + fMode + fD + fA + fB + fImm + fPred w) = w) := by decide +kernel
theorem witness_vec_mem :
    (let w := vWord 0x4F 15 5 1 0 0
     fetchWord (vecAt w) (.tile 0) = some w ∧ w &&& (fOpc + fFmt + fMode + fD + fA + fImm + fPred w) = w ∧ memAddr (vecAt w) (.tile 0) w = 128 ∧ moveFault w fAny = none ∧
       memOk (vecAt w) (.tile 0) 128 128 128 = true ∧ readPoison (vecAt w) (.tile 0) 128 128 = false) ∧
    memOk (vecAt (vWord 0x4F 15 5 1 0 64)) (.tile 0) (memAddr (vecAt (vWord 0x4F 15 5 1 0 64)) (.tile 0) (vWord 0x4F 15 5 1 0 64)) 128 128 = false ∧
    (let w := vWord 0x51 4 5 1 0 8
     fetchWord (vecAt w) (.tile 0) = some w ∧ w &&& (fOpc + fFmt + fMode + fD + fA + fImm) = w ∧ moveFault w isMx = none ∧ memOk (vecAt w) (.tile 0) (memAddr (vecAt w) (.tile 0) w) 8 8 = true) := by decide +kernel
theorem test_vector :
    ([(Instr.vadd, 0x40, 10 + 2 ^ 32 * 21), (Instr.vsub, 0x41, 4 + 2 ^ 32 * (2 ^ 32 - 3)), (Instr.vmul, 0x42, 21 + 2 ^ 32 * 108), (Instr.vmax, 0x44, 7 + 2 ^ 32 * 12),
      (Instr.vmin, 0x45, 3 + 2 ^ 32 * 9)].all (fun r => after (r.1 (.tile 0)) (vecAt (vWord r.2.1 10 5 1 2 0)) (fun t => vreg t (.tile 0) 5 == some r.2.2)) &&
     after (.vfma (.tile 0)) (vecAt (vWord 0x43 2 3 3 4 0)) (fun t => vreg t (.tile 0) 3 == some 0x4040) &&
     after (.vcvt (.tile 0)) (vecAt (vWord 0x46 1 5 3 2 0)) (fun t => vreg t (.tile 0) 5 == some 0x3F800000) &&
     after (.vcvt (.tile 0)) (vecAt (vWord 0x46 10 5 3 2 0)) (fun t => vreg t (.tile 0) 5 == some 1) &&
     after (.vand (.tile 0)) (vecAt (vWord 0x47 15 5 1 2 0 + 2 ^ 28 + 2 ^ 30)) (fun t => vreg t (.tile 0) 5 == some 3) &&
     after (.vor (.tile 0)) (vecAt (vWord 0x48 15 5 1 2 0)) (fun t => vreg t (.tile 0) 5 == some (7 + 2 ^ 32 * 13)) &&
     after (.vxor (.tile 0)) (vecAt (vWord 0x49 15 5 1 2 0)) (fun t => vreg t (.tile 0) 5 == some (4 + 2 ^ 32 * 5)) &&
     after (.vshl (.tile 0)) (vecAt (vWord 0x4A 10 5 1 0 31)) (fun t => vreg t (.tile 0) 5 == some (2 ^ 31 + 2 ^ 63)) &&
     after (.vshr (.tile 0)) (vecAt (vWord 0x4B 10 5 1 0 1)) (fun t => vreg t (.tile 0) 5 == some (3 + 2 ^ 32 * 4)) &&
     after (.vshr (.tile 0)) (vecAt (vWord 0x4B 10 5 1 0 32)) (fun t => (t.tile 0).run == none)) = true := by decide +kernel
theorem test_vector_bits :
    (after (.vcmp (.tile 0)) (vecAt (vWord 0x4C 10 3 1 2 2)) (fun t => preg t (.tile 0) 3 == some 0xF0) &&
     after (.vsel (.tile 0)) (vecAt (vWord 0x4D 15 5 1 2 0 + 2 ^ 28 * 2 + 2 ^ 30)) (fun t => vreg t (.tile 0) 5 == some (7 + 2 ^ 32 * 12)) &&
     after (.vbcast (.tile 0)) (vecAt (vWord 0x4E 0 5 2 0 0 + 2 ^ 28 * 2 + 2 ^ 30)) (fun t => vreg t (.tile 0) 5 == some 0x3F80) &&
     after (.plog (.tile 0)) (vecAt (vWord 0x53 0 3 1 2 3)) (fun t => preg t (.tile 0) 3 == some 6) &&
     after (.vld (.tile 0)) (vecAt (vWord 0x4F 15 5 1 0 0)) (fun t => vreg t (.tile 0) 5 == some 0) &&
     after (.vld (.tile 0)) (vecAt (vWord 0x4F 15 5 1 0 64)) (fun t => (t.tile 0).run == none) &&
     after (.vlds (.tile 0)) (vecAt (vWord 0x51 4 5 1 0 8)) (fun t => scaleOf (hOf t) 5 == some 0)) = true := by decide +kernel

end F31

/-! ### ElementsWrapSaturateOrStay -/
namespace F32

def hOf32 (s : State) : Handler := (s.tile 0).run.getD {}
def intAt (w : Nat) : State := onTileWord w { v := [(1, 0x80 + 2 ^ 8 * 0x7F), (2, 0x80 + 2 ^ 8 * 2), (5, 0x11 + 2 ^ 8 * 0x22)], p := [(1, 2)] }
def int8Word (opc : Nat) (sat : Bool) : Nat := opc + 2 ^ 8 * 12 + (if sat then 2 ^ 14 else 0) + 2 ^ 16 * 5 + 2 ^ 20 * 1 + 2 ^ 24 * 2 + 2 ^ 28 + 2 ^ 30
theorem witness_elements :
    ∀ c ∈ [0x40, 0x41, 0x42], let w := int8Word c true
      siteReady (intAt w) (.tile 0) = true ∧ fetchWord (intAt w) (.tile 0) = some w ∧ w &&& fVec w = w ∧ isInt (wFmt w) = true ∧ wMx w = false ∧ wRnd w = false ∧
        predOf (hOf32 (intAt w)) w = some (some 2) ∧ elemSel (some 2) 12 1 = true ∧ elemSel (some 2) 12 0 = false ∧
        (vOf (hOf32 (intAt w)) 1).isSome = true ∧ (vOf (hOf32 (intAt w)) 2).isSome = true := by decide +kernel
theorem test_elements :
    ([(Instr.vadd, 0x40, true, 0x7F11), (Instr.vadd, 0x40, false, 0x8111), (Instr.vsub, 0x41, true, 0x7D11), (Instr.vmul, 0x42, true, 0x7F11), (Instr.vmul, 0x42, false, 0xFE11)].all
      (fun r => after (r.1 (.tile 0)) (intAt (int8Word r.2.1 r.2.2.1)) (fun t => vreg t (.tile 0) 5 == some r.2.2.2))) = true := by decide +kernel

end F32

/-! ### ReduceRowsAccumulate -/
namespace F33

def hOf33 (s : State) : Handler := (s.tile 0).run.getD {}
def rWord (opc f d a b imm : Nat) : Nat := opc + 2 ^ 8 * f + 2 ^ 16 * d + 2 ^ 20 * a + 2 ^ 24 * b + 2 ^ 32 * imm
/-- v1 holds INT32 7, 9; v3 BF16 1.0, 0, 2.0; scratch line 8 (the window's first) holds INT32 5; s1 0, s2 FP32 0.5. -/
def redAt (w : Nat) : State :=
  let s := onTileWord w {
    s := [(2, 0x3F000000)], v := [(1, 7 + 2 ^ 32 * 9), (3, 0x3F80 + 2 ^ 32 * 0x4000)], p := [(1, 5)]
    scale := [(1, 0x7F7F)] }
  { s with ctl := { s.ctl with tiles := s.ctl.tiles.map (fun e => (e.1, { e.2 with scratch := [(1024, 5)], valid := [8] })) } }
theorem witness_reduce :
    (∀ d ∈ [0, 1, 2, 3, 4], let w := rWord 0x60 10 d 1 1 0
      siteReady (redAt w) (.tile 0) = true ∧ fetchWord (redAt w) (.tile 0) = some w ∧ w &&& (fAcc w + fW) = w ∧ accFmt 10 false false = some 10 ∧
        (srcInts (hOf33 (redAt w)) 10 1).isSome = true ∧ memOk (redAt w) (.tile 0) (memAddr (redAt w) (.tile 0) w) 128 128 = true ∧
        readPoison (redAt w) (.tile 0) (memAddr (redAt w) (.tile 0) w) 128 = false ∧ accLines 10 10 = 1) ∧
    (let w := rWord 0x60 10 7 1 1 0; fetchWord (redAt w) (.tile 0) = some w ∧ w &&& (fAcc w + fW) = w ∧ 4 < wD w) ∧
    (let w := rWord 0x60 10 0 1 1 1024; fetchWord (redAt w) (.tile 0) = some w ∧ memOk (redAt w) (.tile 0) (memAddr (redAt w) (.tile 0) w) 128 128 = false) ∧
    (∀ d ∈ [0, 1, 2], let w := rWord 0x60 2 d 1 3 0 + 2 ^ 15
      fetchWord (redAt w) (.tile 0) = some w ∧ w &&& (fAcc w + fW) = w ∧ accFmt 2 true false = some 1 ∧ (srcNums (hOf33 (redAt w)) false 2 3).isSome = true ∧
        memOk (redAt w) (.tile 0) (memAddr (redAt w) (.tile 0) w) 256 128 = true ∧ accLines 2 1 = 2) ∧
    (let w := rWord 0x62 2 2 1 3 0 + 2 ^ 15
     fetchWord (redAt w) (.tile 0) = some w ∧ w &&& (fAcc w + fW) = w ∧ wSat w = false ∧ wWide w = true ∧ predOf (hOf33 (redAt w)) w = some none) ∧
    (let w := rWord 0x61 10 2 1 1 0
     fetchWord (redAt w) (.tile 0) = some w ∧ w &&& fAcc w = w ∧ formatFault w fAll false false 10 = none ∧ memOk (redAt w) (.tile 0) (memAddr (redAt w) (.tile 0) w) 256 128 = true ∧ ceilDiv (fmtElems 10) 32 = 1) := by decide +kernel
theorem witness_sparse :
    (let w := rWord 0x68 10 5 1 6 0
     fetchWord (redAt w) (.tile 0) = some w ∧ w &&& (fOpc + fFmt + fMode + fD + fA + fB + fP) = w ∧ moveFault w fByte = none) ∧
    (let w := rWord 0x69 10 5 1 0 0 + 2 ^ 28
     fetchWord (redAt w) (.tile 0) = some w ∧ w &&& (fOpc + fFmt + fMode + fD + fA + fP) = w ∧ moveFault w fByte = none ∧ pOf (hOf33 (redAt w)) 1 = some 5) ∧
    (let w := rWord 0x6A 10 5 1 0 2; fetchWord (redAt w) (.tile 0) = some w ∧ w &&& (fOpc + fFmt + fMode + fD + fA + fP + fImm) = w ∧ moveFault w fAll = none) ∧
    (let w := rWord 0x50 10 0 1 1 0 + 2 ^ 28 + 2 ^ 30
     fetchWord (redAt w) (.tile 0) = some w ∧ w &&& (fOpc + fFmt + fMode + fA + fB + fImm + fPred w) = w ∧ moveFault w fAny = none ∧ predOf (hOf33 (redAt w)) w = some (some 5)) ∧
    (let w := rWord 0x52 4 0 1 1 8
     fetchWord (redAt w) (.tile 0) = some w ∧ w &&& (fOpc + fFmt + fMode + fA + fB + fImm) = w ∧ moveFault w isMx = none ∧ scaleOf (hOf33 (redAt w)) 1 = some 0x7F7F ∧
       memOk (redAt w) (.tile 0) (memAddr (redAt w) (.tile 0) w) 8 8 = true) := by decide +kernel
theorem test_reduce :
    ([(0, 12, 9), (4, 7, 9)].all (fun r => after (.vred (.tile 0)) (redAt (rWord 0x60 10 r.1 1 1 0))
        (fun t => fld (accLine t (.tile 0) 0 0) 0 64 == r.2.1 + 2 ^ 32 * r.2.2))) = true := by decide +kernel
theorem test_widened :
    (after (.vred (.tile 0)) (redAt (rWord 0x60 2 0 1 3 128 + 2 ^ 15)) (fun t => fld (accLine t (.tile 0) 128 0) 0 128 == 0x3F800000 + 2 ^ 64 * 0x40000000)) = true := by decide +kernel
theorem test_weighted :
    (after (.vwsum (.tile 0)) (redAt (rWord 0x62 2 2 1 3 128 + 2 ^ 15)) (fun t => fld (accLine t (.tile 0) 128 0) 0 128 == 0x3F000000 + 2 ^ 64 * 0x3F800000)) = true := by decide +kernel
theorem test_maxima :
    (after (.vmaxl (.tile 0)) (redAt (rWord 0x61 10 2 1 1 0)) (fun t => fld (accLine t (.tile 0) 0 0) 0 64 == 7 + 2 ^ 32 * 9 && fld (accLine t (.tile 0) 0 1) 0 64 == 0x3F000000 * (1 + 2 ^ 32))) = true := by decide +kernel
theorem test_sparse :
    (after (.vcmpz (.tile 0)) (redAt (rWord 0x68 11 5 1 6 0)) (fun t => vreg t (.tile 0) 5 == some (7 + 2 ^ 16 * 9) && preg t (.tile 0) 0 == some 5 && sreg t (.tile 0) 6 == 2) &&
     after (.vexp (.tile 0)) (redAt (rWord 0x69 10 5 1 0 0 + 2 ^ 28)) (fun t => vreg t (.tile 0) 5 == some (7 + 2 ^ 64 * 9)) &&
     after (.vtopk (.tile 0)) (redAt (rWord 0x6A 10 5 1 0 3)) (fun t => (vreg t (.tile 0) 5).map (fun v => fld v 0 64) == some (1 + 2 ^ 32 * 2 + 2 ^ 48 * 0xFFFF) && preg t (.tile 0) 0 == some 7) &&
     after (.vst (.tile 0)) (redAt (rWord 0x50 10 0 1 1 0 + 2 ^ 28 + 2 ^ 30)) (fun t => readMem t (.tile 0) 0 9 == natBytes 9 7) &&
     after (.vsts (.tile 0)) (redAt (rWord 0x52 4 0 1 1 8)) (fun t => readMem t (.tile 0) 0 16 == natBytes 8 5 ++ natBytes 8 0x7F7F)) = true := by decide +kernel

end F33

/-! ### StreamRowsSendAndFetch -/
namespace F34

def hOf34 (s : State) : Handler := (s.tile 0).run.getD {}
def sWord (opc d a b imm : Nat) : Nat := opc + 2 ^ 16 * d + 2 ^ 20 * a + 2 ^ 24 * b + 2 ^ 32 * imm
/-- Node 1 is this module, node 9 a memory; context 3 may address all; s2 a destination word of an OPMSG of 8 B to node 1, s3 a chunk word of type 4; s4 a pool word of node 9, class 3. -/
def strAt (w : Nat) (ev : OpEvent) (closing : Bool := false) : State :=
  let s := onTileWord w {
    s := [(1, 64), (2, BitVec.ofNat 64 (0x41 + 2 ^ 8 * 2 + 2 ^ 11 * 1 + 2 ^ 25)), (3, BitVec.ofNat 64 (2 ^ 20 * 4)), (4, BitVec.ofNat 64 (9 + 2 ^ 14 * 5 + 2 ^ 58 * 3))]
    ev := ev }
  { s with
    tab := { committed := true, live := [(tkey 0x0010 1, 3), (tkey 0x0010 9, 1), (tkey 0x0030 3, 1)] }
    ctl := { s.ctl with slots := [(0, { st := .live, ctx := 3, prog := 5, wbase := 1, wsize := 1, ccount := 2, closing := closing })] } }
def blk : OpEvent := { ev := 0, len := 64, data := List.replicate 64 7, hasData := true }
theorem witness_stream :
    (let w := sWord 0xA0 5 0 0 0 + 2 ^ 31
     siteReady (strAt w blk) (.tile 0) = true ∧ fetchWord (strAt w blk) (.tile 0) = some w ∧ w &&& (fOpc + fD + fLast w) = w ∧ hasPayload (hOf34 (strAt w blk)) = true ∧
       hasPayload (hOf34 (strAt w {})) = false ∧ fld (hOf34 (strAt w { blk with pmask := 2 })).ev.pmask 0 2 ≠ 0) ∧
    (let w := sWord 0xA1 2 1 3 0; let s := strAt w {}
     fetchWord s (.tile 0) = some w ∧ w &&& (fOpc + fD + fA + fB + fImm) = w ∧ sendLen (sreg s (.tile 0) 2).toNat = 8 ∧ memOk s (.tile 0) (memAddr s (.tile 0) w) 8 8 = true ∧
       inClosing s (.tile 0) = none ∧ sendOk s (.tile 0) (wordPacket s (.tile 0) (sreg s (.tile 0) 2).toNat (sreg s (.tile 0) 3).toNat (readMem s (.tile 0) 64 8)) = true ∧
       sendOk { s with tab := {} } (.tile 0) (wordPacket s (.tile 0) (sreg s (.tile 0) 2).toNat (sreg s (.tile 0) 3).toNat (readMem s (.tile 0) 64 8)) = false ∧
       inClosing (strAt w { ev := 4, code := 10 }) (.tile 0) = some 0) ∧
    (let w := sWord 0xA4 2 0 3 0; fetchWord (strAt w blk) (.tile 0) = some w ∧ w &&& (fOpc + fD + fB) = w ∧ fld (sreg (strAt w blk) (.tile 0) 2).toNat 25 7 ≠ 0) ∧
    (let w := sWord 0xA2 4 0 3 0; let s := strAt w {}
     fetchWord s (.tile 0) = some w ∧ w &&& (fOpc + fD + fB) = w ∧ siteClosing s (.tile 0) = false ∧ poolOk s (.tile 0) (sreg s (.tile 0) 4).toNat = true ∧
       placeOk s (.tile 0) (sreg s (.tile 0) 3).toNat 0 = true ∧ siteClosing (strAt w {} true) (.tile 0) = true) ∧
    (let w := sWord 0xA3 4 1 0 0; let s := strAt w {}
     fetchWord s (.tile 0) = some w ∧ w &&& (fOpc + fD + fA + fImm) = w ∧ memOk s (.tile 0) (memAddr s (.tile 0) w) 64 64 = true ∧ readPoison s (.tile 0) 64 64 = false) ∧
    (let w := sWord 0xA2 4 0 3 0
     siteReady (onThreadWord w { s := [(4, 9)] }) (.thread 33) = true ∧ fetchWord (onThreadWord w { s := [(4, 9)] }) (.thread 33) = some w ∧
       poolOk (onThreadWord w { s := [(4, 9)] }) (.thread 33) 9 = true) := by decide +kernel
theorem witness_tags :
    freeTag (strAt (sWord 0xA2 4 0 3 0) {}) 0 2048 0 = some 0 ∧ freeTag (onThreadWord (sWord 0xA2 4 0 3 0) {}) (threadTags 33) 512 0 = some 557568 := by decide +kernel
theorem test_stream :
    (after (.recv (.tile 0)) (strAt (sWord 0xA0 5 0 0 0 + 2 ^ 31) blk) (fun t => vreg t (.tile 0) 5 == some (bytesNat (List.replicate 64 7))) &&
     after (.recv (.tile 0)) (strAt (sWord 0xA0 5 0 0 0 + 2 ^ 31) {}) (fun t => (t.tile 0).run == none) &&
     after (.send (.tile 0)) (strAt (sWord 0xA1 2 1 3 0) {}) (fun t => sitePc t (.tile 0) == 9 && t.sw != base.sw) &&
     after (.send (.tile 0)) { strAt (sWord 0xA1 2 1 3 0) {} with tab := {} } (fun t => (t.tile 0).run == none) &&
     after (.fetch (.tile 0)) (strAt (sWord 0xA2 4 0 3 0) {}) (fun t => (t.slot 0).outst == 1 && t.mf.own.map (fun e => (e.1, pOp e.2.pkt, pLaddr e.2.pkt)) == [(0, 1, 5)]) &&
     after (.store (.tile 0)) (strAt (sWord 0xA3 4 1 0 0) {}) (fun t => (t.slot 0).outst == 1 && t.mf.own.map (fun e => (e.1, pOp e.2.pkt, e.2.pkt.payload.length)) == [(0, 4, 64)]) &&
     after (.fetch (.tile 0)) (strAt (sWord 0xA2 4 0 3 0) {} true) (fun t => (t.tile 0).run == none)) = true := by decide +kernel

end F34

/-! ### HandlersArmEndAndYield -/
namespace F35

def hOf35 (s : State) : Handler := (s.tile 0).run.getD {}
def opAt (w : Nat) (ev : OpEvent) (closing : Bool := false) (arrived : SMap Nat := []) : State :=
  let s := onTileWord w { ev := ev, s := [(1, 5)] }
  { s with ctl := { s.ctl with
    slots := [(0, { st := .live, ctx := 3, prog := 5, wbase := 1, wsize := 4, cbase := 7, ccount := 2, closing := closing, events := [{ ev := 2 }] })]
    tiles := s.ctl.tiles.map (fun e => (e.1, { e.2 with valid := [8, 16], arrived := arrived })) } }
/-- ARM of chunks 0 and 1, or chunk 0 alone, with an expected count. -/
def armWord (count expected clear : Nat) : Nat := 0xC0 + 2 ^ 31 + 2 ^ 32 * count + 2 ^ 44 * expected + 2 ^ 62 * clear
theorem witness_arm :
    (∀ c ∈ [0, 1], let w := armWord 1 3 c; let s := opAt w {}
      siteReady s (.tile 0) = true ∧ fetchWord s (.tile 0) = some w ∧ w &&& (fOpc + fImmf + fD + fA + fB + 0x7FFFFFFF00000000) = w ∧ armOps s (.tile 0) w = some (0, 1, 3) ∧
        siteClosing s (.tile 0) = false ∧ 0 + 1 + 1 ≤ (s.slot 0).ccount ∧ (0 + 1) * (1024 * 2 ^ fld w 60 2) ≤ (windowOf s 0).2 ∧
        arrivedOf s 0 0 = 0 ∧ arrivedOf s 0 1 = 0) ∧
    (let w := armWord 2 3 0; fetchWord (opAt w {}) (.tile 0) = some w ∧ armOps (opAt w {}) (.tile 0) w = some (0, 2, 3)) ∧
    (let w := armWord 1 3 1 + 2 ^ 60 * 3; armOps (opAt w {}) (.tile 0) w = some (0, 1, 3) ∧ (windowOf (opAt w {}) 0).2 < (0 + 1) * (1024 * 2 ^ fld w 60 2)) ∧
    (let w := armWord 0 1 0; let s := opAt w {} false [(7, 1)]
     fetchWord s (.tile 0) = some w ∧ armOps s (.tile 0) w = some (0, 0, 1) ∧ bit w 62 = false ∧ arrivedOf s 0 0 = 1) := by decide +kernel
theorem witness_end :
    (∀ w ∈ [0xC1, 0xC3], fetchWord (opAt w {}) (.tile 0) = some w ∧ (hOf35 (opAt w {})).slot < 4096) ∧
    (∀ i ∈ [0, 4], let w := 0xC2 + 2 ^ 32 * i; fetchWord (opAt w {}) (.tile 0) = some w ∧ w &&& (fOpc + fImm) = w) ∧
    (let w := 0xC4 + 2 ^ 20; fetchWord (opAt w {}) (.tile 0) = some w ∧ w &&& (fOpc + fA) = w ∧ siteClosing (opAt w {}) (.tile 0) = false ∧ siteClosing (opAt w {} true) (.tile 0) = true) ∧
    (let w := 0xC4 + 2 ^ 31 + 2 ^ 32 * 9; fetchWord (onChervilWord w {}) .chervil = some w ∧ w &&& (fOpc + (fImmf + fImm)) = w) := by decide +kernel
theorem test_operation :
    (after (.arm (.tile 0)) (opAt (armWord 1 3 1) {}) (fun t => expectedOf t 0 0 == 3 && expectedOf t 0 1 == 3 && (t.tile 0).valid == [16]) &&
     after (.arm (.tile 0)) (opAt (armWord 2 3 0) {}) (fun t => (t.tile 0).run == none) &&
     after (.arm (.tile 0)) (opAt (armWord 0 1 0) {} false [(7, 1)]) (fun t => (t.slot 0).events.map (·.ev) == [2, 1] && arrivedOf t 0 0 == 0) &&
     after (.done (.tile 0)) (opAt 0xC1 {}) (fun t => (t.slot 0).st == .ending && (t.slot 0).fstatus == 0 && (t.slot 0).events == [] && (t.slot 0).regs == [(1, 5)]) &&
     after (.done (.tile 0)) (opAt 0xC1 { ev := 4, code := 10 }) (fun t => (t.slot 0).fstatus == 5) &&
     after (.fail (.tile 0)) (opAt (0xC2 + 2 ^ 32 * 4) {}) (fun t => (t.slot 0).fstatus == 4 && (t.tile 0).run == none) &&
     after (.yield (.tile 0)) (opAt 0xC3 {}) (fun t => (t.slot 0).events.map (fun e => (e.ev, e.pc)) == [(2, 0), (5, 9)] && (t.tile 0).run == none) &&
     after (.timer (.tile 0)) (opAt (0xC4 + 2 ^ 20) {}) (fun t => (t.slot 0).deadline == 10000000005) &&
     after (.timer .chervil) (onChervilWord (0xC4 + 2 ^ 31) {}) (fun t => (t.thread 256).deadline == 2 ^ 64 - 1)) = true := by decide +kernel

end F35

/-! ### EventsReachTheirHandlers -/
namespace F36

/-- A packet for slot 0 of tile 0: OPCODE, GEN, chunk or type, and a payload. -/
def opPkt (op gen chunk mtype : Nat) (data : List Byte) : Packet := mkPkt 2 op 3 0 0 1 9 0 0 (2 ^ 20 * gen + 2 ^ 32 * chunk + 2 ^ 52 * mtype) data
/-- Slot 0 LIVE in context 3, generation 6; its program has entries for BLOCK, MSG and FAULT, or only for FAULT. -/
def evAt (x : Slot) (y : Tile) (own : SMap OwnReq := []) : State := { base with
  rel := { spareUsed := [0] }
  mf := { own := own }
  ctl := {
    ptab := [(0, 5 + 2 ^ 16 + 2 ^ 45 * 16 + 2 ^ 59 * 2)]
    store := [(2, BitVec.ofNat 64 (8 + 2 ^ 16 * 0xFFFF + 2 ^ 32 * 9 + 2 ^ 48 * (if y.off then 0xFFFF else 10))), (3, 12)]
    slots := [(0, x)]
    tiles := [(0, y)]
    threads := [(33, { running := true })] } }
def live : Slot := { st := .live, ctx := 3, gen := 6, prog := 5, ver := 1, ccount := 2, creator := 33, regs := [(2, 77)] }
def blkPkt : Packet := opPkt 0x40 6 1 0 (List.replicate 64 7)
theorem witness_arrivals :
    streamTest (evAt live {}) blkPkt = none ∧ slotTile (pOpslot blkPkt) = 0 ∧ pChunk blkPkt = 1 ∧ tileRoom (evAt live {}) 0 64 1 = true ∧
    tileRoom (evAt live { staged := 1024 }) 0 64 1 = false ∧ streamTest (evAt live {}) (opPkt 0x40 5 1 0 []) = some 1 ∧
    streamTest (evAt live {}) (opPkt 0x41 6 0 4 []) = none ∧ pMtype (opPkt 0x41 6 0 4 []) = 4 ∧ pMtype (opPkt 0x41 6 0 0 []) = 0 := by decide +kernel
def rdRsp (op st : Nat) (data : List Byte) : Packet := mkPkt 3 op 3 0 0 1 9 4 st 0 data
def ownOne (user op : Nat) : SMap OwnReq := [(4, { pkt := mkPkt 3 op 3 0 0 9 1 4 0 0 [], user := user, unit := 0, arg := 1 })]
theorem witness_responses :
    (pTag (rdRsp 8 0 []) = 4 ∧ responseOp (pOp (mkPkt 3 1 3 0 0 9 1 4 0 0 [])) = pOp (rdRsp 8 0 []) ∧ responseOp (pOp (mkPkt 3 4 3 0 0 9 1 4 0 0 [])) = pOp (rdRsp 9 0 []) ∧
      retriable (pStatus (rdRsp 9 7 [])) = false ∧ pStatus (rdRsp 9 7 []) ≠ stOK ∧ (slotEntry (evAt live {} (ownOne 1 4)) 0 4).isSome = true) := by decide +kernel
theorem witness_slots :
    (let s := evAt { live with events := [{ ev := 3, code := 4 }] } {}
     nextSlot s 0 = some 0 ∧ slotEntry s 0 3 = some 10 ∧ slotTile 0 = 0) ∧
    (let s := evAt { live with events := [{ ev := 1 }] } { evq := 1 }; nextSlot s 0 = some 0 ∧ slotEntry s 0 1 = none) ∧
    (let s := evAt live { run := some { count := 256, ver := 1 } }
     ((s.tile 0).run.map (·.count)) = some 256 ∧ (slotEntry s 0 4).isSome = true) ∧
    (let s := evAt { live with deadline := 5 } {}; (s.slot 0).deadline ≤ now s) ∧
    runsSlot (evAt { live with st := .ending } {}) 0 = false ∧ opSends (evAt { live with st := .ending } {}) 0 = false ∧
    ((evAt { live with st := .cooling, coolAt := 5 } {}).slot 0).coolAt + 100000 ≤ now (evAt live {}) ∧
    now (evAt live {}) < ((evAt { live with st := .cooling, coolAt := 10000000000 } {}).slot 0).coolAt + 100000 ∧
    ptState (ptab { evAt live {} with ctl := { ptab := [(0, 5 + 2 ^ 16 + 2 ^ 45 * 16 + 2 ^ 59)] } } 0 0) = 1 := by decide +kernel
/-- An operation whose program has no entry for MSG. -/
def deafAt : State :=
  let s := evAt { live with events := [{ ev := 3 }] } { evq := 1 }
  { s with ctl := { s.ctl with store := [(2, BitVec.ofNat 64 (2 ^ 64 - 1)), (3, 12)] } }
theorem witness_deaf : nextSlot deafAt 0 = some 0 ∧ slotEntry deafAt 0 3 = none ∧ (deafAt.tile 0).evq = 1 := by decide +kernel
theorem test_events :
    (after (.opblk 0) (evAt live { inq := [blkPkt] }) (fun t => arrivedOf t 0 1 == 1 && (t.slot 0).events.map (·.len) == [64] && (t.tile 0).staged == 1) &&
     after (.opblk 0) (evAt live { inq := [opPkt 0x40 5 1 0 []] }) (fun t => mget 0 1 (t.tile 0).ctr == 1 && (t.tile 0).inq == []) &&
     after (.opblk 0) (evAt live { inq := [blkPkt], staged := 1024 }) (fun t => (t.tile 0).inq.length == 1) &&
     after (.opmsg 0) (evAt live { inq := [opPkt 0x41 6 0 4 []] }) (fun t => (t.slot 0).events.map (fun e => (e.ev, e.code)) == [(3, 4)]) &&
     after (.fetchResponse 0) (evAt { live with outst := 1 } { inq := [rdRsp 8 0 (List.replicate 64 9)] } (ownOne 0 1)) (fun t => (t.slot 0).outst == 0 && (t.slot 0).events.map (fun e => (e.fetched, e.chunk)) == [(true, 1)]) &&
     after (.storeResponse 0) (evAt { live with outst := 1 } { inq := [rdRsp 9 7 []] } (ownOne 1 4)) (fun t => (t.slot 0).outst == 0 && (t.slot 0).events.map (fun e => (e.ev, e.code, e.status)) == [(4, 7, 7)]) &&
     after (.handlerStart 0) (evAt { live with events := [{ ev := 3, code := 4 }] } {}) (fun t => ((t.tile 0).run.map (fun h => (h.pc, mget 0 2 h.s, mget 0 7 h.s))) == some (10, 77, 0x403)) &&
     after (.stepLimit 0) (evAt live { run := some { count := 256, ver := 1 } }) (fun t => (t.slot 0).events.map (fun e => (e.ev, e.code)) == [(4, 1)]) &&
     after (.timerExpire 0) (evAt { live with deadline := 5 } {}) (fun t => (t.slot 0).events.map (·.ev) == [2] && (t.slot 0).deadline == 2 ^ 64 - 1) &&
     after (.slotCooling 0) (evAt { live with st := .ending, fstatus := 4 } {}) (fun t => (t.slot 0).gen == 7 && (t.thread 33).events.map (fun e => (e.kind, e.desc.getD 4 0)) == [(2, 4)]) &&
     after (.slotFree 0) (evAt { live with st := .cooling, coolAt := 5 } {}) (fun t => (t.slot 0).st == .free) &&
     after (.programLoadDone 0 0) { evAt live {} with ctl := { ptab := [(0, 5 + 2 ^ 16 + 2 ^ 45 * 16 + 2 ^ 59)] } } (fun t => ptab t 0 0 == 0)) = true := by decide +kernel

end F36

/-! ### TablesAreReadAndWritten -/
namespace F37

/-- Thread 33 in context 0 on a word, its registers and data memory, in a state with tables. -/
def ctlAt (w : Nat) (r : SMap Word) (tab : Tables) (data : Mem := []) : State :=
  let s := onThreadWord w { s := r }
  { s with
    tab := tab
    ctl := { s.ctl with
      data := data
      ptab := [(0, 5 + 2 ^ 16 + 2 ^ 45 * 16 + 2 ^ 59 * 2), (1, 5 + 2 ^ 16 * 2 + 2 ^ 32 * 16 + 2 ^ 45 * 16 + 2 ^ 59 * 2 + 2 ^ 61)]
      threads := s.ctl.threads.map (fun e => (e.1, { e.2 with ctx := 0, svc := 1 })) }
    sec := { s.sec with bundles := [(0, { svc := 1, progs := [(5, 1), (5, 2)] })] } }
def taWord (id idx n : Nat) : Word := BitVec.ofNat 64 (id + 2 ^ 16 * idx + 2 ^ 40 * n)
def twrWord (d a b : Nat) (imm : Bool) : Nat := 0xE1 + 2 ^ 16 * d + 2 ^ 20 * a + 2 ^ 24 * b + (if imm then 2 ^ 31 else 0)
/-- A creation of slot 0 in context 3, program 5 version 1, window 0 to 0, 2 chunks. -/
def createVal : Nat := 2 ^ 2 * 3 + 2 ^ 24 * 5 + 2 ^ 40 * 1 + 2 ^ 66 * 1 + 2 ^ 90 * 2 + 2 ^ 103 * 33 + 2 ^ 256 * 7
def openTab : Tables := { live := [(tkey 0x0030 3, 5 + 2 ^ 65 * 10)] }
def t37 (w : Nat) (a b : Word) (tab : Tables) (data : Mem := []) : State := ctlAt w [(1, a), (2, b)] tab data
theorem witness_trd :
    let w := 0xE0 + 2 ^ 16 * 3 + 2 ^ 20
    let s := t37 w (taWord 0x0030 3 0) 0 openTab
    siteReady s (.thread 33) = true ∧ fetchWord s (.thread 33) = some w ∧ w &&& (fOpc + fD + fA + 2 ^ 32) = w ∧ tblHas s 0x0030 3 = true ∧ mayRead s 33 0x0030 3 = true ∧
      0 < tblWords s 0x0030 3 ∧ tblHas s 0x0009 0 = false ∧ taTable (taWord 0x0030 3 0).toNat = 0x0030 ∧ taIndex (taWord 0x0030 3 0).toNat = 3 ∧ taCount (taWord 0x0030 3 0).toNat = 0 := by decide +kernel
theorem witness_twr :
    (let w := twrWord 3 1 2 false; let s := t37 w (taWord 0x0010 9 0) 1 {}
     fetchWord s (.thread 33) = some w ∧ w &&& (fOpc + fD + fA + fB + fImmf) = w ∧ writeWords s 0x0010 9 = 1 ∧ twrCase s 0x0010 9 1 = .plain ∧
       mayWrite s 33 0x0010 9 = true ∧ mayWrite { s with ctl := {} } 256 0x0010 9 = false ∧ stagedElsewhere s 33 (tkey 0x0010 9) = false ∧ s.tab.pending = false) ∧
    (let s := t37 (twrWord 3 1 2 true) (taWord 0x0040 0 0) 0 openTab
     twrCase s 0x0040 0 createVal = .create ∧ createStatus s 33 0 createVal = stOK ∧ createStatus { s with tab := {} } 33 0 createVal ≠ stOK ∧
       memOk s (.thread 33) (memAddrB s (.thread 33) (twrWord 3 1 2 true)) (8 * writeWords s 0x0040 0) 8 = true) := by decide +kernel
/-- The creation's thread while the module is in a power state. -/
def createIn (p : PState) : State :=
  let s := t37 (twrWord 3 1 2 true) (taWord 0x0040 0 0) 0 openTab (memWrite [] 4194304 (natBytes 96 createVal))
  { s with chv := { s.chv with pstate := p } }
theorem witness_held :
    ∀ p ∈ [PState.doze, .waking], siteReady (createIn p) (.thread 33) = true ∧ mayWrite (createIn p) 33 0x0040 0 = true ∧ tblHas (createIn p) 0x0040 0 = true ∧
      twrCase (createIn p) 0x0040 0 createVal = .create := by decide +kernel
theorem test_held_writes :
    (after (.opCreate (.thread 33)) (createIn .waking) (fun t => (t.thread 33).pc == 8 && t.ctl.slots == []) &&
     after (.opCreate (.thread 33)) (createIn .doze) (fun t => (t.thread 33).pc == 8 && t.ctl.slots == [] && t.chv.pstate == .waking)) = true := by decide +kernel
def liveAt (b : Word) : State :=
  let s := t37 (twrWord 3 1 2 true) (taWord 0x0040 0 0) b openTab
  { s with ctl := { s.ctl with slots := [(0, { st := .live, ctx := 3, prog := 5, ver := 1 })] } }
def jobAt (id : Nat) (b : Word) : State :=
  { t37 (twrWord 3 1 2 true) (taWord id 2 0) b {} with
    tier := { jobs := [(2, 1 + 2 ^ 2)] }
    cod := { jobs := [(2, 2 + 2 ^ 2)], runs := [(2, {})], slots := [(2, 1)] }
    per := {} }
def perAt : State := t37 (twrWord 3 1 2 true) (taWord 0x0021 17 0) 0 { live := [(tkey 0x0020 7, 1 + 2 ^ 3 * 16 + 2 ^ 20 * 32)] }
theorem witness_rows :
    (twrCase (liveAt 0) 0x0040 0 (2 ^ 2 * 3 + 2 ^ 24 * 5 + 2 ^ 40 * 2 + 2 ^ 0) = .rebind ∧ mayCreate (liveAt 0) 33 3 = true ∧ (residentProg (liveAt 0) 0 5 2).map ptCompat = some 1 ∧
      admittedFor (liveAt 0) 5 2 3 = true) ∧
    (twrCase (jobAt 0x004A 0) 0x004A 2 0 = .tierStop ∧ twrCase (jobAt 0x004A 0) 0x004A 2 (2 ^ 2 + 2 ^ 192 * 7) = .tierAck ∧ jobMine (jobAt 0x004A 0) 33 0 = true ∧
      twrCase (jobAt 0x0049 0) 0x0049 2 0 = .codecClear ∧ twrCase (jobAt 0x0048 0) 0x0048 2 4 = .retire) ∧
    (twrCase perAt 0x0021 17 0 = .image ∧ tblHas perAt 0x0021 17 = true ∧ imageOk perAt 0 17 (2 ^ 256 * (2 ^ 160 - 1) + 2 ^ 544) = true ∧ imageOk perAt 0 17 1 = false) := by decide +kernel
theorem witness_tstage :
    let w := 0xE2 + 2 ^ 16 * 3 + 2 ^ 20 + 2 ^ 24 * 2
    let s := t37 w (taWord 0x0010 9 2) 64 {}
    fetchWord s (.thread 33) = some w ∧ w &&& (fOpc + fD + fA + fB + fImm) = w ∧ tblHas s 0x0010 9 = true ∧ tblHas s 0x0010 10 = true ∧ isCommitted 0x0010 = true ∧
      memOk s (.thread 33) (memAddrB s (.thread 33) w) (8 * tblWords s 0x0010 9 * 2) 8 = true ∧
      memOk (t37 w (taWord 0x0010 9 2) 65 {}) (.thread 33) (memAddrB (t37 w (taWord 0x0010 9 2) 65 {}) (.thread 33) w) 16 8 = false := by decide +kernel
def stOf (t : State) : Word := sreg t (.thread 33) 3
theorem test_tables :
    (after (.trd (.thread 33)) (t37 (0xE0 + 2 ^ 16 * 3 + 2 ^ 20) (taWord 0x0030 3 1) 0 openTab) (fun t => stOf t == 20) &&
     after (.trd (.thread 33)) (t37 (0xE0 + 2 ^ 16 * 3 + 2 ^ 20) (taWord 0x0009 3 0) 0 openTab) (fun t => stOf t == 7) &&
     after (.twr (.thread 33)) (t37 (twrWord 3 1 2 false) (taWord 0x0010 9 0) 1 {}) (fun t => stOf t == 0 && (t.thread 33).group == [(tkey 0x0010 9, 1)] && t.tab.live == []) &&
     after (.twr (.thread 33)) (t37 (twrWord 3 1 2 false) (taWord 0x0010 9 5) 1 {}) (fun t => stOf t == 7 && (t.thread 33).group == []) &&
     after (.opCreate (.thread 33)) (t37 (twrWord 3 1 2 true) (taWord 0x0040 0 0) 0 openTab (memWrite [] 4194304 (natBytes 96 createVal)))
       (fun t => stOf t == 0 && (t.slot 0).st == .live && (t.slot 0).ctx == 3 && (t.slot 0).events.map (·.ev) == [3] && mget 0 0 (t.slot 0).regs == 7) &&
     after (.peridotEntryWrite (.thread 33)) { perAt with ctl := { perAt.ctl with data := [(4194304, 1)] } } (fun t => stOf t == 7) &&
     after (.tierJobStop (.thread 33)) (jobAt 0x004A 0) (fun t => stOf t == 0 && jobState (tierJob t 2) == 2) &&
     after (.codecJobClear (.thread 33)) (jobAt 0x0049 0) (fun t => stOf t == 0 && codecJob t 2 == 0) &&
     after (.tstage (.thread 33)) (t37 (0xE2 + 2 ^ 16 * 3 + 2 ^ 20 + 2 ^ 24 * 2) (taWord 0x0010 9 2) 64 {} [(4194304 + 64, 1), (4194304 + 72, 3)])
       (fun t => stOf t == 0 && (t.thread 33).group == [(tkey 0x0010 9, 1), (tkey 0x0010 10, 3)])) = true := by decide +kernel

end F37

/-! ### GroupsCommitAtOnce -/
namespace F38

/-- Thread 33 in context 0 with a group of two route entries and a check. -/
def grpAt (w : Nat) (c : Option LastCheck) (tab : Tables := {}) : State :=
  let s := onThreadWord w { s := [(1, 5), (2, 20000000000)] }
  { s with
    tab := tab
    ctl := { s.ctl with threads := s.ctl.threads.map (fun e => (e.1, { e.2 with ctx := 0, group := [(tkey 0x0011 2, 0), (tkey 0x0011 4, 7)], groupOpen := true, check := c })) } }
def g38 : SMap Nat := [(tkey 0x0011 2, 0), (tkey 0x0011 4, 7)]
theorem witness_check :
    (∀ e ∈ [0, 1], let w := 0xE3 + 2 ^ 16 * 3 + 2 ^ 32 * e
      siteReady (grpAt w none) (.thread 33) = true ∧ fetchWord (grpAt w none) (.thread 33) = some w ∧ w &&& (fOpc + fD + 2 ^ 32) = w ∧ bit (wImm w) 0 = (e == 1)) ∧
    (∀ e ∈ [0, 1], let w := 0xE4 + 2 ^ 16 * 3 + 2 ^ 32 * e
      fetchWord (grpAt w none) (.thread 33) = some w ∧ w &&& (fOpc + fD + 2 ^ 32) = w ∧ bit (wImm w) 0 = (e == 1) ∧ (grpAt w none).tab.commits = 0) ∧
    (∀ e ∈ g38, e.1 / 2 ^ 24 = 0x0011) ∧ (g38.map (·.1)).Nodup ∧ (grpAt 0 none).cx.removals = [] ∧ (grpAt 0 none).cx.release = [] ∧
    fetchWord (grpAt 0xE5 none) (.thread 33) = some 0xE5 ∧ (grpAt 0 none { oldLive := true, eflipt := 5 }).tab.eflipt + 1000000 ≤ now (grpAt 0 none) ∧
    now (grpAt 0 none) < ({ oldLive := true, eflipt := 10000000000 } : Tables).eflipt + 1000000 := by decide +kernel
/-- Extent 5: ACTIVE, leased, 1,000 ms, its end at 15 s; extent 6 in REVOKING. -/
def leaseTab : Tables := { live := [(tkey 0x0013 5, 2 ^ 56 + 2 ^ 88 + 2 ^ 106 + 2 ^ 128 * 15000000000 + 2 ^ 212 * 1000 + 2 ^ 228 * 100)] }
theorem witness_lease :
    (let w := 0xE7 + 2 ^ 16 * 3 + 2 ^ 20; let s := grpAt w none leaseTab
     fetchWord s (.thread 33) = some w ∧ w &&& (fOpc + fD + fA) = w ∧ exLeased (extent s 5) = true ∧ exState (extent s 5) = 1 ∧ mfind? (tkey 0x0013 5) (s.thread 33).group = none ∧
       exLeased (extent { s with tab := {} } 5) = false) ∧
    (let w := 0xE8 + 2 ^ 16 * 3 + 2 ^ 20 + 2 ^ 24 * 2; let s := grpAt w none leaseTab
     fetchWord s (.thread 33) = some w ∧ w &&& (fOpc + fD + fA + fB) = w ∧ listedExtents s = [5] ∧ exEnd (extent s 5) ≤ (sreg s (.thread 33) 2).toNat) := by decide +kernel
theorem test_groups :
    (after (.tcheck (.thread 33)) (grpAt (0xE3 + 2 ^ 16 * 3) none) (fun t => (t.thread 33).check.isSome && (t.thread 33).group == g38 && sreg t (.thread 33) 3 == BitVec.ofNat 64 (reportOf (groupFails (grpAt 0 none) 33 false))) &&
     after (.tcommit (.thread 33)) (grpAt (0xE4 + 2 ^ 16 * 3) none) (fun t => sreg t (.thread 33) 3 == 7) &&
     after (.tcommit (.thread 33)) (grpAt (0xE4 + 2 ^ 16 * 3) (some { ok := true, commits := 5 })) (fun t => sreg t (.thread 33) 3 == 14) &&
     after (.tcommit (.thread 33)) (grpAt (0xE4 + 2 ^ 16 * 3) (some { ok := true })) (fun t => sreg t (.thread 33) 3 == 0 && entry t 0x0011 4 == 7 && (t.thread 33).group == [] && t.tab.commits == 1) &&
     after (.tcommitEpoch (.thread 33)) (grpAt (0xE4 + 2 ^ 16 * 3 + 2 ^ 32) (some { ok := true, epoch := true })) (fun t => entry t 0x0011 4 == 7 && t.tab.mseq == 1 && t.tab.oldLive && entryIn t .old 0x0011 4 == 0) &&
     after (.tabort (.thread 33)) (grpAt 0xE5 none) (fun t => (t.thread 33).group == []) &&
     after .oldBankRetired (grpAt 0 none { oldLive := true, eflipt := 5 }) (fun t => !t.tab.oldLive) &&
     after (.lscan (.thread 33)) (grpAt (0xE8 + 2 ^ 16 * 3 + 2 ^ 20 + 2 ^ 24 * 2) none leaseTab) (fun t => sreg t (.thread 33) 3 == 65541) &&
     after (.lrenew (.thread 33)) (grpAt (0xE7 + 2 ^ 16 * 3 + 2 ^ 20) none leaseTab) (fun t => sreg t (.thread 33) 3 == 0 && exEnd (extent t 5) == 11000000000)) = true := by decide +kernel

end F38

/-! ### ThreadsWaitPostAndStop -/
namespace F39

def thrAt (w : Nat) (x : Thread) (ctx : Nat) (evr : Recorder := {}) : State :=
  let s := onThreadWord w x
  { s with
    evr := evr
    ctl := { s.ctl with threads := s.ctl.threads.map (fun e => (e.1, { e.2 with ctx := ctx })) } }
def evWord : Nat := 0xEA + 2 ^ 16 * 3 + 2 ^ 20
theorem witness_evwait :
    (let s := thrAt evWord { s := [(1, 64)], events := [{ kind := 9, desc := [1, 2] }] } 3
     siteReady s (.thread 33) = true ∧ fetchWord s (.thread 33) = some evWord ∧ evWord &&& (fOpc + fD + fA + fImm) = evWord ∧ memOk s (.thread 33) 64 64 8 = true) ∧
    memOk (thrAt evWord { s := [(1, 65)] } 3) (.thread 33) 65 64 8 = false ∧
    (let s := onChervilWord evWord { s := [(1, 64)], waiting := true, events := [{ kind := 9, desc := [1, 2] }] }
     (s.thread 256).waiting = true ∧ (s.thread 256).running = true ∧ (s.thread 256).events = [{ kind := 9, desc := [1, 2] }]) ∧
    (thrAt 0 { deadline := 5 } 3).thread 33 ≠ {} ∧ ((thrAt 0 { deadline := 5 } 3).thread 33).deadline ≤ now (thrAt 0 {} 3) ∧
    (siteReady (thrAt 0 {} 3) (threadSite 33) = true ∧ fetchWord (thrAt 0 {} 3) (threadSite 33) = some 0 ∧ assignedOpc (0 % 256) = false ∧
      fetchWord (thrAt evWord {} 3) (threadSite 33) = some evWord ∧ assignedOpc (evWord % 256) = true) := by decide +kernel
def postWord : Nat := 0xEB + 2 ^ 16 * 3 + 2 ^ 20 + 2 ^ 24 * 2
theorem witness_post :
    (∀ c ∈ [(0x8001, 0), (0x1101, 1), (0x1102, 2)], let s := thrAt postWord { s := [(1, BitVec.ofNat 64 c.1), (2, 64)] } 0
      fetchWord s (.thread 33) = some postWord ∧ postWord &&& (fOpc + fD + fA + fB + fImm) = postWord ∧ postKind ((sreg s (.thread 33) 1).toNat % 65536) = c.2 ∧
        memOk s (.thread 33) (memAddrB s (.thread 33) postWord) 16 8 = true ∧ fld (sreg s (.thread 33) 1).toNat 16 4 ≤ 3) ∧
    memOk (thrAt postWord { s := [(1, 0x8001), (2, 65)] } 0) (.thread 33) (memAddrB (thrAt postWord { s := [(1, 0x8001), (2, 65)] } 0) (.thread 33) postWord) 16 8 = false ∧
    ((thrAt 0 {} 0 { frozen := true, holder := 33, frozenAt := 0 }).evr.frozenAt + 1000000000 ≤ now (thrAt 0 {} 0)) := by decide +kernel
theorem test_threads :
    (after (.evwait (.thread 33)) (thrAt evWord { s := [(1, 64)], events := [{ kind := 9, desc := [1, 2] }] } 3) (fun t => sreg t (.thread 33) 3 == 9 && readMem t (.thread 33) 64 3 == [1, 2, 0] && (t.thread 33).events == []) &&
     after (.evwait (.thread 33)) (thrAt evWord { s := [(1, 64)] } 3) (fun t => (t.thread 33).waiting) &&
     after (.threadEventDeliver 256) (onChervilWord evWord { s := [(1, 64)], waiting := true, events := [{ kind := 9, desc := [1, 2] }] }) (fun t => !(t.thread 256).waiting && (t.thread 256).events == []) &&
     after (.threadDeadline 33) (thrAt 0 { deadline := 5 } 3) (fun t => (t.thread 33).events.map (·.kind) == [5]) &&
     after (.threadStop 33 false) (thrAt 0 {} 3) (fun t => !(t.thread 33).running) &&
     after (.threadStop 33 false) (thrAt evWord {} 3) (fun t => (t.thread 33).running) &&
     after (.evpost (.thread 33)) (thrAt postWord { s := [(1, 0x28001), (2, 64)] } 0) (fun t => sreg t (.thread 33) 3 == 0 && (t.recDie 4).nextSeq == 1) &&
     after (.evpost (.thread 33)) (thrAt postWord { s := [(1, 0x7001), (2, 64)] } 0) (fun t => sreg t (.thread 33) 3 == 7) &&
     after (.freeze (.thread 33)) (thrAt postWord { s := [(1, 0x1101), (2, 64)] } 0) (fun t => t.evr.frozen && t.evr.holder == 33) &&
     after (.freeze (.thread 33)) (thrAt postWord { s := [(1, 0x1101), (2, 64)] } 3) (fun t => !t.evr.frozen && sreg t (.thread 33) 3 == 7) &&
     after (.thaw (.thread 33)) (thrAt postWord { s := [(1, 0x1102), (2, 64)] } 0 { frozen := true, holder := 33 }) (fun t => !t.evr.frozen) &&
     after .autoThaw (thrAt 0 {} 0 { frozen := true, holder := 33, frozenAt := 0 }) (fun t => !t.evr.frozen)) = true := by decide +kernel

end F39

/-! ### ContextsGoAndKeysAreServed -/
namespace F40

/-- Thread 33 in context 0 before a KREQ of an operation, slot 7, context 3. -/
def kreqAt (op : Nat) (sec : Security) : State :=
  let s := onThreadWord (0xE9 + 2 ^ 16 * 3 + 2 ^ 20) { s := [(1, 64)], ticket := 5 }
  { s with
    sec := sec
    ctl := { s.ctl with
      data := memWrite [] (4194304 + 64) (natBytes 8 (op + 2 ^ 16 * 3 + 2 ^ 32 * 7 + 2 ^ 48 * 9) ++ natBytes 16 0 ++ natBytes 4 44)
      threads := s.ctl.threads.map (fun e => (e.1, { e.2 with ctx := 0 })) } }
def req40 (op : Nat) : List Byte := readMem (kreqAt op {}) (.thread 33) 64 64
theorem witness_kreq :
    ∀ op ∈ [1, 2, 3, 4, 5, 6, 7, 8], let s := kreqAt op {}; let w := 0xE9 + 2 ^ 16 * 3 + 2 ^ 20
      siteReady s (.thread 33) = true ∧ fetchWord s (.thread 33) = some w ∧ w &&& (fOpc + fD + fA + fImm) = w ∧ memAddr s (.thread 33) w = 64 ∧ memOk s (.thread 33) 64 64 8 = true ∧
        krOp (req40 op) = op ∧ krOk (req40 op) = true ∧ krSlot (req40 op) = 7 ∧ krCtx (req40 op) = 3 ∧ (s.thread 33).ctx = 0 ∧ carnelianServes s = true ∧
        ksState (keySlot s 7) = 0 ∧ ctxGoing s 3 = false ∧ slotServes s 7 = false ∧ ctxState s 3 ≠ 1 ∧ peerReached s 0 = false := by decide +kernel
theorem witness_kreq2 :
    (∀ v ∈ [1, 2], ksState (keySlot (kreqAt 1 { slots := [(7, v)] }) 7) = v) ∧ byteAt (req40 2) 24 4 = 44 ∧
    (let i : Nat × Nat × Nat × Nat := (44, 3, 9, 20000000000); i.2.1 = 3 ∧ now base < i.2.2.2 ∧ i.2.2.1 % 2 ^ 256 ≠ i.2.2.1 / 2 ^ 256) ∧
    ctxGoing { base with tab := { live := [(tkey 0x0030 3, 2)] } } 3 = true ∧ ctxState { base with tab := { live := [(tkey 0x0030 3, 1)] } } 3 = 1 := by decide +kernel
/-- Context 3, the anchor here, CLOSING with peer 9, all else done; or SCRUBBING. -/
def goingAt (st : Nat) (r : Removal) : State := { base with
  tab := { live := [(tkey 0x0030 3, st + 2 ^ 3 + 2 ^ 128 * 9 + 2 ^ 240)] }
  cx := { removals := [(3, r)], retired := [3] } }
theorem witness_removal :
    (let s := goingAt 2 { at_ := 5, flipped := true }
     mfind? 3 s.cx.removals = some { at_ := 5, flipped := true } ∧ peersOf s 3 = [9] ∧ bit (entry s 0x0030 3) 3 = true ∧ 5 + 10000000 ≤ now s ∧
       reportsIn s 3 { reports := [9] } = true) ∧
    (now (goingAt 2 { at_ := 10000000000 }) < 10000000000 + 10000000) ∧
    (let s := goingAt 2 { tr := some 5 }; scrubReady s 3 { tr := some 5 } = true ∧ ctxExtents s 3 = [] ∧ scrubReady s 3 {} = false) ∧
    (let s := goingAt 3 {}; ctxState s 3 = 3 ∧ listedExtents s = [] ∧ 0 + 10000000 ≤ now s) := by decide +kernel
theorem test_kreq :
    ([(Instr.kreqQuery, 6), (Instr.kreqDestroy, 4), (Instr.kreqRetire, 5), (Instr.kreqImport, 2), (Instr.kreqShare, 3)].all
      (fun r => after (r.1 (.thread 33)) (kreqAt r.2 { slots := [(7, 2)] }) (fun t => sreg t (.thread 33) 3 == 65536 * 5 && (t.thread 33).ticket == 6 &&
        t.sec.kreqs.map (fun q => q.done.map (fun d => byteAt d 2 1)) == [some (if r.2 == 2 || r.2 == 3 then 7 else 0)])) &&
     after .kreqComplete (kreqAt 6 { kreqs := [{ thread := 33, ticket := 5, req := req40 6, done := some [1, 2] }] }) (fun t => t.sec.kreqs.isEmpty && (t.thread 33).events.map (·.kind) == [4])) = true := by decide +kernel
def shareAt (a : Nat) : State := kreqAt 3 { kreqs := [{ thread := 33, ticket := 5, req := req40 3, sent := some a }] }
theorem witness_share :
    carnelianServes (shareAt 5) = true ∧ 5 + 2000000 ≤ now (shareAt 5) ∧ now (shareAt 9999999000) < 9999999000 + 2000000 ∧
      ownOpen (shareAt 5) 15 (reportUnit 33 5) = false := by decide +kernel
theorem test_share :
    (after .kreqComplete (shareAt 5) (fun t => t.sec.kreqs.isEmpty && (t.thread 33).events.map (fun e => byteAt e.desc 2 1) == [4]) &&
     after .kreqComplete (shareAt 9999999000) (fun t => t.sec.kreqs.map (·.done) == [none])) = true := by decide +kernel
theorem test_removal :
    (after (.flipReport 3 9) (goingAt 2 { flipped := true }) (fun t => (mfind? 3 t.cx.removals).map (fun r => (r.reports, r.tr)) == some ([9], some 10000000000)) &&
     after (.peerUnreachable 3 9) (goingAt 2 { at_ := 5 }) (fun t => (mfind? 3 t.cx.removals).map (·.excluded) == some [9] && (t.recDie 6).nextSeq == 1) &&
     after (.contextScrubStart 3) { goingAt 2 { tr := some 5 } with tab := { live := [(tkey 0x0030 3, 2)] } } (fun t => ctxState t 3 == 0 && t.cx.release == [3] && t.cx.removals == []) &&
     after (.scrubSlotRetry 3) (goingAt 3 {}) (fun t => (mfind? 3 t.cx.removals).map (·.slotTry) == some 10000000000)) = true := by decide +kernel

end F40

/-! ### CollectivesPlanRunAndEnd -/
namespace F41

/-- The collective service with a request, and a bundle of program 5 version 1 on clusters 0 and 1. -/
def coll41 (d : List Byte) (pl : Plan) : State := { base with
  svc := { table := [(1, 2)], bundle := [(1, 0)], plans := mset {} 0 pl [], mail := [(1, [{ svc := 1, ctx := 3, data := d, src := 1 }])] }
  sec := { bundles := [(0, { svc := 1, progs := [(5, 1)] })] }
  ctl := { ptab := [(0, 5 + 2 ^ 16 + 2 ^ 45 * 16 + 2 ^ 59 * 2), (64, 5 + 2 ^ 16 + 2 ^ 45 * 16 + 2 ^ 59 * 2)], threads := [(0, { running := true, svc := 1 })] }
  tab := { live := [(tkey 0x0010 1, 3), (tkey 0x0030 3, 1 + 2 ^ 48 * 10 + 2 ^ 65 * 8 + 2 ^ 113)], committed := true } }
/-- PLAN of an all-reduce of one chunk among one member. -/
def plan41 : List Byte := natBytes 2 1 ++ natBytes 4 0 ++ natBytes 2 1 ++ natBytes 4 1 ++ natBytes 4 0 ++ natBytes 112 0
def list41 : PoolAns := { status := 0, data := [1, 0] }
/-- The list's read has come back, with a status. -/
def read41 (st : Nat) (s : State) : State := { s with svc := { s.svc with reads := [(readKey 1 0, { got := [(0, [1, 0])], status := st })] } }
/-- A RUN or FREE of plan 0 with a deadline of 1 ms. -/
def desc41 (cmd : Nat) : List Byte := natBytes 2 cmd ++ natBytes 4 0 ++ natBytes 2 1 ++ natBytes 4 1 ++ natBytes 28 0 ++ natBytes 4 1000000 ++ natBytes 84 0
/-- A plan of one member, this module itself. -/
def pl41 (x : Plan) : Plan := { x with used := true, ctx := 3, n := 1, chunks := 1, members := if x.members.isEmpty then [1] else x.members, spray := 7, ops := [(0, 0)] }
/-- A CBLK for spray entry 7 in context 3, run 0, chunk 3, at the module. -/
def cblk41 (v : Nat) : State := { base with
  mf := { modIn := [(mkPkt 2 opCBLK 3 0 0 1 2 0 0 (7 + 2 ^ 32 * 3) [], 5)] }
  tab := { live := [(tkey 0x001A 7, v), (tkey 0x001B 41, 4096 + 2 ^ 20 * 9)] } }
theorem witness_cblk :
    (takeMod (fun x => pOp x.1 == opCBLK) (cblk41 0)).isSome = true ∧
    (∀ v ∈ [0, 1 + 2 * 4, 1 + 2 * 3 + 2 ^ 37, 1 + 2 * 3 + 2 ^ 11 + 2 ^ 21 * 40], entryIn (cblk41 v) .cur 0x001A 7 = v ∧ (epochBank (cblk41 v) (mkPkt 2 opCBLK 3 0 0 1 2 0 0 (7 + 2 ^ 32 * 3) [])).getD .cur = .cur) ∧
    (let v := 1 + 2 * 3 + 2 ^ 11 + 2 ^ 21 * 40; bit v 0 = true ∧ fld v 1 10 = 3 ∧ fld v 37 8 = 0) := by decide +kernel
theorem witness_coll :
    ((takeMail 1 1 (coll41 plan41 {})).map (fun r => ((makePlan r.1 list41 r.2).1, (makePlan r.1 { status := stPathLost } r.2).1)) = some (stOK, stPathLost)) ∧
    (poolGot (read41 0 (coll41 plan41 {})) (readKey 1 0) = some list41 ∧ poolGot (coll41 plan41 {}) (readKey 1 0) = none ∧ slotsHeld (coll41 plan41 {}) = false) ∧
    ((takeMail 1 1 (coll41 plan41 {})).map (fun r => (cmdUnknown r.1, bareRange r.1)) = some (false, true)) ∧
    ((takeMail 1 1 (coll41 (natBytes 128 9) {})).map (fun r => cmdUnknown r.1) = some true) ∧
    ((takeMail 1 3 (coll41 (desc41 3) (pl41 {}))).map (fun r => (byteAt r.1.data 4 2, bareRange r.1, (r.2.plan 0).ctx == r.1.ctx, (removePlan 0 stOK r.2).1)) = some (0, true, true, stOK)) ∧
    ((takeMailIf 1 (fun m => mailCmd m == 2 && (byteAt m.data 4 2 == 0 || decide (4096 ≤ byteAt m.data 4 2))) (coll41 (desc41 2) (pl41 {}))).map
      (fun r => (byteAt r.1.data 4 2, bareRange r.1, (r.2.plan 0).used, (r.2.plan 0).ctx == r.1.ctx, inRange 1000 4000000000 (byteAt r.1.data 40 4))) = some (0, true, true, true, true)) ∧
    (∀ b, b ∈ [true, false] → (pl41 { running := b, recreate := b }).running = b ∧ (pl41 { running := b, recreate := b }).recreate = b) := by decide +kernel
/-- The plan's staged run behind its start record, or with its state lost. -/
def staged41 (x : Plan) (reads : SMap PoolRead) : State :=
  let s := coll41 [] (pl41 { x with running := true, staged := true, seq := 4 })
  let r := phaseRecord 0 (s.plan 0) 0
  { s with svc := { s.svc with shadows := memWrite [] 0 (if x.due then r else []), reads := reads } }
theorem witness_run41 :
    (let s := coll41 [] (pl41 { members := [2] }); (downMembers s (s.plan 0)).any (stopsRun (s.plan 0)) = true ∧ (s.plan 0).spray < 4096) ∧
    (let s := coll41 [] (pl41 { kind := 2, members := [2] }); (downMembers s (s.plan 0)).any (stopsRun (s.plan 0)) = false) ∧
    (let s := coll41 [] (pl41 { running := true, armed := true }); reached s 0 = true ∧ noticeWaits s (s.plan 0) = false ∧ ctxState s 3 = 1 ∧
      opsIdle s (s.plan 0) = true ∧ primaryOpen s 0 = false ∧ runWhole { (s.plan 0) with done := [0] } = true) ∧
    (let s := coll41 [] (pl41 { kind := 2, running := true, armed := true, deadline := 20000000000 }); reached s (s.plan 0).deadline = false ∧
      (newlyLost s (s.plan 0)).any (stopsRun (s.plan 0)) = false) ∧
    (let s := staged41 { due := true } []; primaryOpen s 0 = false ∧ shadowCopy s 0 = some (4, 0, 0) ∧ poolGot s (readKey 1 8192) = none ∧
      poolGot (staged41 {} [(readKey 1 8192, {})]) (readKey 1 8192) = some { status := 0, data := [] } ∧ shadowCopy (staged41 {} []) 0 = none) := by decide +kernel
theorem test_coll :
    (after .collPlan (read41 0 (coll41 plan41 {})) (fun t => (t.plan 0).used && (t.plan 0).ops == [(0, 0)] && entry t 0x0010 (t.plan 0).alias_ == 4 && (t.slot 0).st == .live) &&
     after .collPlan (coll41 plan41 {}) (fun t => mhas (readKey 1 0) t.svc.reads && t.plan 0 == {}) &&
     after .collFree (coll41 (desc41 3) (pl41 {})) (fun t => !(t.plan 0).used) &&
     after (.collRun 0) (coll41 (desc41 2) (pl41 { kind := 2, members := [2] })) (fun t => (t.plan 0).running && (t.plan 0).run == 1 && (t.plan 0).pruned == [0] && (t.plan 0).span == 1000000)) = true := by decide +kernel
theorem test_coll2 :
    (after (.collStop 0) (coll41 [] (pl41 { kind := 2, running := true, armed := true, members := [2] })) (fun t => (t.plan 0).stopped && (t.plan 0).byDeadline && (t.plan 0).pruned == [0]) &&
     after (.collStop 0) (coll41 [] (pl41 { kind := 2, running := true, span := 7 })) (fun t => (t.plan 0).armed && (t.plan 0).deadline == 10000000007 && !(t.plan 0).stopped) &&
     after (.collComplete 0) (coll41 [] (pl41 { kind := 2, running := true, done := [0] })) (fun t => !(t.plan 0).running) &&
     after (.phaseStateResume 0) (staged41 { due := true, primaryLost := true } []) (fun t => (t.plan 0).seq == 5 && (t.plan 0).phase == 1 && (t.plan 0).running) &&
     after (.phaseStateResume 0) (staged41 { primaryLost := true } []) (fun t => !(t.plan 0).running) &&
     after .cblk (cblk41 (1 + 2 * 3 + 2 ^ 11 + 2 ^ 21 * 40)) (fun t => t.mf.modIn == [] && (t.queue (qkey 416 2)).pkts.length + (mget [] (qkey 5 2) t.sw.stalled).length + (t.park (qkey 5 2)).pkts.length == 1)) = true := by decide +kernel

end F41

/-! ### ServicesTakeRequestsAndSwitch -/
namespace F42

/-- An SVCREQ from node 7 to service 4, which has a state, a mailbox of 16 and n waiting requests. -/
def svc42 (st n : Nat) (v : Nat := 4) : State := { base with
  ctl := { threads := [(0, { running := true })] }
  mf := { modIn := [(mkPkt 2 opSVCREQ 3 0 0 1 7 99 0 v [1, 2, 3], 5)] }
  svc := { table := [(4, st + 2 ^ 51 * 4)], mail := mset [] 4 ((List.range n).map (fun _ => {})) [] } }
theorem witness_svcreq :
    (∀ st ∈ [0, 1, 2, 3, 4], (takeMod (fun x => pOp x.1 == opSVCREQ) (svc42 st 16)).map (fun r => (svcState r.2 4, (mget [] 4 r.2.svc.mail).length, fld (svcEntry r.2 4) 51 4, hfld r.1.1 128 8, (r.2.thread (mboxThread r.2 4)).running)) = some (st, 16, 4, 4, true)) ∧
    (takeMod (fun x => pOp x.1 == opSVCREQ) (svc42 2 0 0)).map (fun r => hfld r.1.1 128 8) = some 0 := by decide +kernel
/-- Service 4 in a state, served by bundle 0 of version 1, and bundle 1 of version v. -/
def two42 (st v : Nat) (retired : Bool := false) : State := { base with
  svc := { table := [(4, st)], bundle := [(4, 0)], mail := [(4, [{}])] }
  ctl := { threads := [(0, { running := true })] }
  sec := { bundles := [(0, { svc := 4, bver := 1 }), (1, { svc := 4, bver := v, compat := 1, mbox := 40, retired := retired })] } }
theorem witness_switch :
    (∀ st ∈ [0, 2, 4], svcState (two42 st 2) 4 = st ∧ (mfind? 1 (two42 st 2).sec.bundles).map (fun b => (b.svc, b.bver, b.compat, b.signer, b.retired)) = some (4, 2, 1, 0, false)) ∧
    (mfind? 1 (two42 2 1).sec.bundles).map (·.bver) = some 1 ∧ (mfind? 1 (two42 2 2 true).sec.bundles).map (·.retired) = some true ∧
    ((two42 1 2).thread (mboxThread (two42 1 2) 4)).running = true ∧ tilesReady (two42 1 2) {} = true ∧ tilesReady (two42 1 2) { progs := [(5, 1)] } = false ∧ mget [] 4 (two42 3 2).svc.oldMail = [] ∧ isSvc 4 = true := by decide +kernel
theorem test_svc :
    (after .svcreq (svc42 2 15) (fun t => (mget [] 4 t.svc.mail).length == 16 && (t.thread 0).events.map (·.kind) == [1]) &&
     after .svcreq (svc42 2 16) (fun t => (mget [] 4 t.svc.mail).length == 16 && (t.thread 0).events.isEmpty) &&
     after (.serviceSwitch 1) (two42 4 2) (fun t => svcState t 4 == 1 && mboxThread t 4 == 40 && (t.thread 40).running) &&
     after (.serviceSwitch 1) (two42 2 2) (fun t => svcState t 4 == 3 && (mget [] 4 t.svc.oldMail).length == 1) &&
     after (.serviceSwitch 1) (two42 2 1) (fun t => svcState t 4 == 2 && mget 9 4 t.svc.switched == 7) &&
     after (.serviceAdopt 4) (two42 3 2) (fun t => svcState t 4 == 2)) = true := by decide +kernel

end F42

/-! ### StreamsFetchAndDeliver -/
namespace F43

/-- The weight streaming service with a request, a consumer 9 at port 5, extent 4 of 4 pages on node 2, and stream 0. -/
def ws43 (d : List Byte) (x : WStream) : State := { base with
  svc := { table := [(2, 2)], streams := mset {} 0 x [], mail := [(2, [{ svc := 2, ctx := 3, data := d, src := 9 }])] }
  ports := [(5, { st := .up, bound := some 9 })]
  ctl := { threads := [(0, { running := true, svc := 2 })] }
  tab := { committed := true
           live := [(tkey 0x0010 1, 3), (tkey 0x0010 9, 1), (tkey 0x0011 0, 5), (tkey 0x0013 4, 2 ^ 10 * 2 + 2 ^ 56 * 4 + 2 ^ 88 + 2 ^ 91), (tkey 0x0030 3, 1 + 2 ^ 48 * 10 + 2 ^ 65 * 8 + 2 ^ 113)] } }
/-- OPEN of one order entry for consumer 9, DEPTH 2. -/
def open43 : List Byte := [1, 0, 2, 0] ++ natBytes 4 1 ++ natBytes 16 0 ++ natBytes 2 1 ++ natBytes 22 0
/-- A stream with one order entry of 6 lines from line 8 of extent 4. -/
def st43 (x : WStream) : WStream := { x with used := true, ctx := 3, depth := 2, entries := 1, consumers := [9], alias_ := 77, ents := [(0, { ext := 4, first := 8, lines := 6 })] }
/-- What the pool has answered to the service's reads. -/
def read43 (key : Nat) (d : List Byte) (st : Nat) (s : State) : State := { s with svc := { s.svc with reads := [(key, { got := [(0, d)], status := st })] } }
theorem witness_ws :
    ((takeMail 2 1 (ws43 open43 {})).map (fun r => ((openStream r.1 { data := [9, 0] } (dropRead (readKey 2 0) r.2)).1, (openStream r.1 { status := stPathLost } r.2).1, openInRange r.1.data, cmdUnknown r.1)) =
      some (stOK, stPathLost, true, false)) ∧
    (poolGot (ws43 open43 {}) (readKey 2 0) = none ∧ poolGot (read43 (readKey 2 0) [9, 0] 0 (ws43 open43 {})) (readKey 2 0) = some { data := [9, 0] }) ∧
    ((takeMail 2 1 (ws43 (natBytes 48 7) {})).map (fun r => cmdUnknown r.1) = some true) ∧
    ((takeMail 2 2 (ws43 ([2, 0, 0, 0] ++ natBytes 4 0) (st43 {}))).map (fun r => ((r.2.stream 0).consumers.findIdx? (· == r.1.src), (r.2.stream 0).ctx == r.1.ctx)) = some (some 0, true)) ∧
    ((takeMail 2 2 (ws43 ([2, 0, 0, 0] ++ natBytes 4 0) {})).map (fun r => (r.2.stream 0).consumers) = some []) ∧
    ((takeMail 2 3 (ws43 [3, 0, 0, 0] (st43 {}))).map (fun r => ((r.2.stream 0).used, (r.2.stream 0).ctx == r.1.ctx, (endStream 0 (some r.1) r.2).isSome)) = some (true, true, true)) ∧
    openInRange [1, 4] = false ∧ ctxState (ws43 [] {}) 3 = 1 ∧ streamDone (ws43 [] {}) 0 (st43 {}) = false ∧ streamDone (ws43 [] {}) 0 (st43 { ent := 1 }) = true := by decide +kernel
/-- An order entry of a number of lines of extent 4 from line 8. -/
def ent43 (lines : Nat) : List Byte := natBytes 8 4 ++ natBytes 8 8 ++ natBytes 4 lines ++ natBytes 12 0
theorem witness_fetch :
    (let s := ws43 [] (st43 {}); let x := noteLost s (s.stream 0)
     x.used = true ∧ x.ent < x.entries ∧ x.out = [] ∧ x.stop = none ∧ mfind? x.ent x.ents = some { ext := 4, first := 8, lines := 6 } ∧ x.line < 6 ∧
       overBound s x { ext := 4, first := 8, lines := 6 } = false ∧ overBound s x { ext := 4, first := 8, lines := 6 } = false) ∧
    (let s := ws43 [] { st43 {} with ents := [] }; let x := noteLost s (s.stream 0); mfind? x.ent x.ents = none ∧ poolGot s (orderKey 0) = none ∧
      (∀ st ∈ [0, 1], (poolGot (read43 (orderKey 0) (ent43 6) st s) (orderKey 0)).map (·.status) = some st) ∧ entOk s (orderEnt (ent43 6)) = true ∧ entOk s (orderEnt (ent43 0)) = false) ∧
    (let s := ws43 [] (st43 { line := 2, blks := [(0, { len := 2, lines := 2 })], out := [{ node := 3 }] }); (s.stream 0).line = 2 ∧
      (∃ f ∈ (noteLost s (s.stream 0)).out, f.node ≠ exNode (extent s 4))) ∧
    (noteLost (ws43 [] {}) ((ws43 [] {}).stream 0)).used = false ∧
    (let s := ws43 [] (st43 { redo := [0], blks := [(0, { node := 2, len := 6, lines := 6 })], ent := 1 }); (s.stream 0).redo = [0] ∧ ceilDiv (mget {} 0 (s.stream 0).blks).len 4 = 2) ∧
    (let s := ws43 [] (st43 { out := [{ at_ := 0 }] }); ((s.stream 0).out.find? (fun f => passed s f.at_ (resLimit s 0))).isSome = true) ∧
    (let s := ws43 [] (st43 { legData := [(0, [{ data := [1], size := 1 }])] }); legWhole { data := [1], size := 1 } = true ∧ (noteLost s (s.stream 0)).legData = [(0, [{ data := [1], size := 1 }])] ∧
      edgesOf s 9 = [5] ∧ edgesOf s 8 = []) := by decide +kernel
/-- A response with a tag and a status before the fetcher's check of stream 0, which awaits tag 5. -/
def rsp43 (status : Nat) : State :=
  let tag := fetchTag 0 5 true
  { ws43 [] (st43 { out := [{ tag := tag, lines := 1 }] }) with
    mf := { streamIn := [(mkPkt 3 opRDRSP 3 0 0 77 2 tag status 0 [7, 8], 5, 0)] } }
theorem witness_response :
    (∀ st ∈ [0, 1], (rsp43 st).mf.streamIn.map (fun e => (streamOf (rsp43 st) (pDst e.1), pStatus e.1, ((rsp43 st).stream 0).out.any (fun f => f.tag == pTag e.1))) = [(some 0, st, true)]) ∧
    streamOf (rsp43 0) 5 = none := by decide +kernel
/-- A response of a block at leg 0, which awaits sequence 5 and holds a block in part. -/
def leg43 (bstart : Bool) (status seq : Nat) (skip : List Nat) : WStream :=
  legTake (mkPkt 3 opRDRSP 3 0 0 77 2 (fetchTag 0 seq bstart) status 0 []) 0 (0, 0, 0) [7, 8] (st43 { legSeq := [(0, 5)], legSkip := skip, legData := [(0, [{ data := [1], size := 9 }])] }) 0
theorem test_legs :
    ((mget [] 0 (leg43 false 0 5 []).legData).map (·.data) = [[1, 7, 8]] ∧ (mget [] 0 (leg43 true 0 5 []).legData).map (·.data) = [[7, 8]] ∧
     mget [] 0 (leg43 false 0 6 []).legData = [] ∧ (leg43 false 0 6 []).legSkip = [0] ∧ mget [] 0 (leg43 false 1 5 []).legData = [] ∧
     (mget [] 0 (leg43 false 0 5 [0]).legData).map (·.data) = [[1]] ∧ (leg43 true 0 5 [0]).legSkip = []) := by decide +kernel
theorem witness_digest :
    (let s := ws43 [] (st43 {}); manifestOf s 3 4 = none ∧ (freeManifest s 3).isSome = true) ∧
    (∀ d, let s : State := { base with svc := { manifest := [(4096 * 3, { ext := 4, digest := d })] } }; manifestOf s 3 4 = some 12288 ∧ (mget {} 12288 s.svc.manifest).digest = d) := by
  refine ⟨by decide +kernel, fun d => ⟨by simp [manifestOf], rfl⟩⟩
theorem witness_digestDiffers : (Config.sha384 []).toNat ≠ 2 ^ 384 := by
  have := (Config.sha384 []).isLt
  omega
theorem test_ws :
    (after .wsOpen (read43 (readKey 2 0) [9, 0] 0 (ws43 open43 {})) (fun t => (t.stream 0).used && (t.stream 0).consumers == [9] && (t.stream 0).depth == 2) &&
     after .wsOpen (ws43 open43 {}) (fun t => mhas (readKey 2 0) t.svc.reads && !(t.stream 0).used) &&
     after .wsAdvance (ws43 ([2, 0, 0, 0] ++ natBytes 4 3) (st43 {})) (fun t => mget 0 0 (t.stream 0).acked == 4) &&
     after .wsAdvance (ws43 ([2, 0, 0, 0] ++ natBytes 4 3) {}) (fun t => t.svc.advDropped == 1) &&
     after .wsClose (ws43 [3, 0, 0, 0] (st43 {})) (fun t => !(t.stream 0).used) &&
     after (.streamEnd 0) (ws43 [] (st43 { ent := 1 })) (fun t => !(t.stream 0).used)) = true := by decide +kernel
theorem test_fetch :
    (after (.streamFetchIssue 0) (ws43 [] (st43 {})) (fun t => (t.stream 0).out.map (fun f => (f.laddr, f.lines, f.tag)) == [(8, 4, 524288 + 16384 + 512)] && (t.stream 0).line == 4) &&
     after (.streamFetchIssue 0) (read43 (orderKey 0) (ent43 0) 0 (ws43 [] { st43 {} with ents := [] })) (fun t => (t.stream 0).stop == some 7) &&
     after (.streamBlockRefetch 0) (ws43 [] (st43 { redo := [0], blks := [(0, { node := 2, laddr := 8, len := 6, lines := 6 })], ent := 1 })) (fun t => (t.stream 0).out.map (fun f => (f.laddr, f.lines)) == [(8, 4), (12, 2)]) &&
     after .streamResponse (rsp43 0) (fun t => (t.stream 0).out.isEmpty && (t.stream 0).redo == []) &&
     after .streamResponse (rsp43 1) (fun t => (t.stream 0).redo == [0]) &&
     after (.wsdataDecode 0 0) (ws43 [] (st43 { legData := [(0, [{ data := [1], size := 1, last := true }])] })) (fun t => (t.stream 0).legData == [] && ((t.queue (qkey 5 3)).pkts.map (fun x => pOp x.pkt)) == [opWSDATA])) = true := by decide +kernel

end F43

/-! ### ExpertsDispatchAndCombine -/
namespace F44

/-- The expert service with a request, plan 0 and a map whose expert 5 of layer 0 is holder 0. -/
def ex44 (d : List Byte) (x : Expert) : State := { base with
  svc := { table := [(3, 2)], bundle := [(3, 0)], experts := mset {} 0 x [], mail := [(3, [{ svc := 3, ctx := 3, data := d, src := 9 }])] }
  sec := { bundles := [(0, { svc := 3, progs := [(5, 1)] })] }
  ctl := { ptab := [(0, 5 + 2 ^ 16 + 2 ^ 45 * 16 + 2 ^ 59 * 2)], threads := [(0, { running := true, svc := 3 })] }
  per := { rows := [(17, (3 + 2 ^ 26 * 5) + 2 ^ 256 * (2 ^ 160 - 1) + 2 ^ 544)] }
  tab := { live := [(tkey 0x0020 7, 1 + 2 ^ 3 * 16 + 2 ^ 20 * 32 + 2 ^ 38 * 3), (tkey 0x0030 3, 1 + 2 ^ 48 * 10 + 2 ^ 65 * 8 + 2 ^ 113)], committed := true } }
def x44 (x : Expert) : Expert := { x with used := true, ctx := 3, fmt := 2, table := 7, h := 128, holders := [{ node := 2, recv := 4096, out := 8192, cap := 4 }], ops := [(0, 0)] }
/-- PLAN: BF16 or another 16-bit format, table 7, H 128, one operation, one holder. -/
def plan44 : List Byte := [1, 2, 7, 0, 128, 0, 1, 0] ++ natBytes 8 0 ++ [1, 0]
/-- DISPATCH of T records. -/
def disp44 (n : Nat) : List Byte := [2, 0, 0, 0] ++ natBytes 4 0 ++ natBytes 8 0 ++ natBytes 4 n ++ natBytes 20 0
/-- Records of one token with one expert each. -/
def rec44 (e1 e2 : Nat) : PoolAns := { data := natBytes 4 1 ++ [1, 0, 0, 0] ++ natBytes 2 e1 ++ natBytes 54 0 ++ natBytes 4 2 ++ [1, 0, 0, 0] ++ natBytes 2 e2 ++ natBytes 54 0 }
/-- The service's read has come back. -/
def read44 (key : Nat) (a : PoolAns) (s : State) : State := { s with svc := { s.svc with reads := [(key, { got := [(0, a.data)], status := a.status })] } }
theorem witness_expert :
    ((takeMail 3 1 (ex44 plan44 {})).map (fun r => (planRefusal r.2 r.1, (makeExpert r.1 {} (dropRead (readKey 3 0) r.2)).1, r.1.ctx)) = some (none, stOK, 3)) ∧ expertInRange [1, 1] = false ∧
    ((takeMail 3 1 (ex44 [1, 1] {})).map (fun r => planRefusal r.2 r.1) = some (some stViolation)) ∧
    (poolGot (ex44 plan44 {}) (readKey 3 0) = none ∧ (poolGot (read44 (readKey 3 0) {} (ex44 plan44 {})) (readKey 3 0)).isSome = true ∧ slotsHeld (ex44 plan44 {}) = false) ∧
    ((takeMail 3 4 (ex44 [4, 0, 0, 0] (x44 {}))).map (fun r => expertRefusal r.2 r.1 0) = some none) ∧
    ((takeMail 3 2 (stepBatches false stepDispatch (ex44 (disp44 2) (x44 {})))).map (fun r => (expertRefusal r.2 r.1 0, byteAt r.1.data 16 4, byteAt r.1.data 4 4)) = some (none, 2, 0)) ∧
    ((takeMail 3 2 (stepBatches false stepDispatch (ex44 (disp44 2) {}))).map (fun r => expertRefusal r.2 r.1 0) = some (some stViolation)) ∧
    ((takeMail 3 3 (stepBatches true stepCombine (ex44 [3, 0, 0, 0] (x44 { dispatched := true })))).map (fun r => (expertRefusal r.2 r.1 0, (r.2.expert 0).dispatched)) = some (none, true)) ∧
    (let s := ex44 [] (x44 {}); ctxState s 3 = 1 ∧ ctxState s 4 ≠ 1 ∧ findResult s 3 7 (3 + 2 ^ 26 * 5) = some 0 ∧ findResult s 3 7 (3 + 2 ^ 26 * 6) = none) ∧
    (let s : State := { ex44 [] (x44 {}) with mf := { own := [(5, { user := 7 })] } }; expertBusy s 0 = true) ∧
    (let s := ex44 [] (x44 { batch := some {} }); mkeys s.svc.experts = [0] ∧ (s.expert 0).batch = some {} ∧ batchOpen s 0 = false) := by decide +kernel
/-- A dispatch of two tokens, its records read. -/
def sent44 (a : PoolAns) : State := read44 (readKey 3 1) a (ex44 (disp44 2) (x44 {}))
/-- A dispatch in progress whose fetched pieces have come back. -/
def done44 : State :=
  let s := ex44 [] (x44 { t := 1, placed := [(0, 0, 0)], batch := some {} })
  { s with svc := { s.svc with pieces := [(fetchJob 0 * 2 ^ 64 + pieceNo 0 0 0, 0, List.replicate 128 0)] } }
theorem test_expert :
    (after .expertPlan (read44 (readKey 3 0) {} (ex44 plan44 {})) (fun t => (t.expert 0).used && (t.expert 0).ops == [(0, 0)] && (t.slot 0).st == .live) &&
     after .expertPlan (ex44 plan44 {}) (fun t => mhas (readKey 3 0) t.svc.reads && !(t.expert 0).used) &&
     after .expertFree (ex44 [4, 0, 0, 0] (x44 {})) (fun t => !(t.expert 0).used) &&
     after .expertDispatch (sent44 (rec44 5 5)) (fun t => (t.expert 0).batch.isSome && (t.expert 0).placed == [(0, 0, 0), (8, 0, 1)]) &&
     after .expertDispatch (sent44 (rec44 5 6)) (fun t => (t.expert 0).tok == [(1, stViolation)] && t.mf.own.length == 1)) = true := by decide +kernel
theorem test_batches :
    (after .expertDispatch done44 (fun t => t.svc.pieces == [] && t.mf.own.map (fun e => pOp e.2.pkt) == [opWRN]) &&
     after .expertDispatch { done44 with svc := { done44.svc with pieces := [] } } (fun t => (t.expert 0).batch == none && (t.expert 0).dispatched) &&
     after .expertCombine (ex44 [3, 0, 0, 0] (x44 { dispatched := true, t := 1, placed := [(0, 0, 0)] })) (fun t => (t.expert 0).batch.map (·.combine) == some true && t.mf.own.length == 1)) = true := by decide +kernel
/-- Weights 1 and 2 of two experts, FP32 elements 1, 3 and 0, 1. -/
theorem test_combine :
    (combineBytes { fmt := 1, recs := List.replicate 24 0 ++ natBytes 4 0x3F800000 ++ natBytes 4 0x40000000 } 0 [0, 1]
      [natBytes 4 0x3F800000 ++ natBytes 4 0 ++ List.replicate 120 0, natBytes 4 0x40400000 ++ natBytes 4 0x3F800000 ++ List.replicate 120 0]).take 8 =
        natBytes 4 0x40E00000 ++ natBytes 4 0x40000000 := by decide +kernel

end F44

/-! ### KvBlocksTakeAndKeepPages -/
namespace F45

/-- The KV service with a request of context 3 for block 70 of sequence 9, word 6 of group row 0, and pages of extent 9 from page 4 on. -/
def kv45 (d : List Byte) (kv : SMap Nat) (row : SMap (Nat × Nat × Nat)) (pages : SMap Nat) : State := { base with
  svc := { table := [(4, 2)], kv := kv, kvRow := row, mail := [(4, [{ svc := 4, ctx := 3, data := d, src := 9 }])] }
  per := { rows := if row.isEmpty then [] else [(16, kvKey 3 9 1 + 2 ^ 256 * (2 ^ 160 - 1) + 2 ^ 544)] }
  tier := { pages := pages }
  tab := { live := [(tkey 0x0013 9, 3 + 2 ^ 10 + 2 ^ 24 * 4 + 2 ^ 56 * 2 + 2 ^ 88), (tkey 0x0020 7, 1 + 2 ^ 3 * 16 + 2 ^ 20 * 32 + 2 ^ 48), (tkey 0x0030 3, 1)] } }
def req45 (cmd flags : Nat) : List Byte := [BitVec.ofNat 8 cmd, BitVec.ofNat 8 flags, 0, 0] ++ natBytes 4 9 ++ natBytes 4 70
/-- A word of page 4 with flags and pins, and the row of the sequence. -/
def word45 (st ref drop pins : Nat) : SMap Nat := [(6, st + 2 ^ 4 * ref + 2 ^ 5 * drop + 2 ^ 6 * pins + 2 ^ 16 + 2 ^ 30 * 4)]
def row45 : SMap (Nat × Nat × Nat) := [(0, 3, 9, 1)]
theorem witness_kvAlloc :
    ((takeMail 4 1 (kv45 (req45 1 3) (word45 1 0 0 1) row45 [(4, 1)])).map (fun r => (kvRefusal r.2 r.1, kvFind r.2 r.1, kwState (kvWord r.2 6), kwPins (kvWord r.2 6), kvPins r.1)) = some (none, some 6, 1, 1, true)) ∧
    ((takeMail 4 1 (kv45 (req45 1 3) (word45 1 0 0 1) row45 [(4, 3)])).map (fun r => kwState (kvWord r.2 6)) = some 3) ∧
    ((takeMail 4 1 (kv45 (req45 1 3) [] [] [(4, 1)])).map (fun r => (kvRefusal r.2 r.1, kvFind r.2 r.1, (kvFreePages r.2 3).find? (fun p => pgState (page r.2 p) == 1), (kvMakeRow r.1 r.2).isSome, kvRowOf r.2 3 9 70)) == some (none, none, some 4, true, none)) = true ∧
    ((takeMail 4 1 (kv45 (req45 1 3) [] row45 [(4, 1)])).map (fun r => (kvRowOf r.2 3 9 70, kvFind r.2 r.1)) = some (some 0, some 6)) ∧
    ((takeMail 4 1 (kv45 (req45 1 3) [] [] [])).map (fun r => (kvAllocate r.1 r.2).isSome) = some false) ∧
    ((takeMail 4 1 (kv45 (req45 1 3) [] [] [(4, 3)])).map (fun r => (kvAllocate r.1 r.2).map (·.1)) = some (some true)) := by decide +kernel
theorem witness_kvUnknown : (takeMail 4 1 (kv45 (req45 9 0) [] [] [])).map (fun r => cmdUnknown r.1) = some true ∧ cmdUnknown { svc := 4, data := req45 1 0 } = false := by decide +kernel
theorem witness_kvSweep :
    (let s := kv45 [] (word45 1 1 0 0) row45 [(4, 1)]; kvWordsOf s 3 = [6] ∧ (kvVictim 3 s).1 = some 6) ∧ (kvVictim 3 (kv45 [] (word45 1 0 0 2) row45 [(4, 1)])).1 = none := by decide +kernel
theorem witness_kvRest :
    ((takeMail 4 2 (kv45 (req45 2 2) (word45 1 0 0 0) row45 [(4, 1)])).map (fun r => (kvRefusal r.2 r.1, kvFind r.2 r.1, kwState (kvWord r.2 6))) = some (none, some 6, 1)) ∧
    ((takeMail 4 2 (kv45 (req45 2 2) (word45 1 0 0 0) row45 [(4, 3)])).map (fun r => kwState (kvWord r.2 6)) = some 3) ∧
    ((takeMail 4 2 (kv45 (req45 2 2) [] [] [])).map (fun r => (kvRefusal r.2 r.1, kvFind r.2 r.1)) = some (none, none)) ∧
    (∀ pins ∈ [0, 1], (takeMail 4 3 (kv45 (req45 3 0) (word45 2 0 0 pins) row45 [(4, 1)])).map (fun r => (kvRefusal r.2 r.1, kvFind r.2 r.1, kwState (kvWord r.2 6), kwPins (kvWord r.2 6))) = some (none, some 6, 2, pins)) ∧
    ((takeMail 4 4 (kv45 (req45 4 0) (word45 1 0 0 0) row45 [(4, 1)])).map (fun r => (ctxState r.2 3, (r.2.svc.kvRow.filter (fun e => e.2.1 == r.1.ctx && e.2.2.1 == kvSeq r.1)).map (·.1))) = some (1, [0])) := by decide +kernel
def wait45 (pg at_ : Nat) : State := let s := kv45 [] (word45 1 0 0 0) row45 [(4, pg)]
  { s with svc := { s.svc with kvWait := [({ svc := 4, ctx := 3, data := req45 2 2 }, 6, at_)] } }
theorem witness_kvWait :
    ((popFirst (kvWaitOver (wait45 1 10000000000)) (wait45 1 10000000000).svc.kvWait).isSome = true) ∧ ((popFirst (kvWaitOver (wait45 3 5)) (wait45 3 5).svc.kvWait).isSome = true) ∧
    (let s := wait45 3 10000000000; ∀ x ∈ s.svc.kvWait, kwState (kvWord s x.2.1) = 3 ∧ ctxState s x.1.ctx = 1 ∧ now s < x.2.2 + 50000) := by decide +kernel
theorem test_kv :
    (after .kvAlloc (kv45 (req45 1 2) (word45 1 0 0 1) row45 [(4, 1)]) (fun t => kwPins (kvWord t 6) == 2) &&
     after .kvAlloc (kv45 (req45 1 2) [] [] [(4, 1)]) (fun t => kwPins (kvWord t 6) == 1 && kwPage (kvWord t 6) == 4 && t.svc.kvRow == row45 && t.per.rows == [(16, kvKey 3 9 1 + 2 ^ 256 * (2 ^ 160 - 1) + 2 ^ 544)]) &&
     after .kvAlloc (kv45 (req45 1 2) [] [] [(4, 3)]) (fun t => t.svc.mail.length == 1) &&
     after .kvLookup (kv45 (req45 2 2) (word45 1 0 0 0) row45 [(4, 1)]) (fun t => kwPins (kvWord t 6) == 1 && kwRef (kvWord t 6)) &&
     after .kvLookup (kv45 (req45 2 2) (word45 1 0 0 0) row45 [(4, 3)]) (fun t => t.svc.kvWait.length == 1) &&
     after .kvLookupWaitEnd (wait45 1 10000000000) (fun t => t.svc.kvWait.isEmpty && kwRef (kvWord t 6)) &&
     after .kvUnpin (kv45 (req45 3 0) (word45 2 0 0 1) row45 [(4, 1)]) (fun t => t.svc.kv == [] && t.svc.kvRow == [] && t.per.rows == []) &&
     after .kvFreeseq (kv45 (req45 4 0) (word45 1 0 0 2) row45 [(4, 1)]) (fun t => kwState (kvWord t 6) == 2 && kwPins (kvWord t 6) == 2)) = true := by decide +kernel

end F45

/-! ### FilterKeepsTheBest -/
namespace F46

/-- The filter service with a RUN over n records of 64 B with FP32 scores at byte 32, k best, one operation. -/
def filt46 (table n k : Nat) (progs : List (Nat × Nat)) (ctx : Nat := 3) : State := { base with
  svc := { table := [(5, 2)], bundle := [(5, 0)], mail := [(5, [{ svc := 5, ctx := ctx, src := 9, data := [1, 0] ++ natBytes 2 table ++ natBytes 4 n ++ natBytes 8 0 ++ natBytes 2 64 ++ natBytes 2 0 ++ natBytes 2 32 ++ [1, 0] ++ natBytes 2 k ++ natBytes 2 1 ++ natBytes 36 0 }])] }
  sec := { bundles := [(0, { svc := 5, progs := progs })] }
  ctl := { ptab := [(0, 5 + 2 ^ 16 + 2 ^ 45 * 16 + 2 ^ 59 * 2), (64, 5 + 2 ^ 16 + 2 ^ 45 * 16 + 2 ^ 59 * 2)], threads := [(0, { running := true, svc := 5 })] }
  tab := { live := [(tkey 0x0020 7, 1 + 2 ^ 3 * 16 + 2 ^ 20 * 32 + 2 ^ 38 * 3), (tkey 0x0030 3, 1 + 2 ^ 48 * 10 + 2 ^ 65 * 8 + 2 ^ 113)] } }
def rec46 (score : Nat) : List Byte := natBytes 32 0 ++ natBytes 4 score ++ natBytes 28 0
/-- A run in progress whose records have come back with these statuses and scores. -/
def run46 (n k : Nat) (l : List (Nat × Nat)) (ctx : Nat := 3) : State :=
  let s := filt46 0xFFFF n k [(5, 1)] ctx
  let m := ((mget [] 5 s.svc.mail).head?).getD {}
  { s with
    svc := { s.svc with
      mail := []
      filters := [(0, { req := m })]
      pieces := l.mapIdx (fun i x => (recordJob 0 * 2 ^ 64 + 4 * i, x.1, if x.1 = 0 then rec46 x.2 else [])) } }
theorem witness_filter :
    (∀ x ∈ [0xFFFF, 7], ((takeMail 5 1 (stepFilters (filt46 x 2 1 [(5, 1)]))).map (fun r => (filterRefusal r.2 r.1, serviceProg r.2 5,
      leastBelow 4096 (fun k => !mhas k r.2.svc.filters && !ownOpen r.2 12 (recordJob k)), (createTargets (filterThread r.2) r.1.ctx 5 1 1 1 2 r.2).isSome)) == some (none, some (5, 1), some 0, true)) = true) ∧
    slotsHeld (filt46 7 2 1 []) = false ∧ ((takeMail 5 1 (filt46 0xFFFF 2 1 [])).map (fun r => (filterRefusal r.2 r.1, serviceProg r.2 5)) == some (none, none)) = true ∧
    ((takeMail 5 1 (filt46 0xFFFF 0 1 [])).map (fun r => (filterInRange r.2 r.1.data, cmdUnknown r.1)) = some (false, false)) ∧
    ((takeMail 5 1 (filt46 8 2 1 [])).map (fun r => maySearch r.2 3 8) = some false) ∧ ((takeMail 5 1 (filt46 8 2 1 [] 4)).map (fun r => ctxState r.2 4) = some 0) ∧
    (ownOpen (run46 2 1 []) 12 (recordJob 0) = false ∧ ctxState (run46 2 1 []) 3 = 1 ∧ ctxState (run46 2 1 [] 4) 4 ≠ 1) ∧
    (recordHits (run46 2 1 [(0, 5)]) 0 { ctx := 3, data := (((mget [] 5 (filt46 0xFFFF 2 1 []).svc.mail).head?).getD {}).data }).length = 1 := by decide +kernel
theorem test_filter :
    (after .filterRun (filt46 0xFFFF 2 1 [(5, 1)]) (fun t => t.mf.own.map (fun e => (e.2.user, e.2.arg)) == [(12, 0), (12, 4)] && t.svc.filters.length == 1 && (t.slot 0).st == .live) &&
     after .filterRun (run46 2 1 [(0, 0x3F800000), (0, 0x40000000)]) (fun t => t.mf.own.map (fun e => e.2.pkt.payload.take 4) == [natBytes 4 1] && t.svc.filters == []) &&
     after .filterRun (run46 4 4 [(0, 0x3F800000), (0, 0x40000000), (0, 0x7FC00000), (4, 0)]) (fun t => t.mf.own.map (fun e => e.2.pkt.payload.take 12) == [natBytes 4 1 ++ natBytes 4 0 ++ natBytes 4 2]) &&
     after .filterRun (run46 2 1 [] 4) (fun t => t.svc.filters == [] && t.mf.own == [])) = true := by decide +kernel
theorem test_rank :
    ([(0, Machine.Num.nan), (1, numOf 1 0x3F800000), (2, numOf 1 0x40000000), (3, numOf 1 0x3F800000)].foldl (fun a x => rankIn x a) []).map (·.1) = [2, 1, 3, 0] := by decide +kernel

end F46

/-! ### RingsFetchAndComplete -/
namespace F47

/-- Port 0's PF with submission ring 1 and completion ring 2. -/
def ring47 (x : SQ) (c : CQ) : State := { base with hst := { owner := 1, ports := [(0, { linkUp := true, perst := false })], funcs := mset {} 0 { sqs := mset {} 1 x [], cqs := mset {} 2 c [] } [] }, tab := { live := [(tkey 0x0030 0, 1)] } }
def sq47 (x : SQ) : SQ := { x with en := true, log2 := 4, cq := 2, base := 4096 }
def cq47 (c : CQ) : CQ := { c with en := true, log2 := 4, base := 8192 }
/-- A descriptor of a type with 8 inline bytes for this module's service 4, PHASE 1. -/
def desc47 (ty : Nat) (flags : Nat := 0) (dst : Nat := 0xFFFF) : List Byte := natBytes 1 (ty + flags) ++ [4] ++ natBytes 2 dst ++ natBytes 2 8 ++ natBytes 2 0 ++ natBytes 16 0 ++ natBytes 8 77 ++ natBytes 31 0 ++ [128]
def out47 (abandon : Nat) : State := ring47 (sq47 { abandon := abandon, out := [{ seq := 5, index := 1, cookie := 9, at_ := 5 }] }) (cq47 {})
/-- A running TDI: a VF of port 0 in RUN. -/
def tdi47 : State := { ring47 {} {} with hst := { (ring47 {} {}).hst with funcs := mset {} (funcKey 0 1) { tdi := .run } [] } }
/-- The SVCCMP of the request, whose ring is full and whose function holds 256 completions. -/
def full47 : State := let s := ring47 (sq47 { out := [{ seq := 5 }] }) (cq47 { tail := 15, held := List.replicate 256 {} })
  { s with mf := { modIn := [(mkPkt 4 opSVCCMP 0 0 0 1 1 (786432 + 128 + 5) 0 4 (natBytes 8 0), 400)] } }
theorem witness_waits : heard tdi47 0 1 false = false ∧ heard tdi47 0 1 true = true ∧ cqTakes full47 0 0 2 = false ∧
    (takeMod (fun x => pOp x.1 == opSVCCMP && !cmpWaits full47 x.1) full47).isNone = true := by decide +kernel
theorem witness_doorbell :
    (let s := ring47 (sq47 {}) (cq47 {}); isHostPort 0 = true ∧ isFunc 0 = true ∧ isRing 1 = true ∧ funcUp s 0 0 = true ∧ boundTo s 0 0 = some 0 ∧ (s.sq 0 0 1).en = true ∧ (3 : Nat) < 2 ^ (s.sq 0 0 1).log2) ∧
    (let s := ring47 (sq47 { tail := 3 }) (cq47 {}); nextEntry (s.sq 0 0 1) = (0, true) ∧ ringFetches s 0 0 1 = true ∧ descPhase (desc47 0) = true ∧ descPhase [] = false) ∧
    funcUp base 0 0 = false ∧ heard (ring47 {} {}) 0 0 false = true ∧ cqTakes (out47 1) 0 0 2 = true ∧ boundTo (ring47 {} {}) 0 1 = none ∧ ringFetches (ring47 (sq47 {}) {}) 0 0 1 = false ∧
    (let s := ring47 (sq47 { repoll := 3, repollAt := 9999990000 }) (cq47 {}); passed s (s.sq 0 0 1).repollAt 2000 = true) := by decide +kernel
def unbound47 : State := { ring47 {} {} with hst := { (ring47 {} {}).hst with ports := [(0, { linkUp := true, vfEn := true, numVfs := 4 })] } }
theorem witness_unbound : funcUp unbound47 0 1 = true ∧ boundTo unbound47 0 1 = none := by decide +kernel
def front47 (d : List Byte) (out : List SqReq) : State := ring47 (sq47 { fetched := [(0, d)], tail := 1, out := out }) (cq47 {})
theorem witness_front :
    (∀ x ∈ [(0, 0), (1, 0), (1, 16), (2, 0)], let v := dropAccepted 0 0 1 (front47 (desc47 x.1 x.2) [])
      ringFetches v 0 0 1 = true ∧ ringFetches (front47 (desc47 x.1 x.2) []) 0 0 1 = true ∧ descType (desc47 x.1 x.2) = x.1 ∧ descReserved (desc47 x.1 x.2) = false ∧ svcRefused v 0 0 (desc47 x.1 x.2) = false ∧
        freeSeq v 0 0 1 = some 0 ∧ bit (byteAt (desc47 x.1 x.2) 0 1) 4 = (x.2 == 16)) ∧
    (svcRefused (front47 (desc47 1 0 20000) []) 0 0 (desc47 1 0 20000) = true) ∧ descType (desc47 3) = 3 ∧
    (let v := dropAccepted 0 0 1 (front47 (desc47 2) [{ seq := 5, at_ := 10000000000 }]); ringFetches v 0 0 1 = true ∧ ∃ r ∈ (v.sq 0 0 1).out, r.nocmp = false) ∧
    (let v := front47 (desc47 1) ((List.range 128).map (fun i => { seq := i })); freeSeq v 0 0 1 = none) := by decide +kernel
def cmp47 (tag : Nat) (s : State) : State := { s with mf := { s.mf with modIn := [(mkPkt 4 opSVCCMP 0 0 0 1 1 tag 0 4 (natBytes 8 0), 400)] }, ctl := { threads := [(33, { running := true, tags := [524288 + 32768 + 512 + 3] })] } }
theorem witness_completions :
    (∀ tag ∈ [786432 + 128 + 5, 786432 + 128 + 6, 524288 + 32768 + 512 + 3, 9], (takeMod (fun x => pOp x.1 == opSVCCMP && !cmpWaits (cmp47 tag (out47 1)) x.1) (cmp47 tag (out47 1))).map (fun r => (pTag r.1.1, mhas tag r.2.mf.own, (mfind? tag r.2.mf.tagHold).isNone)) = some (tag, false, true)) ∧
    (sqReq (out47 1) 0 0 1 5).isSome = true ∧ (sqReq (out47 1) 0 0 1 6).isNone = true ∧ 5 + 1000000 ≤ now (out47 1) ∧ ((cmp47 9 (out47 1)).thread 33).running = true ∧
    (524288 + 32768 + 512 + 3 ∈ ((cmp47 9 (out47 1)).thread 33).tags) ∧ ((524288 + 32768 + 512 + 3 - 524288) / 32768 * 32 + (524288 + 32768 + 512 + 3 - 524288) % 32768 / 512 = 33) := by decide +kernel
theorem witness_cq :
    (let c := (ring47 {} (cq47 {})).cq 0 0 2; c.en = true ∧ cqFull c = false ∧ c.held = [] ∧ ((ring47 {} (cq47 {})).hport 0).linkUp = true) ∧ cqFull ((ring47 {} (cq47 { tail := 15 })).cq 0 0 2) = true ∧
    (let c := (ring47 {} (cq47 { tail := 15, held := [{}] })).cq 0 0 2; c.held = [{}] ∧ cqFull { c with head := 3 } = false) ∧
    (let c := (ring47 {} (cq47 { unsig := 1, coalUs := 1 })).cq 0 0 2; c.unsig ≠ 0 ∧ c.coalUs ≠ 0 ∧ passed (ring47 {} {}) c.unsigAt (1000 * c.coalUs) = true) ∧
    (∀ b ∈ [false, true], let s := ring47 { en := b } { en := b }; (s.sq 0 0 1).en = b ∧ (s.cq 0 0 2).en = b ∧ funcUp s 0 0 = true) ∧
    (let v := 1 + 2 * 4 + 2 ^ 6 * 2; bit v 0 = true ∧ inRange 4 16 (fld v 1 5) = true ∧ fld v 6 11 < vectorCount 0) ∧ inRange 4 16 (fld 1 1 5) = false ∧ vectorCount 1 ≤ fld (2 ^ 6 * 64) 6 11 ∧
    bit msixReset 96 = true ∧ ((ring47 {} {}).func 0).d3 = false := by decide +kernel
theorem test_rings :
    (after (.sqDoorbell 0 0 1 3 [desc47 0, []] false) (ring47 (sq47 {}) (cq47 {})) (fun t => (t.sq 0 0 1).fetched == [(0, desc47 0)] && (t.sq 0 0 1).repoll == 1 && (t.sq 0 0 1).tail == 3) &&
     after (.sqDoorbell 0 0 1 16 [] false) (ring47 (sq47 {}) (cq47 {})) (fun t => (t.sq 0 0 1).err) &&
     after (.sqPhaseRepoll 0 0 1 (desc47 0)) (ring47 (sq47 { tail := 1 }) (cq47 {})) (fun t => t.out == [.hostRead 0 0 false 4096 64]) &&
     after (.nop 0 0 1) (front47 (desc47 0) []) (fun t => t.out.length == 2 && (t.cq 0 0 2).tail == 1 && (t.sq 0 0 1).head == 1) &&
     after (.fence 0 0 1) (front47 (desc47 2) []) (fun t => (t.cq 0 0 2).tail == 1) &&
     after (.svc 0 0 1 { fin := .ok, data := [] }) (front47 (desc47 1) []) (fun t => (t.sq 0 0 1).out.map (·.cookie) == [77]) &&
     after (.sqAbandon 0 0 1 5) (out47 1) (fun t => (t.sq 0 0 1).out.isEmpty && (t.cq 0 0 2).tail == 1)) = true := by decide +kernel
theorem test_completions :
    (after .svccmp (cmp47 (786432 + 128 + 5) (out47 1)) (fun t => (t.cq 0 0 2).tail == 1 && (t.sq 0 0 1).out.isEmpty) &&
     after .svccmp (cmp47 (524288 + 32768 + 512 + 3) (out47 1)) (fun t => (t.thread 33).events.map (·.kind) == [1]) &&
     after (.cqDoorbell 0 0 2 3 false) (ring47 {} (cq47 { tail := 15, held := [{}] })) (fun t => (t.cq 0 0 2).held.isEmpty && (t.cq 0 0 2).tail == 0 && !(t.cq 0 0 2).phase) &&
     after (.cqCoalesceTimeout 0 0 2) (ring47 {} (cq47 { unsig := 1, coalUs := 1 })) (fun t => (t.cq 0 0 2).unsig == 0 && (t.func 0).pba == [0]) &&
     after (.ringConfigWrite 0 0 (0x1008 + 32) 8 (BitVec.ofNat 64 (1 + 2 * 4 + 2 ^ 6 * 2)) false) (ring47 {} {}) (fun t => (t.sq 0 0 1).en && (t.sq 0 0 1).cq == 2)) = true := by decide +kernel

end F47

/-! ### OwnersWindowsAndFifos -/
namespace F48

/-- Both links up, an owner, FIFO 3 of port 0's PF with a configuration and words, window 5 with a state. -/
def own48 (owner : Nat) (fifo : Fifo) (win : Window) : State := { base with hst := { owner := owner, ownLease := 100, ownEnd := 20000000000, ports := [(0, { linkUp := true, perst := false }), (1, { linkUp := true, perst := false })], fifos := mset {} 3 fifo [], funcs := mset {} 0 { wins := mset {} 5 win [] } [] } }
/-- A to-host or to-module FIFO configuration: MAXW 4, HIGH 3, LOW 1. -/
def cfg48 (toHost en : Nat) : Nat := en + 2 * toHost + 2 ^ 10 * 4 + 2 ^ 26 * 3 + 2 ^ 42
theorem witness_own :
    (∀ o ∈ [0, 1, 2], let s := own48 o {} {}; s.boot.pwrgd = true ∧ (s.hport 0).linkUp = true ∧ s.hst.owner = o ∧ funcUp s 0 0 = true ∧ heard s 0 0 false = true) ∧ isHostPort 0 = true ∧ heard { base with hst := { funcs := [(funcKey 0 1, { tdi := .run })] } } 0 1 false = false ∧
    (now (own48 1 {} {}) < (own48 1 {} {}).hst.ownEnd) ∧ (let s : State := { own48 1 {} {} with hst := { (own48 1 {} {}).hst with ownEnd := 5, waiting := true } }; s.hst.ownEnd ≤ now s ∧ s.hst.owner ≠ 0) ∧
    (base.hport 0).linkUp = false := by decide +kernel
theorem witness_window :
    (∀ r ∈ [true, false], let s := own48 1 {} { ready := r, seq := 7 }; boundTo s 0 0 ≠ none ∧ (5 : Nat) < windowCount 0 ∧ (s.window 0 0 5).ready = r ∧ (s.window 0 0 5).seq = 7 ∧ fld (2 ^ 16 * 7) 16 16 = 7) ∧ isWin 5 = true := by decide +kernel
theorem witness_fifo :
    (∀ h ∈ [0, 1], ∀ ws ∈ [[], [4], [1, 2, 3, 4]], let s := own48 1 { cfg := cfg48 h 1, words := ws } {}
      fifoUp s 0 0 3 = true ∧ fstatUp s 0 0 3 = true ∧ ffToHost (s.fifo 3) = (h == 1) ∧ ffEn (s.fifo 3) = true ∧ fifoFull s 3 = (ws == [1, 2, 3, 4]) ∧ (s.fifo 3).words = ws) ∧
    (let s := own48 1 { cfg := cfg48 1 0 } {}; ffEn (s.fifo 3) = false ∧ fifoConfOk (setFld (s.fifo 3).cfg 0 64 (cfg48 1 1)) = true ∧ bit (setFld (s.fifo 3).cfg 0 64 (cfg48 1 1)) 0 = true ∧
      fifoConfOk (setFld (s.fifo 3).cfg 0 64 1) = false ∧ bit (setFld (s.fifo 3).cfg 0 64 0) 0 = false) ∧ isFifo 3 = true ∧
    ((own48 1 {} {}).func (funcKey 0 0)).pba = [] ∧ ((own48 1 {} {}).hport 0).vfEn = false := by decide +kernel
theorem test_owner :
    (after (.mownRequest 0) (own48 0 {} {}) (fun t => t.hst.owner == 1 && t.hst.ownEnd == 10100000000 && t.hst.modstat == [8, 24]) &&
     after (.mownRequest 1) (own48 1 {} {}) (fun t => t.hst.owner == 1 && t.hst.waiting) &&
     after (.mownRelease 0) { own48 1 {} {} with hst := { (own48 1 {} {}).hst with waiting := true } } (fun t => t.hst.owner == 2 && !t.hst.waiting) &&
     after (.mownRenew 1) (own48 1 {} {}) (fun t => t.hst.refused == 1) &&
     after .ownLeaseLapse { own48 1 {} {} with hst := { (own48 1 {} {}).hst with ownEnd := 5 } } (fun t => t.hst.owner == 0) &&
     after (.resultWindowRead 0 0 5 0 8 false) (own48 1 {} { ready := true, seq := 7, len := 8, data := natBytes 8 9 }) (fun t => t.out == [.hostReply 0 0 [0, 0, 7, 0, 1, 0, 8, 0]]) &&
     after (.resultWindowConsume 0 0 5 (BitVec.ofNat 64 (2 ^ 16 * 7)) false) (own48 1 {} { ready := true, seq := 7 }) (fun t => t.window 0 0 5 == { seq := 7 })) = true := by decide +kernel
theorem test_fifo :
    (after (.fifoConfigWrite 0 3 0 (BitVec.ofNat 64 (cfg48 1 1))) (own48 1 {} {}) (fun t => (t.fifo 3).cfg == cfg48 1 1) &&
     after (.fifoPop 0 0 3 8 .clean false) (own48 1 { cfg := cfg48 1 1, words := [4, 5], above := true } {}) (fun t => (t.fifo 3).words == [5] && !(t.fifo 3).above && t.out == [.hostReply 0 0 (natBytes 8 4)]) &&
     after (.fifoPop 0 0 3 8 .clean false) (own48 1 { cfg := cfg48 1 1, last := 9 } {}) (fun t => (t.fifo 3).underrun && t.out == [.hostReply 0 0 (natBytes 8 9)]) &&
     after (.fifoPush 0 0 3 8 7 false) (own48 1 { cfg := cfg48 0 1, words := [4, 5] } {}) (fun t => (t.fifo 3).words == [4, 5, 7] && (t.fifo 3).above) &&
     after (.fifoPush 0 0 3 8 7 false) (own48 1 { cfg := cfg48 0 1, words := [4, 5, 6, 7] } {}) (fun t => (t.fifo 3).overflow) &&
     after (.fstatRead 0 0 3 0 8 false) (own48 1 { cfg := cfg48 0 1, words := [4], corr := 2 } {}) (fun t => (t.fifo 3).corr == 0 && t.out == [.hostReply 0 0 [1, 0, 0, 0, 0, 0, 2, 0]]) &&
     after (.registerWrite 0 0 0x18 8 5 false) (own48 1 {} {}) (fun t => mget 0 0 t.hst.modIe == 5) &&
     after (.registerWrite 0 0 0x40010 8 5 false) (own48 1 {} {}) (fun t => fld (mget msixReset 1 (t.func 0).msix) 0 64 == 5)) = true := by decide +kernel

end F48

/-! ### DmaMovesBetweenHostAndModule -/
namespace F49

/-- A descriptor of an operation: port 0's PF, width 4 (16 B) on both sides, unit 3, 64 bytes between host address 4032 and module address 128. -/
def d49 (op flags kind len : Nat) : List Byte := [BitVec.ofNat 8 (op + flags), 0, 0, 0x44, BitVec.ofNat 8 kind, 0] ++ natBytes 2 3 ++ natBytes 8 4032 ++ natBytes 8 128 ++ natBytes 4 len ++ natBytes 36 0
def x49 (op flags kind len : Nat) (x : Dma) : Dma := { x with thread := 33, ctx := 0, desc := d49 op flags kind len }
/-- Port 0's engines with a queue each, FIFO 3 for one direction, window 3. -/
def dma49 (rdq wrq : List Dma) (fifo : Fifo) (win : Window) : State := { base with
  hst := { owner := 1, ports := [(0, { linkUp := true, perst := false, rdq := rdq, wrq := wrq })], fifos := mset {} 3 fifo [], funcs := mset {} 0 { wins := mset {} 3 win [] } [] }
  ctl := { threads := [(33, { running := true })], data := memWrite [] (4194304 + 128) (List.replicate 64 5) }
  tab := { live := [(tkey 0x0030 0, 1)] } }
def fifo49 (toHost : Nat) (ws : List (BitVec 64)) : Fifo := { cfg := 1 + 2 * toHost + 2 ^ 10 * 9 + 2 ^ 26 * 8 + 2 ^ 42, words := ws }
/-- Thread 33 before a DMA word with its descriptor at byte 64 of its core's data memory. -/
def post49 (op : Nat) : State :=
  let s := onThreadWord (0xE6 + 2 ^ 16 * 3 + 2 ^ 20) { s := [(1, 64)], ticket := 5 }
  { s with ctl := { s.ctl with data := memWrite [] (4194304 + 64) (d49 op 0 0 64) } }
theorem witness_post :
    ∀ op ∈ [1, 2, 3, 4, 5], let s := post49 op; let w := 0xE6 + 2 ^ 16 * 3 + 2 ^ 20
      siteReady s (.thread 33) = true ∧ fetchWord s (.thread 33) = some w ∧ w &&& (fOpc + fD + fA + fImm) = w ∧ memAddr s (.thread 33) w = 64 ∧ memOk s (.thread 33) 64 64 8 = true ∧
        dmOp (readMem s (.thread 33) 64 64) = op ∧ wD w = 3 ∧ wA w = 1 := by decide +kernel
theorem witness_move :
    (∀ m ∈ [true, false], ∀ k ∈ [0, 1], let x := x49 1 0 k 64 { moving := m }; let s := dma49 [x] [] {} {}
      FirstOfEngine s 0 false [] x [] ∧ dmOp x.desc = 1 ∧ dmRefused s x = none ∧ tdiSends s 0 (dmFunc x.desc) = true ∧ dmKind x.desc = k ∧ dmLen x.desc = 64) ∧
    (∀ m ∈ [true, false], ∀ k ∈ [0, 1], ∀ f ∈ [0, 16], let x := x49 2 f k 64 { moving := m }; let s := dma49 [] [x] {} {}
      FirstOfEngine s 0 true [] x [] ∧ dmOp x.desc = 2 ∧ dmRefused s x = none ∧ dmKind x.desc = k ∧ dmFlush x.desc = (f == 16)) ∧
    (let x := x49 1 0 0 64 {}; dmRefused { dma49 [x] [] {} {} with hst := {} } x = some stPathLost) ∧ dmRefused base (x49 1 0 3 64 {}) = some stViolation ∧
    dmHaddr (d49 1 0 0 64) % dmWidth (d49 1 0 0 64) = 0 ∧ dmLen (d49 1 0 0 64) % dmWidth (d49 1 0 0 64) = 0 ∧ dmWidth (d49 1 0 0 64) = 16 := by
  unfold FirstOfEngine; decide +kernel
theorem witness_units :
    (let x := x49 3 0 0 16 {}; let s := dma49 [] [x] (fifo49 1 [1]) {}; FirstOfEngine s 0 true [] x [] ∧ dmRefused s x = none ∧ (s.fifo 3).words.length + 2 ≤ ffMax (s.fifo 3) ∧ fifoWords s + 2 ≤ 65536 ∧ mapWf ({} : Fifo) s.hst.fifos = true ∧ dmUnit x.desc = 3 ∧ dmLen x.desc / 8 = 2) ∧
    (let x := x49 3 0 0 16 {}; let s := dma49 [] [x] (fifo49 1 [1, 2, 3, 4, 5, 6, 7, 8, 9]) {}; dmRefused s x = none ∧ fifoFull s 3 = true) ∧
    (let x := x49 4 0 0 16 {}; let s := dma49 [x] [] (fifo49 0 [1]) {}; FirstOfEngine s 0 false [] x [] ∧ dmRefused s x = none) ∧
    (∀ r ∈ [true, false], let x := x49 5 0 0 16 {}; let s := dma49 [] [x] {} { ready := r }; FirstOfEngine s 0 true [] x [] ∧ dmRefused s x = none ∧ (s.window 0 0 3).ready = r) ∧
    (let x := x49 1 0 0 64 { status := some 0 }; let s := dma49 [x] [] {} {}; dmQueue s 0 false = [x] ∧ (x.status.isSome && !ownOpen s 8 (dmUnitOf x)) = true ∧ (s.thread 33).running = true) := by
  unfold FirstOfEngine; decide +kernel
theorem witness_frame : let x := x49 1 0 2 64 { moving := true }; FirstOfEngine (dma49 [x] [] {} {}) 0 false [] x [] ∧ dmKind x.desc = 2 := by
  unfold FirstOfEngine; decide +kernel
theorem witness_refused : (let x := x49 1 0 0 64 {}
    funcCtx (dma49 [x] [] {} {}) 0 0 = some 0 ∧ dmOk (dma49 [x] [] {} {}) 33 x.desc = true ∧ ctxState (dma49 [x] [] {} {}) 0 = 1) ∧ dmOk base 33 (d49 1 0 3 64) = false ∧
    (let y : Dma := { x49 1 0 0 64 {} with desc := [1, 0, 5] }; funcCtx base (dmPort y.desc) (dmFunc y.desc) = none) := by decide +kernel
theorem test_dma :
    (after (.dmaRead (.post (.thread 33))) (post49 1) (fun t => (t.hport 0).rdq.length == 1 && sreg t (.thread 33) 3 == 65536 * 5 && (t.thread 33).ticket == 6) &&
     after (.dmaRead (.move 0 { fin := .ok, data := natBytes 8 9 })) (dma49 [x49 1 0 0 64 { moving := true }] [] {} {}) (fun t => memRead t.ctl.data (4194304 + 128) 2 == [9, 0] && (t.hport 0).rdq.map (·.status) == [some 0]) &&
     after (.fifoPut (.move 0 { fin := .ok, data := [] })) (dma49 [] [x49 3 0 0 16 {}] (fifo49 1 [1]) {}) (fun t => (t.fifo 3).words == [1, 0x0505050505050505, 0x0505050505050505]) &&
     after (.fifoGet (.move 0 { fin := .ok, data := [] })) (dma49 [x49 4 0 0 16 {}] [] (fifo49 0 [7]) {}) (fun t => memRead t.ctl.data (4194304 + 128) 9 == natBytes 8 7 ++ [5] && (t.hport 0).rdq.map (·.moved) == [1]) &&
     after (.result (.move 0 { fin := .ok, data := [] })) (dma49 [] [x49 5 0 0 16 {}] {} {}) (fun t => (t.window 0 0 3).ready && (t.window 0 0 3).data == List.replicate 16 5) &&
     after (.dmaComplete 0 false) (dma49 [x49 1 0 0 64 { status := some 0, moved := 64 }] [] {} {}) (fun t => (t.hport 0).rdq == [] && (t.thread 33).events.map (·.kind) == [3])) = true := by decide +kernel

end F49

/-! ### OwnersAdministerTheModule -/
namespace F50

/-- The owner's port 0 with a secured session 1; I3C has its address. -/
def owner50 (f : Security → Security) : State := { base with hst := { owner := 1, i3cAddr := some 9, ports := [(0, { linkUp := true })] }, sec := f { spdm := [(0, { conn := 3, sessions := [(1, true)] })] } }
theorem witness_owner :
    (let s := owner50 id; ifaceUp s 0 = true ∧ ownerSession s 0 1 = true ∧ ownerSession s 0 2 = false ∧ s.boot.held = false ∧ s.boot.depart = 0 ∧ s.ctl.restartAt = none ∧ bundlesOf s 0x41 = [] ∧ mget 0 256 s.sec.floors ≤ 3) ∧
    ifaceUp base 0 = false ∧ (holdMessage 0 (.getVersion 0) { owner50 id with sec := { (owner50 id).sec with handover := some 3 } }).sec.waiting = [.getVersion 0] ∧ isIface 0 = true ∧ isSvc 0x41 = true ∧
    (let s := owner50 (fun x => { x with bundles := [(0, { svc := 0x41 })] }); bundlesOf s 0x41 = [0] ∧ (mget {} 0 s.sec.bundles).svc = 0x41 ∧ ownerSession s 0 1 = true) ∧
    (let s := owner50 (fun x => { x with floors := mset 0 2 5 [] }); (3 : Nat) < mget 0 2 s.sec.floors) ∧
    (let s := { owner50 id with ctl := { restartAt := some 5 } }; s.ctl.restartAt = some 5 ∧ s.boot.held = false) := by decide +kernel
theorem witness_images :
    let two := owner50 (fun x => { x with images := mset {} 3 { present := true, ecdsaOk := true, hssOk := true, svn := 4 } x.images })
    (ifaceUp two 2 = true ∧ imagePasses two 1 (1 - mget 0 1 two.sec.inUse) = true ∧ switching two 1 = false ∧ two.sec.recovery = false ∧ imagePasses two 0 (1 - mget 0 0 two.sec.inUse) = false) ∧
    (let s := { two with chv := { two.chv with restarting := some 4 } }; switching s 1 = true) ∧
    (let s := { two with sec := { two.sec with recovery := true } }; ifaceUp s 2 = true ∧ s.sec.recovery = true) ∧ isImage 1 = true ∧
    (let s := { two with sec := { two.sec with activating := [(1, 5)] } }; activatedAt s 1 = some 5 ∧ passed s 5 10000000000 = false) ∧
    (let s := { two with sec := { two.sec with activating := [(1, 5)] }, clk := { cycles := 10 ^ 13 } }; activatedAt s 1 = some 5 ∧ passed s 5 60000000000 = true ∧ passed s 5 10000000000 = true) := by decide +kernel
theorem test_owner_requests :
    (after (.enrol 0 1 false 3 77) (owner50 id) (fun t => t.sec.signers == [(3, 77)] && t.out == [.mgmt 0 772 false (natBytes 8 0)]) &&
     after (.enrol 0 2 false 3 77) (owner50 id) (fun t => t.sec.signers == [] && t.hst.refused == 1 && t.out == [.mgmt 0 772 true []]) &&
     after (.unenrol 0 1 true 16) (owner50 id) (fun t => t.out == [.mgmt 0 773 true (natBytes 8 stViolation)]) &&
     after (.setPolicy 0 1 (.power 900 true 640)) (owner50 id) (fun t => t.chv.cap == 900 && t.chv.dozeV == 640) &&
     after (.setPolicy 0 1 (.svnFloor 300 7)) (owner50 id) (fun t => mget 0 300 t.sec.floors == 7) &&
     after (.coreReset 0 1 2) (owner50 id) (fun t => t.boot.depart == 2 && !t.boot.full) &&
     after (.coreReset 0 1 7) (owner50 id) (fun t => t.out == [.mgmt 0 777 true []])) = true := by decide +kernel
theorem test_images :
    let two := owner50 (fun x => { x with images := mset {} 3 { present := true, ecdsaOk := true, hssOk := true, svn := 4 } x.images })
    (after (.fwActivate 0 1 1) two (fun t => mget 0 1 t.sec.inUse == 1 && t.chv.restarting == some 10000000000 && t.sec.activating == [(1, 10000000000)]) &&
     after (.fwActivate 0 1 0) two (fun t => t.out == [.mgmt 0 775 true (natBytes 8 stViolation)]) &&
     after (.fwPrefer 1) { two with sec := { two.sec with activating := [(1, 5)], inUse := [(1, 1)] }, clk := { cycles := 10 ^ 13 } } (fun t => t.sec.preferred == [(1, 1)])) = true := by decide +kernel

end F50

/-! ### SpdmAnswersInOrder -/
namespace F51

/-- Port 0's link is up; its SPDM endpoint is in a state. -/
def spdm51 (x : Spdm) : State := { base with hst := { ports := [(0, { linkUp := true })] }, sec := { spdm := mset {} 0 x [] } }
theorem witness_spdm :
    (let s := spdm51 { conn := 3, sessions := [(1, true), (2, false)] }
     ifaceUp s 0 = true ∧ (s.spdm 0).conn = 3 ∧ (1, true) ∈ (s.spdm 0).sessions ∧ (2, false) ∈ (s.spdm 0).sessions ∧ (s.spdm 0).sessions.length < sessionMax 0 ∧ (s.spdm 0).gatherSeq = 0) ∧
    ifaceUp (spdm51 {}) 0 = true ∧ (spdm51 {}).spdm 0 = {} ∧ ifaceUp base 0 = false ∧ isIface 0 = true ∧ sessionMine (spdm51 {}) 0 2 = true ∧ sessionUp (spdm51 { conn := 3, sessions := [(1, true)] }) 0 1 = true ∧
    (let s := spdm51 { conn := 3, later := some (0x83, [1, 2]) }; ifaceUp s 0 = true ∧ (s.spdm 0).later = some (0x83, [1, 2])) ∧ ((spdm51 { conn := 2 }).spdm 0).conn = 2 := by decide +kernel
theorem test_spdm :
    (after (.getVersion 0) (spdm51 {}) (fun t => t.out == [.mgmt 0 0x84 false [1, 0, 0x13]] && (t.spdm 0).conn == 1) &&
     after (.getDigests 0) (spdm51 {}) (fun t => t.out == [.mgmt 0 0x81 true []]) &&
     after (.negotiateAlgorithms 0 false) (spdm51 { conn := 2 }) (fun t => (t.spdm 0).conn == 2) &&
     after (.finish 0 2 true) (spdm51 { conn := 3, sessions := [(1, true), (2, false)] }) (fun t => (t.spdm 0).sessions == [(1, true), (2, true)]) &&
     after (.finish 0 2 false) (spdm51 { conn := 3, sessions := [(1, true), (2, false)] }) (fun t => (t.spdm 0).sessions == [(1, true)]) &&
     after (.endSession 0 1) (spdm51 { conn := 3, sessions := [(1, true)] }) (fun t => (t.spdm 0).sessions == []) &&
     after (.keyUpdate 0 1 1) (spdm51 { conn := 3, sessions := [(1, true)] }) (fun t => (t.spdm 0).updates == [(1, 1)]) &&
     after (.chunkSend 0 0 false [4, 5]) (spdm51 { conn := 3 }) (fun t => (t.spdm 0).gather == [4, 5] && (t.spdm 0).gatherSeq == 1) &&
     after (.respondIfReady 0) (spdm51 { conn := 3, later := some (0x83, [1, 2]) }) (fun t => t.out == [.mgmt 0 0x83 false [1, 2]] && (t.spdm 0).later == none) &&
     after (.respondIfReady 0) (spdm51 { conn := 3 }) (fun t => t.out == [.mgmt 0 0xFF true []])) = true := by decide +kernel

end F51

/-! ### InterfacesLockRunAndStop -/
namespace F52

/-- Port 0's link is up with VFs enabled; VF 2's TDI is in a state, and context 3 is bound to it or not. -/
def tdi52 (st : TdiState) (bound vfs : Bool) : State := { base with
  hst := { ports := [(0, { linkUp := true, vfEn := vfs, numVfs := 4 })], funcs := [(2, { tdi := st })] }
  tab := { live := if bound then [(tkey 0x0030 3, 1 + 2 ^ 4 * 2)] else [] } }
theorem witness_tdi :
    (let s := tdi52 .unlocked true true; ifaceUp s 0 = true ∧ vfUp s 0 2 = true ∧ (s.func (tdiFunc 0 2)).tdi = .unlocked ∧ (vfContext s 0 2).isSome = true ∧ funcCtx s 0 2 = some 3 ∧ ctxState s 3 = 1) ∧
    (let s := tdi52 .locked true true; vfUp s 0 2 = true ∧ (s.func (tdiFunc 0 2)).tdi = .locked ∧ funcCtx s 0 2 = some 3) ∧
    (let s := tdi52 .locked false true; funcCtx s 0 2 = none ∧ vfContext s 0 2 = none) ∧
    vfUp (tdi52 .unlocked true false) 0 2 = false ∧ ifaceUp base 0 = false ∧ isVf 2 = true := by decide +kernel
theorem test_tdi :
    (after (.lockInterfaceRequest 0 2) (tdi52 .unlocked true true) (fun t => (t.func 2).tdi == .locked && t.out == [.mgmt 0 643 false []]) &&
     after (.startInterfaceRequest 0 2) (tdi52 .unlocked true true) (fun t => (t.func 2).tdi == .unlocked && t.out == [.mgmt 0 646 true []]) &&
     after (.startInterfaceRequest 0 2) (tdi52 .locked true true) (fun t => (t.func 2).tdi == .run) &&
     after (.stopInterfaceRequest 0 2) (tdi52 .run true true) (fun t => (t.func 2).tdi == .unlocked) &&
     after (.lockInterfaceRequest 0 2) (tdi52 .unlocked false true) (fun t => (t.func 2).tdi == .unlocked) &&
     after (.tdiError 0 2) (tdi52 .run true true) (fun t => (t.func 2).tdi == .error && ctxState t 3 == 2)) = true := by decide +kernel

end F52

/-! ### CarnelianKeepsKeysAndRole -/
namespace F53

/-- A module with host links up and an owner on port 0 with session 1; context 3 is bound to VF 2 of port 0. -/
def car53 (f : Security → Security) : State := { base with
  hst := { owner := 1, i3cAddr := some 9, ports := [(0, { linkUp := true })] }
  sec := f { spdm := [(0, { conn := 3, sessions := [(1, true)] })] }
  tab := { live := [(tkey 0x0030 3, 1 + 2 ^ 4 * 2)] } }
theorem witness_requests :
    let s := car53 id
    ifaceUp s 0 = true ∧ ownerSession s 0 1 = true ∧ tsmSession s 0 2 2 3 = false ∧ ownerSession s 0 2 = false ∧ ifaceUp base 0 = false ∧ isIface 0 = true ∧ isCtx 3 = true ∧
    (s.spdm 0).busy.contains 769 = false ∧ (let u := car53 (fun x => { x with spdm := [(0, { conn := 3, sessions := [(1, true)], busy := [769] })] }); (u.spdm 0).busy.contains 769 = true ∧ ownerSession u 0 1 = true) ∧
    (let u := car53 (fun x => { x with lmsLost := true }); u.sec.lmsLost = true) ∧
    mhas (ideSet 1 0 0) (s.hport 0).ideKeys = false ∧ isStreamId 1 = true ∧ isHostPort 0 = true ∧
    (let u := { s with hst := { s.hst with ports := [(0, { linkUp := true, ideKeys := [(ideSet 1 0 0, 5)] })] } }; mhas (ideSet 1 0 0) (u.hport 0).ideKeys = true ∧ ifaceUp u 0 = true) := by decide +kernel
theorem witness_tsm : tsmSession (car53 id) 0 1 (ctxVf (car53 id) 3 0) 3 = true ∧ ctxVf (car53 id) 3 0 < 128 := by decide +kernel
theorem witness_carnelian :
    (let s : State := { car53 id with mf := { modIn := [(mkPkt 6 opCRMSG 0 0 0 1 2 0 0 0 (natBytes 8 9), 0)] } }
     mgmtServes s = true ∧ peerSession s 2 = false ∧ (∀ x ∈ s.mf.modIn, pOp x.1 = opCRMSG ∧ x.1.tc = 6 ∧ pCtx x.1 = 0 ∧ x.1.payload.length = 8 ∧ pSrc x.1 = 2)) ∧
    (let s : State := { car53 (fun x => { x with spdm := [(3, { sessions := [(1, true)], who := [(1, 2)] })] }) with mf := { modIn := [(mkPkt 6 opCRMSG 0 0 0 1 2 0 0 0 (natBytes 8 9), 0)] } }; peerSession s 2 = true ∧ (∀ x ∈ s.mf.modIn, pSrc x.1 = 2)) ∧
    (chervilRuns (car53 id) = true ∧ (car53 id).sec.handover = none ∧ passed (car53 id) 0 100000000 = true ∧ mget 0 8 (car53 id).chv.beats = 0 ∧ (car53 id).sec.active = 0) ∧
    (let s := car53 (fun x => { x with handover := some 5 }); s.sec.handover = some 5 ∧ s.sec.kreqs = [] ∧ s.sec.waiting = [] ∧ s.sec.active < 2) ∧
    (let s := { car53 id with clk := { cycles := 10 ^ 13 } }; passed s s.sec.servingAt 60000000000 = true) ∧ passed (car53 id) 0 60000000000 = false ∧
    (let s : State := { car53 id with boot := { base.boot with step := 1 } }; s.boot.pwrgd = true ∧ s.sec.active = s.sec.pref ∧ passed s s.boot.stepAt 150000000 = true) ∧
    lmsValue (car53 id).sec = some 0 ∧ carnelianServes (car53 id) = true ∧
    (let s := car53 (fun x => { x with lms0 := { x.lms0 with val := 524288 } }); lmsValue s.sec = some 524288 ∧ carnelianServes s = true) ∧
    (let s := car53 (fun x => { x with lms0 := { x.lms0 with valid := false }, lms1 := { x.lms1 with valid := false } }); lmsValue s.sec = none) := by decide +kernel
theorem test_carnelian :
    (after (.keyUpload 0 1 3 7 8 2) (car53 id) (fun t => t.sec.imports == [(0, 3, 7 + 2 ^ 256 * 8, 20000000000)]) &&
     after (.keyUpload 0 1 3 7 8 4) (car53 id) (fun t => t.sec.imports == [] && t.hst.refused == 1) &&
     after (.keyProg 0 1 0 1 99) (car53 id) (fun t => (t.hport 0).ideKeys == [(9, 99)]) &&
     after (.kSetGo 0 1 0 1) (car53 id) (fun t => t.out == [.mgmt 0 260 true []]) &&
     after .carnelianWatchdog (car53 id) (fun t => t.sec.handover == some 10000000000 && t.sec.spdm == []) &&
     after .handoverDone (car53 (fun x => { x with handover := some 5 })) (fun t => t.sec.active == 1 && t.sec.token == 1 && t.sec.handover == none) &&
     after .handoverDone (car53 (fun x => { x with handover := some 5, waiting := [.getVersion 0] })) (fun t => t.sec.waiting == [] && t.out == [.mgmt 0 0x84 false [1, 0, 0x13]]) &&
     after .bootCoreTimeout { car53 id with boot := { base.boot with step := 1 } } (fun t => t.sec.active == 1 && t.sec.pref == 1 && t.hst.modstat == [7, 23]) &&
     after .lmsTreeGenerate (car53 (fun x => { x with lms0 := { x.lms0 with val := 524288 } })) (fun t => t.sec.nextTree == 1) &&
     after (.getReport 0 1 3 [] 0) (car53 (fun x => { x with lmsLost := true })) (fun t => t.out == [.mgmt 0 769 true (natBytes 8 stStateLost)])) = true := by decide +kernel

end F53

/-! ### FloorsNeverFall -/
namespace F54

theorem witness_floors : (∃ t, step { base with pending := [.powerOnReset] } = .next t) ∧ (∃ t, exec .powerOnReset base = .next t) := ⟨⟨_, rfl⟩, ⟨_, rfl⟩⟩

end F54

end Sys2Proof.Tests
end

/-! # Module time only moves forward (R52, R53, R538)

Support of O6. The count of cycles of module time is a field of the clock of the state, and no
command but eight writes the clock at all: the power of S comes or goes (`powerOn`,
`powerOnReset`, the trip of sensor 50, R567), or a boot, a new start of the core dies or a check
of the followers gives offsets and the oscillator enters or leaves holdover, which keeps the
count. So each operation of the model gets one lemma
`f_clk`, which says that the clock stays as it was (its frame), in the order of the model's files;
a lemma that ends in `_keepsClk` says the same of an instruction that may fault or stall, and one
over `∀ r ∈ …` of an operation that may have no result. -/

section
namespace Sys2Proof.Machine

/-- The clock of t stands as that of s. -/
def SameClk (s t : State) : Prop := t.clk = s.clk
@[simp] theorem sameClk_iff (s t : State) : SameClk s t ↔ t.clk = s.clk := Iff.rfl
/-- Where an issue goes on, it does so with the clock of s. -/
def YOut.KeepsClk (s : State) : YOut → Prop
  | .next t => t.clk = s.clk
  | _ => True
@[simp] theorem YOut.keepsClk_next (s t : State) : (YOut.next t).KeepsClk s ↔ t.clk = s.clk := Iff.rfl
@[simp] theorem YOut.keepsClk_fault (s : State) (c : Nat) : (YOut.fault c).KeepsClk s := trivial
@[simp] theorem YOut.keepsClk_stall (s : State) : YOut.stall.KeepsClk s := trivial
@[simp] theorem YOut.keepsClk_other (s : State) : YOut.other.KeepsClk s := trivial
@[simp] theorem YOut.keepsClk_ite (c : Prop) [Decidable c] (s : State) (x y : YOut) :
    (if c then x else y).KeepsClk s ↔ if c then x.KeepsClk s else y.KeepsClk s := by split <;> rfl
@[simp] theorem ite_clk (c : Prop) [Decidable c] (s t : State) : (if c then s else t).clk = if c then s.clk else t.clk := apply_ite State.clk c s t
@[simp] theorem ite_snd_clk {α : Type} (c : Prop) [Decidable c] (x y : α × State) :
    (if c then x else y).2.clk = if c then x.2.clk else y.2.clk := apply_ite (·.2.clk) c x y
@[simp] theorem onlyIf_clk (c : Bool) (s t : State) : (onlyIf c s t).clk = if c then t.clk else s.clk := by cases c <;> rfl
@[simp] theorem foldl_clk {β : Type} (f : State → β → State) (hf : ∀ t b, SameClk t (f t b)) (l : List β) (s : State) :
    (l.foldl f s).clk = s.clk := foldl_keeps (·.clk) f hf l s
/-- What no step of a fold changes is as it began. -/
theorem foldl_fixes {σ β γ : Type} (g : σ → γ) (f : σ → β → σ) (hf : ∀ a b, g (f a b) = g a) (l : List β) (a : σ) : g (l.foldl f a) = g a := by
  induction l generalizing a with
  | nil => rfl
  | cons b l ih => exact (ih _).trans (hf a b)
/-- A fold that carries a result beside the state. -/
@[simp] theorem foldl_snd_clk {α β : Type} (f : α × State → β → α × State) (hf : ∀ r b, SameClk r.2 (f r b).2) (l : List β) (r : α × State) :
    (l.foldl f r).2.clk = r.2.clk := foldl_fixes (fun r : α × State => r.2.clk) f hf l r
theorem some_clk {α : Type} {st : α → State} {x : α} {s : State} (h : (st x).clk = s.clk) :
    ∀ r ∈ some x, (st r).clk = s.clk := fun _ hr => Option.some.inj hr ▸ h
theorem YOut.clk_of_next {s t : State} {y : YOut} (hy : y.KeepsClk s) (h : y = .next t) : t.clk = s.clk := by
  subst h
  exact hy
theorem clk_of_some {α : Type} {o : Option (α × State)} {s : State} (ho : ∀ r ∈ o, r.2.clk = s.clk) {a : α} {t : State} (h : o = some (a, t)) :
    t.clk = s.clk := ho (a, t) h
theorem clk_of_some₂ {α β : Type} {o : Option (α × β × State)} {s : State} (ho : ∀ r ∈ o, r.2.2.clk = s.clk) {a : α} {b : β} {t : State}
    (h : o = some (a, b, t)) : t.clk = s.clk := ho (a, b, t) h
theorem clk_of_pair {α : Type} {x : α × State} {a : α} {s t : State} (h : x = (a, t)) (hx : x.2.clk = s.clk) : t.clk = s.clk := by
  subst h
  exact hx
theorem getD_clk {o : Option State} {s : State} (h : ∀ t ∈ o, t.clk = s.clk) : (o.getD s).clk = s.clk := by
  cases o with
  | none => rfl
  | some t => exact h t rfl
theorem clk_of_ite {c : Prop} [Decidable c] {x y s : State} (hx : x.clk = s.clk) (hy : y.clk = s.clk) : (if c then x else y).clk = s.clk := by
  split
  · exact hx
  · exact hy
theorem clk_of_coh (s : State) (c : Coherence) : ({ s with coh := c } : State).clk = s.clk := rfl
theorem clk_of_rel (s : State) (r : Reliability) : ({ s with rel := r } : State).clk = s.clk := rfl
theorem clk_of_cod (s : State) (c : Codec) : ({ s with cod := c } : State).clk = s.clk := rfl
theorem clk_of_mf (s : State) (m : MemFabric) : ({ s with mf := m } : State).clk = s.clk := rfl
theorem clk_of_svc (s : State) (v : Services) : ({ s with svc := v } : State).clk = s.clk := rfl
theorem SentOn.clk {p : Nat} {s t : State} (h : SentOn p s t) : t.clk = s.clk := h.same (·.clk) (fun _ _ _ _ => rfl)
theorem Switched.clk {s t : State} (h : Switched s t) : t.clk = s.clk := h.same (·.clk) (fun _ _ _ _ _ _ => rfl)

/-! ### Ops -/

@[simp] theorem wakeNow_clk (s : State) : (wakeNow s).clk = s.clk := by simp [wakeNow]
@[simp] theorem holdSlot_clk (s : State) : (holdSlot s).clk = s.clk := by simp [holdSlot]
@[simp] theorem setEntryFld_clk (s : State) (id idx lo len v : Nat) : (setEntryFld s id idx lo len v).clk = s.clk := by simp [setEntryFld]

/-! ### CodecOps -/

@[simp] theorem setTslot_clk (n v : Nat) (s : State) : (setTslot n v s).clk = s.clk := rfl
@[simp] theorem freeSlot_clk (n : Nat) (s : State) : (freeSlot n s).clk = s.clk := by simp [freeSlot]
@[simp] theorem settleSlots_clk (s : State) : (settleSlots s).clk = s.clk := by simp [settleSlots]
@[simp] theorem retireSlot_clk (n : Nat) (s : State) : (retireSlot n s).clk = s.clk := by simp [retireSlot]
theorem waitTable_clk (queue die slot : Nat) (s : State) : ∀ r ∈ waitTable queue die slot s, r.clk = s.clk := by
  unfold waitTable
  split
  · simp
  · split <;> simp
@[simp] theorem setCodecJob_clk (j v : Nat) (s : State) : (setCodecJob j v s).clk = s.clk := rfl
@[simp] theorem setTierJob_clk (j v : Nat) (s : State) : (setTierJob j v s).clk = s.clk := rfl
@[simp] theorem setTierRun_clk (j : Nat) (r : TierRun) (s : State) : (setTierRun j r s).clk = s.clk := rfl

/-! ### TileOps -/

@[simp] theorem retirePrograms_clk (cl : Nat) (s : State) : (retirePrograms cl s).clk = s.clk := by simp [retirePrograms]
@[simp] theorem relCount_clk (key n : Nat) (s : State) : (relCount key n s).clk = s.clk := rfl
@[simp] theorem tileCount_clk (t row n : Nat) (s : State) : (tileCount t row n s).clk = s.clk := rfl
@[simp] theorem setStaged_clk (t n : Nat) (s : State) : (setStaged t n s).clk = s.clk := by
  unfold setStaged
  split
  · split
    · dsimp only
      split <;> simp
    · dsimp only
      split <;> simp
  · split
    · dsimp only
      split <;> simp
    · dsimp only
      split <;> simp
@[simp] theorem releaseEvent_clk (t : Nat) (e : OpEvent) (s : State) : (releaseEvent t e s).clk = s.clk := by simp [releaseEvent]
@[simp] theorem raiseEvent_clk (n : Nat) (e : OpEvent) (s : State) : (raiseEvent n e s).clk = s.clk := by
  unfold raiseEvent
  refine clk_of_ite ?_ ?_ <;> simp
@[simp] theorem dropSearches_clk (t : Nat) (s : State) : (dropSearches t s).clk = s.clk := by simp [dropSearches]
@[simp] theorem closeRecord_clk (t : Nat) (h : Handler) (s : State) : (closeRecord t h s).clk = s.clk := by
  unfold closeRecord
  split <;> simp
@[simp] theorem endHandler_clk (t : Nat) (s : State) : (endHandler t s).clk = s.clk := by
  unfold endHandler
  split <;> simp
@[simp] theorem endOp_clk (n status cause : Nat) (s : State) : (endOp n status cause s).clk = s.clk := by simp [endOp]
@[simp] theorem raiseFault_clk (n cause status : Nat) (s : State) : (raiseFault n cause status s).clk = s.clk := by
  unfold raiseFault
  split
  · dsimp only
    split <;> simp
  · dsimp only
    split <;> simp
@[simp] theorem faultHandler_clk (t cause : Nat) (s : State) : (faultHandler t cause s).clk = s.clk := by
  unfold faultHandler
  split <;> simp
@[simp] theorem closingFault_clk (n : Nat) (s : State) : (closingFault n s).clk = s.clk := by simp [closingFault]
@[simp] theorem closeOps_clk (c : Nat) (s : State) : (closeOps c s).clk = s.clk := by simp [closeOps]
@[simp] theorem moveCtx_clk (c st cause : Nat) (s : State) : (moveCtx c st cause s).clk = s.clk := by simp [moveCtx]
@[simp] theorem closeVf_clk (port vf : Nat) (s : State) : (closeVf port vf s).clk = s.clk := by simp [closeVf]
@[simp] theorem closeContext_clk (c cause : Nat) (s : State) : (closeContext c cause s).clk = s.clk := by simp [closeContext]

/-! ### HomeOps -/

@[simp] theorem setPage_clk (p v : Nat) (s : State) : (setPage p v s).clk = s.clk := rfl
@[simp] theorem touchPage_clk (p : Nat) (s : State) : (touchPage p s).clk = s.clk := by simp [touchPage]
@[simp] theorem hbmWrite_clk (line : Nat) (data : List Byte) (poison : Bool) (s : State) : (hbmWrite line data poison s).clk = s.clk := rfl
@[simp] theorem writeBack_clk (line : Nat) (s : State) : (writeBack line s).clk = s.clk := by
  unfold writeBack
  split <;> simp
@[simp] theorem bufWrite_clk (line : Nat) (data : List Byte) (poison : Bool) (s : State) : (bufWrite line data poison s).clk = s.clk := by
  unfold bufWrite
  dsimp only
  split
  · simp
  · split <;> simp
@[simp] theorem writeBackPage_clk (p : Nat) (s : State) : (writeBackPage p s).clk = s.clk := by simp [writeBackPage]
@[simp] theorem writeBackAll_clk (s : State) : (writeBackAll s).clk = s.clk := by simp [writeBackAll]

/-! ### Reset -/

@[simp] theorem epochRecord_clk (die : Nat) (s : State) : (epochRecord die s).clk = s.clk := by simp [epochRecord]
@[simp] theorem thawDies_clk (dies : List Nat) (auto : Bool) (s : State) : (thawDies dies auto s).clk = s.clk := by simp [thawDies]
@[simp] theorem autoThawNow_clk (s : State) : (autoThawNow s).clk = s.clk := by simp [autoThawNow]
@[simp] theorem dropGroups_clk (s : State) : (dropGroups s).clk = s.clk := rfl
@[simp] theorem dropMoves_clk (s : State) : (dropMoves s).clk = s.clk := rfl
@[simp] theorem coreHold_clk (s : State) : (coreHold s).clk = s.clk := by simp [coreHold]

/-! ### LinkTx -/

@[simp] theorem emitFrame_clk (p : Nat) (f : List Byte) (s : State) : (emitFrame p f s).clk = s.clk := (emitFrame_sent _ _ _).clk
@[simp] theorem sendControl_clk (p : Nat) (s : State) : (sendControl p s).clk = s.clk := (sendControl_sent _ _).clk
@[simp] theorem linkSend_clk (p : Nat) (q : Packet) (s : State) : (linkSend p q s).clk = s.clk := (linkSend_sent _ _ _).clk
@[simp] theorem sendNbrDue_clk (p : Nat) (s : State) : (sendNbrDue p s).clk = s.clk := by
  unfold sendNbrDue
  split <;> simp
@[simp] theorem sendNbr_clk (p mtype chunk : Nat) (payload : List Byte) (s : State) :
    (sendNbr p mtype chunk payload s).clk = s.clk := (sendNbr_sent _ _ _ _ _).clk

/-! ### Gates -/

@[simp] theorem qcount_clk (k row n : Nat) (s : State) : (qcount k row n s).clk = s.clk := (qcount_switched _ _ _ _).clk
@[simp] theorem clockQueue_clk (ep tc : Nat) (s : State) : (clockQueue ep tc s).clk = s.clk := (clockQueue_switched _ _ _).clk
@[simp] theorem clockAll_clk (ep : Nat) (s : State) : (clockAll ep s).clk = s.clk := by simp [clockAll]

/-! ### SwitchOps -/

@[simp] theorem clearCells_clk (cells : List Nat) (s : State) : (clearCells cells s).clk = s.clk := (clearCells_switched _ _).clk
@[simp] theorem tagHead_clk (ep k : Nat) (s : State) : (tagHead ep k s).clk = s.clk := (tagHead_switched _ _ _).clk
@[simp] theorem notePool_clk (die : Nat) (s : State) : (notePool die s).clk = s.clk := rfl
@[simp] theorem freeCells_clk (die n : Nat) (reserve : Bool) (s : State) : (freeCells die n reserve s).clk = s.clk := rfl
@[simp] theorem releaseLeg_clk (die : Nat) (x : QPkt) (s : State) : (releaseLeg die x s).clk = s.clk := by
  unfold releaseLeg
  split
  · simp
  · split <;> simp
@[simp] theorem returnCredit_clk (p tc n : Nat) (s : State) : (returnCredit p tc n s).clk = s.clk := (returnCredit_switched _ _ _ _).clk
@[simp] theorem leaveHeadroom_clk (ing tc n : Nat) (s : State) : (leaveHeadroom ing tc n s).clk = s.clk := (leaveHeadroom_switched _ _ _ _).clk
@[simp] theorem lookupCount_clk (die row : Nat) (s : State) : (lookupCount die row s).clk = s.clk := (lookupCount_switched _ _ _).clk
@[simp] theorem violate_clk (ep row : Nat) (s : State) : (violate ep row s).clk = s.clk := (violate_switched _ _ _).clk
@[simp] theorem tryTake_clk (onDown : Nat → Packet → State → State) (hdown : ∀ i p t, Switched t (onDown i p t)) (die ing : Nat) (k : Parked) (s : State) :
    (tryTake onDown die ing k s).2.clk = s.clk :=
  (tryTake_switched onDown hdown die ing k s).clk
/-- What is done for a downed endpoint is the caller's. -/
@[simp] theorem takeIn_clk (onDown : Nat → Packet → State → State) (hdown : ∀ i p t, Switched t (onDown i p t)) (ing : Nat) (k : Parked) (s : State) :
    (takeIn onDown ing k s).clk = s.clk :=
  (admit_switched onDown hdown ing k s).clk
@[simp] theorem takeParked_clk (onDown : Nat → Packet → State → State) (hdown : ∀ i p t, Switched t (onDown i p t)) (ing tc : Nat) (s : State) :
    (takeParked onDown ing tc s).2.clk = s.clk :=
  (takeParked_switched onDown hdown ing tc s).clk

/-! ### Lookup -/

@[simp] theorem setFent_clk (k v : Nat) (s : State) : (setFent k v s).clk = s.clk := (setFent_switched _ _ _).clk
@[simp] theorem clearRecord_clk (agent line : Nat) (s : State) : (clearRecord agent line s).clk = s.clk := (clearRecord_switched _ _ _).clk
@[simp] theorem lostPacket_clk (ep : Nat) (s : State) : (lostPacket ep s).clk = s.clk := (lostPacket_switched _ _).clk
@[simp] theorem placeResponse_clk (ep : Nat) (r : Packet) (s : State) : (placeResponse ep r s).clk = s.clk := (placeResponse_switched _ _ _).clk
@[simp] theorem refuseAt_clk (ep : Nat) (p : Packet) (status reason : Nat) (s : State) :
    (refuseAt ep p status reason s).clk = s.clk := (refuseAt_switched _ _ _ _ _).clk
@[simp] theorem pathLost_clk (ep : Nat) (p : Packet) (s : State) : (pathLost ep p s).clk = s.clk := (pathLost_switched _ _ _).clk
@[simp] theorem lookup_clk (ep head : Nat) (p : Packet) (s : State) : (lookup ep head p s).clk = s.clk := (lookup_switched _ _ _ _).clk
@[simp] theorem sendFrom_clk (ep : Nat) (p : Packet) (s : State) : (sendFrom ep p s).clk = s.clk := (sendFrom_switched _ _ _).clk

/-! ### StreamLegs -/

@[simp] theorem closeDigest_clk (k : Nat) (d : Digest) (s : State) : (closeDigest k d s).clk = s.clk := by
  unfold closeDigest
  dsimp only
  split
  · split <;> simp
  · split <;> simp
@[simp] theorem digestTake_clk (k leg ent : Nat) (p : Packet) (data : List Byte) (s : State) : (digestTake k leg ent p data s).clk = s.clk := by
  unfold digestTake
  split
  · dsimp only
    split
    · simp
    · split <;> simp
  · dsimp only
    split
    · simp
    · split <;> simp
@[simp] theorem streamIntake_clk (x : QPkt) (s : State) : (streamIntake x s).clk = s.clk := by
  unfold streamIntake
  split
  · split <;> simp
  · simp

/-! ### StreamUnit -/

@[simp] theorem popIn_clk (t : Nat) (kind : Packet → Bool) (s : State) : (popIn t kind s).clk = s.clk := rfl

/-! ### Egress -/

@[simp] theorem refresh_clk (ep tc : Nat) (s : State) : (refresh ep tc s).clk = s.clk := by
  unfold refresh
  dsimp only
  split <;> simp
@[simp] theorem refreshAll_clk (ep : Nat) (s : State) : (refreshAll ep s).clk = s.clk := by simp [refreshAll]
theorem popHead_clk (ep tc : Nat) (s : State) : ∀ r ∈ popHead ep tc s, r.2.clk = s.clk := by
  unfold popHead
  split
  · dsimp only
    split <;> simp
  · dsimp only
    split <;> simp
@[simp] theorem skipHead_clk (ep tc : Nat) (s : State) : (skipHead ep tc s).clk = s.clk := by simp [skipHead]
@[simp] theorem leaveEdge_clk (ep : Nat) (p : Packet) (s : State) : (leaveEdge ep p s).2.clk = s.clk := by
  unfold leaveEdge
  split
  · simp
  · split <;> simp
@[simp] theorem crossLink_clk (ep : Nat) (x : QPkt) (s : State) : (crossLink ep x s).clk = s.clk := by simp [crossLink, pathLost_switched]
@[simp] theorem noteRunSent_clk (p : Packet) (s : State) : (noteRunSent p s).clk = s.clk := by
  unfold noteRunSent
  split
  · split <;> simp
  · simp
@[simp] theorem deliver_clk (ep : Nat) (x : QPkt) (s : State) : (deliver ep x s).clk = s.clk := by
  unfold deliver
  dsimp only
  refine clk_of_ite ?_ (clk_of_ite ?_ (clk_of_ite ?_ ?_)) <;> simp
@[simp] theorem discardOld_clk (die : Nat) (p : Packet) (s : State) : (discardOld die p s).clk = s.clk := by simp [discardOld]
@[simp] theorem takeStreamCopy_clk (ep tc : Nat) (x : QPkt) (s : State) : (takeStreamCopy ep tc x s).clk = s.clk := by
  unfold takeStreamCopy
  split
  · next h => exact waitTable_clk _ _ _ _ _ (Option.ite_none_left_eq_some.1 h).2
  · simp
@[simp] theorem egressSend_clk (ep : Nat) (s : State) : (egressSend ep s).clk = s.clk := by
  unfold egressSend
  extract_lets u
  have hu : u.clk = s.clk := by simp [u]
  clear_value u
  split
  · exact hu
  · split
    · exact hu
    · split
      · simp [hu]
      · split
        · simp [hu]
        · split
          · exact hu
          · next h => simp [clk_of_some (popHead_clk _ _ _) h, hu]
@[simp] theorem pruneNotice_clk (g li : Nat) (s : State) : (pruneNotice g li s).clk = s.clk := by simp [pruneNotice]
@[simp] theorem pruneFor_clk (port : Nat) (s : State) : (pruneFor port s).clk = s.clk := by simp [pruneFor]
@[simp] theorem flushPacket_clk (ep tc : Nat) (x : QPkt) (s : State) : (flushPacket ep tc x s).clk = s.clk := by simp [flushPacket]
@[simp] theorem flushQueue_clk (ep tc : Nat) (s : State) : (flushQueue ep tc s).clk = s.clk := by simp [flushQueue]

/-! ### LifeOps -/

@[simp] theorem setSvcState_clk (v st : Nat) (s : State) : (setSvcState v st s).clk = s.clk := rfl
@[simp] theorem svcAnswer_clk (m : Mail) (payload : List Byte) (s : State) : (svcAnswer m payload s).clk = s.clk := by simp [svcAnswer]
@[simp] theorem svcComplete_clk (m : Mail) (payload : List Byte) (s : State) : (svcComplete m payload s).clk = s.clk := by simp [svcComplete]
@[simp] theorem svcStatus_clk (m : Mail) (status : Nat) (s : State) : (svcStatus m status s).clk = s.clk := by simp [svcStatus]
@[simp] theorem flushMail_clk (v status : Nat) (s : State) : (flushMail v status s).clk = s.clk := by simp [flushMail]
@[simp] theorem flushOpen_clk (v : Nat) (s : State) : (flushOpen v s).clk = s.clk := by simp [flushOpen]
theorem takeMailIf_clk (v : Nat) (ok : Mail → Bool) (s : State) : ∀ r ∈ takeMailIf v ok s, r.2.clk = s.clk := by
  unfold takeMailIf
  split
  · simp
  · split <;> simp
theorem takeMail_clk (v cmd : Nat) (s : State) : ∀ r ∈ takeMail v cmd s, r.2.clk = s.clk := takeMailIf_clk _ _ _
@[simp] theorem servicesStarting_clk (s : State) : (servicesStarting s).clk = s.clk := by simp [servicesStarting]
@[simp] theorem controlRestartNow_clk (s : State) : (controlRestartNow s).clk = s.clk := by simp [controlRestartNow]
@[simp] theorem loadWords_clk (core base : Nat) (l : List Word) (s : State) : (loadWords core base l s).clk = s.clk := rfl
@[simp] theorem startThread_clk (h base : Nat) (s : State) : (startThread h base s).clk = s.clk := rfl
@[simp] theorem loadBundle_clk (b : Bundle) (s : State) : (loadBundle b s).clk = s.clk := by simp [loadBundle]
@[simp] theorem loadControl_clk (s : State) : (loadControl s).clk = s.clk := by simp [loadControl]
@[simp] theorem startThreads_clk (s : State) : (startThreads s).clk = s.clk := by simp [startThreads]
@[simp] theorem startFirmware_clk (s : State) : (startFirmware s).clk = s.clk := by simp [startFirmware]
@[simp] theorem holdNow_clk (s : State) : (holdNow s).clk = s.clk := by simp [holdNow]
@[simp] theorem converterStop_clk (s : State) : (converterStop s).clk = s.clk := by
  unfold converterStop
  refine clk_of_ite ?_ ?_ <;> simp
@[simp] theorem startDeparture_clk (s : State) : (startDeparture s).clk = s.clk := by simp [startDeparture]

/-! ### OwnOps -/

@[simp] theorem issueOwn_clk (tag : Nat) (r : OwnReq) (s : State) : (issueOwn tag r s).clk = s.clk := by simp [issueOwn]
@[simp] theorem reissueOwn_clk (old tag : Nat) (r : OwnReq) (s : State) : (reissueOwn old tag r s).clk = s.clk := by simp [reissueOwn]
@[simp] theorem setArrived_clk (n chunk v : Nat) (s : State) : (setArrived n chunk v s).clk = s.clk := rfl
@[simp] theorem testChunk_clk (n chunk : Nat) (s : State) : (testChunk n chunk s).clk = s.clk := by simp [testChunk]
@[simp] theorem arriveBlock_clk (n : Nat) (e : OpEvent) (s : State) : (arriveBlock n e s).clk = s.clk := by simp [arriveBlock]
@[simp] theorem takeBlock_clk (t : Nat) (p : Packet) (s : State) : (takeBlock t p s).clk = s.clk := by
  unfold takeBlock
  split
  · simp
  · split <;> simp
@[simp] theorem noteNotice_clk (n : Nat) (p : Packet) (s : State) : (noteNotice n p s).clk = s.clk := by
  unfold noteNotice
  split <;> simp
@[simp] theorem notePoison_clk (n chunk : Nat) (s : State) : (notePoison n chunk s).clk = s.clk := by
  unfold notePoison
  split <;> simp
@[simp] theorem takeMessage_clk (t : Nat) (p : Packet) (s : State) : (takeMessage t p s).clk = s.clk := by
  unfold takeMessage
  split <;> simp
@[simp] theorem stash_clk (core : Nat) (data : List Byte) (s : State) : (stash core data s).2.clk = s.clk := by simp [stash]
@[simp] theorem lowerOutstanding_clk (n : Nat) (s : State) : (lowerOutstanding n s).clk = s.clk := rfl
@[simp] theorem stepNext_clk (base : Nat) (s : State) : (stepNext base s).clk = s.clk := by simp [stepNext]
@[simp] theorem requestOwn_clk (base : Nat) (r : OwnReq) (s : State) : (requestOwn base r s).clk = s.clk := by
  unfold requestOwn
  split
  · simp
  · split <;> simp
@[simp] theorem drainBacklog_clk (base : Nat) (s : State) : (drainBacklog base s).clk = s.clk := by simp [drainBacklog]
@[simp] theorem leaseRequest_clk (e node : Nat) (d : List Byte) (s : State) : (leaseRequest e node d s).clk = s.clk := by simp [leaseRequest]
@[simp] theorem modHold_clk (e : Nat) (f : LeaseHold → LeaseHold) (s : State) : (modHold e f s).clk = s.clk := rfl
@[simp] theorem tellHolders_clk (e : Nat) (s : State) : (tellHolders e s).clk = s.clk := by simp [tellHolders]
@[simp] theorem settleGrant_clk (e : Nat) (s : State) : (settleGrant e s).clk = s.clk := by
  unfold settleGrant
  dsimp only
  split <;> simp
@[simp] theorem settleLease_clk (r : OwnReq) (st : Nat) (s : State) : (settleLease r st s).clk = s.clk := by simp [settleLease]
@[simp] theorem peerRequest_clk (c node form : Nat) (s : State) : (peerRequest c node form s).clk = s.clk := by simp [peerRequest]
@[simp] theorem settleTr_clk (c : Nat) (s : State) : (settleTr c s).clk = s.clk := by
  unfold settleTr
  split <;> simp
@[simp] theorem noteReport_clk (c node : Nat) (s : State) : (noteReport c node s).clk = s.clk := by
  unfold noteReport
  split <;> simp
@[simp] theorem settlePeer_clk (r : OwnReq) (st : Nat) (s : State) : (settlePeer r st s).clk = s.clk := by simp [settlePeer]
@[simp] theorem settleOwn_clk (tag : Nat) (r : OwnReq) (st : Nat) (p : Packet) (s : State) :
    (settleOwn tag r st p s).clk = s.clk := by
  unfold settleOwn
  dsimp only
  refine clk_of_ite ?_ (clk_of_ite ?_ (clk_of_ite ?_ (clk_of_ite ?_ (clk_of_ite ?_ (clk_of_ite ?_ (clk_of_ite ?_
    (clk_of_ite ?_ (clk_of_ite ?_ (clk_of_ite ?_ (clk_of_ite ?_ (clk_of_ite ?_ (clk_of_ite ?_ (clk_of_ite ?_ ?_)))))))))))))
  all_goals simp
@[simp] theorem finishOwn_clk (tag : Nat) (r : OwnReq) (st : Nat) (p : Packet) (s : State) :
    (finishOwn tag r st p s).clk = s.clk := by simp [finishOwn]
@[simp] theorem takeResponse_clk (p : Packet) (pop : State → State) (hpop : ∀ t, SameClk t (pop t)) (s : State) :
    (takeResponse p pop s).clk = s.clk := by
  simp only [sameClk_iff] at hpop
  unfold takeResponse
  split
  · refine clk_of_ite ?_ ?_ <;> simp [hpop]
  · refine clk_of_ite ?_ ?_
    · simp [hpop]
    · dsimp only
      refine clk_of_ite ?_ ?_
      · simp [hpop]
      · refine clk_of_ite ?_ ?_ <;> simp [hpop]

/-! ### TierOps -/

@[simp] theorem takePlace_clk (tier p loc : Nat) (s : State) : (takePlace tier p loc s).clk = s.clk := by
  unfold takePlace
  split <;> simp
@[simp] theorem freePlaceOf_clk (tier p loc : Nat) (s : State) : (freePlaceOf tier p loc s).clk = s.clk := by
  unfold freePlaceOf
  split <;> simp
@[simp] theorem holdFrames_clk (l : List Nat) (s : State) : (holdFrames l s).clk = s.clk := rfl
@[simp] theorem dropStaging_clk (k : Nat) (s : State) : (dropStaging k s).clk = s.clk := rfl
@[simp] theorem beginMove_clk (p dest tc : Nat) (job : Option Nat) (loc : Nat) (s : State) :
    (beginMove p dest tc job loc s).clk = s.clk := by simp [beginMove]
theorem tryMove_clk (p dest tc : Nat) (job : Option Nat) (force : Bool) (s : State) : ∀ r ∈ tryMove p dest tc job force s, r.clk = s.clk := by
  unfold tryMove
  split
  · simp
  · split <;> simp
@[simp] theorem sweep_clk (l : List Nat) (s : State) : (sweep l s).2.clk = s.clk := by
  induction l generalizing s with
  | nil => rfl
  | cons p rest ih =>
    unfold sweep
    dsimp only
    split
    · exact ih s
    · split
      · rw [ih, setPage_clk]
      · rfl
@[simp] theorem sweepVictim_clk (c : Nat) (s : State) : (sweepVictim c s).2.clk = s.clk := by
  unfold sweepVictim
  dsimp only
  split <;> simp
theorem beginEvict_clk (p tc : Nat) (s : State) : ∀ r ∈ beginEvict p tc s, r.clk = s.clk := by
  unfold beginEvict
  split
  · next h =>
    rintro _ ⟨rfl⟩
    exact tryMove_clk _ _ _ _ _ _ _ h
  · split
    · simp
    · exact tryMove_clk _ _ _ _ _ _
theorem evictOne_clk (c tc : Nat) (s : State) : ∀ r ∈ evictOne c tc s, r.clk = s.clk := by
  unfold evictOne
  split
  · split
    · exact beginEvict_clk _ _ _
    · simp
  · dsimp only
    split
    · intro r h
      exact (beginEvict_clk _ _ _ r h).trans (sweepVictim_clk _ _)
    · simp
@[simp] theorem dropHeld_clk (p : Nat) (s : State) : (dropHeld p s).clk = s.clk := rfl
@[simp] theorem answerHeld_clk (p status : Nat) (s : State) : (answerHeld p status s).clk = s.clk := by simp [answerHeld]
@[simp] theorem promote_clk (p : Nat) (s : State) : (promote p s).clk = s.clk := by
  unfold promote
  split
  · simp
  · split
    · next h => simp [tryMove_clk _ _ _ _ _ _ _ h]
    · dsimp only
      split
      · simp
      · split
        · next h => simp [evictOne_clk _ _ _ _ h]
        · simp
@[simp] theorem retryPromotions_clk (die : Nat) (s : State) : (retryPromotions die s).clk = s.clk := by simp [retryPromotions]

/-! ### HomeServe -/

@[simp] theorem applyWrite_clk (p : Packet) (s : State) : (applyWrite p s).2.clk = s.clk := by simp [applyWrite]
@[simp] theorem memApply_clk (die : Nat) (p : Packet) (s : State) : (memApply die p s).clk = s.clk := by simp [memApply]
@[simp] theorem cohCount_clk (die row n : Nat) (s : State) : (cohCount die row n s).clk = s.clk := rfl
@[simp] theorem cohMax_clk (die row n : Nat) (s : State) : (cohMax die row n s).clk = s.clk := rfl
@[simp] theorem setTxns_clk (die : Nat) (l : List Txn) (s : State) : (setTxns die l s).clk = s.clk := rfl
@[simp] theorem setWaits_clk (die : Nat) (l : List HomeReq) (s : State) : (setWaits die l s).clk = s.clk := rfl
@[simp] theorem setRecord_clk (agent line st : Nat) (s : State) : (setRecord agent line st s).clk = s.clk := by
  unfold setRecord
  dsimp only
  split
  · rfl
  · next k _ => exact (clk_of_coh _ _).trans (setFent_clk k (dieLine s line / 1024 + 2 ^ 21 * st) s)
@[simp] theorem poisonLine_clk (line : Nat) (s : State) : (poisonLine line s).clk = s.clk := by simp [poisonLine]
@[simp] theorem noteDead_clk (die a : Nat) (poisoned : Bool) (s : State) : (noteDead die a poisoned s).clk = s.clk := rfl
@[simp] theorem reclaimLine_clk (die a line : Nat) (s : State) : (reclaimLine die a line s).clk = s.clk := by
  unfold reclaimLine
  split <;> simp
@[simp] theorem clearDead_clk (die line : Nat) (s : State) : (clearDead die line s).clk = s.clk := by simp [clearDead]
@[simp] theorem sendInv_clk (die agent line : Nat) (keep : Bool) (s : State) : (sendInv die agent line keep s).2.clk = s.clk := by simp [sendInv]
@[simp] theorem sendSnoops_clk (die line : Nat) (l : List (Nat × Bool)) (s : State) : (sendSnoops die line l s).2.clk = s.clk := by simp [sendSnoops]
@[simp] theorem answerJob_clk (die : Nat) (m : LineJob) (s : State) : (answerJob die m s).clk = s.clk := by simp [answerJob]
@[simp] theorem lineDone_clk (die job line st : Nat) (data : List Byte × Bool) (s : State) : (lineDone die job line st data s).clk = s.clk := by
  unfold lineDone
  split <;> simp
@[simp] theorem refuseReq_clk (die : Nat) (p : Packet) (job st reason : Nat) (s : State) :
    (refuseReq die p job st reason s).clk = s.clk := by simp [refuseReq]
@[simp] theorem lineApply_clk (die : Nat) (p : Packet) (job : Nat) (s : State) : (lineApply die p job s).clk = s.clk := by simp [lineApply]
@[simp] theorem finish_clk (die : Nat) (t : Txn) (s : State) : (finish die t s).clk = s.clk := by
  unfold finish
  refine clk_of_ite ?_ (clk_of_ite ?_ (clk_of_ite ?_ ?_)) <;> simp
@[simp] theorem takeWb_clk (die a : Nat) (p : Packet) (s : State) : (takeWb die a p s).clk = s.clk := by simp [takeWb]
@[simp] theorem takeCrossing_clk (die a : Nat) (p : Packet) (s : State) : (takeCrossing die a p s).clk = s.clk := by simp [takeCrossing]
@[simp] theorem crossWaits_clk (die : Nat) (s : State) : (crossWaits die s).clk = s.clk := by simp [crossWaits]
@[simp] theorem launch_clk (die : Nat) (t : Txn) (s : State) : (launch die t s).clk = s.clk := by simp [launch]
@[simp] theorem acquire_clk (die : Nat) (t : Txn) (s : State) : (acquire die t s).clk = s.clk := by
  unfold acquire
  dsimp only
  refine clk_of_ite ?_ ?_
  · simp
  · refine clk_of_ite ?_ ?_
    · simp
    · refine clk_of_ite ?_ ?_
      · simp
      · split
        · simp
        · split <;> simp
@[simp] theorem openTxn_clk (die : Nat) (q : HomeReq) (s : State) : (openTxn die q s).clk = s.clk := by
  unfold openTxn
  refine clk_of_ite ?_ (clk_of_ite ?_ (clk_of_ite ?_ ?_)) <;> simp
@[simp] theorem drainList_clk (die : Nat) (kept l : List HomeReq) (s : State) : (drainList die kept l s).2.clk = s.clk := by
  induction l generalizing kept s with
  | nil => rfl
  | cons q rest ih =>
    unfold drainList
    split
    · exact ih _ s
    · rw [ih, openTxn_clk]
@[simp] theorem drainWaits_clk (die : Nat) (s : State) : (drainWaits die s).clk = s.clk := by simp [drainWaits]
@[simp] theorem retryBlocked_clk (die line : Nat) (s : State) : (retryBlocked die line s).clk = s.clk := by
  unfold retryBlocked
  split
  · simp
  · dsimp only
    split <;> simp
@[simp] theorem afterClose_clk (die : Nat) (t : Txn) (s : State) : (afterClose die t s).clk = s.clk := by simp [afterClose]
@[simp] theorem applySnoop_clk (q : Packet) (n : Snoop) (s : State) : (applySnoop q n s).clk = s.clk := by
  unfold applySnoop
  refine clk_of_ite ?_ (clk_of_ite ?_ ?_) <;> simp
@[simp] theorem agentRecord_clk (a st : Nat) (s : State) : (agentRecord a st s).clk = s.clk := by simp [agentRecord]
@[simp] theorem reattach_clk (a : Nat) (s : State) : (reattach a s).clk = s.clk := by simp [reattach]
@[simp] theorem snoopAnswer_clk (die : Nat) (q : Packet) (s : State) : (snoopAnswer die q s).clk = s.clk := by
  unfold snoopAnswer
  split
  · simp
  · split
    · simp
    · split
      · split <;> simp
      · split
        · split <;> simp
        · split <;> simp
@[simp] theorem killAgent_clk (a : Nat) (s : State) : (killAgent a s).clk = s.clk := by
  unfold killAgent
  refine clk_of_ite ?_ ?_ <;> simp
@[simp] theorem dropSnoops_clk (die a : Nat) (t : Txn) (s : State) : (dropSnoops die a t s).clk = s.clk := by
  unfold dropSnoops
  split <;> simp
@[simp] theorem dropRequests_clk (die a : Nat) (s : State) : (dropRequests die a s).clk = s.clk := by simp [dropRequests]
@[simp] theorem reclaimDie_clk (die a : Nat) (s : State) : (reclaimDie die a s).clk = s.clk := by
  unfold reclaimDie
  dsimp only
  refine (emitClass_clk _ _ _ _ _ _ _).trans ((foldl_clk _ (fun t k => ?_) _ _).trans (by simp))
  simp only [sameClk_iff]
  split <;> simp
@[simp] theorem cancelMove_clk (p : Nat) (s : State) : (cancelMove p s).clk = s.clk := by
  unfold cancelMove
  split <;> simp
@[simp] theorem hold_clk (die p : Nat) (q : Packet) (s : State) : (hold die p q s).clk = s.clk := by simp [hold]
@[simp] theorem place_clk (die : Nat) (q : HomeReq) (s : State) : (place die q s).clk = s.clk := by simp [place]
@[simp] theorem serveCoherent_clk (die : Nat) (p : Packet) (s : State) : (serveCoherent die p s).clk = s.clk := by
  unfold serveCoherent
  split <;> simp
@[simp] theorem serve_clk (die : Nat) (p : Packet) (s : State) : (serve die p s).clk = s.clk := by
  unfold serve
  split
  · simp
  · split <;> simp
@[simp] theorem homeTake_clk (die : Nat) (ok : Packet → Bool) (f : Packet → State → State) (hf : ∀ p t, SameClk t (f p t)) (s : State) :
    (homeTake die ok f s).clk = s.clk := by
  unfold homeTake
  split
  · rfl
  · exact hf _ _
@[simp] theorem homeOp_clk (op die : Nat) (s : State) : (homeOp op die s).clk = s.clk := by simp [homeOp]
@[simp] theorem serveHeld_clk (p : Nat) (s : State) : (serveHeld p s).clk = s.clk := by simp [serveHeld]
@[simp] theorem setExtState_clk (e st die : Nat) (s : State) : (setExtState e st die s).clk = s.clk := by
  unfold setExtState
  dsimp only
  refine clk_of_ite ?_ ?_ <;> simp
@[simp] theorem noteCommit_clk (s : State) : (noteCommit s).clk = s.clk := rfl
@[simp] theorem expireLease_clk (ext : Nat) (s : State) : (expireLease ext s).clk = s.clk := by simp [expireLease]
@[simp] theorem lapseLease_clk (ext : Nat) (s : State) : (lapseLease ext s).clk = s.clk := by
  unfold lapseLease
  dsimp only
  split
  · split
    · split <;> simp
    · simp
  · rfl
@[simp] theorem noteDrained_clk (e : Nat) (s : State) : (noteDrained e s).clk = s.clk := by simp [noteDrained]

/-! ### ContextOps -/

@[simp] theorem dropMove_clk (p : Nat) (s : State) : (dropMove p s).clk = s.clk := by
  unfold dropMove
  split <;> simp
@[simp] theorem losePage_clk (p : Nat) (s : State) : (losePage p s).clk = s.clk := by
  unfold losePage
  dsimp only
  split
  · simp
  · split <;> simp
@[simp] theorem freePage_clk (p : Nat) (s : State) : (freePage p s).clk = s.clk := by
  unfold freePage
  refine clk_of_ite ?_ ?_ <;> simp
@[simp] theorem placePage_clk (tier ctx : Nat) (fixed : Bool) (s : State) (p : Nat) : (placePage tier ctx fixed s p).clk = s.clk := by
  unfold placePage
  split
  · dsimp only
    split <;> simp
  · dsimp only
    split <;> simp
@[simp] theorem placeExtent_clk (e : Nat) (s : State) : (placeExtent e s).clk = s.clk := by simp [placeExtent]
@[simp] theorem bringNear_clk (p : Nat) (s : State) : (bringNear p s).clk = s.clk := by simp [bringNear]
@[simp] theorem fixExtent_clk (e : Nat) (s : State) : (fixExtent e s).clk = s.clk := by simp [fixExtent]
@[simp] theorem emptySlot_clk (n : Nat) (s : State) : (emptySlot n s).clk = s.clk := rfl
@[simp] theorem settleKeys_clk (s : State) : (settleKeys s).clk = s.clk := by simp [settleKeys]
@[simp] theorem openContext_clk (c : Nat) (s : State) : (openContext c s).clk = s.clk := by simp [openContext]
@[simp] theorem noteClosing_clk (c : Nat) (s : State) : (noteClosing c s).clk = s.clk := by
  unfold noteClosing
  split <;> simp
@[simp] theorem releaseCtx_clk (s : State) (c : Nat) : (releaseCtx s c).clk = s.clk := by simp [releaseCtx]
@[simp] theorem releaseAll_clk (s : State) : (releaseAll s).clk = s.clk := by simp [releaseAll]

/-! ### TileEvents -/

@[simp] theorem effOpblk_clk (tile : Nat) (s : State) : (effOpblk tile s).clk = s.clk := by
  unfold effOpblk
  split <;> simp
@[simp] theorem effOpmsg_clk (tile : Nat) (s : State) : (effOpmsg tile s).clk = s.clk := by
  unfold effOpmsg
  split <;> simp
@[simp] theorem effFetchResponse_clk (tile : Nat) (s : State) : (effFetchResponse tile s).clk = s.clk := by
  unfold effFetchResponse
  split <;> simp
@[simp] theorem effStoreResponse_clk (tile : Nat) (s : State) : (effStoreResponse tile s).clk = s.clk := by
  unfold effStoreResponse
  split <;> simp
@[simp] theorem shadowRecord_clk (t n : Nat) (h : Handler) (s : State) : (shadowRecord t n h s).clk = s.clk := by
  unfold shadowRecord
  refine clk_of_ite ?_ (clk_of_ite ?_ ?_) <;> simp
@[simp] theorem beginHandler_clk (t n pc : Nat) (e : OpEvent) (s : State) : (beginHandler t n pc e s).clk = s.clk := by simp [beginHandler]
@[simp] theorem effHandlerStart_clk (tile : Nat) (s : State) : (effHandlerStart tile s).clk = s.clk := by
  unfold effHandlerStart
  split
  · simp
  · split
    · simp
    · split
      · simp
      · split
        · simp
        · split
          · dsimp only
            split <;> simp
          · dsimp only
            split <;> simp
@[simp] theorem effStepLimit_clk (tile : Nat) (s : State) : (effStepLimit tile s).clk = s.clk := by
  unfold effStepLimit
  split <;> simp
@[simp] theorem effTimerExpire_clk (slot : Nat) (s : State) : (effTimerExpire slot s).clk = s.clk := by simp [effTimerExpire]
@[simp] theorem effSlotCooling_clk (slot : Nat) (s : State) : (effSlotCooling slot s).clk = s.clk := by simp [effSlotCooling]
@[simp] theorem effSlotFree_clk (slot : Nat) (s : State) : (effSlotFree slot s).clk = s.clk := by simp [effSlotFree]
@[simp] theorem effProgramLoadDone_clk (cluster entry : Nat) (s : State) :
    (effProgramLoadDone cluster entry s).clk = s.clk := by
  unfold effProgramLoadDone
  dsimp only
  refine clk_of_ite ?_ (clk_of_ite ?_ ?_) <;> simp

/-! ### Report -/

theorem signHss_clk (digest : BitVec 384) (s : State) : ∀ r ∈ signHss digest s, r.2.clk = s.clk := by
  unfold signHss
  split <;> simp
theorem makeReport_clk (c : Nat) (nonce : List Byte) (s : State) : ∀ r ∈ makeReport c nonce s, r.2.clk = s.clk := by
  rintro _ h
  obtain ⟨x, hx, rfl⟩ := Option.map_eq_some_iff.1 h
  have hs := signHss_clk _ _ x hx
  exact hs

/-! ### ServiceOps -/

theorem takeMod_clk (ok : Packet × Nat → Bool) (s : State) : ∀ r ∈ takeMod ok s, r.2.clk = s.clk := by
  rintro _ h
  obtain ⟨x, -, rfl⟩ := Option.map_eq_some_iff.1 h
  rfl
@[simp] theorem threadRequest_clk (h user unit arg : Nat) (p : Packet) (s : State) :
    (threadRequest h user unit arg p s).clk = s.clk := by simp [threadRequest]
@[simp] theorem poolWrite_clk (h user unit c a : Nat) (data : List Byte) (s : State) :
    (poolWrite h user unit c a data s).clk = s.clk := by simp [poolWrite]
@[simp] theorem readPieces_clk (base user unit c tc node line n : Nat) (s : State) :
    (readPieces base user unit c tc node line n s).clk = s.clk := by simp [readPieces]
@[simp] theorem askPool_clk (key h c a len : Nat) (s : State) : (askPool key h c a len s).clk = s.clk := by simp [askPool]
@[simp] theorem dropRead_clk (key : Nat) (s : State) : (dropRead key s).clk = s.clk := rfl
@[simp] theorem patchOwn_clk (base user unit arg c tc node off : Nat) (data : List Byte) (s : State) :
    (patchOwn base user unit arg c tc node off data s).clk = s.clk := by simp [patchOwn]
@[simp] theorem fetchPiece_clk (base job arg c tc node off n : Nat) (s : State) :
    (fetchPiece base job arg c tc node off n s).clk = s.clk := by simp [fetchPiece]
@[simp] theorem storePiece_clk (base job arg c tc node off : Nat) (data : List Byte) (s : State) :
    (storePiece base job arg c tc node off data s).clk = s.clk := by simp [storePiece]
@[simp] theorem dropPiece_clk (job arg : Nat) (s : State) : (dropPiece job arg s).clk = s.clk := rfl
@[simp] theorem dropJob_clk (job : Nat) (s : State) : (dropJob job s).clk = s.clk := rfl
@[simp] theorem cnote_clk (pl : Plan) (tc ntype dst : Nat) (payload : List Byte) (s : State) :
    (cnote pl tc ntype dst payload s).clk = s.clk := by simp [cnote]
@[simp] theorem writeRecord_clk (k status : Nat) (s : State) : (writeRecord k status s).clk = s.clk := by
  unfold writeRecord
  refine clk_of_ite ?_ ?_ <;> simp
@[simp] theorem addChunk_clk (k c : Nat) (s : State) : (addChunk k c s).clk = s.clk := rfl
@[simp] theorem noteBlock_clk (p : Packet) (s : State) : (noteBlock p s).clk = s.clk := by
  unfold noteBlock
  split
  · simp
  · split
    · split <;> simp
    · split <;> simp
@[simp] theorem noteAll_clk (n : Nat) (e : OpEvent) (s : State) : (noteAll n e s).clk = s.clk := by
  unfold noteAll
  split
  · simp
  · split <;> simp

/-! ### KeyOps -/

@[simp] theorem loadSlot_clk (n c kgen kind : Nat) (imported shared : Bool) (key : Nat) (s : State) :
    (loadSlot n c kgen kind imported shared key s).clk = s.clk := by simp [loadSlot]
theorem loadScrub_clk (c : Nat) (s : State) : ∀ r ∈ loadScrub c s, r.2.clk = s.clk := by
  rintro _ h
  obtain ⟨n, -, rfl⟩ := Option.map_eq_some_iff.1 h
  simp
@[simp] theorem destroySlot_clk (n : Nat) (s : State) : (destroySlot n s).clk = s.clk := by simp [destroySlot]
@[simp] theorem retireKgen_clk (c : Nat) (s : State) : (retireKgen c s).clk = s.clk := by simp [retireKgen]
@[simp] theorem keyAlloc_clk (r : List Byte) (s : State) : (keyAlloc r s).2.clk = s.clk := by simp [keyAlloc]
@[simp] theorem keyImport_clk (r : List Byte) (s : State) : (keyImport r s).2.clk = s.clk := by
  unfold keyImport
  split <;> simp
@[simp] theorem sendCrmsg_clk (h dst : Nat) (payload : List Byte) (s : State) : (sendCrmsg h dst payload s).clk = s.clk := by simp [sendCrmsg]
@[simp] theorem keyShare_clk (h : Nat) (r : List Byte) (s : State) : (keyShare h r s).2.clk = s.clk := by simp [keyShare]
@[simp] theorem keyDestroy_clk (r : List Byte) (s : State) : (keyDestroy r s).2.clk = s.clk := by simp [keyDestroy]
@[simp] theorem keyRetire_clk (r : List Byte) (s : State) : (keyRetire r s).2.clk = s.clk := by simp [keyRetire]
@[simp] theorem keyScrub_clk (r : List Byte) (s : State) : (keyScrub r s).2.clk = s.clk := by
  unfold keyScrub
  split
  · next h => simp [clk_of_some (loadScrub_clk _ _) h]
  · simp
@[simp] theorem keyReport_clk (h ticket : Nat) (r : List Byte) (s : State) : (keyReport h ticket r s).2.clk = s.clk := by
  unfold keyReport
  split
  · simp
  · split
    · simp
    · next h => simp [clk_of_some (makeReport_clk _ _ _) h]
@[simp] theorem serveKey_clk (h ticket : Nat) (r : List Byte) (s : State) : (serveKey h ticket r s).2.clk = s.clk := by
  unfold serveKey
  split
  · simp
  · split <;> simp
@[simp] theorem serveNext_clk (s : State) : (serveNext s).clk = s.clk := by
  unfold serveNext
  split <;> simp
@[simp] theorem endShare_clk (which : KReq → Bool) (st : Nat) (s : State) : (endShare which st s).clk = s.clk := rfl
@[simp] theorem dropShares_clk (s : State) : (dropShares s).clk = s.clk := by simp [dropShares]
@[simp] theorem serveKeys_clk (s : State) : (serveKeys s).clk = s.clk := by simp [serveKeys]
@[simp] theorem postKey_clk (h ticket : Nat) (r : List Byte) (s : State) : (postKey h ticket r s).clk = s.clk := by simp [postKey]

/-! ### MgmtOps -/

@[simp] theorem holdMessage_clk (iface : Nat) (i : Message) (s : State) : (holdMessage iface i s).clk = s.clk := by simp [holdMessage]
@[simp] theorem onIface_clk (iface : Nat) (i : Message) (f : State → State) (hf : ∀ t, SameClk t (f t)) (s : State) :
    (onIface iface i f s).clk = s.clk := by
  unfold onIface
  split
  · exact hf s
  · simp
@[simp] theorem answerPeer_clk (data : List Byte) (s : State) : (answerPeer data s).clk = s.clk := by
  unfold answerPeer
  split <;> simp
@[simp] theorem answer_clk (iface code : Nat) (data : List Byte) (s : State) : (answer iface code data s).clk = s.clk := by simp [answer]
@[simp] theorem answerError_clk (iface code : Nat) (s : State) : (answerError iface code s).clk = s.clk := by simp [answerError]
@[simp] theorem answerReady_clk (iface code : Nat) (data : List Byte) (s : State) :
    (answerReady iface code data s).clk = s.clk := by simp [answerReady]
@[simp] theorem answerLong_clk (iface code : Nat) (data : List Byte) (s : State) : (answerLong iface code data s).clk = s.clk := by simp [answerLong]
@[simp] theorem countRefused_clk (s : State) : (countRefused s).clk = s.clk := rfl
@[simp] theorem refuseMgmt_clk (iface code : Nat) (s : State) : (refuseMgmt iface code s).clk = s.clk := by simp [refuseMgmt]
@[simp] theorem mgmtStatus_clk (iface code status : Nat) (s : State) : (mgmtStatus iface code status s).clk = s.clk := by simp [mgmtStatus]
@[simp] theorem endSessions_clk (s : State) : (endSessions s).clk = s.clk := rfl

/-! ### Power -/

@[simp] theorem sampleSensor_clk (k i : Nat) (reading : Option Int) (s : State) : (sampleSensor k i reading s).clk = s.clk := by
  unfold sampleSensor
  cases reading with
  | none =>
    dsimp only
    split
    · split
      · rfl
      · rw [emitClass_clk, State.setSensor_clk]
    · rfl
  | some x =>
    dsimp only
    split
    · split
      · rfl
      · rw [emitClass_clk, State.setSensor_clk]
    · rw [State.setSensor_clk]
@[simp] theorem pendLine_clk (l : Nat) (s : State) : (pendLine l s).clk = s.clk := rfl
@[simp] theorem pendBlock_clk (b : Nat) (s : State) : (pendBlock b s).clk = s.clk := by simp [pendBlock]
@[simp] theorem setBin_clk (b bin : Nat) (s : State) : (setBin b bin s).clk = s.clk := by simp [setBin]
@[simp] theorem updateBin_clk (b : Nat) (s : State) : (updateBin b s).clk = s.clk := by simp [updateBin]
@[simp] theorem setPerLevel_clk (half lvl : Nat) (s : State) : (setPerLevel half lvl s).clk = s.clk := by
  unfold setPerLevel
  refine clk_of_ite ?_ (clk_of_ite ?_ ?_) <;> simp
@[simp] theorem updatePerLevel_clk (half : Nat) (s : State) : (updatePerLevel half s).clk = s.clk := by simp [updatePerLevel]
@[simp] theorem sampleJunctions_clk (readings : List (Option Int)) (s : State) : (sampleJunctions readings s).clk = s.clk := by simp [sampleJunctions]
@[simp] theorem effTempSample_clk (readings : List (Option Int)) (s : State) : (effTempSample readings s).clk = s.clk := by simp [effTempSample]
@[simp] theorem effDelayCodeApply_clk (line : Nat) (s : State) : (effDelayCodeApply line s).clk = s.clk := by
  unfold effDelayCodeApply
  split <;> simp
@[simp] theorem effDroopDetect_clk (sensor mv : Nat) (s : State) : (effDroopDetect sensor mv s).clk = s.clk := by simp [effDroopDetect]
@[simp] theorem effRestoreStep_clk (sensor : Nat) (s : State) : (effRestoreStep sensor s).clk = s.clk := by simp [effRestoreStep]
@[simp] theorem checkCap_clk (s : State) : (checkCap s).clk = s.clk := by
  unfold checkCap
  refine clk_of_ite ?_ ?_ <;> simp
@[simp] theorem capStep_clk (d : Nat) (s : State) : (capStep d s).clk = s.clk := rfl
@[simp] theorem effPowerCapTick_clk (s : State) : (effPowerCapTick s).clk = s.clk := by simp [effPowerCapTick]
@[simp] theorem thermalStep_clk (d : Nat) (s : State) : (thermalStep d s).clk = s.clk := by
  unfold thermalStep
  refine clk_of_ite ?_ (clk_of_ite ?_ ?_) <;> simp
@[simp] theorem shedTimes_clk (p : Nat) (s : State) : (shedTimes p s).clk = s.clk := rfl
@[simp] theorem effThermalLimitTick_clk (s : State) : (effThermalLimitTick s).clk = s.clk := by simp [effThermalLimitTick]
@[simp] theorem effThermalPortShed_clk (die : Nat) (s : State) : (effThermalPortShed die s).clk = s.clk := by
  unfold effThermalPortShed
  split <;> simp
@[simp] theorem effThermalPortRestore_clk (die : Nat) (s : State) : (effThermalPortRestore die s).clk = s.clk := by
  unfold effThermalPortRestore
  dsimp only
  split <;> simp
@[simp] theorem effHbmTempSample_clk (readings : List (Option Int)) (s : State) :
    (effHbmTempSample readings s).clk = s.clk := by simp [effHbmTempSample]
@[simp] theorem effInputSample_clk (mv da : Option Int) (s : State) : (effInputSample mv da s).clk = s.clk := by
  unfold effInputSample
  dsimp only
  refine clk_of_ite ?_ ?_ <;> simp
@[simp] theorem effInputRecover_clk (s : State) : (effInputRecover s).clk = s.clk := by
  unfold effInputRecover
  split <;> simp
@[simp] theorem phaseFault_clk (i : Nat) (s : State) : (phaseFault i s).clk = s.clk := by
  unfold phaseFault
  dsimp only
  split
  · simp
  · split <;> simp
@[simp] theorem phaseShed_clk (s : State) : (phaseShed s).clk = s.clk := by
  unfold phaseShed
  split
  · simp
  · split <;> simp
@[simp] theorem effPhaseSample_clk (phases : List (Int × Int × Bool)) (rails : List Int) (s : State) :
    (effPhaseSample phases rails s).clk = s.clk := by simp [effPhaseSample]
@[simp] theorem checkBeats_clk (seen : List Nat) (s : State) : (checkBeats seen s).clk = s.clk := by
  unfold checkBeats
  refine clk_of_ite ?_ (clk_of_ite ?_ ?_) <;> simp
@[simp] theorem effHeartbeatCheck_clk (seen : List Nat) (s : State) : (effHeartbeatCheck seen s).clk = s.clk := by simp [effHeartbeatCheck]
@[simp] theorem effLeaseProgressCheck_clk (s : State) : (effLeaseProgressCheck s).clk = s.clk := by simp [effLeaseProgressCheck]
theorem effThermalTrip_clk_of_ne {sensor : Nat} (h : sensor ≠ 50) (s : State) : (effThermalTrip sensor s).clk = s.clk := by simp [effThermalTrip, h]
@[simp] theorem effThermalTripClear_clk (s : State) : (effThermalTripClear s).clk = s.clk := by simp [effThermalTripClear]
@[simp] theorem effDozeEnter_clk (quietNs : Nat) (s : State) : (effDozeEnter quietNs s).clk = s.clk := by simp [effDozeEnter]
@[simp] theorem effDozeWake_clk (loadPct : Nat) (s : State) : (effDozeWake loadPct s).clk = s.clk := by simp [effDozeWake]
@[simp] theorem effWakeComplete_clk (s : State) : (effWakeComplete s).clk = s.clk := by simp [effWakeComplete]
@[simp] theorem effSleepEnter_clk (s : State) : (effSleepEnter s).clk = s.clk := by
  unfold effSleepEnter
  refine clk_of_ite ?_ (clk_of_ite ?_ ?_) <;> simp
@[simp] theorem effSleepExit_clk (s : State) : (effSleepExit s).clk = s.clk := by simp [effSleepExit]

/-! ### Lanes -/

@[simp] theorem useSpare_clk (p old new : Nat) (s : State) : (useSpare p old new s).clk = s.clk := by simp [useSpare]
@[simp] theorem placeLanes_clk (p lane step : Nat) (pos lanes : List Nat) (s : State) :
    (placeLanes p lane step pos lanes s).clk = s.clk := by simp [placeLanes]
@[simp] theorem laneChange_clk (p lane step : Nat) (pos lanes : List Nat) (s : State) :
    (laneChange p lane step pos lanes s).clk = s.clk := by simp [laneChange]
@[simp] theorem spareIn_clk (p mask : Nat) (s : State) (fuel : Nat) : (spareIn p mask s fuel).clk = s.clk := by
  induction fuel generalizing s with
  | zero => rfl
  | succ fuel ih =>
    unfold spareIn
    dsimp only
    split
    · simp [ih]
    · rfl
@[simp] theorem takeChange_clk (p : Nat) (c : LaneChange) (s : State) : (takeChange p c s).clk = s.clk := by
  unfold takeChange
  split
  · simp
  · split
    · simp
    · split
      · dsimp only
        split
        · simp
        · split <;> simp
      · simp
@[simp] theorem takeDueChange_clk (p : Nat) (s : State) : (takeDueChange p s).clk = s.clk := by
  unfold takeDueChange
  split <;> simp

/-! ### LinkRx -/

@[simp] theorem grantInit_clk (p : Nat) (s : State) : (grantInit p s).clk = s.clk := rfl
@[simp] theorem badGroup_clk (p reason : Nat) (s : State) : (badGroup p reason s).clk = s.clk := by simp [badGroup]
@[simp] theorem replayFrom_clk (p seq : Nat) (s : State) : (replayFrom p seq s).clk = s.clk := by simp [replayFrom]
@[simp] theorem enterTrainF_clk (p : Nat) (fromUp : Bool) (s : State) : (enterTrainF p fromUp s).clk = s.clk := by simp [enterTrainF]
@[simp] theorem replayGroup_clk (p seq : Nat) (s : State) : (replayGroup p seq s).clk = s.clk := by simp [replayGroup]
@[simp] theorem fillRx_clk (p : Nat) (s : State) : (fillRx p s).clk = s.clk := rfl
@[simp] theorem arrive_clk (p vl : Nat) (q : Packet) (s : State) : (arrive p vl q s).clk = s.clk := by
  unfold arrive
  refine clk_of_ite ?_ ?_ <;> simp
@[simp] theorem skipStream_clk (p vl : Nat) (s : State) : (skipStream p vl s).clk = s.clk := rfl
@[simp] theorem drainStream_clk (p vl fuel : Nat) (s : State) : (drainStream p vl fuel s).clk = s.clk := by
  induction fuel generalizing s with
  | zero => rfl
  | succ fuel ih =>
    unfold drainStream
    dsimp only
    refine clk_of_ite ?_ ?_
    · rfl
    · refine clk_of_ite ?_ ?_
      · simp
      · refine clk_of_ite ?_ ?_
        · refine clk_of_ite ?_ ?_ <;> simp
        · refine clk_of_ite ?_ ?_
          · rfl
          · simp [ih]
@[simp] theorem feed_clk (p : Nat) (f : List Byte) (s : State) : (feed p f s).clk = s.clk := by
  unfold feed
  refine clk_of_ite (clk_of_ite ?_ ?_) ?_ <;> simp
@[simp] theorem applyAck_clk (p ack : Nat) (s : State) : (applyAck p ack s).clk = s.clk := by
  unfold applyAck
  refine clk_of_ite ?_ ?_ <;> simp
@[simp] theorem applyHealth_clk (p : Nat) (b : List Byte) (s : State) : (applyHealth p b s).clk = s.clk := by simp [applyHealth]
@[simp] theorem applyControl_clk (p : Nat) (body : List Byte) (s : State) : (applyControl p body s).clk = s.clk := by simp [applyControl]
@[simp] theorem violateGroup_clk (p row : Nat) (s : State) : (violateGroup p row s).clk = s.clk := by simp [violateGroup]
@[simp] theorem closeGroup_clk (p : Nat) (s : State) : (closeGroup p s).clk = s.clk := by
  unfold closeGroup
  dsimp only
  split <;> simp
@[simp] theorem rxFrame_clk (p : Nat) (f : List Byte) (s : State) : (rxFrame p f s).clk = s.clk := by
  unfold rxFrame
  refine clk_of_ite ?_ (clk_of_ite ?_ (clk_of_ite ?_ ?_)) <;> simp

/-! ### PeridotOps -/

@[simp] theorem writeImage_clk (r v : Nat) (s : State) : (writeImage r v s).clk = s.clk := rfl
@[simp] theorem perCount_clk (half row : Nat) (s : State) : (perCount half row s).clk = s.clk := rfl
@[simp] theorem queueKey_clk (die src : Nat) (k : PKey) (s : State) : (queueKey die src k s).clk = s.clk := rfl
@[simp] theorem sendKey_clk (k : PKey) (s : State) : (sendKey k s).clk = s.clk := by simp [sendKey]
theorem takeKey_clk (die : Nat) (s : State) : ∀ r ∈ takeKey die s, r.2.clk = s.clk := by
  unfold takeKey
  split
  · simp
  · split <;> simp
@[simp] theorem answerKey_clk (src slot : Nat) (w : Word) (s : State) : (answerKey src slot w s).clk = s.clk := by
  unfold answerKey
  refine clk_of_ite ?_ (clk_of_ite ?_ (clk_of_ite ?_ ?_)) <;> simp

/-! ### Yarpin -/

@[simp] theorem modRun_clk (t : Nat) (f : Handler → Handler) (s : State) : (modRun t f s).clk = s.clk := rfl
@[simp] theorem setS_clk (x : Site) (i : Nat) (v : Word) (s : State) : (setS x i v s).clk = s.clk := by
  unfold setS
  split <;> simp
@[simp] theorem passTurn_clk (x : Site) (s : State) : (passTurn x s).clk = s.clk := by
  unfold passTurn
  split <;> simp
@[simp] theorem setPc_clk (x : Site) (pc : Nat) (s : State) : (setPc x pc s).clk = s.clk := by
  unfold setPc
  split <;> simp
@[simp] theorem dropGroup_clk (h : Nat) (s : State) : (dropGroup h s).clk = s.clk := by simp [dropGroup]
@[simp] theorem failService_clk (v : Nat) (s : State) : (failService v s).clk = s.clk := by simp [failService]
@[simp] theorem orphanTickets_clk (h : Nat) (s : State) : (orphanTickets h s).clk = s.clk := by simp [orphanTickets]
@[simp] theorem threadStop_clk (h cause : Nat) (s : State) : (threadStop h cause s).clk = s.clk := by simp [threadStop]
@[simp] theorem siteFault_clk (x : Site) (cause : Nat) (s : State) : (siteFault x cause s).clk = s.clk := by
  unfold siteFault
  split <;> simp
@[simp] theorem siteStep_clk (x : Site) (s : State) : (siteStep x s).clk = s.clk := by
  unfold siteStep
  split <;> simp
@[simp] theorem writeLine_clk (t l : Nat) (data : List Byte) (mask : Nat → Bool) (s : State) : (writeLine t l data mask s).clk = s.clk := rfl
@[simp] theorem writeMem_clk (x : Site) (a : Nat) (data : List Byte) (s : State) : (writeMem x a data s).clk = s.clk := by
  unfold writeMem
  split <;> simp
@[simp] theorem sendOwned_clk (x : Site) (p : Packet) (s : State) : (sendOwned x p s).clk = s.clk := by
  unfold sendOwned
  refine clk_of_ite ?_ ?_ <;> simp
@[simp] theorem traceItem_clk (x : Site) (i : Traced) (s : State) : (traceItem x i s).clk = s.clk := by
  unfold traceItem
  split
  · split <;> simp
  · simp
@[simp] theorem noteEffect_clk (x : Site) (w : Nat) (s : State) : (noteEffect x w s).clk = s.clk := by simp [noteEffect]
@[simp] theorem traceResult_clk (x : Site) (w : Nat) (t : State) : (traceResult x w t).clk = t.clk := by
  unfold traceResult
  split
  · split <;> simp
  · simp
@[simp] theorem noteIssue_clk (x : Site) (w : Nat) (s t : State) : (noteIssue x w s t).clk = t.clk := by
  unfold noteIssue
  split <;> simp
/-- What an issue does is the row's body's to say. -/
@[simp] theorem issue_clk (opc : Nat) (prof : Site → Bool) (used : Nat → Nat) (body : Site → Nat → State → YOut)
    (hbody : ∀ x w t, (body x w t).KeepsClk t) (x : Site) (s : State) : (issue opc prof used body x s).clk = s.clk := by
  unfold issue
  split
  · rfl
  · split
    · simp
    · next w _ =>
      split
      · split
        · simp
        · split
          · next h => simpa using YOut.clk_of_next (hbody x w _) h
          · simp
          · simp
          · rfl
      · split <;> simp

/-! ### Tables -/

@[simp] theorem setCoh_clk (k n : Nat) (s : State) : (setCoh k n s).clk = s.clk := rfl
@[simp] theorem readClears_clk (id idx word : Nat) (s : State) : (readClears id idx word s).clk = s.clk := by
  unfold readClears
  split <;> simp

/-! ### TCheck -/

@[simp] theorem mergeEntry_clk (k v : Nat) (s : State) : (mergeEntry k v s).clk = s.clk := by simp [mergeEntry]
@[simp] theorem afterFlip_clk (s : State) (g : SMap Nat) : (afterFlip s g).clk = s.clk := by simp [afterFlip]

/-! ### Flip -/

@[simp] theorem flipPair_clk (old j : Nat) (s : State) : (flipPair old j s).clk = s.clk := by simp [flipPair]
@[simp] theorem flipCredits_clk (before s : State) (p : Nat) : (flipCredits before s p).clk = s.clk := by
  unfold flipCredits
  refine clk_of_ite rfl (foldl_clk _ (fun t tc => ?_) _ _)
  exact clk_of_ite rfl (clk_of_ite rfl (clk_of_ite (State.setPort_clk _ _ _) (State.setPort_clk _ _ _)))
@[simp] theorem refillPolicer_clk (k : Nat) (s : State) : (refillPolicer k s).clk = s.clk := State.setBucket_clk _ _ _
@[simp] theorem flipGate_clk (s : State) (ep : Nat) : (flipGate s ep).clk = s.clk := rfl
@[simp] theorem flipGroup_clk (s : State) (g : Nat) : (flipGroup s g).clk = s.clk := by simp [flipGroup]
@[simp] theorem flipExtent_clk (before : State) (die : Nat) (s : State) (e : Nat) : (flipExtent before die s e).clk = s.clk := by
  unfold flipExtent
  refine clk_of_ite ?_ ?_ <;> simp
@[simp] theorem flipAgent_clk (s : State) (a : Nat) : (flipAgent s a).clk = s.clk := by
  unfold flipAgent
  refine clk_of_ite ?_ ?_ <;> simp
@[simp] theorem flipContext_clk (s : State) (c : Nat) : (flipContext s c).clk = s.clk := by
  unfold flipContext
  dsimp only
  split <;> simp
@[simp] theorem mendCascade_clk (s : State) : (mendCascade s).clk = s.clk := by simp [mendCascade]
@[simp] theorem flipEffects_clk (before : State) (die : Nat) (grp : SMap Nat) (s : State) :
    (flipEffects before die grp s).clk = s.clk := by simp [flipEffects]
@[simp] theorem flipTables_clk (before : State) (grp : SMap Nat) (epoch : Bool) (s : State) :
    (flipTables before grp epoch s).clk = s.clk := by
  unfold flipTables
  refine clk_of_ite ?_ ?_ <;> simp
@[simp] theorem applyGroup_clk (grp : SMap Nat) (die : Nat) (epoch : Bool) (before : State) :
    (applyGroup grp die epoch before).clk = before.clk := by simp [applyGroup]

/-! ### DirectWrites -/

@[simp] theorem withdraw_clk (h : Nat) (s : State) : (withdraw h s).clk = s.clk := by simp [withdraw]
@[simp] theorem stage_clk (h id : Nat) (l : List (Nat × Nat)) (s : State) : (stage h id l s).2.clk = s.clk := by simp [stage]
@[simp] theorem createOp_clk (n v : Nat) (s : State) : (createOp n v s).clk = s.clk := by simp [createOp]
@[simp] theorem writeCreate_clk (h n v : Nat) (s : State) : (writeCreate h n v s).2.clk = s.clk := by simp [writeCreate]
@[simp] theorem writeRebind_clk (h n v : Nat) (s : State) : (writeRebind h n v s).2.clk = s.clk := by
  unfold writeRebind
  dsimp only
  split
  · simp
  · split <;> simp
@[simp] theorem writeProg_clk (k v : Nat) (s : State) : (writeProg k v s).2.clk = s.clk := by
  unfold writeProg
  extract_lets o put_
  have hput : ∀ x, (put_ x s).clk = s.clk := fun _ => rfl
  clear_value put_
  split
  · split <;> simp [hput]
  · split <;> simp [hput]
  · split <;> simp [hput]
  · rfl
@[simp] theorem writeStore_clk (k v : Nat) (s : State) : (writeStore k v s).2.clk = s.clk := by simp [writeStore]
@[simp] theorem writeCodecJob_clk (h j v : Nat) (s : State) : (writeCodecJob h j v s).2.clk = s.clk := by simp [writeCodecJob]
@[simp] theorem clearCodecJob_clk (h j : Nat) (s : State) : (clearCodecJob h j s).2.clk = s.clk := by simp [clearCodecJob]
@[simp] theorem writeTierJob_clk (h j v : Nat) (s : State) : (writeTierJob h j v s).2.clk = s.clk := by simp [writeTierJob]
@[simp] theorem stopTierJob_clk (h j : Nat) (s : State) : (stopTierJob h j s).2.clk = s.clk := by simp [stopTierJob]
@[simp] theorem ackTierJob_clk (h j v : Nat) (s : State) : (ackTierJob h j v s).2.clk = s.clk := by simp [ackTierJob]
@[simp] theorem writeRetire_clk (n : Nat) (s : State) : (writeRetire n s).2.clk = s.clk := by simp [writeRetire]
@[simp] theorem writeRun_clk (idx run : Nat) (s : State) : (writeRun idx run s).clk = s.clk := by simp [writeRun]
@[simp] theorem writeChervil_clk (id idx v : Nat) (s : State) : (writeChervil id idx v s).clk = s.clk := by
  unfold writeChervil
  split
  · rfl
  · exact State.setSensor_clk _ _ _
  · split
    · rfl
    · exact State.setPhase_clk _ _ _
  · rfl
  · rfl
  · exact State.setLane_clk _ _ _
  · split
    · exact State.setBlock_clk _ _ _
    · rfl
  · split
    · rfl
    · split
      · exact State.setNbr_clk _ _ _
      · rfl
  · rfl
@[simp] theorem writePlain_clk (h id idx v : Nat) (s : State) : (writePlain h id idx v s).2.clk = s.clk := by
  unfold writePlain
  split
  · simp
  · split
    · simp
    · split <;> simp
@[simp] theorem writeEntry_clk (h id idx v : Nat) (c : TwrCase) (s : State) : (writeEntry h id idx v c s).2.clk = s.clk := by
  unfold writeEntry
  split <;> simp

/-! ### ServiceCommits -/

@[simp] theorem serviceCommit_clk (h : Nat) (grp : SMap Nat) (s : State) : (serviceCommit h grp s).2.clk = s.clk := by simp [serviceCommit]
@[simp] theorem seedOp_clk (n seed regs : Nat) (s : State) : (seedOp n seed regs s).clk = s.clk := rfl
theorem createOn_clk (h ctx prog ver ws cc t : Nat) (s : State) : ∀ r ∈ createOn h ctx prog ver ws cc t s, r.2.clk = s.clk := by
  unfold createOn
  split <;> simp
theorem createTargets_clk (h ctx prog ver ws cc j : Nat) (s : State) : ∀ r ∈ createTargets h ctx prog ver ws cc j s, r.2.clk = s.clk := by
  unfold createTargets
  refine List.foldlRecOn (motive := fun o : Option (List (Nat × Nat) × State) => ∀ r ∈ o, r.2.clk = s.clk) _ _ (some_clk (st := Prod.snd) rfl)
    (fun o ho i _ => ?_)
  split
  · simp
  · next l t =>
    split
    · simp
    · next n u hn => exact some_clk (st := Prod.snd) ((clk_of_some (createOn_clk _ _ _ _ _ _ _ _) hn).trans (ho _ rfl))
@[simp] theorem endTargets_clk (l : List (Nat × Nat)) (status : Nat) (s : State) : (endTargets l status s).clk = s.clk := by simp [endTargets]
theorem planOps_clk (pl : Plan) (j : Nat) (s : State) : ∀ r ∈ planOps pl j s, r.2.clk = s.clk := by
  unfold planOps
  split
  · simp
  · exact createTargets_clk _ _ _ _ _ _ _ _
@[simp] theorem removePlan_clk (k status : Nat) (s : State) : (removePlan k status s).2.clk = s.clk := by simp [removePlan]
@[simp] theorem recreatePlan_clk (k : Nat) (s : State) : (recreatePlan k s).clk = s.clk := by
  unfold recreatePlan
  dsimp only
  split
  · simp
  · next h => simp [clk_of_some (planOps_clk _ _ _) h]
@[simp] theorem closePhase_clk (k status : Nat) (s : State) : (closePhase k status s).clk = s.clk := by simp [closePhase]
@[simp] theorem finishRun_clk (k status : Nat) (s : State) : (finishRun k status s).clk = s.clk := by
  unfold finishRun
  extract_lets s1 s2 pl s3 s4 s5 s6
  have h1 : s1.clk = s.clk := by simp [s1]
  clear_value s1
  have h2 : s2.clk = s.clk := by simp [s2, h1]
  clear_value s2 pl
  have h4 : s4.clk = s.clk := by simp [s4, s3, h2]
  clear_value s4
  have h5 : s5.clk = s.clk := by
    unfold s5
    split <;> simp [h4]
  have h6 : s6.clk = s.clk := by simp [s6, h5]
  clear_value s6
  split
  · exact h6
  · split <;> simp [h6]

/-! ### Services -/

@[simp] theorem acceptMail_clk (m : Mail) (s : State) : (acceptMail m s).clk = s.clk := by simp [acceptMail]
@[simp] theorem effSvcreq_clk (s : State) : (effSvcreq s).clk = s.clk := by
  unfold effSvcreq
  split
  · simp
  · next h =>
    dsimp only
    split
    · simp [clk_of_some (takeMod_clk _ _) h]
    · simp [clk_of_some (takeMod_clk _ _) h]
@[simp] theorem startBundle_clk (k st : Nat) (s : State) : (startBundle k st s).clk = s.clk := by
  unfold startBundle
  refine clk_of_ite ?_ ?_ <;> simp
@[simp] theorem setSwitchStatus_clk (v st : Nat) (s : State) : (setSwitchStatus v st s).clk = s.clk := rfl
@[simp] theorem effServiceSwitch_clk (bundle : Nat) (s : State) : (effServiceSwitch bundle s).clk = s.clk := by
  unfold effServiceSwitch
  split
  · simp
  · split
    · simp
    · split
      · dsimp only
        split <;> simp
      · dsimp only
        split <;> simp
@[simp] theorem effServiceAdopt_clk (svc : Nat) (s : State) : (effServiceAdopt svc s).clk = s.clk := by simp [effServiceAdopt]

/-! ### AdminOps -/

@[simp] theorem addBundle_clk (b : Bundle) (s : State) : (addBundle b s).clk = s.clk := rfl
theorem admitBundle_clk (r : BundleReq) (s : State) : ∀ t ∈ admitBundle r s, t.clk = s.clk := by
  unfold admitBundle
  split
  · simp
  · split
    · simp
    · split <;> simp
@[simp] theorem stopServiceThreads_clk (v : Nat) (s : State) : (stopServiceThreads v s).clk = s.clk := by simp [stopServiceThreads]
@[simp] theorem retireBundleProgs_clk (b : Bundle) (s : State) : (retireBundleProgs b s).clk = s.clk := by simp [retireBundleProgs]
@[simp] theorem retireBundle_clk (k : Nat) (s : State) : (retireBundle k s).clk = s.clk := by
  unfold retireBundle
  refine clk_of_ite ?_ ?_ <;> simp
@[simp] theorem loadTierarel_clk (r : BundleReq) (s : State) : (loadTierarel r s).clk = s.clk := by
  unfold loadTierarel
  split
  · split
    · exact startBundle_clk _ _ _
    · rfl
  · extract_lets u k
    have hu : u = s ∨ ∃ o, u = retireBundle o s := by
      simp only [u]
      split
      · exact .inr ⟨_, rfl⟩
      · exact .inl rfl
    clear_value u k
    rw [startBundle_clk, addBundle_clk]
    rcases hu with h | ⟨o, h⟩
    · rw [h]
    · rw [h, retireBundle_clk]
@[simp] theorem loadTierarels_clk (s : State) : (loadTierarels s).clk = s.clk := by simp [loadTierarels]
@[simp] theorem startHandover_clk (s : State) : (startHandover s).clk = s.clk := by simp [startHandover]
@[simp] theorem startChervil_clk (s : State) : (startChervil s).clk = s.clk := by simp [startChervil]
@[simp] theorem switchImage_clk (i : Nat) (s : State) : (switchImage i s).clk = s.clk := by
  unfold switchImage
  split <;> simp

/-! ### Spdm -/

@[simp] theorem standardPart_clk (code : Nat) (s : State) : (standardPart code s).2.clk = s.clk := by simp [standardPart]
@[simp] theorem effGetVersion_clk (iface : Nat) (s : State) : (effGetVersion iface s).clk = s.clk := by simp [effGetVersion]
@[simp] theorem effGetCapabilities_clk (iface : Nat) (s : State) : (effGetCapabilities iface s).clk = s.clk := by simp [effGetCapabilities]
@[simp] theorem effNegotiateAlgorithms_clk (iface : Nat) (offered : Bool) (s : State) :
    (effNegotiateAlgorithms iface offered s).clk = s.clk := by simp [effNegotiateAlgorithms]
@[simp] theorem effGetDigests_clk (iface : Nat) (s : State) : (effGetDigests iface s).clk = s.clk := by simp [effGetDigests]
@[simp] theorem effGetCertificate_clk (iface slot off len : Nat) (s : State) :
    (effGetCertificate iface slot off len s).clk = s.clk := by simp [effGetCertificate]
@[simp] theorem effChallenge_clk (iface slot : Nat) (nonce : List Byte) (s : State) :
    (effChallenge iface slot nonce s).clk = s.clk := by simp [effChallenge]
@[simp] theorem effGetMeasurements_clk (iface index : Nat) (s : State) :
    (effGetMeasurements iface index s).clk = s.clk := by simp [effGetMeasurements]
@[simp] theorem effKeyExchange_clk (iface slot : Nat) (s : State) : (effKeyExchange iface slot s).clk = s.clk := by simp [effKeyExchange]
@[simp] theorem dropSession_clk (iface sess : Nat) (s : State) : (dropSession iface sess s).clk = s.clk := rfl
@[simp] theorem effFinish_clk (iface sess : Nat) (verify : Bool) (s : State) : (effFinish iface sess verify s).clk = s.clk := by simp [effFinish]
@[simp] theorem effHeartbeat_clk (iface sess : Nat) (s : State) : (effHeartbeat iface sess s).clk = s.clk := by simp [effHeartbeat]
@[simp] theorem effKeyUpdate_clk (iface sess op : Nat) (s : State) : (effKeyUpdate iface sess op s).clk = s.clk := by simp [effKeyUpdate]
@[simp] theorem effEndSession_clk (iface sess : Nat) (s : State) : (effEndSession iface sess s).clk = s.clk := by simp [effEndSession]
@[simp] theorem effRespondIfReady_clk (iface : Nat) (s : State) : (effRespondIfReady iface s).clk = s.clk := by
  unfold effRespondIfReady
  refine onIface_clk _ _ _ (fun t => ?_) _
  simp only [sameClk_iff]
  split <;> simp
@[simp] theorem effChunkSend_clk (iface seq : Nat) (last : Bool) (chunk : List Byte) (s : State) :
    (effChunkSend iface seq last chunk s).clk = s.clk := by simp [effChunkSend]
@[simp] theorem effChunkGet_clk (iface seq : Nat) (s : State) : (effChunkGet iface seq s).clk = s.clk := by simp [effChunkGet]

/-! ### Admin -/

@[simp] theorem ownerRequest_clk (iface sess code : Nat) (i : Message) (f : State → State) (hf : ∀ t, SameClk t (f t)) (s : State) :
    (ownerRequest iface sess code i f s).clk = s.clk := by
  refine onIface_clk _ _ _ (fun t => ?_) _
  simp only [sameClk_iff] at hf ⊢
  split <;> simp [hf]
@[simp] theorem effGetReport_clk (iface sess ctx : Nat) (nonce : List Byte) (vf : Nat) (s : State) :
    (effGetReport iface sess ctx nonce vf s).clk = s.clk := by
  unfold effGetReport
  refine onIface_clk _ _ _ (fun t => ?_) _
  simp only [sameClk_iff]
  split
  · split
    · simp
    · split
      · next h => simp [clk_of_some (makeReport_clk _ _ _) h]
      · simp
  · simp
@[simp] theorem effKeyUpload_clk (iface sess ctx k1 k2 vf : Nat) (s : State) :
    (effKeyUpload iface sess ctx k1 k2 vf s).clk = s.clk := by simp [effKeyUpload]
@[simp] theorem effAdmitBundle_clk (iface sess : Nat) (req : BundleReq) (s : State) : (effAdmitBundle iface sess req s).clk = s.clk := by
  unfold effAdmitBundle
  refine ownerRequest_clk _ _ _ _ _ (fun t => ?_) _
  simp only [sameClk_iff]
  split
  · next h => simp [admitBundle_clk _ _ _ h]
  · simp
@[simp] theorem effRetireBundle_clk (iface sess svc : Nat) (s : State) : (effRetireBundle iface sess svc s).clk = s.clk := by simp [effRetireBundle]
@[simp] theorem effEnrol_clk (iface sess : Nat) (root : Bool) (entry key : Nat) (s : State) :
    (effEnrol iface sess root entry key s).clk = s.clk := by simp [effEnrol]
@[simp] theorem effUnenrol_clk (iface sess : Nat) (root : Bool) (entry : Nat) (s : State) :
    (effUnenrol iface sess root entry s).clk = s.clk := by simp [effUnenrol]
@[simp] theorem imageRequest_clk (iface sess code : Nat) (i : Message) (f : State → State) (hf : ∀ t, SameClk t (f t)) (s : State) :
    (imageRequest iface sess code i f s).clk = s.clk := by
  refine onIface_clk _ _ _ (fun t => ?_) _
  simp only [sameClk_iff] at hf ⊢
  split <;> simp [hf]
@[simp] theorem effFwWrite_clk (iface sess : Nat) (req : ImageReq) (s : State) : (effFwWrite iface sess req s).clk = s.clk := by simp [effFwWrite]
@[simp] theorem effFwActivate_clk (iface sess image : Nat) (s : State) : (effFwActivate iface sess image s).clk = s.clk := by simp [effFwActivate]
@[simp] theorem endActivation_clk (image : Nat) (s : State) : (endActivation image s).clk = s.clk := rfl
@[simp] theorem effFwHealthTimeout_clk (image : Nat) (s : State) : (effFwHealthTimeout image s).clk = s.clk := by
  unfold effFwHealthTimeout
  split <;> simp
@[simp] theorem effFwPrefer_clk (image : Nat) (s : State) : (effFwPrefer image s).clk = s.clk := by
  unfold effFwPrefer
  split <;> simp
theorem applyPolicy_clk (p : Policy) (s : State) : ∀ r ∈ applyPolicy p s, r.clk = s.clk := by
  unfold applyPolicy
  split
  · simp
  · simp
  · split <;> simp
  · simp
  · simp
  · simp
@[simp] theorem effSetPolicy_clk (iface sess : Nat) (policy : Policy) (s : State) : (effSetPolicy iface sess policy s).clk = s.clk := by
  unfold effSetPolicy
  refine ownerRequest_clk _ _ _ _ _ (fun t => ?_) _
  simp only [sameClk_iff]
  split
  · next h => simp [applyPolicy_clk _ _ _ h]
  · simp
@[simp] theorem resetReq_clk (i : Message) (iface sess kind : Nat) (s : State) : (resetReq i iface sess kind s).clk = s.clk := by
  unfold resetReq
  refine ownerRequest_clk _ _ _ _ _ (fun t => ?_) _
  simp only [sameClk_iff]
  split <;> simp
@[simp] theorem effControlRestart_clk (iface sess kind : Nat) (s : State) :
    (effControlRestart iface sess kind s).clk = s.clk := by simp [effControlRestart]
@[simp] theorem effCoreReset_clk (iface sess kind : Nat) (s : State) : (effCoreReset iface sess kind s).clk = s.clk := by simp [effCoreReset]
@[simp] theorem extendLeases_clk (d : Nat) (s : State) : (extendLeases d s).clk = s.clk := by simp [extendLeases]
@[simp] theorem effControlRestartDone_clk (s : State) : (effControlRestartDone s).clk = s.clk := by
  unfold effControlRestartDone
  split
  · simp
  · split <;> simp
@[simp] theorem effIdeKmQuery_clk (port : Nat) (s : State) : (effIdeKmQuery port s).clk = s.clk := by simp [effIdeKmQuery]
@[simp] theorem effKeyProg_clk (port stream dir set key : Nat) (s : State) :
    (effKeyProg port stream dir set key s).clk = s.clk := by simp [effKeyProg]
@[simp] theorem effKSetGo_clk (port stream dir set : Nat) (s : State) : (effKSetGo port stream dir set s).clk = s.clk := by simp [effKSetGo]
@[simp] theorem effKSetStop_clk (port stream dir set : Nat) (s : State) : (effKSetStop port stream dir set s).clk = s.clk := by simp [effKSetStop]
@[simp] theorem effCrmsg_clk (s : State) : (effCrmsg s).clk = s.clk := by
  unfold effCrmsg
  split
  · simp
  · split
    · simp
    · next h =>
      split
      · simp [clk_of_some (takeMod_clk _ _) h]
      · split
        · simp [clk_of_some (takeMod_clk _ _) h]
        · split
          · simp [clk_of_some (takeMod_clk _ _) h]
          · simp [clk_of_some (takeMod_clk _ _) h]
        · simp [clk_of_some (takeMod_clk _ _) h]
@[simp] theorem effCarnelianWatchdog_clk (s : State) : (effCarnelianWatchdog s).clk = s.clk := by simp [effCarnelianWatchdog]
@[simp] theorem effPrefUpdate_clk (s : State) : (effPrefUpdate s).clk = s.clk := by simp [effPrefUpdate]
@[simp] theorem effBootCoreTimeout_clk (s : State) : (effBootCoreTimeout s).clk = s.clk := by simp [effBootCoreTimeout]
@[simp] theorem effLmsTreeGenerate_clk (s : State) : (effLmsTreeGenerate s).clk = s.clk := by
  unfold effLmsTreeGenerate
  split <;> simp

/-! ### Links -/

@[simp] theorem effLinkFrameReceive_clk (port : Nat) (frame : List Byte) (s : State) :
    (effLinkFrameReceive port frame s).clk = s.clk := by simp [effLinkFrameReceive]
@[simp] theorem effControlFrameReceive_clk (port : Nat) (frame : List Byte) (s : State) :
    (effControlFrameReceive port frame s).clk = s.clk := by simp [effControlFrameReceive]
@[simp] theorem effControlFrameSend_clk (port : Nat) (s : State) : (effControlFrameSend port s).clk = s.clk := by simp [effControlFrameSend]
@[simp] theorem effAckTimeoutReplay_clk (port : Nat) (s : State) : (effAckTimeoutReplay port s).clk = s.clk := by
  unfold effAckTimeoutReplay
  dsimp only
  split <;> simp
@[simp] theorem effKeyUpdateStart_clk (port : Nat) (s : State) : (effKeyUpdateStart port s).clk = s.clk := by simp [effKeyUpdateStart]
@[simp] theorem effSignalDetect_clk (port : Nat) (s : State) : (effSignalDetect port s).clk = s.clk := by
  unfold effSignalDetect
  refine clk_of_ite ?_ ?_ <;> simp
@[simp] theorem effTrainRTimeout_clk (port : Nat) (s : State) : (effTrainRTimeout port s).clk = s.clk := by simp [effTrainRTimeout]
@[simp] theorem effTrainFStart_clk (port : Nat) (s : State) : (effTrainFStart port s).clk = s.clk := by simp [effTrainFStart]
@[simp] theorem warmSpares_clk (port : Nat) (s : State) : (warmSpares port s).clk = s.clk := by simp [warmSpares]
@[simp] theorem effTrainFHalfDone_clk (port : Nat) (s : State) : (effTrainFHalfDone port s).clk = s.clk := by
  unfold effTrainFHalfDone
  refine clk_of_ite ?_ (clk_of_ite ?_ (clk_of_ite ?_ ?_)) <;> simp
@[simp] theorem effTrainFTimeout_clk (port : Nat) (s : State) : (effTrainFTimeout port s).clk = s.clk := by
  unfold effTrainFTimeout
  refine clk_of_ite (clk_of_ite ?_ ?_) ?_ <;> simp
@[simp] theorem effLaneMonitorSample_clk (lane : Nat) (mon : LaneMon) (s : State) : (effLaneMonitorSample lane mon s).clk = s.clk := rfl
@[simp] theorem effMarginScan_clk (lane : Nat) (s : State) : (effMarginScan lane s).clk = s.clk := by simp [effMarginScan]
@[simp] theorem setClass_clk (lane cls : Nat) (s : State) : (setClass lane cls s).clk = s.clk := by
  unfold setClass
  split
  · dsimp only
    split
    · simp
    · split <;> simp
  · dsimp only
    split
    · simp
    · split <;> simp
@[simp] theorem effLaneClassify_clk (lane : Nat) (s : State) : (effLaneClassify lane s).clk = s.clk := by simp [effLaneClassify]
@[simp] theorem effLaneFailed_clk (lane : Nat) (s : State) : (effLaneFailed lane s).clk = s.clk := by simp [effLaneFailed]
@[simp] theorem effLaneSwap_clk (port : Nat) (s : State) : (effLaneSwap port s).clk = s.clk := by
  unfold effLaneSwap
  split
  · dsimp only
    split <;> simp
  · dsimp only
    split <;> simp
@[simp] theorem effLaneNarrow_clk (port : Nat) (s : State) : (effLaneNarrow port s).clk = s.clk := by
  unfold effLaneNarrow
  dsimp only
  split <;> simp
@[simp] theorem effLaneWiden_clk (port : Nat) (s : State) : (effLaneWiden port s).clk = s.clk := by
  unfold effLaneWiden
  split
  · dsimp only
    split
    · simp
    · split <;> simp
  · dsimp only
    split
    · simp
    · split <;> simp
@[simp] theorem effRetiredLaneRetrain_clk (lane : Nat) (trained : Bool) (s : State) :
    (effRetiredLaneRetrain lane trained s).clk = s.clk := by simp [effRetiredLaneRetrain]
@[simp] theorem effHotSpareRestore_clk (lane : Nat) (s : State) : (effHotSpareRestore lane s).clk = s.clk := by
  unfold effHotSpareRestore
  dsimp only
  split <;> simp
@[simp] theorem fencePort_clk (p row n : Nat) (s : State) : (fencePort p row n s).clk = s.clk := by simp [fencePort]
@[simp] theorem effPortFence_clk (port row : Nat) (s : State) : (effPortFence port row s).clk = s.clk := by
  unfold effPortFence
  split <;> simp

/-! ### MapOps -/

@[simp] theorem mapMessage_clk (mtype mseq coord status dst : Nat) (s : State) :
    (mapMessage mtype mseq coord status dst s).clk = s.clk := by simp [mapMessage]
@[simp] theorem mapEvent_clk (p : Packet) (s : State) : (mapEvent p s).clk = s.clk := by simp [mapEvent]

/-! ### RouteOps -/

@[simp] theorem sendRecord_clk (r : LinkRec) (but : Nat) (s : State) : (sendRecord r but s).clk = s.clk := by simp [sendRecord]
@[simp] theorem stageMap_clk (s : State) : (stageMap s).2.clk = s.clk := by simp [stageMap]
theorem flipMap_clk (mseq : Nat) (s : State) : ∀ r ∈ flipMap mseq s, r.clk = s.clk := by simp [flipMap]
@[simp] theorem abortChange_clk (c : Change) (s : State) : (abortChange c s).clk = s.clk := by simp [abortChange]
@[simp] theorem noteDb_clk (before s : State) : (noteDb before s).clk = s.clk := by
  unfold noteDb
  dsimp only
  split <;> simp
@[simp] theorem commitEdge_clk (node port : Nat) (s : State) : (commitEdge node port s).clk = s.clk := by
  unfold commitEdge
  split <;> simp
@[simp] theorem bindEdge_clk (node port : Nat) (s : State) : (bindEdge node port s).clk = s.clk := by simp [bindEdge]
@[simp] theorem unbindEdge_clk (port : Nat) (s : State) : (unbindEdge port s).clk = s.clk := by
  unfold unbindEdge
  split <;> simp

/-! ### DiscOps -/

@[simp] theorem sendHello_clk (p : Nat) (s : State) : (sendHello p s).clk = s.clk := by simp [sendHello]
@[simp] theorem startDiscovery_clk (p : Nat) (s : State) : (startDiscovery p s).clk = s.clk := by simp [startDiscovery]
@[simp] theorem sendCerts_clk (p : Nat) (s : State) : (sendCerts p s).clk = s.clk := by simp [sendCerts]
@[simp] theorem abandonPort_clk (p cause : Nat) (s : State) : (abandonPort p cause s).clk = s.clk := by simp [abandonPort]
@[simp] theorem keyPort_clk (p : Nat) (th : BitVec 384) (s : State) : (keyPort p th s).clk = s.clk := rfl
@[simp] theorem bindPort_clk (p : Nat) (s : State) : (bindPort p s).clk = s.clk := by simp [bindPort]

/-! ### HostOps -/

@[simp] theorem toHost_clk (port func addr : Nat) (data : List Byte) (s : State) : (toHost port func addr data s).clk = s.clk := by simp [toHost]
@[simp] theorem fromHost_clk (port func addr len : Nat) (s : State) : (fromHost port func addr len s).clk = s.clk := by simp [fromHost]
@[simp] theorem sendVec_clk (port func vec : Nat) (s : State) : (sendVec port func vec s).clk = s.clk := by
  unfold sendVec
  split
  · simp
  · split <;> simp
@[simp] theorem sendPending_clk (port func : Nat) (s : State) : (sendPending port func s).clk = s.clk := by simp [sendPending]
@[simp] theorem ownerWrite_clk (port : Nat) (f : State → State) (hf : ∀ t, SameClk t (f t)) (s : State) : (ownerWrite port f s).clk = s.clk := by
  unfold ownerWrite
  split
  · exact hf s
  · rfl
@[simp] theorem setOwner_clk (o : Nat) (s : State) : (setOwner o s).clk = s.clk := by simp [setOwner]
@[simp] theorem endOwnership_clk (s : State) : (endOwnership s).clk = s.clk := by simp [endOwnership]
@[simp] theorem State.modSq_clk (s : State) (port func q : Nat) (f : SQ → SQ) : (State.modSq s port func q f).clk = s.clk := rfl
@[simp] theorem State.modCq_clk (s : State) (port func q : Nat) (f : CQ → CQ) : (State.modCq s port func q f).clk = s.clk := rfl
@[simp] theorem signalCq_clk (port func q : Nat) (s : State) : (signalCq port func q s).clk = s.clk := by simp [signalCq]
@[simp] theorem writeCqEntry_clk (port func q : Nat) (e : CEntry) (s : State) : (writeCqEntry port func q e s).clk = s.clk := by simp [writeCqEntry]
@[simp] theorem feedErr_clk (port func q : Nat) (s : State) : (feedErr port func q s).clk = s.clk := by simp [feedErr]
@[simp] theorem pushEntry_clk (port func q : Nat) (e : CEntry) (s : State) : (pushEntry port func q e s).clk = s.clk := by
  unfold pushEntry
  refine clk_of_ite ?_ (clk_of_ite ?_ ?_) <;> simp
@[simp] theorem releaseHeld_clk (port func q : Nat) (s : State) : (releaseHeld port func q s).clk = s.clk := by simp [releaseHeld]
@[simp] theorem fetchEntry_clk (port func sq : Nat) (d : List Byte) (s : State) : (fetchEntry port func sq d s).clk = s.clk := by simp [fetchEntry]
@[simp] theorem fetchEntries_clk (port func sq : Nat) (l : List (List Byte)) (s : State) :
    (fetchEntries port func sq l s).clk = s.clk := by simp [fetchEntries]
@[simp] theorem consumeDesc_clk (port func sq : Nat) (s : State) : (consumeDesc port func sq s).clk = s.clk := rfl
@[simp] theorem descDone_clk (port func sq idx status : Nat) (d : List Byte) (s : State) :
    (descDone port func sq idx status d s).clk = s.clk := by simp [descDone]
@[simp] theorem descRefused_clk (port func sq idx : Nat) (d : List Byte) (s : State) :
    (descRefused port func sq idx d s).clk = s.clk := by simp [descRefused]
@[simp] theorem dropAccepted_clk (port func sq : Nat) (s : State) : (dropAccepted port func sq s).clk = s.clk := rfl
@[simp] theorem State.setWindow_clk (s : State) (port func w : Nat) (x : Window) : (State.setWindow s port func w x).clk = s.clk := rfl
theorem postWindow_clk (port func w : Nat) (data : List Byte) (s : State) : ∀ r ∈ postWindow port func w data s, r.clk = s.clk := by simp [postWindow]
@[simp] theorem watermark_clk (f : Nat) (s : State) : (watermark f s).clk = s.clk := by simp [watermark]
@[simp] theorem fifoPush_clk (f : Nat) (w : BitVec 64) (s : State) : (fifoPush f w s).clk = s.clk := by simp [fifoPush]
@[simp] theorem fifoDrop_clk (f : Nat) (s : State) : (fifoDrop f s).clk = s.clk := by simp [fifoDrop]
@[simp] theorem resetFunc_clk (port func : Nat) (s : State) : (resetFunc port func s).clk = s.clk := by simp [resetFunc]
@[simp] theorem endDmas_clk (port : Nat) (which : Dma → Bool) (moving other : Nat) (s : State) :
    (endDmas port which moving other s).clk = s.clk := rfl
@[simp] theorem resetVfs_clk (port cause : Nat) (s : State) : (resetVfs port cause s).clk = s.clk := by simp [resetVfs]

/-! ### LinkDown -/

@[simp] theorem losePagesBehind_clk (port : Nat) (s : State) : (losePagesBehind port s).clk = s.clk := by simp [losePagesBehind]
@[simp] theorem hostLinkDown_clk (port : Nat) (s : State) : (hostLinkDown port s).clk = s.clk := by simp [hostLinkDown]
@[simp] theorem resumeFunc_clk (port func : Nat) (s : State) : (resumeFunc port func s).clk = s.clk := by simp [resumeFunc]
@[simp] theorem hostLinkUp_clk (port : Nat) (s : State) : (hostLinkUp port s).clk = s.clk := by simp [hostLinkUp]

/-! ### Codec -/

@[simp] theorem setRun_clk (k : Nat) (r : CodecRun) (s : State) : (setRun k r s).clk = s.clk := rfl
@[simp] theorem finishJob_clk (k st : Nat) (s : State) : (finishJob k st s).clk = s.clk := by simp [finishJob]
@[simp] theorem codecSend_clk (k : Nat) (r : OwnReq) (s : State) : (codecSend k r s).clk = s.clk := by
  unfold codecSend
  extract_lets die t r₁ s₁
  exact (sendFrom_clk _ _ _).trans ((setRun_clk _ _ _).trans (clk_of_cod s _))
@[simp] theorem codecWrite_clk (k : Nat) (data : List Byte) (s : State) : (codecWrite k data s).clk = s.clk := by simp [codecWrite]
@[simp] theorem codecAsk_clk (k n : Nat) (s : State) : (codecAsk k n s).clk = s.clk := by simp [codecAsk]
@[simp] theorem codecLines_clk (k n : Nat) (s : State) : (codecLines k n s).2.clk = s.clk := by simp [codecLines]
@[simp] theorem codecNext_clk (k n : Nat) (s : State) : (codecNext k n s).clk = s.clk := by simp [codecNext]
@[simp] theorem codecResponse_clk (die : Nat) (s : State) (p : Packet) : (codecResponse die s p).clk = s.clk := by
  unfold codecResponse
  split
  · dsimp only
    split
    · simp
    · split <;> simp
  · dsimp only
    split
    · simp
    · split <;> simp
@[simp] theorem codecResponses_clk (die : Nat) (s : State) : (codecResponses die s).clk = s.clk := by simp [codecResponses]
@[simp] theorem holdCodecTag_clk (k tag : Nat) (s : State) : (holdCodecTag k tag s).clk = s.clk := rfl
@[simp] theorem codecRetry_clk (k : Nat) (r : OwnReq) (s : State) : (codecRetry k r s).clk = s.clk := by
  unfold codecRetry
  split <;> simp
@[simp] theorem codecSettle_clk (k : Nat) (s : State) : (codecSettle k s).clk = s.clk := by simp [codecSettle]
@[simp] theorem installTable_clk (k slot : Nat) (lens : List Nat) (s : State) : (installTable k slot lens s).clk = s.clk := by
  unfold installTable
  dsimp only
  split <;> simp
@[simp] theorem codecStep_clk (die job op : Nat) (go : Nat → State → State) (hgo : ∀ k t, SameClk t (go k t)) (s : State) :
    (codecStep die job op go s).clk = s.clk := by
  simp only [sameClk_iff] at hgo
  unfold codecStep
  dsimp only
  split
  · rfl
  · split
    · simp
    · split <;> simp [hgo]
@[simp] theorem buildStep_clk (k : Nat) (s : State) : (buildStep k s).clk = s.clk := by
  unfold buildStep
  split
  · dsimp only
    split
    · simp
    · split
      · next h => simp [clk_of_pair h (codecLines_clk _ _ _)]
      · next h => simp [clk_of_pair h (codecLines_clk _ _ _)]
  · dsimp only
    split
    · simp
    · split
      · next h => simp [clk_of_pair h (codecLines_clk _ _ _)]
      · next h => simp [clk_of_pair h (codecLines_clk _ _ _)]
@[simp] theorem effCodecBuild_clk (die job : Nat) (s : State) : (effCodecBuild die job s).clk = s.clk := by simp [effCodecBuild]
@[simp] theorem codeBlock_clk (k take : Nat) (raw : List Byte) (s : State) : (codeBlock k take raw s).clk = s.clk := by
  unfold codeBlock
  split
  · simp
  · dsimp only
    split <;> simp
@[simp] theorem encodeStep_clk (k : Nat) (s : State) : (encodeStep k s).clk = s.clk := by
  unfold encodeStep
  dsimp only
  split
  · simp
  · split
    · next h => simp [clk_of_pair h (codecLines_clk _ _ _)]
    · next h => simp [clk_of_pair h (codecLines_clk _ _ _)]
@[simp] theorem effCodecEncode_clk (die job : Nat) (s : State) : (effCodecEncode die job s).clk = s.clk := by simp [effCodecEncode]
@[simp] theorem recodeStep_clk (k : Nat) (s : State) : (recodeStep k s).clk = s.clk := by
  unfold recodeStep
  extract_lets left
  split
  · rfl
  · split
    · next h => exact clk_of_pair h (codecLines_clk _ _ _)
    · next u h =>
      have hu := clk_of_pair h (codecLines_clk _ _ _)
      extract_lets c y v slot
      have hv : v.clk = s.clk := by
        simp [v, hu]
      clear_value v
      split
      · simp [hv]
      · split
        · next h => exact (clk_of_pair h (codecLines_clk _ _ _)).trans hv
        · next h =>
          have hw := (clk_of_pair h (codecLines_clk _ _ _)).trans hv
          split
          · next h => exact (waitTable_clk _ _ _ _ _ (Option.ite_none_left_eq_some.1 h).2).trans hw
          · dsimp only
            split <;> simp [hw]
@[simp] theorem effCodecReencode_clk (die job : Nat) (s : State) : (effCodecReencode die job s).clk = s.clk := by simp [effCodecReencode]
@[simp] theorem effCodecJobDone_clk (die job : Nat) (s : State) : (effCodecJobDone die job s).clk = s.clk := by
  unfold effCodecJobDone
  refine clk_of_ite ?_ (clk_of_ite ?_ ?_) <;> simp

/-! ### Reliability -/

@[simp] theorem failSlot_clk (n : Nat) (s : State) : (failSlot n s).clk = s.clk := by simp [failSlot]
@[simp] theorem loseWords_clk (die : Nat) (hits : List (Nat × Nat)) (p : Packet) (s : State) :
    (loseWords die hits p s).clk = s.clk := by simp [loseWords]
@[simp] theorem loseInQueue_clk (die : Nat) (lost : Nat → List Nat) (k : Nat) (s : State) :
    (loseInQueue die lost k s).clk = s.clk := by simp [loseInQueue]
@[simp] theorem loseInPark_clk (die : Nat) (lost : Nat → List Nat) (k : Nat) (s : State) :
    (loseInPark die lost k s).clk = s.clk := by simp [loseInPark]
@[simp] theorem loseCells_clk (die : Nat) (lost : Nat → List Nat) (s : State) : (loseCells die lost s).clk = s.clk := by simp [loseCells]
@[simp] theorem countSeen_clk (key : Nat) (seen : EccSeen) (s : State) : (countSeen key seen s).clk = s.clk := by
  unfold countSeen
  split <;> simp
@[simp] theorem countSecded_clk (seen : EccSeen) (s : State) : (countSecded seen s).clk = s.clk := by simp [countSecded]
@[simp] theorem poisonAt_clk (line : Nat) (s : State) : (poisonAt line s).clk = s.clk := by simp [poisonAt]
@[simp] theorem patrolHbm_clk (line : Nat) (seen : EccSeen) (s : State) : (patrolHbm line seen s).clk = s.clk := by
  unfold patrolHbm
  refine clk_of_ite ?_ (clk_of_ite ?_ ?_) <;> simp
@[simp] theorem losePeridotBank_clk (b : Nat) (s : State) : (losePeridotBank b s).clk = s.clk := by simp [losePeridotBank]
@[simp] theorem loseEntry_clk (id idx : Nat) (s : State) : (loseEntry id idx s).clk = s.clk := by simp [loseEntry]
@[simp] theorem patrolFilter_clk (die word : Nat) (s : State) : (patrolFilter die word s).clk = s.clk := by
  unfold patrolFilter
  refine clk_of_ite ?_ ?_ <;> simp
@[simp] theorem patrolBuffer_clk (line : Nat) (s : State) : (patrolBuffer line s).clk = s.clk := by simp [patrolBuffer]
@[simp] theorem loseLink_clk (c : Nat) (s : State) : (loseLink c s).clk = s.clk := by simp [loseLink]
@[simp] theorem loseQueue_clk (k : Nat) (s : State) : (loseQueue k s).clk = s.clk := by simp [loseQueue]
@[simp] theorem effPatrolRead_clk (place : PatrolAt) (seen : EccSeen) (s : State) : (effPatrolRead place seen s).clk = s.clk := by
  unfold effPatrolRead
  split <;> simp
@[simp] theorem effRowRepair_clk (macro_ : Nat) (s : State) : (effRowRepair macro_ s).clk = s.clk := by simp [effRowRepair]
@[simp] theorem clearBank_clk (die b : Nat) (s : State) : (clearBank die b s).clk = s.clk := by simp [clearBank]
@[simp] theorem poolStep_clk (die b : Nat) (s : State) : (poolStep die b s).clk = s.clk := by simp [poolStep]
@[simp] theorem dieCredits_clk (die : Nat) (before s : State) : (dieCredits die before s).clk = s.clk := by simp [dieCredits]
@[simp] theorem lowerHeadroom_clk (die b fuel : Nat) (s : State) : (lowerHeadroom die b fuel s).clk = s.clk := by
  induction fuel generalizing s with
  | zero => rfl
  | succ fuel ih =>
    unfold lowerHeadroom
    split
    · rfl
    · simp [ih]
@[simp] theorem keepPool_clk (die b : Nat) (s : State) : (keepPool die b s).clk = s.clk := by simp [keepPool]
@[simp] theorem endBankSpare_clk (die b : Nat) (s : State) : (endBankSpare die b s).clk = s.clk := by simp [endBankSpare]
@[simp] theorem effBankSpare_clk (bank : Nat) (s : State) : (effBankSpare bank s).clk = s.clk := by
  unfold effBankSpare
  dsimp only
  refine clk_of_ite ?_ ?_
  · rfl
  · refine clk_of_ite ?_ ?_
    · simp
    · refine clk_of_ite ?_ ?_ <;> simp
theorem takeRemap_clk (m : Nat) (s : State) : ∀ r ∈ takeRemap m s, r.2.clk = s.clk := by
  unfold takeRemap
  dsimp only
  split <;> simp
@[simp] theorem copyFrame_clk (src dst : Nat) (s : State) : (copyFrame src dst s).clk = s.clk := clk_of_mf s _
@[simp] theorem effFrameReplace_clk (stack frame : Nat) (s : State) : (effFrameReplace stack frame s).clk = s.clk := by
  unfold effFrameReplace
  split
  · rfl
  · dsimp only
    split
    · next h => simp [clk_of_some (takeRemap_clk _ _) h]
    · rw [capacity_clk, emitClass_clk, relCount_clk, foldl_clk _ (fun t p => getD_clk (tryMove_clk _ _ _ _ _ _))]
@[simp] theorem effHbmStackFail_clk (stack : Nat) (s : State) : (effHbmStackFail stack s).clk = s.clk := by
  unfold effHbmStackFail
  dsimp only
  refine clk_of_ite ?_ ?_ <;> simp
@[simp] theorem useSpareTile_clk (t : Nat) (s : State) : (useSpareTile t s).clk = s.clk := by simp [useSpareTile]
@[simp] theorem retireTile_clk (t : Nat) (s : State) : (retireTile t s).clk = s.clk := by simp [retireTile]
@[simp] theorem effTileSpare_clk (tile : Nat) (s : State) : (effTileSpare tile s).clk = s.clk := by
  unfold effTileSpare
  refine clk_of_ite ?_ (clk_of_ite ?_ ?_) <;> simp
@[simp] theorem spareMacro_clk (m n : Nat) (s : State) : (spareMacro m n s).clk = s.clk := by
  unfold spareMacro
  refine clk_of_ite ?_ (clk_of_ite ?_ ?_) <;> simp
@[simp] theorem spareColumns_clk (cols : List (Nat × Nat)) (s : State) : (spareColumns cols s).clk = s.clk := by simp [spareColumns]
@[simp] theorem effTilePowerOff_clk (tile : Nat) (s : State) : (effTilePowerOff tile s).clk = s.clk := by simp [effTilePowerOff]
@[simp] theorem effPortDieFail_clk (die : Nat) (s : State) : (effPortDieFail die s).clk = s.clk := by
  unfold effPortDieFail
  dsimp only
  refine clk_of_ite ?_ ?_ <;> simp
@[simp] theorem effCoreDieFail_clk (die : Nat) (s : State) : (effCoreDieFail die s).clk = s.clk := by simp [effCoreDieFail]
@[simp] theorem moveService_clk (c v : Nat) (s : State) : (moveService c v s).clk = s.clk := by
  unfold moveService
  refine clk_of_ite ?_ (clk_of_ite ?_ ?_) <;> simp
@[simp] theorem effControlCoreDisable_clk (core : Nat) (s : State) : (effControlCoreDisable core s).clk = s.clk := by
  unfold effControlCoreDisable
  refine clk_of_ite ?_ (clk_of_ite ?_ ?_) <;> simp
@[simp] theorem raiseRail_clk (b : Nat) (s : State) : (raiseRail b s).clk = s.clk := by simp [raiseRail]
@[simp] theorem raiseOffset_clk (b : Nat) (s : State) : (raiseOffset b s).clk = s.clk := by simp [raiseOffset]
@[simp] theorem effReplicaMarginSample_clk (block margin : Nat) (s : State) : (effReplicaMarginSample block margin s).clk = s.clk := by
  unfold effReplicaMarginSample
  split
  · simp
  · split
    · dsimp only
      split
      · simp
      · split <;> simp
    · dsimp only
      split
      · simp
      · split <;> simp
@[simp] theorem blameTile_clk (r : Shadow) (s : State) : (blameTile r s).clk = s.clk := rfl
@[simp] theorem blameSpare_clk (cl bin : Nat) (s : State) : (blameSpare cl bin s).clk = s.clk := by simp [blameSpare]
@[simp] theorem effShadowRun_clk (cluster : Nat) (match1 match2 : Bool) (s : State) : (effShadowRun cluster match1 match2 s).clk = s.clk := by
  unfold effShadowRun
  split <;> simp
@[simp] theorem effQuarantineEnd_clk (tile : Nat) (s : State) : (effQuarantineEnd tile s).clk = s.clk := by
  unfold effQuarantineEnd
  split <;> simp

/-! ### Boot -/

theorem effPowerOn_of_powered {s : State} (h : s.boot.pwrgd = true) : effPowerOn s = s := by simp [effPowerOn, h]
theorem effPowerOn_starts {s : State} (h : s.boot.pwrgd = false) :
    (effPowerOn s).clk.cycles = 0 ∧ (effPowerOn s).boot.pwrgd = true := by simp [effPowerOn, h, epochRecord]
@[simp] theorem verifyImage_clk (s : State) (i : Nat) : (verifyImage s i).clk = s.clk := by
  unfold verifyImage
  split <;> simp
@[simp] theorem checkLms_clk (s : State) : (checkLms s).clk = s.clk := by
  unfold checkLms
  refine clk_of_ite ?_ ?_ <;> simp
@[simp] theorem loadProfile_clk (s : State) : (loadProfile s).clk = s.clk := by
  unfold loadProfile
  split <;> simp
@[simp] theorem repairFrames_clk (s : State) : (repairFrames s).clk = s.clk := by simp [repairFrames]
theorem startCore_cycles (s : State) : (startCore s).clk.cycles = s.clk.cycles := by simp [startCore]
@[simp] theorem effBootComplete_cycles (cols : List (Nat × Nat)) (s : State) : (effBootComplete cols s).clk.cycles = s.clk.cycles := by
  unfold effBootComplete
  split
  · rfl
  · dsimp only
    split
    · simp
    · rw [startCore_cycles]
      simp
@[simp] theorem sendStage_clk (p : Nat) (s : State) : (sendStage p s).clk = s.clk := by simp [sendStage]
@[simp] theorem announceStage_clk (s : State) : (announceStage s).clk = s.clk := by simp [announceStage]
@[simp] theorem commitOwnNode_clk (s : State) : (commitOwnNode s).clk = s.clk := by simp [commitOwnNode]
@[simp] theorem enterStage_clk (n : Nat) (s : State) : (enterStage n s).clk = s.clk := by
  unfold enterStage
  dsimp only
  split <;> simp
@[simp] theorem effStageEnd_clk (s : State) : (effStageEnd s).clk = s.clk := by simp [effStageEnd]
@[simp] theorem effStageBoundExpire_clk (s : State) : (effStageBoundExpire s).clk = s.clk := by
  unfold effStageBoundExpire
  refine clk_of_ite ?_ ?_ <;> simp
@[simp] theorem effBu3Gate_clk (s : State) : (effBu3Gate s).clk = s.clk := by simp [effBu3Gate]
@[simp] theorem effMreset_clk (s : State) : (effMreset s).clk = s.clk := by simp [effMreset]
@[simp] theorem effMresetRelease_clk (s : State) : (effMresetRelease s).clk = s.clk := rfl
@[simp] theorem effDepartureQuiet_clk (s : State) : (effDepartureQuiet s).clk = s.clk := by simp [effDepartureQuiet]
@[simp] theorem effDepartureDrained_clk (s : State) : (effDepartureDrained s).clk = s.clk := by simp [effDepartureDrained]
@[simp] theorem rehomePage_clk (s : State) (p : Nat) : (rehomePage s p).clk = s.clk := by
  unfold rehomePage
  split
  · exact setPage_clk _ _ _
  · exact (foldl_clk _ (fun t i => hbmWrite_clk _ _ _ t) _ _).trans ((setPage_clk _ _ _).trans (takePlace_clk _ _ _ _))
@[simp] theorem moveStack_clk (s : State) (m : Nat) : (moveStack s m).clk = s.clk := by simp [moveStack]
@[simp] theorem reloadFilter_clk (s : State) (die : Nat) : (reloadFilter s die).clk = s.clk := by simp [reloadFilter]
@[simp] theorem clearEntry_clk (s : State) (e : Nat × Nat) : (clearEntry s e).clk = s.clk := by simp [clearEntry]
@[simp] theorem reopenClosing_clk (s : State) (c : Nat) : (reopenClosing s c).clk = s.clk := by simp [reopenClosing]
@[simp] theorem effCoreReinitDone_cycles (bad : List (Nat × Nat)) (s : State) : (effCoreReinitDone bad s).clk.cycles = s.clk.cycles := by
  unfold effCoreReinitDone
  split
  · rfl
  · dsimp only
    split
    · simp
    · rw [startCore_cycles]
      simp
@[simp] theorem resetPort_clk (port cause : Nat) (s : State) : (resetPort port cause s).clk = s.clk := by simp [resetPort]
@[simp] theorem dropLink_clk (port : Nat) (s : State) : (dropLink port s).clk = s.clk := by simp [dropLink]
@[simp] theorem effPerst_clk (port : Nat) (s : State) : (effPerst port s).clk = s.clk := by simp [effPerst]
@[simp] theorem effPerstDeassert_clk (port : Nat) (s : State) : (effPerstDeassert port s).clk = s.clk := rfl
@[simp] theorem effHotReset_clk (port : Nat) (s : State) : (effHotReset port s).clk = s.clk := by simp [effHotReset]
@[simp] theorem effVfEnableClear_clk (port : Nat) (s : State) : (effVfEnableClear port s).clk = s.clk := by simp [effVfEnableClear]
@[simp] theorem effFlr_clk (port func : Nat) (s : State) : (effFlr port func s).clk = s.clk := by
  unfold effFlr
  split
  · simp
  · split
    · simp
    · dsimp only
      split <;> simp
@[simp] theorem effFlrComplete_clk (port func : Nat) (s : State) : (effFlrComplete port func s).clk = s.clk := rfl
@[simp] theorem effHostLinkDown_clk (port : Nat) (s : State) : (effHostLinkDown port s).clk = s.clk := by simp [effHostLinkDown]
@[simp] theorem effHostLinkUp_clk (port : Nat) (s : State) : (effHostLinkUp port s).clk = s.clk := by simp [effHostLinkUp]

/-! ### Coherence -/

@[simp] theorem effRds_clk (die : Nat) (s : State) : (effRds die s).clk = s.clk := by simp [effRds]
@[simp] theorem effRdx_clk (die : Nat) (s : State) : (effRdx die s).clk = s.clk := by simp [effRdx]
@[simp] theorem effWb_clk (die : Nat) (s : State) : (effWb die s).clk = s.clk := by simp [effWb]
@[simp] theorem effSnoopAnswer_clk (die : Nat) (s : State) : (effSnoopAnswer die s).clk = s.clk := by simp [effSnoopAnswer]
@[simp] theorem suspect_clk (a : Nat) (s : State) : (suspect a s).clk = s.clk := by simp [suspect]
@[simp] theorem effSnoopTimeout_clk (die line : Nat) (s : State) : (effSnoopTimeout die line s).clk = s.clk := by
  unfold effSnoopTimeout
  split <;> simp
@[simp] theorem effPinRetry_clk (die line : Nat) (s : State) : (effPinRetry die line s).clk = s.clk := by simp [effPinRetry]
@[simp] theorem effAgentReclaim_clk (agent : Nat) (s : State) : (effAgentReclaim agent s).clk = s.clk := by
  unfold effAgentReclaim
  refine clk_of_ite ?_ ?_ <;> simp

/-! ### Collective -/

@[simp] theorem takeSpray_clk (ep : Nat) (p : Packet) (s : State) : (takeSpray ep p s).clk = s.clk := by simp [takeSpray, pathLost_switched]
@[simp] theorem effCblk_clk (s : State) : (effCblk s).clk = s.clk := by
  unfold effCblk
  split
  · next h => simp [clk_of_some (takeMod_clk _ _) h]
  · simp
@[simp] theorem makePlan_clk (m : Mail) (list : PoolAns) (s : State) : (makePlan m list s).2.2.clk = s.clk := by
  unfold makePlan
  dsimp only
  split
  · rfl
  · split
    · rfl
    · rfl
    · split
      · rfl
      · split
        · rfl
        · split
          · rfl
          · rfl
          · next h _ =>
            split
            · split <;> simp [clk_of_some (planOps_clk _ _ _) h]
            · rfl
@[simp] theorem sendSetup_clk (pl : Plan) (s : State) : (sendSetup pl s).clk = s.clk := by simp [sendSetup]
@[simp] theorem collRefuse_clk (m : Mail) (st : Nat) (s : State) : (collRefuse m st s).clk = s.clk := by simp [collRefuse]
@[simp] theorem effCollPlan_clk (s : State) : (effCollPlan s).clk = s.clk := by
  unfold effCollPlan
  split
  · simp
  · next h =>
    split
    · simp [clk_of_some (takeMail_clk _ _ _) h]
    · split
      · simp
      · simp [clk_of_some (takeMail_clk _ _ _) h]
@[simp] theorem effCollFree_clk (s : State) : (effCollFree s).clk = s.clk := by
  unfold effCollFree
  split
  · simp
  · next h => simp [clk_of_some (takeMail_clk _ _ _) h]
@[simp] theorem sendRuns_clk (pl : Plan) (s : State) : (sendRuns pl s).clk = s.clk := by simp [sendRuns]
@[simp] theorem startRun_clk (k : Nat) (m : Mail) (s : State) : (startRun k m s).clk = s.clk := by
  unfold startRun
  refine clk_of_ite ?_ (clk_of_ite ?_ ?_) <;> simp
@[simp] theorem effCollRun_clk (plan : Nat) (s : State) : (effCollRun plan s).clk = s.clk := by
  unfold effCollRun
  split
  · simp
  · next h => simp [clk_of_some (takeMailIf_clk _ _ _) h]
@[simp] theorem disarm_clk (n : Nat) (s : State) : (disarm n s).clk = s.clk := rfl
@[simp] theorem armDeadline_clk (k : Nat) (s : State) : (armDeadline k s).clk = s.clk := by
  unfold armDeadline
  refine clk_of_ite ?_ ?_ <;> simp
@[simp] theorem effCollStop_clk (plan : Nat) (s : State) : (effCollStop plan s).clk = s.clk := by
  unfold effCollStop
  refine clk_of_ite ?_ (clk_of_ite ?_ ?_) <;> simp
@[simp] theorem effCollComplete_clk (plan : Nat) (s : State) : (effCollComplete plan s).clk = s.clk := by
  unfold effCollComplete
  refine clk_of_ite ?_ ?_ <;> simp
@[simp] theorem beginPhase_clk (k : Nat) (c : Nat × Nat × Nat) (s : State) : (beginPhase k c s).clk = s.clk := by
  unfold beginPhase
  refine clk_of_ite ?_ ?_ <;> simp
@[simp] theorem resumeFrom_clk (k : Nat) (primary : Option (Nat × Nat × Nat)) (s : State) : (resumeFrom k primary s).clk = s.clk := by
  unfold resumeFrom
  dsimp only
  split <;> simp
@[simp] theorem effPhaseStateResume_clk (plan : Nat) (s : State) : (effPhaseStateResume plan s).clk = s.clk := by
  unfold effPhaseStateResume
  dsimp only
  split
  · simp
  · split
    · simp
    · split <;> simp

/-! ### Commit -/

@[simp] theorem result_keepsClk (x : Site) (w st : Nat) (s t : State) : (result x w st t).KeepsClk s ↔ t.clk = s.clk := by simp [result]
@[simp] theorem effTrd_clk (site : Site) (s : State) : (effTrd site s).clk = s.clk := by simp [effTrd]
@[simp] theorem twr_clk (want : TwrCase) (site : Site) (s : State) : (twr want site s).clk = s.clk := by simp [twr]
@[simp] theorem effTwr_clk (site : Site) (s : State) : (effTwr site s).clk = s.clk := by simp [effTwr]
@[simp] theorem effOpCreate_clk (site : Site) (s : State) : (effOpCreate site s).clk = s.clk := by simp [effOpCreate]
@[simp] theorem effOpRebind_clk (site : Site) (s : State) : (effOpRebind site s).clk = s.clk := by simp [effOpRebind]
@[simp] theorem effPeridotEntryWrite_clk (site : Site) (s : State) : (effPeridotEntryWrite site s).clk = s.clk := by simp [effPeridotEntryWrite]
@[simp] theorem effTableRetire_clk (site : Site) (s : State) : (effTableRetire site s).clk = s.clk := by simp [effTableRetire]
@[simp] theorem effCodecJobClear_clk (site : Site) (s : State) : (effCodecJobClear site s).clk = s.clk := by simp [effCodecJobClear]
@[simp] theorem effTierJobStop_clk (site : Site) (s : State) : (effTierJobStop site s).clk = s.clk := by simp [effTierJobStop]
@[simp] theorem effTierJobAck_clk (site : Site) (s : State) : (effTierJobAck site s).clk = s.clk := by simp [effTierJobAck]
@[simp] theorem effTstage_clk (site : Site) (s : State) : (effTstage site s).clk = s.clk := by simp [effTstage]
@[simp] theorem tcheck_clk (epoch : Bool) (site : Site) (s : State) : (tcheck epoch site s).clk = s.clk := by
  refine issue_clk _ _ _ _ (fun x w t => ?_) _ _
  dsimp only
  split
  · simp
  · split <;> simp
@[simp] theorem effTcheck_clk (site : Site) (s : State) : (effTcheck site s).clk = s.clk := by simp [effTcheck]
@[simp] theorem effTcheckEpoch_clk (site : Site) (s : State) : (effTcheckEpoch site s).clk = s.clk := by simp [effTcheckEpoch]
@[simp] theorem endGroup_clk (h : Nat) (s : State) : (endGroup h s).clk = s.clk := by simp [endGroup]
@[simp] theorem tcommit_clk (epoch : Bool) (site : Site) (s : State) : (tcommit epoch site s).clk = s.clk := by
  refine issue_clk _ _ _ _ (fun x w t => ?_) _ _
  dsimp only
  split
  · simp
  · split
    · simp
    · split
      · simp
      · split
        · simp
        · split <;> simp
@[simp] theorem effTcommit_clk (site : Site) (s : State) : (effTcommit site s).clk = s.clk := by simp [effTcommit]
@[simp] theorem effTcommitEpoch_clk (site : Site) (s : State) : (effTcommitEpoch site s).clk = s.clk := by simp [effTcommitEpoch]
@[simp] theorem effTabort_clk (site : Site) (s : State) : (effTabort site s).clk = s.clk := by simp [effTabort]
@[simp] theorem effOldBankRetired_clk (s : State) : (effOldBankRetired s).clk = s.clk := by
  unfold effOldBankRetired
  dsimp only
  split <;> simp
@[simp] theorem effLrenew_clk (site : Site) (s : State) : (effLrenew site s).clk = s.clk := by
  refine issue_clk _ _ _ _ (fun x w t => ?_) _ _
  dsimp only
  split
  · simp
  · split
    · simp
    · split <;> simp
@[simp] theorem effLscan_clk (site : Site) (s : State) : (effLscan site s).clk = s.clk := by
  unfold effLscan
  refine issue_clk _ _ _ _ (fun x w t => ?_) _ _
  dsimp only
  split
  · simp
  · split <;> simp
@[simp] theorem takeSilent_clk (e : ThreadEvent) (s : State) : (takeSilent e s).clk = s.clk := by
  unfold takeSilent
  dsimp only
  split
  · split
    · next h => exact takeMailIf_clk _ _ _ _ h
    · rfl
  · rfl
@[simp] theorem deliverEvent_clk (x : Site) (w : Nat) (s : State) : (deliverEvent x w s).clk = s.clk := by
  unfold deliverEvent
  dsimp only
  split <;> simp
@[simp] theorem effEvwait_clk (site : Site) (s : State) : (effEvwait site s).clk = s.clk := by simp [effEvwait]
@[simp] theorem effThreadEventDeliver_clk (thread : Nat) (s : State) : (effThreadEventDeliver thread s).clk = s.clk := by
  unfold effThreadEventDeliver
  split
  · simp
  · split
    · simp
    · split <;> simp
@[simp] theorem effThreadDeadline_clk (thread : Nat) (s : State) : (effThreadDeadline thread s).clk = s.clk := by simp [effThreadDeadline]
@[simp] theorem effThreadStop_clk (thread : Nat) (ue : Bool) (s : State) : (effThreadStop thread ue s).clk = s.clk := by simp [effThreadStop]
@[simp] theorem freezeBy_clk (h : Nat) (s : State) : (freezeBy h s).2.clk = s.clk := by simp [freezeBy]
@[simp] theorem thawBy_clk (h : Nat) (s : State) : (thawBy h s).2.clk = s.clk := by simp [thawBy]
@[simp] theorem postBy_clk (h code sev : Nat) (p : List Byte) (s : State) : (postBy h code sev p s).2.clk = s.clk := by simp [postBy]
@[simp] theorem evpost_clk (kind : Nat) (site : Site) (s : State) : (evpost kind site s).clk = s.clk := by
  refine issue_clk _ _ _ _ (fun x w t => ?_) _ _
  dsimp only
  split
  · simp
  · split
    · simp
    · split
      · simp
      · split
        · simp
        · split <;> simp
@[simp] theorem effEvpost_clk (site : Site) (s : State) : (effEvpost site s).clk = s.clk := by simp [effEvpost]
@[simp] theorem effFreeze_clk (site : Site) (s : State) : (effFreeze site s).clk = s.clk := by simp [effFreeze]
@[simp] theorem effThaw_clk (site : Site) (s : State) : (effThaw site s).clk = s.clk := by simp [effThaw]
@[simp] theorem effAutoThaw_clk (s : State) : (effAutoThaw s).clk = s.clk := by simp [effAutoThaw]

/-! ### ScrubOps -/

@[simp] theorem scrubLines_clk (e slot c node laddr lines : Nat) (s : State) :
    (scrubLines e slot c node laddr lines s).clk = s.clk := by simp [scrubLines]
@[simp] theorem scrubNear_clk (slot p : Nat) (s : State) : (scrubNear slot p s).clk = s.clk := rfl
@[simp] theorem scrubPage_clk (e slot : Nat) (s : State) (p : Nat) : (scrubPage e slot s p).clk = s.clk := by
  unfold scrubPage
  dsimp only
  split <;> simp
theorem scrubSlot_clk (e : Nat) (s : State) : ∀ r ∈ scrubSlot e s, r.2.clk = s.clk := by
  unfold scrubSlot
  dsimp only
  split
  · exact loadScrub_clk _ _
  · split
    · simp
    · split
      · simp
      · next h => simpa using clk_of_some (loadScrub_clk _ _) h
@[simp] theorem beginScrub_clk (s : State) (e : Nat) : (beginScrub s e).clk = s.clk := by
  unfold beginScrub
  split
  · simp
  · next h => simp [clk_of_some (scrubSlot_clk _ _) h]
@[simp] theorem writeClosure_clk (c : Nat) (r : Removal) (s : State) : (writeClosure c r s).clk = s.clk := by simp [writeClosure]
@[simp] theorem freeContext_clk (c : Nat) (s : State) : (freeContext c s).clk = s.clk := by
  unfold freeContext
  split
  · simp
  · dsimp only
    split <;> simp
@[simp] theorem scrubRecords_clk (c : Nat) (s : State) : (scrubRecords c s).clk = s.clk := by
  unfold scrubRecords
  simp

/-! ### Contexts -/

@[simp] theorem effFlipReport_clk (ctx node : Nat) (s : State) : (effFlipReport ctx node s).clk = s.clk := by simp [effFlipReport]
@[simp] theorem effPeerUnreachable_clk (ctx node : Nat) (s : State) : (effPeerUnreachable ctx node s).clk = s.clk := by
  unfold effPeerUnreachable
  split <;> simp
@[simp] theorem effContextScrubStart_clk (ctx : Nat) (s : State) : (effContextScrubStart ctx s).clk = s.clk := by
  unfold effContextScrubStart
  split <;> simp
@[simp] theorem effScrubSlotRetry_clk (ctx : Nat) (s : State) : (effScrubSlotRetry ctx s).clk = s.clk := by
  unfold effScrubSlotRetry
  split <;> simp

/-! ### Discovery -/

theorem takeNbr_clk (port mtype : Nat) (s : State) : ∀ r ∈ takeNbr port mtype s, r.2.clk = s.clk := by
  rintro _ h
  obtain ⟨x, hx, rfl⟩ := Option.map_eq_some_iff.1 h
  exact takeMod_clk _ _ x hx
@[simp] theorem effTrainRDone_clk (port : Nat) (s : State) : (effTrainRDone port s).clk = s.clk := by
  unfold effTrainRDone
  refine clk_of_ite ?_ (clk_of_ite ?_ ?_) <;> simp
@[simp] theorem effHello_clk (port : Nat) (s : State) : (effHello port s).clk = s.clk := by
  unfold effHello
  split
  · simp
  · split
    · simp
    · next h => simp [clk_of_some (takeNbr_clk _ _ _) h]
@[simp] theorem effHelloResend_clk (port : Nat) (s : State) : (effHelloResend port s).clk = s.clk := by simp [effHelloResend]
@[simp] theorem effCert_clk (port : Nat) (s : State) : (effCert port s).clk = s.clk := by
  unfold effCert
  split
  · simp
  · next h => simp [clk_of_some (takeNbr_clk _ _ _) h]
@[simp] theorem effProof_clk (port : Nat) (s : State) : (effProof port s).clk = s.clk := by
  unfold effProof
  split
  · simp
  · next h => simp [clk_of_some (takeNbr_clk _ _ _) h]
@[simp] theorem effNbrmsgStage_clk (port : Nat) (s : State) : (effNbrmsgStage port s).clk = s.clk := by
  unfold effNbrmsgStage
  split
  · simp
  · next h => simp [clk_of_some (takeNbr_clk _ _ _) h]
@[simp] theorem effNbrmsgFence_clk (port : Nat) (s : State) : (effNbrmsgFence port s).clk = s.clk := by
  refine getD_clk (fun t h => ?_)
  obtain ⟨x, hx, rfl⟩ := Option.map_eq_some_iff.1 h
  exact takeNbr_clk _ _ _ x hx
@[simp] theorem effDiscoveryAbandon_clk (port : Nat) (s : State) : (effDiscoveryAbandon port s).clk = s.clk := by simp [effDiscoveryAbandon]
@[simp] theorem effDiscoveryRetry_clk (port : Nat) (s : State) : (effDiscoveryRetry port s).clk = s.clk := by simp [effDiscoveryRetry]

/-! ### YScalar -/

@[simp] theorem alu_keepsClk (f : Word → Word → Word) (x : Site) (w : Nat) (s : State) : (alu f x w s).KeepsClk s := by simp [alu]
@[simp] theorem effSmov_clk (site : Site) (s : State) : (effSmov site s).clk = s.clk := by simp [effSmov]
@[simp] theorem effSmovh_clk (site : Site) (s : State) : (effSmovh site s).clk = s.clk := by simp [effSmovh]
@[simp] theorem effSadd_clk (site : Site) (s : State) : (effSadd site s).clk = s.clk := by simp [effSadd]
@[simp] theorem effSsub_clk (site : Site) (s : State) : (effSsub site s).clk = s.clk := by simp [effSsub]
@[simp] theorem effSmul_clk (site : Site) (s : State) : (effSmul site s).clk = s.clk := by simp [effSmul]
@[simp] theorem effSand_clk (site : Site) (s : State) : (effSand site s).clk = s.clk := by simp [effSand]
@[simp] theorem effSor_clk (site : Site) (s : State) : (effSor site s).clk = s.clk := by simp [effSor]
@[simp] theorem effSxor_clk (site : Site) (s : State) : (effSxor site s).clk = s.clk := by simp [effSxor]
@[simp] theorem effSshl_clk (site : Site) (s : State) : (effSshl site s).clk = s.clk := by simp [effSshl]
@[simp] theorem effSshr_clk (site : Site) (s : State) : (effSshr site s).clk = s.clk := by simp [effSshr]
@[simp] theorem effSsra_clk (site : Site) (s : State) : (effSsra site s).clk = s.clk := by simp [effSsra]
@[simp] theorem effSmin_clk (site : Site) (s : State) : (effSmin site s).clk = s.clk := by simp [effSmin]
@[simp] theorem effSmax_clk (site : Site) (s : State) : (effSmax site s).clk = s.clk := by simp [effSmax]
@[simp] theorem effSld_clk (site : Site) (s : State) : (effSld site s).clk = s.clk := by simp [effSld]
@[simp] theorem effSst_clk (site : Site) (s : State) : (effSst site s).clk = s.clk := by simp [effSst]
@[simp] theorem effSext_clk (site : Site) (s : State) : (effSext site s).clk = s.clk := by
  unfold effSext
  refine issue_clk _ _ _ _ (fun x w t => ?_) _ _
  split
  · simp
  · split <;> simp
@[simp] theorem effStime_clk (site : Site) (s : State) : (effStime site s).clk = s.clk := by simp [effStime]
@[simp] theorem jump_keepsClk (off : Int) (taken : Bool) (x : Site) (s : State) : (jump off taken x s).KeepsClk s := by
  unfold jump
  split <;> simp
@[simp] theorem effBr_clk (site : Site) (s : State) : (effBr site s).clk = s.clk := by simp [effBr]
@[simp] theorem cmpJump_keepsClk (f : Word → Word → Bool) (x : Site) (w : Nat) (s : State) : (cmpJump f x w s).KeepsClk s := by simp [cmpJump]
@[simp] theorem effBrEq_clk (site : Site) (s : State) : (effBrEq site s).clk = s.clk := by simp [effBrEq]
@[simp] theorem effBrNe_clk (site : Site) (s : State) : (effBrNe site s).clk = s.clk := by simp [effBrNe]
@[simp] theorem effBrLt_clk (site : Site) (s : State) : (effBrLt site s).clk = s.clk := by simp [effBrLt]
@[simp] theorem effBrGe_clk (site : Site) (s : State) : (effBrGe site s).clk = s.clk := by simp [effBrGe]
@[simp] theorem effBrLtu_clk (site : Site) (s : State) : (effBrLtu site s).clk = s.clk := by simp [effBrLtu]
@[simp] theorem effBrGeu_clk (site : Site) (s : State) : (effBrGeu site s).clk = s.clk := by simp [effBrGeu]
@[simp] theorem predJump_keepsClk (any : Bool) (x : Site) (w : Nat) (s : State) : (predJump any x w s).KeepsClk s := by
  unfold predJump
  split
  · simp
  · split <;> simp
@[simp] theorem effBrpAny_clk (site : Site) (s : State) : (effBrpAny site s).clk = s.clk := by simp [effBrpAny]
@[simp] theorem effBrpNone_clk (site : Site) (s : State) : (effBrpNone site s).clk = s.clk := by simp [effBrpNone]
@[simp] theorem setStack_clk (x : Site) (l : List Nat) (s : State) : (setStack x l s).clk = s.clk := by
  unfold setStack
  split <;> simp
@[simp] theorem effCall_clk (site : Site) (s : State) : (effCall site s).clk = s.clk := by
  unfold effCall
  refine issue_clk _ _ _ _ (fun x w t => ?_) _ _
  split <;> simp
@[simp] theorem leaveHandler_clk (t : Nat) (s : State) : (leaveHandler t s).clk = s.clk := by
  unfold leaveHandler
  split <;> simp
@[simp] theorem effRet_clk (site : Site) (s : State) : (effRet site s).clk = s.clk := by
  unfold effRet
  refine issue_clk _ _ _ _ (fun x w t => ?_) _ _
  split
  · simp
  · split <;> simp

/-! ### Dma -/

@[simp] theorem dmaPost_clk (op : Nat) (site : Site) (s : State) : (dmaPost op site s).clk = s.clk := by simp [dmaPost]
@[simp] theorem dmPool_clk (x : Dma) (write : Bool) (data : List Byte) (s : State) : (dmPool x write data s).clk = s.clk := by simp [dmPool]
@[simp] theorem dmReadSend_clk (x : Dma) (s : State) : (dmReadSend x s).2.clk = s.clk := by simp [dmReadSend]
@[simp] theorem dmRead_clk (x : Dma) (ans : HostAns) (s : State) : (dmRead x ans s).2.clk = s.clk := by
  unfold dmRead
  split
  · dsimp only
    split <;> simp
  · dsimp only
    split <;> simp
@[simp] theorem dmWrite_clk (x : Dma) (s : State) : (dmWrite x s).2.clk = s.clk := by simp [dmWrite]
@[simp] theorem dmPut_clk (x : Dma) (s : State) : (dmPut x s).2.clk = s.clk := by simp [dmPut]
@[simp] theorem dmGet_clk (x : Dma) (s : State) : (dmGet x s).2.clk = s.clk := by
  unfold dmGet
  dsimp only
  refine foldl_snd_clk _ (fun r i => ?_) _ _
  simp only [sameClk_iff]
  split <;> simp
@[simp] theorem dmResult_clk (x : Dma) (s : State) : (dmResult x s).2.clk = s.clk := by
  unfold dmResult
  dsimp only
  split
  · next h => simp [postWindow_clk _ _ _ _ _ _ h]
  · simp
@[simp] theorem setDmQueue_clk (port : Nat) (write : Bool) (l : List Dma) (s : State) : (setDmQueue port write l s).clk = s.clk := rfl
@[simp] theorem dmaMove_clk (op port : Nat) (ans : HostAns) (s : State) : (dmaMove op port ans s).clk = s.clk := by
  unfold dmaMove
  extract_lets write q
  split
  · rfl
  · extract_lets x d set
    have hset (r : Dma × State) : (set r).clk = r.2.clk := setDmQueue_clk _ _ _ _
    clear_value set
    by_cases hop : dmOp d ≠ op ∧ (!(op == 1 && !inRange 1 5 (dmOp d))) = true
    · rw [if_pos hop]
    · rw [if_neg hop]
      by_cases hm : x.moving = true
      · simp [hm, hset]
      · rw [if_neg hm]
        split
        · simp [hset]
        · split
          · rfl
          · split <;> simp [hset]
@[simp] theorem dmaStep_clk (op : Nat) (step : DmaStep) (s : State) : (dmaStep op step s).clk = s.clk := by
  unfold dmaStep
  split <;> simp
@[simp] theorem effDmaRead_clk (step : DmaStep) (s : State) : (effDmaRead step s).clk = s.clk := by simp [effDmaRead]
@[simp] theorem effDmaWrite_clk (step : DmaStep) (s : State) : (effDmaWrite step s).clk = s.clk := by simp [effDmaWrite]
@[simp] theorem effFifoPut_clk (step : DmaStep) (s : State) : (effFifoPut step s).clk = s.clk := by simp [effFifoPut]
@[simp] theorem effFifoGet_clk (step : DmaStep) (s : State) : (effFifoGet step s).clk = s.clk := by simp [effFifoGet]
@[simp] theorem effResult_clk (step : DmaStep) (s : State) : (effResult step s).clk = s.clk := by simp [effResult]
@[simp] theorem effDmaComplete_clk (port : Nat) (write : Bool) (s : State) : (effDmaComplete port write s).clk = s.clk := by
  unfold effDmaComplete
  dsimp only
  split <;> simp

/-! ### Experts -/

@[simp] theorem dropPieces_clk (k : Nat) (s : State) : (dropPieces k s).clk = s.clk := by simp [dropPieces]
@[simp] theorem makeExpert_clk (m : Mail) (list : PoolAns) (s : State) : (makeExpert m list s).2.2.clk = s.clk := by
  unfold makeExpert
  dsimp only
  split
  · rfl
  · split
    · split
      · rfl
      · next h => simp [clk_of_some (createTargets_clk _ _ _ _ _ _ _ _) h]
    · rfl
@[simp] theorem effExpertPlan_clk (s : State) : (effExpertPlan s).clk = s.clk := by
  unfold effExpertPlan
  split
  · simp
  · next h =>
    split
    · simp [clk_of_some (takeMail_clk _ _ _) h]
    · split
      · simp
      · simp [clk_of_some (takeMail_clk _ _ _) h]
@[simp] theorem effExpertFree_clk (s : State) : (effExpertFree s).clk = s.clk := by
  unfold effExpertFree
  split
  · simp
  · next h =>
    dsimp only
    split
    · simp [clk_of_some (takeMail_clk _ _ _) h]
    · simp [clk_of_some (takeMail_clk _ _ _) h]
@[simp] theorem writeStatuses_clk (k : Nat) (x : Expert) (st : List Nat) (s : State) : (writeStatuses k x st s).clk = s.clk := by simp [writeStatuses]
@[simp] theorem writeFills_clk (k tc : Nat) (x : Expert) (s : State) : (writeFills k tc x s).clk = s.clk := by simp [writeFills]
@[simp] theorem endBatch_clk (k : Nat) (b : Batch) (s : State) : (endBatch k b s).clk = s.clk := by simp [endBatch]
@[simp] theorem startDispatch_clk (k : Nat) (m : Mail) (recs : List Byte) (s : State) :
    (startDispatch k m recs s).clk = s.clk := by simp [startDispatch]
@[simp] theorem storePlaced_clk (k : Nat) (x : Expert) (tc t i : Nat) (s : State) : (storePlaced k x tc t i s).clk = s.clk := by
  unfold storePlaced
  split <;> simp
@[simp] theorem stepDispatch_clk (k : Nat) (b : Batch) (s : State) : (stepDispatch k b s).clk = s.clk := by simp [stepDispatch]
@[simp] theorem goneBatch_clk (k : Nat) (b : Batch) (s : State) : (goneBatch k b s).clk = s.clk := by simp [goneBatch]
@[simp] theorem stepBatches_clk (combine : Bool) (step : Nat → Batch → State → State) (hstep : ∀ k b t, SameClk t (step k b t)) (s : State) :
    (stepBatches combine step s).clk = s.clk := by
  refine foldl_clk _ (fun t k => ?_) _ _
  simp only [sameClk_iff] at hstep ⊢
  split
  · split
    · rfl
    · split <;> simp [hstep]
  · rfl
@[simp] theorem effExpertDispatch_clk (s : State) : (effExpertDispatch s).clk = s.clk := by
  unfold effExpertDispatch
  dsimp only
  split
  · simp
  · next h =>
    split
    · simp [clk_of_some (takeMail_clk _ _ _) h]
    · split
      · simp [clk_of_some (takeMail_clk _ _ _) h]
      · split
        · simp
        · simp [clk_of_some (takeMail_clk _ _ _) h]
@[simp] theorem startCombine_clk (k : Nat) (m : Mail) (s : State) : (startCombine k m s).clk = s.clk := by
  unfold startCombine
  refine foldl_clk _ (fun t b => ?_) _ _
  simp
@[simp] theorem combinePiece_clk (k : Nat) (b : Batch) (x : Expert) (t i : Nat) (s : State) :
    (combinePiece k b x t i s).clk = s.clk := by simp [combinePiece]
@[simp] theorem stepCombine_clk (k : Nat) (b : Batch) (s : State) : (stepCombine k b s).clk = s.clk := by simp [stepCombine]
@[simp] theorem effExpertCombine_clk (s : State) : (effExpertCombine s).clk = s.clk := by
  unfold effExpertCombine
  dsimp only
  split
  · simp
  · next h =>
    split
    · simp [clk_of_some (takeMail_clk _ _ _) h]
    · simp [clk_of_some (takeMail_clk _ _ _) h]

/-! ### Filter -/

@[simp] theorem startFilter_clk (m : Mail) (s : State) : (startFilter m s).clk = s.clk := by
  unfold startFilter
  split
  · dsimp only
    split
    · simp
    · next h => simp [clk_of_some (createTargets_clk _ _ _ _ _ _ _ _) h]
  · simp
@[simp] theorem finishFilter_clk (k : Nat) (x : FilterJob) (s : State) : (finishFilter k x s).clk = s.clk := by simp [finishFilter]
@[simp] theorem goneFilter_clk (k : Nat) (x : FilterJob) (s : State) : (goneFilter k x s).clk = s.clk := by simp [goneFilter]
@[simp] theorem stepFilters_clk (s : State) : (stepFilters s).clk = s.clk := by simp [stepFilters]
@[simp] theorem effFilterRun_clk (s : State) : (effFilterRun s).clk = s.clk := by
  unfold effFilterRun
  dsimp only
  split
  · simp
  · next h =>
    split
    · simp [clk_of_some (takeMail_clk _ _ _) h]
    · simp [clk_of_some (takeMail_clk _ _ _) h]

/-! ### Health -/

@[simp] theorem scoreAll_clk (s : State) : (scoreAll s).clk = s.clk := by
  unfold scoreAll
  extract_lets _ rel t scores _ u
  have hu : u.clk = s.clk := (clk_of_rel t _).trans (clk_of_rel s rel)
  exact (foldl_clk _ (fun v n => State.setNbr_clk v n _) _ _).trans hu
@[simp] theorem sendVote_clk (kind suspect dst : Nat) (s : State) : (sendVote kind suspect dst s).clk = s.clk := by simp [sendVote]
@[simp] theorem castVote_clk (kind suspect : Nat) (s : State) : (castVote kind suspect s).clk = s.clk := by simp [castVote]
@[simp] theorem fenceFor_clk (s : State) (p : Nat) : (fenceFor s p).clk = s.clk := by simp [fenceFor]
@[simp] theorem expel_clk (suspect : Nat) (s : State) : (expel suspect s).clk = s.clk := by simp [expel]
@[simp] theorem checkQuorum_clk (suspect : Nat) (s : State) : (checkQuorum suspect s).clk = s.clk := by simp [checkQuorum]
@[simp] theorem firstVote_clk (n : Nat) (s : State) : (firstVote n s).clk = s.clk := by
  unfold firstVote
  refine clk_of_ite ?_ (clk_of_ite ?_ (clk_of_ite ?_ ?_)) <;> simp
@[simp] theorem evaluateNbr_clk (s : State) (n : Nat) : (evaluateNbr s n).clk = s.clk := by
  unfold evaluateNbr
  refine clk_of_ite ?_ (clk_of_ite ?_ ?_) <;> simp
@[simp] theorem effHealthEvaluate_clk (s : State) : (effHealthEvaluate s).clk = s.clk := by
  unfold effHealthEvaluate
  refine clk_of_ite ?_ (clk_of_ite ?_ ?_) <;> simp
theorem takeVote_clk (kind : Nat) (s : State) : ∀ r ∈ takeVote kind s, r.2.2.clk = s.clk := by
  rintro _ h
  obtain ⟨x, hx, rfl⟩ := Option.map_eq_some_iff.1 h
  exact takeMod_clk _ _ x hx
@[simp] theorem effHvoteExpel_clk (s : State) : (effHvoteExpel s).clk = s.clk := by
  unfold effHvoteExpel
  split
  · simp
  · next h => simp [clk_of_some₂ (takeVote_clk _ _) h]
@[simp] theorem effHvoteWithdraw_clk (s : State) : (effHvoteWithdraw s).clk = s.clk := by
  unfold effHvoteWithdraw
  split
  · simp
  · next h => simp [clk_of_some₂ (takeVote_clk _ _) h]
@[simp] theorem effHvoteExpelled_clk (s : State) : (effHvoteExpelled s).clk = s.clk := by
  unfold effHvoteExpelled
  split
  · simp
  · next h => simp [clk_of_some₂ (takeVote_clk _ _) h]
@[simp] theorem effVoteRenew_clk (suspect : Nat) (s : State) : (effVoteRenew suspect s).clk = s.clk := by
  unfold effVoteRenew
  split <;> simp
@[simp] theorem effVoteExpire_clk (s : State) : (effVoteExpire s).clk = s.clk := rfl
@[simp] theorem effVoteGapEnd_clk (s : State) : (effVoteGapEnd s).clk = s.clk := by
  unfold effVoteGapEnd
  split
  · simp
  · split <;> simp
@[simp] theorem effChervilRestart_clk (s : State) : (effChervilRestart s).clk = s.clk := by
  unfold effChervilRestart
  split <;> simp

/-! ### Home -/

@[simp] theorem effRd64_clk (die : Nat) (s : State) : (effRd64 die s).clk = s.clk := by simp [effRd64]
@[simp] theorem effRdn_clk (die : Nat) (s : State) : (effRdn die s).clk = s.clk := by simp [effRdn]
@[simp] theorem effWr64_clk (die : Nat) (s : State) : (effWr64 die s).clk = s.clk := by simp [effWr64]
@[simp] theorem effWrn_clk (die : Nat) (s : State) : (effWrn die s).clk = s.clk := by simp [effWrn]
@[simp] theorem effWrp_clk (die : Nat) (s : State) : (effWrp die s).clk = s.clk := by simp [effWrp]
@[simp] theorem effLineWriteback_clk (line : Nat) (s : State) : (effLineWriteback line s).clk = s.clk := by
  unfold effLineWriteback
  split <;> simp
@[simp] theorem effLeaseExpire_clk (ext : Nat) (s : State) : (effLeaseExpire ext s).clk = s.clk := by simp [effLeaseExpire]
@[simp] theorem effLeaseLapse_clk (ext : Nat) (s : State) : (effLeaseLapse ext s).clk = s.clk := by simp [effLeaseLapse]
@[simp] theorem effDrainComplete_clk (ext : Nat) (s : State) : (effDrainComplete ext s).clk = s.clk := by simp [effDrainComplete]
@[simp] theorem effDrainForced_clk (ext : Nat) (s : State) : (effDrainForced ext s).clk = s.clk := by
  unfold effDrainForced
  split <;> simp

/-! ### HostIf -/

@[simp] theorem effSqDoorbell_clk (port func sq tail : Nat) (entries : List (List Byte)) (tb : Bool) (s : State) :
    (effSqDoorbell port func sq tail entries tb s).clk = s.clk := by
  unfold effSqDoorbell
  dsimp only
  refine clk_of_ite ?_ (clk_of_ite ?_ (clk_of_ite ?_ ?_)) <;> simp
@[simp] theorem effSqPhaseRepoll_clk (port func sq : Nat) (entry : List Byte) (s : State) :
    (effSqPhaseRepoll port func sq entry s).clk = s.clk := by simp [effSqPhaseRepoll]
@[simp] theorem effNop_clk (port func sq : Nat) (s : State) : (effNop port func sq s).clk = s.clk := by
  unfold effNop
  split <;> simp
@[simp] theorem effFence_clk (port func sq : Nat) (s : State) : (effFence port func sq s).clk = s.clk := by
  unfold effFence
  dsimp only
  split
  · simp
  · split
    · simp
    · split <;> simp
@[simp] theorem sendSvcreq_clk (port func sq i seq : Nat) (d payload : List Byte) (s : State) :
    (sendSvcreq port func sq i seq d payload s).clk = s.clk := by simp [sendSvcreq]
@[simp] theorem effSvc_clk (port func sq : Nat) (payload : HostAns) (s : State) : (effSvc port func sq payload s).clk = s.clk := by
  unfold effSvc
  dsimp only
  split
  · simp
  · split
    · simp
    · split
      · simp
      · split
        · simp
        · split
          · split <;> simp
          · simp
@[simp] theorem dropReq_clk (port func sq seq : Nat) (s : State) : (dropReq port func sq seq s).clk = s.clk := rfl
@[simp] theorem effSqAbandon_clk (port func sq seq : Nat) (s : State) : (effSqAbandon port func sq seq s).clk = s.clk := by
  unfold effSqAbandon
  split <;> simp
@[simp] theorem hostCompletion_clk (p : Packet) (s : State) : (hostCompletion p s).clk = s.clk := by
  unfold hostCompletion
  dsimp only
  split <;> simp
@[simp] theorem threadCompletion_clk (p : Packet) (s : State) : (threadCompletion p s).clk = s.clk := by
  unfold threadCompletion
  refine clk_of_ite ?_ ?_ <;> simp
@[simp] theorem effSvccmp_clk (s : State) : (effSvccmp s).clk = s.clk := by
  unfold effSvccmp
  split
  · simp
  · next h => simp [clk_of_some (takeMod_clk _ _) h]
@[simp] theorem effCqDoorbell_clk (port func cq head : Nat) (tb : Bool) (s : State) :
    (effCqDoorbell port func cq head tb s).clk = s.clk := by simp [effCqDoorbell]
@[simp] theorem effCqCoalesceTimeout_clk (port func cq : Nat) (s : State) :
    (effCqCoalesceTimeout port func cq s).clk = s.clk := by simp [effCqCoalesceTimeout]
@[simp] theorem effRingConfigWrite_clk (port func off size : Nat) (value : Word) (tb : Bool) (s : State) :
    (effRingConfigWrite port func off size value tb s).clk = s.clk := by
  unfold effRingConfigWrite
  dsimp only
  refine clk_of_ite ?_ (clk_of_ite ?_ (clk_of_ite ?_ ?_)) <;> simp
@[simp] theorem effMownRequest_clk (port : Nat) (s : State) : (effMownRequest port s).clk = s.clk := by
  unfold effMownRequest
  refine clk_of_ite ?_ (clk_of_ite ?_ (clk_of_ite ?_ ?_)) <;> simp
@[simp] theorem effMownRenew_clk (port : Nat) (s : State) : (effMownRenew port s).clk = s.clk := by simp [effMownRenew]
@[simp] theorem effMownRelease_clk (port : Nat) (s : State) : (effMownRelease port s).clk = s.clk := by simp [effMownRelease]
@[simp] theorem effOwnLeaseLapse_clk (s : State) : (effOwnLeaseLapse s).clk = s.clk := by simp [effOwnLeaseLapse]
@[simp] theorem effResultWindowRead_clk (port func win off size : Nat) (tb : Bool) (s : State) :
    (effResultWindowRead port func win off size tb s).clk = s.clk := by
  unfold effResultWindowRead
  refine clk_of_ite ?_ (clk_of_ite ?_ ?_) <;> simp
@[simp] theorem effResultWindowConsume_clk (port func win : Nat) (value : Word) (tb : Bool) (s : State) :
    (effResultWindowConsume port func win value tb s).clk = s.clk := by
  simp [effResultWindowConsume]
@[simp] theorem refuseConf_clk (s : State) : (refuseConf s).clk = s.clk := rfl
@[simp] theorem effFifoConfigWrite_clk (port fifo half : Nat) (value : Word) (s : State) :
    (effFifoConfigWrite port fifo half value s).clk = s.clk := by simp [effFifoConfigWrite]
@[simp] theorem replyWord_clk (port func size : Nat) (w : Word) (s : State) : (replyWord port func size w s).clk = s.clk := by simp [replyWord]
@[simp] theorem effFifoPop_clk (port func fifo size : Nat) (seen : EccSeen) (tb : Bool) (s : State) :
    (effFifoPop port func fifo size seen tb s).clk = s.clk := by
  unfold effFifoPop
  split
  · simp
  · split
    · dsimp only
      split
      · simp
      · split <;> simp
    · dsimp only
      split
      · simp
      · split <;> simp
    · dsimp only
      split
      · simp
      · split <;> simp
@[simp] theorem effFifoPush_clk (port func fifo size : Nat) (value : Word) (tb : Bool) (s : State) :
    (effFifoPush port func fifo size value tb s).clk = s.clk := by simp [effFifoPush]
@[simp] theorem effFstatRead_clk (port func fifo off size : Nat) (tb : Bool) (s : State) :
    (effFstatRead port func fifo off size tb s).clk = s.clk := by
  unfold effFstatRead
  refine clk_of_ite ?_ (clk_of_ite ?_ (clk_of_ite ?_ ?_)) <;> simp
@[simp] theorem msixWrite_clk (port func off size value : Nat) (s : State) : (msixWrite port func off size value s).clk = s.clk := by simp [msixWrite]
@[simp] theorem fifoConfWrite_clk (port fifo half off size value : Nat) (s : State) :
    (fifoConfWrite port fifo half off size value s).clk = s.clk := by simp [fifoConfWrite]
@[simp] theorem fstatWrite_clk (port func off size value : Nat) (s : State) :
    (fstatWrite port func off size value s).clk = s.clk := by simp [fstatWrite]
@[simp] theorem configWrite_clk (port func off value : Nat) (s : State) : (configWrite port func off value s).clk = s.clk := by simp [configWrite]
@[simp] theorem modstatWrite_clk (port v : Nat) (s : State) : (modstatWrite port v s).clk = s.clk := rfl
@[simp] theorem globalWrite_clk (port off size value : Nat) (s : State) : (globalWrite port off size value s).clk = s.clk := by
  unfold globalWrite
  split <;> simp
@[simp] theorem effRegisterWrite_clk (port func off size : Nat) (value : Word) (tb : Bool) (s : State) :
    (effRegisterWrite port func off size value tb s).clk = s.clk := by
  unfold effRegisterWrite
  refine clk_of_ite ?_ (clk_of_ite ?_ (clk_of_ite ?_ ?_)) <;> simp

/-! ### Kreq -/

@[simp] theorem kreq_clk (op : Nat) (site : Site) (s : State) : (kreq op site s).clk = s.clk := by simp [kreq]
@[simp] theorem effKreqAlloc_clk (site : Site) (s : State) : (effKreqAlloc site s).clk = s.clk := by simp [effKreqAlloc]
@[simp] theorem effKreqImport_clk (site : Site) (s : State) : (effKreqImport site s).clk = s.clk := by simp [effKreqImport]
@[simp] theorem effKreqShare_clk (site : Site) (s : State) : (effKreqShare site s).clk = s.clk := by simp [effKreqShare]
@[simp] theorem effKreqDestroy_clk (site : Site) (s : State) : (effKreqDestroy site s).clk = s.clk := by simp [effKreqDestroy]
@[simp] theorem effKreqRetire_clk (site : Site) (s : State) : (effKreqRetire site s).clk = s.clk := by simp [effKreqRetire]
@[simp] theorem effKreqQuery_clk (site : Site) (s : State) : (effKreqQuery site s).clk = s.clk := by simp [effKreqQuery]
@[simp] theorem effKreqReport_clk (site : Site) (s : State) : (effKreqReport site s).clk = s.clk := by simp [effKreqReport]
@[simp] theorem effKreqScrub_clk (site : Site) (s : State) : (effKreqScrub site s).clk = s.clk := by simp [effKreqScrub]
@[simp] theorem effKreqComplete_clk (s : State) : (effKreqComplete s).clk = s.clk := by
  unfold effKreqComplete
  dsimp only
  split
  · simp
  · split <;> simp

/-! ### KvPages -/

@[simp] theorem kvSay_clk (m : Mail) (status : Nat) (found exists_ : Bool) (w : Nat) (s : State) :
    (kvSay m status found exists_ w s).clk = s.clk := by simp [kvSay]
theorem kvMakeRow_clk (m : Mail) (s : State) : ∀ r ∈ kvMakeRow m s, r.2.clk = s.clk := by
  unfold kvMakeRow
  split
  · simp
  · split
    · simp
    · split
      · exact some_clk (st := Prod.snd) ((clk_of_svc _ _).trans (writeImage_clk _ _ _))
      · simp
@[simp] theorem kvDropRow_clk (r : Nat) (s : State) : (kvDropRow r s).clk = s.clk := by
  unfold kvDropRow
  split
  · simp
  · split
    · simp
    · split <;> simp
@[simp] theorem kvSet_clk (k v : Nat) (s : State) : (kvSet k v s).clk = s.clk := rfl
@[simp] theorem kvEmpty_clk (k : Nat) (s : State) : (kvEmpty k s).clk = s.clk := by simp [kvEmpty]
@[simp] theorem kvSweep_clk (l : List Nat) (s : State) : (kvSweep l s).2.clk = s.clk := by
  induction l generalizing s with
  | nil => rfl
  | cons k rest ih =>
    unfold kvSweep
    dsimp only
    split
    · exact ih s
    · split
      · rw [ih, kvSet_clk]
      · rfl
@[simp] theorem kvVictim_clk (c : Nat) (s : State) : (kvVictim c s).2.clk = s.clk := by
  unfold kvVictim
  dsimp only
  split <;> simp
theorem kvGive_clk (m : Mail) (p : Nat) (s : State) : ∀ r ∈ kvGive m p s, r.clk = s.clk := by
  rintro _ h
  obtain ⟨x, hx, rfl⟩ := Option.map_eq_some_iff.1 h
  simpa using kvMakeRow_clk m s x hx
theorem kvAllocate_clk (m : Mail) (s : State) : ∀ r ∈ kvAllocate m s, r.2.clk = s.clk := by
  have hmap : ∀ (b : Bool) (u : State) (o : Option State), (∀ t ∈ o, t.clk = u.clk) → u.clk = s.clk →
      ∀ r ∈ o.map (fun t => (b, t)), r.2.clk = s.clk := by
    rintro b u o ho hu _ h
    obtain ⟨t, ht, rfl⟩ := Option.map_eq_some_iff.1 h
    exact (ho t ht).trans hu
  have hv := kvVictim_clk m.ctx s
  unfold kvAllocate
  dsimp only
  generalize kvVictim m.ctx s = v at hv ⊢
  split
  · exact hmap _ _ _ (kvGive_clk _ _ _) rfl
  · split
    · simp
    · split
      · next h =>
        obtain ⟨p, -, hp⟩ := List.exists_of_findSome?_eq_some h
        exact some_clk (st := Prod.snd) (tryMove_clk _ _ _ _ _ _ _ hp)
      · split
        · simp
        · split
          · simp
          · split
            · exact hmap _ _ _ (kvGive_clk _ _ _) (by simp [hv])
            · split
              · simp
              · split
                · next h => exact some_clk (st := Prod.snd) ((tryMove_clk _ _ _ _ _ _ _ h).trans hv)
                · exact hmap _ _ _ (tryMove_clk _ _ _ _ _ _) hv
@[simp] theorem effKvAlloc_clk (s : State) : (effKvAlloc s).clk = s.clk := by
  unfold effKvAlloc
  split
  · simp
  · next h =>
    split
    · simp [clk_of_some (takeMail_clk _ _ _) h]
    · split
      · simp [clk_of_some (takeMail_clk _ _ _) h]
      · split
        · simp [clk_of_some (takeMail_clk _ _ _) h]
        · next h1 => simp [clk_of_some (takeMail_clk _ _ _) h, clk_of_some (kvAllocate_clk _ _) h1]
        · next h1 => simp [clk_of_some (takeMail_clk _ _ _) h, clk_of_some (kvAllocate_clk _ _) h1]
@[simp] theorem kvReturn_clk (m : Mail) (k : Option Nat) (s : State) : (kvReturn m k s).clk = s.clk := by
  unfold kvReturn
  split <;> simp
@[simp] theorem effKvLookup_clk (s : State) : (effKvLookup s).clk = s.clk := by
  unfold effKvLookup
  split
  · simp
  · next h =>
    split
    · simp [clk_of_some (takeMail_clk _ _ _) h]
    · split
      · simp [clk_of_some (takeMail_clk _ _ _) h]
      · simp [clk_of_some (takeMail_clk _ _ _) h]
@[simp] theorem effKvLookupWaitEnd_clk (s : State) : (effKvLookupWaitEnd s).clk = s.clk := by
  unfold effKvLookupWaitEnd
  split <;> simp
@[simp] theorem effKvUnpin_clk (s : State) : (effKvUnpin s).clk = s.clk := by
  unfold effKvUnpin
  split
  · simp
  · next h =>
    split
    · simp [clk_of_some (takeMail_clk _ _ _) h]
    · split
      · simp [clk_of_some (takeMail_clk _ _ _) h]
      · simp [clk_of_some (takeMail_clk _ _ _) h]
@[simp] theorem kvFreeWord_clk (s : State) (k : Nat) : (kvFreeWord s k).clk = s.clk := by simp [kvFreeWord]
@[simp] theorem effKvFreeseq_clk (s : State) : (effKvFreeseq s).clk = s.clk := by
  unfold effKvFreeseq
  split
  · simp
  · next h => simp [clk_of_some (takeMail_clk _ _ _) h]

/-! ### Lease -/

@[simp] theorem setFree_clk (l : List (Nat × Nat × Nat)) (s : State) : (setFree l s).clk = s.clk := rfl
@[simp] theorem effLeaseRegister_clk (s : State) : (effLeaseRegister s).clk = s.clk := by
  unfold effLeaseRegister
  split
  · simp
  · next h => simp [clk_of_some (takeMail_clk _ _ _) h]
@[simp] theorem effLeasePeer_clk (m : Mail) (s : State) : (effLeasePeer m s).clk = s.clk := by
  unfold effLeasePeer
  split
  · dsimp only
    split
    · simp
    · split <;> simp
  · dsimp only
    split
    · simp
    · split <;> simp
@[simp] theorem tellState_clk (e form : Nat) (s : State) : (tellState e form s).clk = s.clk := by simp [tellState]
@[simp] theorem installAt_clk (m : Mail) (e node base : Nat) (mods : List Nat) (s : State) :
    (installAt m e node base mods s).clk = s.clk := by simp [installAt]
@[simp] theorem effLeaseGrant_clk (s : State) : (effLeaseGrant s).clk = s.clk := by
  unfold effLeaseGrant
  split
  · rfl
  · next m t h =>
    have ht : t.clk = s.clk := clk_of_some (takeMail_clk _ _ _) h
    extract_lets d n k
    split
    · simp [ht]
    · split
      · simp [ht]
      · split
        · simp [ht]
        · split
          · extract_lets r
            split
            · exact (installAt_clk _ _ _ _ _ _).trans ((setFree_clk _ _).trans ((serviceCommit_clk _ _ _).trans ht))
            · simp [ht]
          · simp [ht]
@[simp] theorem renewOne_clk (src e : Nat) (s : State) : (renewOne src e s).2.clk = s.clk := by simp [renewOne]
@[simp] theorem renewList_clk (src : Nat) (l : List Nat) (s : State) : (renewList src l s).2.2.2.clk = s.clk := by
  refine foldl_fixes (fun a : Nat × Nat × Option (Nat × Nat) × State => a.2.2.2.clk) _ (fun a e => ?_) l _
  dsimp only
  split <;> simp
@[simp] theorem effLeaseRenew_clk (s : State) : (effLeaseRenew s).clk = s.clk := by
  unfold effLeaseRenew
  split
  · simp
  · next h => simp [clk_of_some (takeMail_clk _ _ _) h]
@[simp] theorem effLeaseRenewAll_clk (s : State) : (effLeaseRenewAll s).clk = s.clk := by
  unfold effLeaseRenewAll
  split
  · simp
  · next h => simp [clk_of_some (takeMail_clk _ _ _) h]
@[simp] theorem effBackingLeaseRenew_clk (s : State) : (effBackingLeaseRenew s).clk = s.clk := by simp [effBackingLeaseRenew]
@[simp] theorem revokeOne_clk (e : Nat) (s : State) : (revokeOne e s).2.clk = s.clk := by simp [revokeOne]
@[simp] theorem effLeaseRelease_clk (s : State) : (effLeaseRelease s).clk = s.clk := by
  unfold effLeaseRelease
  split
  · simp
  · next h => simp [clk_of_some (takeMail_clk _ _ _) h]
@[simp] theorem effLeaseRevoke_clk (s : State) : (effLeaseRevoke s).clk = s.clk := by
  unfold effLeaseRevoke
  split
  · simp
  · next h => simp [clk_of_some (takeMail_clk _ _ _) h]
@[simp] theorem effLeaseScan_clk (s : State) : (effLeaseScan s).clk = s.clk := by simp [effLeaseScan]
@[simp] theorem effScrubStart_clk (ext : Nat) (s : State) : (effScrubStart ext s).clk = s.clk := by simp [effScrubStart]
@[simp] theorem effScrubComplete_clk (ext : Nat) (s : State) : (effScrubComplete ext s).clk = s.clk := by
  unfold effScrubComplete
  dsimp only
  refine clk_of_ite ?_ ?_
  · rfl
  · refine clk_of_ite ?_ ?_
    · rfl
    · split <;> simp

/-! ### MapProto -/

theorem takeMap_clk (code : Nat) (s : State) : ∀ r ∈ takeMap code s, r.2.clk = s.clk := by
  rintro _ h
  obtain ⟨x, hx, rfl⟩ := Option.map_eq_some_iff.1 h
  exact (mapEvent_clk _ _).trans (takeMod_clk _ _ x hx)
@[simp] theorem setChange_clk (c : Change) (s : State) : (setChange c s).clk = s.clk := rfl
@[simp] theorem sendFlips_clk (c : Change) (s : State) : (sendFlips c s).clk = s.clk := by simp [sendFlips]
@[simp] theorem settleChange_clk (s : State) : (settleChange s).clk = s.clk := by
  unfold settleChange
  split <;> simp
@[simp] theorem startFlip_clk (c : Change) (s : State) : (startFlip c s).clk = s.clk := by
  unfold startFlip
  split
  · simp
  · next h => simp [flipMap_clk _ _ _ h]
@[simp] theorem effCompositionChangeStart_clk (s : State) : (effCompositionChangeStart s).clk = s.clk := by
  unfold effCompositionChangeStart
  refine clk_of_ite ?_ (clk_of_ite ?_ (clk_of_ite ?_ ?_)) <;> simp
@[simp] theorem effMapStaged_clk (s : State) : (effMapStaged s).clk = s.clk := by
  unfold effMapStaged
  split
  · simp
  · next h =>
    split
    · simp [clk_of_some (takeMap_clk _ _) h]
    · simp [clk_of_some (takeMap_clk _ _) h]
@[simp] theorem effMapFlip_clk (s : State) : (effMapFlip s).clk = s.clk := by
  unfold effMapFlip
  split
  · simp
  · next h =>
    split
    · next h1 => simp [clk_of_some (takeMap_clk _ _) h, flipMap_clk _ _ _ h1]
    · simp [clk_of_some (takeMap_clk _ _) h]
@[simp] theorem effMapFlipped_clk (s : State) : (effMapFlipped s).clk = s.clk := by
  unfold effMapFlipped
  split
  · simp
  · next h =>
    split
    · simp [clk_of_some (takeMap_clk _ _) h]
    · simp [clk_of_some (takeMap_clk _ _) h]
@[simp] theorem effMapAbort_clk (s : State) : (effMapAbort s).clk = s.clk := by
  unfold effMapAbort
  split
  · simp
  · next h => simp [clk_of_some (takeMap_clk _ _) h]
@[simp] theorem effMapRetired_clk (s : State) : (effMapRetired s).clk = s.clk := by
  unfold effMapRetired
  split
  · simp
  · next h =>
    split
    · simp [clk_of_some (takeMap_clk _ _) h]
    · simp [clk_of_some (takeMap_clk _ _) h]
@[simp] theorem effMapStageTimeout_clk (s : State) : (effMapStageTimeout s).clk = s.clk := by
  unfold effMapStageTimeout
  split <;> simp
@[simp] theorem effMapFlipRepeat_clk (s : State) : (effMapFlipRepeat s).clk = s.clk := by
  unfold effMapFlipRepeat
  split <;> simp
@[simp] theorem effMapPeerMissing_clk (s : State) : (effMapPeerMissing s).clk = s.clk := by
  unfold effMapPeerMissing
  split <;> simp
@[simp] theorem effLinkStateFlood_clk (s : State) : (effLinkStateFlood s).clk = s.clk := by simp [effLinkStateFlood]
@[simp] theorem settleDuplicate_clk (r : LinkRec) (s : State) (n : Nat) : (settleDuplicate r s n).clk = s.clk := by simp [settleDuplicate]
@[simp] theorem effLinkStateRecord_clk (port : Nat) (rec : LinkRec) (s : State) :
    (effLinkStateRecord port rec s).clk = s.clk := by
  unfold effLinkStateRecord
  refine clk_of_ite ?_ ?_ <;> simp

/-! ### Recording -/

@[simp] theorem archiveOne_clk (die : Nat) (areas : List Nat) (s : State) : (archiveOne die areas s).clk = s.clk := rfl
@[simp] theorem effArchiveCopy_clk (die : Nat) (s : State) : (effArchiveCopy die s).clk = s.clk := by simp [effArchiveCopy]
@[simp] theorem effCriticalArchiveWrite_clk (s : State) : (effCriticalArchiveWrite s).clk = s.clk := by
  unfold effCriticalArchiveWrite
  split <;> simp
@[simp] theorem effEpoch_clk (s : State) : (effEpoch s).clk = s.clk := by simp [effEpoch]
@[simp] theorem takeAddress_clk (addr : Nat) (s : State) : (takeAddress addr s).clk = s.clk := by simp [takeAddress]
@[simp] theorem effEntdaa_clk (addr : Nat) (s : State) : (effEntdaa addr s).clk = s.clk := by simp [effEntdaa]
@[simp] theorem effSetdasa_clk (static addr : Nat) (s : State) : (effSetdasa static addr s).clk = s.clk := by simp [effSetdasa]
@[simp] theorem effBoardProfileWrite_clk (profile : List Byte) (s : State) :
    (effBoardProfileWrite profile s).clk = s.clk := by simp [effBoardProfileWrite]

/-! ### Requests -/

@[simp] theorem holdTag_clk (tag : Nat) (s : State) : (holdTag tag s).clk = s.clk := rfl
@[simp] theorem effRequestTimeout_clk (tag : Nat) (s : State) : (effRequestTimeout tag s).clk = s.clk := by
  unfold effRequestTimeout
  split
  · simp
  · split <;> simp
@[simp] theorem effRequestRetry_clk (tag : Nat) (s : State) : (effRequestRetry tag s).clk = s.clk := by
  unfold effRequestRetry
  split
  · simp
  · split
    · simp
    · split
      · simp
      · split <;> simp

/-! ### Vectors -/

theorem onHandler_keepsClk (x : Site) (s : State) (f : Nat → Handler → YOut) (hf : ∀ t h, (f t h).KeepsClk s) : (onHandler x s f).KeepsClk s := by
  unfold onHandler
  split
  · split
    · exact hf _ _
    · simp
  · simp
@[simp] theorem keep_keepsClk (t : Nat) (h : Handler) (s : State) : (keep t h s).KeepsClk s := by simp [keep]

/-! ### YVector -/

@[simp] theorem arith_keepsClk (ok : Nat → Bool) (opN : Num → Num → Num → Num) (opI : Int → Int → Int) (readsD : Bool) (x : Site) (w : Nat) (s : State) :
    (arith ok opN opI readsD x w s).KeepsClk s := by
  unfold arith
  dsimp only
  split
  · simp
  · split
    · simp
    · refine onHandler_keepsClk _ _ _ (fun t h => ?_)
      split
      · simp
      · split
        · split <;> simp
        · split <;> simp
@[simp] theorem effVadd_clk (site : Site) (s : State) : (effVadd site s).clk = s.clk := by simp [effVadd]
@[simp] theorem effVsub_clk (site : Site) (s : State) : (effVsub site s).clk = s.clk := by simp [effVsub]
@[simp] theorem effVmul_clk (site : Site) (s : State) : (effVmul site s).clk = s.clk := by simp [effVmul]
@[simp] theorem effVfma_clk (site : Site) (s : State) : (effVfma site s).clk = s.clk := by simp [effVfma]
@[simp] theorem effVmax_clk (site : Site) (s : State) : (effVmax site s).clk = s.clk := by simp [effVmax]
@[simp] theorem effVmin_clk (site : Site) (s : State) : (effVmin site s).clk = s.clk := by simp [effVmin]
@[simp] theorem cvt_keepsClk (x : Site) (w : Nat) (s : State) : (cvt x w s).KeepsClk s := by
  unfold cvt
  dsimp only
  split
  · simp
  · split
    · simp
    · split
      · simp
      · refine onHandler_keepsClk _ _ _ (fun t h => ?_)
        split
        · split
          · split
            · simp
            · split <;> simp
          · split
            · simp
            · simp
        · simp
@[simp] theorem effVcvt_clk (site : Site) (s : State) : (effVcvt site s).clk = s.clk := by simp [effVcvt]
@[simp] theorem bitwise_keepsClk (op : Nat → Nat → Nat) (x : Site) (w : Nat) (s : State) : (bitwise op x w s).KeepsClk s := by
  unfold bitwise
  split
  · simp
  · refine onHandler_keepsClk _ _ _ (fun t h => ?_)
    split <;> simp
@[simp] theorem effVand_clk (site : Site) (s : State) : (effVand site s).clk = s.clk := by simp [effVand]
@[simp] theorem effVor_clk (site : Site) (s : State) : (effVor site s).clk = s.clk := by simp [effVor]
@[simp] theorem effVxor_clk (site : Site) (s : State) : (effVxor site s).clk = s.clk := by simp [effVxor]
@[simp] theorem shift_keepsClk (op : Int → Nat → Int) (x : Site) (w : Nat) (s : State) : (shift op x w s).KeepsClk s := by
  unfold shift
  dsimp only
  split
  · simp
  · split
    · simp
    · refine onHandler_keepsClk _ _ _ (fun t h => ?_)
      split <;> simp
@[simp] theorem effVshl_clk (site : Site) (s : State) : (effVshl site s).clk = s.clk := by simp [effVshl]
@[simp] theorem effVshr_clk (site : Site) (s : State) : (effVshr site s).clk = s.clk := by simp [effVshr]
@[simp] theorem compareLanes_keepsClk (x : Site) (w : Nat) (s : State) : (compareLanes x w s).KeepsClk s := by
  unfold compareLanes
  split
  · simp
  · split
    · simp
    · refine onHandler_keepsClk _ _ _ (fun t h => ?_)
      dsimp only
      split <;> simp
@[simp] theorem effVcmp_clk (site : Site) (s : State) : (effVcmp site s).clk = s.clk := by simp [effVcmp]
@[simp] theorem effVsel_clk (site : Site) (s : State) : (effVsel site s).clk = s.clk := by
  unfold effVsel
  refine issue_clk _ _ _ _ (fun x w t => ?_) _ _
  split
  · simp
  · split
    · simp
    · refine onHandler_keepsClk _ _ _ (fun t h => ?_)
      split <;> simp
@[simp] theorem effVbcast_clk (site : Site) (s : State) : (effVbcast site s).clk = s.clk := by
  unfold effVbcast
  refine issue_clk _ _ _ _ (fun x w t => ?_) _ _
  dsimp only
  split
  · simp
  · split
    · simp
    · refine onHandler_keepsClk _ _ _ (fun t h => ?_)
      split <;> simp
@[simp] theorem effVld_clk (site : Site) (s : State) : (effVld site s).clk = s.clk := by
  unfold effVld
  refine issue_clk _ _ _ _ (fun x w t => ?_) _ _
  dsimp only
  split
  · simp
  · split
    · simp
    · refine onHandler_keepsClk _ _ _ (fun t h => ?_)
      split
      · simp
      · split <;> simp
@[simp] theorem effVst_clk (site : Site) (s : State) : (effVst site s).clk = s.clk := by
  unfold effVst
  refine issue_clk _ _ _ _ (fun x w t => ?_) _ _
  dsimp only
  split
  · simp
  · split
    · simp
    · refine onHandler_keepsClk _ _ _ (fun t h => ?_)
      split
      · split <;> simp
      · simp
@[simp] theorem effVlds_clk (site : Site) (s : State) : (effVlds site s).clk = s.clk := by
  unfold effVlds
  refine issue_clk _ _ _ _ (fun x w t => ?_) _ _
  dsimp only
  split
  · simp
  · split
    · simp
    · refine onHandler_keepsClk _ _ _ (fun t h => ?_)
      split <;> simp
@[simp] theorem effVsts_clk (site : Site) (s : State) : (effVsts site s).clk = s.clk := by
  unfold effVsts
  refine issue_clk _ _ _ _ (fun x w t => ?_) _ _
  dsimp only
  split
  · simp
  · split
    · simp
    · refine onHandler_keepsClk _ _ _ (fun t h => ?_)
      split
      · simp
      · split <;> simp
@[simp] theorem plog_keepsClk (x : Site) (w : Nat) (s : State) : (plog x w s).KeepsClk s := by
  unfold plog
  split
  · simp
  · dsimp only
    split
    · simp
    · refine onHandler_keepsClk _ _ _ (fun t h => ?_)
      split <;> simp
@[simp] theorem effPlog_clk (site : Site) (s : State) : (effPlog site s).clk = s.clk := by simp [effPlog]

/-! ### YReduce -/

@[simp] theorem putLines_clk (t a bytes : Nat) (lines : List Nat) (s : State) : (putLines t a bytes lines s).clk = s.clk := by simp [putLines]
@[simp] theorem storeAcc_keepsClk (x : Site) (t a f af : Nat) (new : SMap Nat) (h : Handler) (s : State) :
    (storeAcc x t a f af new h s).KeepsClk s := by simp [storeAcc]
@[simp] theorem reduceFp_keepsClk (op : Num → Num → Num) (first : Num → Num) (x : Site) (w af : Nat) (pm : Option Nat) (v : List Num) (t : Nat) (h : Handler) (s : State) :
    (reduceFp op first x w af pm v t h s).KeepsClk s := by
  simp [reduceFp]
@[simp] theorem reduceInt_keepsClk (op : Int → Int → Int) (x : Site) (w af : Nat) (pm : Option Nat) (v : List Int) (t : Nat) (h : Handler) (s : State) :
    (reduceInt op x w af pm v t h s).KeepsClk s := by
  simp [reduceInt]
@[simp] theorem vred_keepsClk (x : Site) (w : Nat) (s : State) : (vred x w s).KeepsClk s := by
  unfold vred
  dsimp only
  split
  · simp
  · split
    · simp
    · split
      · simp
      · refine onHandler_keepsClk _ _ _ (fun t h => ?_)
        split
        · simp
        · split
          · split <;> simp
          · split <;> simp
@[simp] theorem effVred_clk (site : Site) (s : State) : (effVred site s).clk = s.clk := by simp [effVred]
@[simp] theorem vwsum_keepsClk (x : Site) (w : Nat) (s : State) : (vwsum x w s).KeepsClk s := by
  unfold vwsum
  split
  · simp
  · dsimp only
    split
    · simp
    · split
      · simp
      · refine onHandler_keepsClk _ _ _ (fun t h => ?_)
        split
        · split <;> simp
        · simp
@[simp] theorem effVwsum_clk (site : Site) (s : State) : (effVwsum site s).clk = s.clk := by simp [effVwsum]
@[simp] theorem vmaxl_keepsClk (x : Site) (w : Nat) (s : State) : (vmaxl x w s).KeepsClk s := by
  unfold vmaxl
  split
  · simp
  · split
    · dsimp only
      split
      · simp
      · refine onHandler_keepsClk _ _ _ (fun t h => ?_)
        split <;> simp
    · dsimp only
      split
      · simp
      · refine onHandler_keepsClk _ _ _ (fun t h => ?_)
        split <;> simp
@[simp] theorem effVmaxl_clk (site : Site) (s : State) : (effVmaxl site s).clk = s.clk := by simp [effVmaxl]
@[simp] theorem vcmpz_keepsClk (x : Site) (w : Nat) (s : State) : (vcmpz x w s).KeepsClk s := by
  unfold vcmpz
  split
  · simp
  · split
    · simp
    · refine onHandler_keepsClk _ _ _ (fun t h => ?_)
      dsimp only
      split <;> simp
@[simp] theorem effVcmpz_clk (site : Site) (s : State) : (effVcmpz site s).clk = s.clk := by simp [effVcmpz]
@[simp] theorem vexp_keepsClk (x : Site) (w : Nat) (s : State) : (vexp x w s).KeepsClk s := by
  unfold vexp
  split
  · simp
  · refine onHandler_keepsClk _ _ _ (fun t h => ?_)
    split <;> simp
@[simp] theorem effVexp_clk (site : Site) (s : State) : (effVexp site s).clk = s.clk := by simp [effVexp]
@[simp] theorem vtopk_keepsClk (x : Site) (w : Nat) (s : State) : (vtopk x w s).KeepsClk s := by
  unfold vtopk
  split
  · simp
  · dsimp only
    split
    · simp
    · refine onHandler_keepsClk _ _ _ (fun t h => ?_)
      split <;> simp
@[simp] theorem effVtopk_clk (site : Site) (s : State) : (effVtopk site s).clk = s.clk := by simp [effVtopk]

/-! ### Search -/

@[simp] theorem waitHere_clk (x : Site) (s : State) : (waitHere x s).clk = s.clk := by
  unfold waitHere
  split <;> simp
@[simp] theorem takeAnswers_clk (t : Nat) (s : State) : (takeAnswers t s).clk = s.clk := rfl
theorem awaitKeys_keepsClk (x : Site) (t : Nat) (keys : List PKey) (k : List Word → State → YOut) (s : State)
    (hk : ∀ a u, u.clk = s.clk → (k a u).KeepsClk s) : (awaitKeys x t keys k s).KeepsClk s := by
  unfold awaitKeys
  dsimp only
  split
  · exact hk _ _ (by simp)
  · split
    · simp
    · simp
theorem searchRow_keepsClk (x : Site) (t tab ctx : Nat) (keys : List PKey) (k : List Word → State → YOut) (s : State)
    (hk : ∀ a u, u.clk = s.clk → (k a u).KeepsClk s) : (searchRow x t tab ctx keys k s).KeepsClk s := by
  unfold searchRow
  split
  · exact awaitKeys_keepsClk _ _ _ _ _ hk
  · exact hk _ _ (by simp)
@[simp] theorem effSrch_clk (site : Site) (s : State) : (effSrch site s).clk = s.clk := by
  refine issue_clk _ _ _ _ (fun x w t => onHandler_keepsClk _ _ _ (fun i h => ?_)) _ _
  split
  · simp
  · split
    · simp
    · exact searchRow_keepsClk _ _ _ _ _ _ _ (fun a u hu => by simp [hu])
@[simp] theorem effSrchnext_clk (site : Site) (s : State) : (effSrchnext site s).clk = s.clk := by
  refine issue_clk _ _ _ _ (fun x w t => onHandler_keepsClk _ _ _ (fun i h => ?_)) _ _
  dsimp only
  split
  · simp
  · split
    · simp
    · split
      · simp
      · exact searchRow_keepsClk _ _ _ _ _ _ _ (fun a u hu => by simp [hu])
@[simp] theorem effSrchp_clk (site : Site) (s : State) : (effSrchp site s).clk = s.clk := by
  refine issue_clk _ _ _ _ (fun x w t => onHandler_keepsClk _ _ _ (fun i h => ?_)) _ _
  split
  · simp
  · split
    · simp
    · simp
    · exact searchRow_keepsClk _ _ _ _ _ _ _ (fun a u hu => by simp [hu])
@[simp] theorem countSearch_clk (t : Nat) (s : State) : (countSearch t s).clk = s.clk := by simp [countSearch]
@[simp] theorem compareCas_clk (c : CasSearch) (s : State) : (compareCas c s).2.clk = s.clk := by simp [compareCas]
@[simp] theorem dropCas_clk (origin oseq : Nat) (s : State) : (dropCas origin oseq s).clk = s.clk := rfl
@[simp] theorem putCas_clk (c : CasSearch) (s : State) : (putCas c s).clk = s.clk := by
  unfold putCas
  refine clk_of_ite ?_ ?_ <;> simp
@[simp] theorem settleCas_clk (c : CasSearch) (s : State) : (settleCas c s).clk = s.clk := by
  unfold settleCas
  split
  · simp
  · split <;> simp
@[simp] theorem issueCas_clk (k : PKey) (s : State) : (issueCas k s).clk = s.clk := by simp [issueCas]
@[simp] theorem effPeridotSearch_clk (die : Nat) (s : State) : (effPeridotSearch die s).clk = s.clk := by
  unfold effPeridotSearch
  split
  · simp
  · next h =>
    split
    · simp [clk_of_some (takeKey_clk _ _) h]
    · split
      · simp [clk_of_some (takeKey_clk _ _) h]
      · simp [clk_of_some (takeKey_clk _ _) h]
@[simp] theorem effCascadeKey_clk (origin oseq table ctx : Nat) (key : BitVec 640) (after : Option Nat) (s : State) :
    (effCascadeKey origin oseq table ctx key after s).clk = s.clk := by
  unfold effCascadeKey
  rw [ite_clk]
  split
  · rfl
  · rw [settleCas_clk, compareCas_clk]
    split <;> simp
@[simp] theorem effMatchWord_clk (pin word : Nat) (s : State) : (effMatchWord pin word s).clk = s.clk := by
  unfold effMatchWord
  extract_lets from_ origin oseq
  rw [ite_clk]
  split
  · rfl
  · rw [ite_clk, settleCas_clk, ite_self]
@[simp] theorem effCascadeResult_clk (origin oseq : Nat) (result : Word) (s : State) : (effCascadeResult origin oseq result s).clk = s.clk := by
  unfold effCascadeResult
  split
  · simp
  · split
    · simp
    · split <;> simp
@[simp] theorem effCascadeTimeout_clk (oseq : Nat) (s : State) : (effCascadeTimeout oseq s).clk = s.clk := by
  unfold effCascadeTimeout
  split <;> simp

/-! ### StreamOps -/

@[simp] theorem sendFetch_clk (k : Nat) (f : Fetch) (bstart : Bool) (s : State) : (sendFetch k f bstart s).clk = s.clk := by simp [sendFetch]
theorem endStream_clk (k : Nat) (close : Option Mail) (s : State) : ∀ r ∈ endStream k close s, r.clk = s.clk := by
  unfold endStream
  split
  · dsimp only
    split
    · simp
    · split <;> simp
  · dsimp only
    split
    · simp
    · split <;> simp

/-! ### Streams -/

@[simp] theorem openStream_clk (m : Mail) (list : PoolAns) (s : State) : (openStream m list s).2.2.clk = s.clk := by
  unfold openStream
  extract_lets d n consumers
  split
  · rfl
  · split
    · rfl
    · split
      · extract_lets es r x
        split
        · rfl
        · exact (State.setStream_clk _ _ _).trans (serviceCommit_clk _ _ _)
      · rfl
@[simp] theorem effWsOpen_clk (s : State) : (effWsOpen s).clk = s.clk := by
  unfold effWsOpen
  split
  · simp
  · next h =>
    split
    · simp [clk_of_some (takeMail_clk _ _ _) h]
    · split
      · simp
      · simp [clk_of_some (takeMail_clk _ _ _) h]
@[simp] theorem effWsAdvance_clk (s : State) : (effWsAdvance s).clk = s.clk := by
  unfold effWsAdvance
  split
  · simp
  · next h =>
    dsimp only
    split
    · simp [clk_of_some (takeMail_clk _ _ _) h]
    · simp [clk_of_some (takeMail_clk _ _ _) h]
@[simp] theorem effWsClose_clk (s : State) : (effWsClose s).clk = s.clk := by
  unfold effWsClose
  split
  · rfl
  · next h =>
    have ht := clk_of_some (takeMail_clk _ _ _) h
    dsimp only
    split
    · simp [ht]
    · split
      · next h2 => simp [endStream_clk _ _ _ _ h2, ht]
      · rfl
@[simp] theorem askEntry_clk (k : Nat) (s : State) : (askEntry k s).clk = s.clk := by simp [askEntry]
@[simp] theorem takeEntry_clk (k : Nat) (a : PoolAns) (s : State) : (takeEntry k a s).clk = s.clk := rfl
@[simp] theorem blockLen_clk (x : WStream) (e : OrderEnt) (s : State) : (blockLen x e s).2.clk = s.clk := by simp [blockLen]
@[simp] theorem fetchNext_clk (k : Nat) (e : OrderEnt) (s : State) : (fetchNext k e s).clk = s.clk := by simp [fetchNext]
@[simp] theorem effStreamFetchIssue_clk (stream : Nat) (s : State) : (effStreamFetchIssue stream s).clk = s.clk := by
  unfold effStreamFetchIssue
  dsimp only
  split
  · simp
  · split
    · split <;> simp
    · simp
@[simp] theorem effStreamBlockRefetch_clk (stream : Nat) (s : State) : (effStreamBlockRefetch stream s).clk = s.clk := by
  unfold effStreamBlockRefetch
  dsimp only
  split
  · split <;> simp
  · split <;> simp
@[simp] theorem closeOpen_clk (p : Packet) (s : State) : (closeOpen p s).clk = s.clk := by
  unfold closeOpen
  split <;> simp
@[simp] theorem leaveIn_clk (p : Packet) (ep head : Nat) (s : State) : (leaveIn p ep head s).clk = s.clk := by simp [leaveIn]
@[simp] theorem takeStreamResponse_clk (k : Nat) (p : Packet) (ep head : Nat) (s : State) : (takeStreamResponse k p ep head s).clk = s.clk := by
  unfold takeStreamResponse
  extract_lets u x
  have hu : u.clk = s.clk := by simp [u]
  clear_value u x
  split
  · simp [hu]
  · extract_lets v y w
    have hv : v.clk = s.clk := by simp [v, hu]
    have hw : w.clk = s.clk := by
      unfold w
      split
      · simp [hv]
      · exact (takeIn_clk _ (fun _ _ _ => lostPacket_switched _ _) _ _ _).trans hv
    clear_value w
    split <;> simp [hw]
@[simp] theorem effStreamResponse_clk (s : State) : (effStreamResponse s).clk = s.clk := by
  unfold effStreamResponse
  split
  · simp
  · split <;> simp
@[simp] theorem pipeOut_clk (ep k : Nat) (l : List Packet) (s : State) : (pipeOut ep k l s).clk = s.clk := by simp [pipeOut]
@[simp] theorem effWsdataDecode_clk (stream leg : Nat) (s : State) : (effWsdataDecode stream leg s).clk = s.clk := by
  unfold effWsdataDecode
  dsimp only
  split <;> simp
@[simp] theorem effStreamEnd_clk (stream : Nat) (s : State) : (effStreamEnd stream s).clk = s.clk := by
  unfold effStreamEnd
  split
  · next h => simp [endStream_clk _ _ _ _ h]
  · simp

/-! ### Switch -/

@[simp] theorem releaseWithheld_clk (p : Nat) (s : State) : (releaseWithheld p s).clk = s.clk := by simp [releaseWithheld]
@[simp] theorem effIngressLookup_clk (ep vl : Nat) (s : State) : (effIngressLookup ep vl s).clk = s.clk := by
  unfold effIngressLookup
  split <;> simp
@[simp] theorem takeFirst_clk (ep tc : Nat) (l : List Nat) (s : State) : (takeFirst ep tc l s).clk = s.clk := by
  induction l generalizing s with
  | nil => rfl
  | cons i rest ih =>
    unfold takeFirst
    have h := takeParked_clk pathLost pathLost_switched i tc s
    dsimp only
    split
    · exact h
    · exact (ih _).trans h
@[simp] theorem effParkedTake_clk (ep cls : Nat) (s : State) : (effParkedTake ep cls s).clk = s.clk := by simp [effParkedTake]
@[simp] theorem effPolicerRetest_clk (ep cls : Nat) (s : State) : (effPolicerRetest ep cls s).clk = s.clk := by
  unfold effPolicerRetest
  split
  · simp [pathLost_switched]
  · simp
@[simp] theorem effInternalSendAdmit_clk (ep cls : Nat) (s : State) : (effInternalSendAdmit ep cls s).clk = s.clk := by
  unfold effInternalSendAdmit
  split
  · simp
  · simp [pathLost_switched]
@[simp] theorem effEgressSend_clk (ep : Nat) (s : State) : (effEgressSend ep s).clk = s.clk := by simp [effEgressSend]
@[simp] theorem effDecodeTableLoad_clk (die slot : Nat) (s : State) : (effDecodeTableLoad die slot s).clk = s.clk := by simp [effDecodeTableLoad]
@[simp] theorem effGateEntryAdvance_clk (ep : Nat) (s : State) : (effGateEntryAdvance ep s).clk = s.clk := by simp [effGateEntryAdvance]
@[simp] theorem effGateListSwitch_clk (ep : Nat) (s : State) : (effGateListSwitch ep s).clk = s.clk := by
  unfold effGateListSwitch
  split <;> simp
@[simp] theorem effPortFlush_clk (ep : Nat) (s : State) : (effPortFlush ep s).clk = s.clk := by
  unfold effPortFlush
  refine clk_of_ite ?_ (clk_of_ite ?_ ?_) <;> simp
@[simp] theorem sampleQueue_clk (k : Nat) (s : State) : (sampleQueue k s).clk = s.clk := by simp [sampleQueue]
@[simp] theorem effTelemetrySample_clk (die : Nat) (s : State) : (effTelemetrySample die s).clk = s.clk := by simp [effTelemetrySample]

/-! ### Tdisp -/

@[simp] theorem setTdi_clk (port vf : Nat) (st : TdiState) (s : State) : (setTdi port vf st s).clk = s.clk := rfl
@[simp] theorem effLockInterfaceRequest_clk (port vf : Nat) (s : State) :
    (effLockInterfaceRequest port vf s).clk = s.clk := by simp [effLockInterfaceRequest]
@[simp] theorem effStartInterfaceRequest_clk (port vf : Nat) (s : State) :
    (effStartInterfaceRequest port vf s).clk = s.clk := by simp [effStartInterfaceRequest]
@[simp] theorem effStopInterfaceRequest_clk (port vf : Nat) (s : State) :
    (effStopInterfaceRequest port vf s).clk = s.clk := by simp [effStopInterfaceRequest]
@[simp] theorem effGetTdispVersion_clk (port vf : Nat) (s : State) : (effGetTdispVersion port vf s).clk = s.clk := by simp [effGetTdispVersion]
@[simp] theorem effGetTdispCapabilities_clk (port vf : Nat) (s : State) :
    (effGetTdispCapabilities port vf s).clk = s.clk := by simp [effGetTdispCapabilities]
@[simp] theorem effGetDeviceInterfaceReport_clk (port vf : Nat) (s : State) :
    (effGetDeviceInterfaceReport port vf s).clk = s.clk := by simp [effGetDeviceInterfaceReport]
@[simp] theorem effGetDeviceInterfaceState_clk (port vf : Nat) (s : State) :
    (effGetDeviceInterfaceState port vf s).clk = s.clk := by simp [effGetDeviceInterfaceState]
@[simp] theorem effTdiError_clk (port vf : Nat) (s : State) : (effTdiError port vf s).clk = s.clk := by
  unfold effTdiError
  dsimp only
  split
  · split <;> simp
  · simp

/-! ### Tier -/

@[simp] theorem setMoves_clk (p : Nat) (f : Move → Move) (s : State) : (setMoves p f s).clk = s.clk := rfl
@[simp] theorem copyOut_clk (m : Move) (data : List Byte) (s : State) : (copyOut m data s).clk = s.clk := by simp [copyOut]
@[simp] theorem readSource_clk (m : Move) (s : State) : (readSource m s).clk = s.clk := by simp [readSource]
@[simp] theorem startCopy_clk (p : Nat) (s : State) : (startCopy p s).clk = s.clk := by
  unfold startCopy
  split <;> simp
theorem demandEvict_clk (p dest : Nat) (s : State) : ∀ r ∈ demandEvict p dest s, r.clk = s.clk := by
  intro t h
  obtain ⟨w, -, hw⟩ := List.exists_of_findSome?_eq_some h
  exact evictOne_clk _ _ _ _ (Option.filter_eq_some_iff.1 hw).1
/-- A move started, or nothing. -/
theorem startCopy_getD_clk {o : Option State} {s : State} (ho : ∀ t ∈ o, t.clk = s.clk) (p : Nat) : ((o.map (startCopy p)).getD s).clk = s.clk := by
  refine getD_clk (fun t h => ?_)
  obtain ⟨x, hx, rfl⟩ := Option.map_eq_some_iff.1 h
  exact (startCopy_clk _ _).trans (ho x hx)
@[simp] theorem effPageMoveStart_clk (page_ dest : Nat) (s : State) : (effPageMoveStart page_ dest s).clk = s.clk := by
  unfold effPageMoveStart
  refine clk_of_ite ?_ ?_
  · simp
  · refine clk_of_ite ?_ ?_
    · refine clk_of_ite ?_ ?_ <;> simp
    · refine clk_of_ite ?_ ?_
      · refine clk_of_ite ?_ ?_
        · exact startCopy_getD_clk (tryMove_clk _ _ _ _ _ _) _
        · rfl
      · exact startCopy_getD_clk (demandEvict_clk _ _ _) _
@[simp] theorem countMoved_clk (m : Move) (s : State) : (countMoved m s).clk = s.clk := by
  unfold countMoved
  split <;> simp
@[simp] theorem flipPage_clk (m : Move) (s : State) : (flipPage m s).clk = s.clk := by simp [flipPage]
@[simp] theorem fillFrame_clk (p : Nat) (data : List Byte) (s : State) : (fillFrame p data s).clk = s.clk := rfl
@[simp] theorem giveUpMove_clk (p : Nat) (s : State) : (giveUpMove p s).clk = s.clk := by simp [giveUpMove]
@[simp] theorem effPageMoveFlip_clk (page_ : Nat) (data : List Byte) (s : State) : (effPageMoveFlip page_ data s).clk = s.clk := by
  unfold effPageMoveFlip
  split
  · simp
  · split
    · split <;> simp
    · simp
@[simp] theorem effPageLost_clk (page_ : Nat) (s : State) : (effPageLost page_ s).clk = s.clk := by
  unfold effPageLost
  split <;> simp
@[simp] theorem effTierHoldTimeout_clk (die : Nat) (s : State) : (effTierHoldTimeout die s).clk = s.clk := by simp [effTierHoldTimeout]
@[simp] theorem endTier_clk (j st : Nat) (s : State) : (endTier j st s).clk = s.clk := by simp [endTier]
@[simp] theorem effTierMove_clk (job : Nat) (s : State) : (effTierMove job s).clk = s.clk := by
  unfold effTierMove
  dsimp only
  split
  · rfl
  · split
    · simp
    · split
      · split <;> simp
      · split
        · simp
        · split
          · rfl
          · split
            · simp
            · split
              · simp
              · split
                · next h => simp [tryMove_clk _ _ _ _ _ _ _ h]
                · simp
@[simp] theorem effTierPrefetch_clk (job : Nat) (s : State) : (effTierPrefetch job s).clk = s.clk := by
  unfold effTierPrefetch
  dsimp only
  split
  · rfl
  · split
    · simp
    · split
      · rfl
      · simp
      · split
        · simp
        · split <;> simp
      · split
        · simp
        · split
          · next h => simp [tryMove_clk _ _ _ _ _ _ _ h]
          · split
            · rfl
            · exact getD_clk (evictOne_clk _ _ _)
@[simp] theorem effTierJobDone_clk (job : Nat) (s : State) : (effTierJobDone job s).clk = s.clk := by
  unfold effTierJobDone
  dsimp only
  split
  · simp
  · split <;> simp
theorem evictFar_clk (c tier : Nat) (s : State) : ∀ r ∈ evictFar c tier s, r.clk = s.clk := by
  intro t h
  obtain ⟨-, h⟩ := Option.ite_none_right_eq_some.1 h
  obtain ⟨p, -, hp⟩ := Option.bind_eq_some_iff.1 h
  exact tryMove_clk _ _ _ _ _ _ _ hp
@[simp] theorem effQuotaEvict_clk (ctx : Nat) (s : State) : (effQuotaEvict ctx s).clk = s.clk := by
  unfold effQuotaEvict
  split
  · split
    · next h => simp [evictOne_clk _ _ _ _ h]
    · rfl
  · split
    · next h => exact evictFar_clk _ _ _ _ h
    · exact getD_clk (evictFar_clk _ _ _)

/-! ### Time -/

@[simp] theorem followerRecord_clk (f : Nat) (corr : Int) (s : State) : (followerRecord f corr s).clk = s.clk := by simp [followerRecord]
theorem checkFollower_cycles (f : Nat) (off : Int) (s : State) : (checkFollower f off s).clk.cycles = s.clk.cycles := by
  unfold checkFollower
  dsimp only
  split
  · simp
  · split
    · split <;> simp
    · rfl
@[simp] theorem effFollowerCheck_cycles (offsets : List Int) (s : State) : (effFollowerCheck offsets s).clk.cycles = s.clk.cycles :=
  foldl_fixes (·.clk.cycles) _ (fun t f => checkFollower_cycles f _ t) _ s
@[simp] theorem holdoverRecord_clk (entered : Bool) (s : State) : (holdoverRecord entered s).clk = s.clk := by simp [holdoverRecord]
theorem effHoldoverEnter_cycles (s : State) : (effHoldoverEnter s).clk.cycles = s.clk.cycles := by
  unfold effHoldoverEnter onlyIf
  split
  · simp
  · rfl
theorem effHoldoverExit_cycles (s : State) : (effHoldoverExit s).clk.cycles = s.clk.cycles := by
  unfold effHoldoverExit onlyIf
  split
  · simp
  · rfl

/-! ### Waiting -/

@[simp] theorem serveMessage_clk (i : Message) (s : State) : (serveMessage i s).clk = s.clk := by
  unfold serveMessage
  split <;> simp
@[simp] theorem serveWaiting_clk (s : State) : (serveWaiting s).clk = s.clk := by simp [serveWaiting]
@[simp] theorem effHandoverDone_clk (s : State) : (effHandoverDone s).clk = s.clk := by
  unfold effHandoverDone
  split <;> simp

/-! ### YStream -/

@[simp] theorem effRecv_clk (site : Site) (s : State) : (effRecv site s).clk = s.clk := by
  unfold effRecv
  refine issue_clk _ _ _ _ (fun x w t => ?_) _ _
  dsimp only
  refine onHandler_keepsClk _ _ _ (fun t h => ?_)
  split
  · split
    · simp
    · split
      · simp
      · split <;> simp
  · split
    · simp
    · split
      · simp
      · split <;> simp
@[simp] theorem takeTag_clk (x : Site) (p : Packet) (tag : Nat) (s : State) : (takeTag x p tag s).clk = s.clk := by
  unfold takeTag
  split <;> simp
@[simp] theorem completeMail_clk (x : Site) (p : Packet) (s : State) : (completeMail x p s).2.clk = s.clk := by
  unfold completeMail
  split
  · dsimp only
    split
    · split
      · next h => exact takeMailIf_clk _ _ _ _ h
      · rfl
    · rfl
  · rfl
@[simp] theorem sendPacket_keepsClk (x : Site) (p : Packet) (s : State) : (sendPacket x p s).KeepsClk s := by
  unfold sendPacket
  dsimp only
  split
  · simp
  · split <;> simp
theorem unlessFifth_keepsClk (s : State) (x : Site) (y : YOut) (hy : y.KeepsClk s) : (unlessFifth s x y).KeepsClk s := by
  unfold unlessFifth
  split
  · split
    · split <;> simp
    · exact hy
  · exact hy
@[simp] theorem effSend_clk (site : Site) (s : State) : (effSend site s).clk = s.clk := by
  refine issue_clk _ _ _ _ (fun x w t => ?_) _ _
  dsimp only
  split
  · simp
  · refine unlessFifth_keepsClk _ _ _ ?_
    split
    · simp
    · split
      · simp
      · split <;> simp
@[simp] theorem effFwd_clk (site : Site) (s : State) : (effFwd site s).clk = s.clk := by
  refine issue_clk _ _ _ _ (fun x w t => onHandler_keepsClk _ _ _ (fun i h => ?_)) _ _
  dsimp only
  split
  · simp
  · refine unlessFifth_keepsClk _ _ _ ?_
    split
    · simp
    · split <;> simp
@[simp] theorem poolRequest_keepsClk (x : Site) (p : Packet) (kind arg : Nat) (s : State) : (poolRequest x p kind arg s).KeepsClk s := by
  unfold poolRequest
  dsimp only
  split
  · split <;> simp
  · split <;> simp
@[simp] theorem effFetch_clk (site : Site) (s : State) : (effFetch site s).clk = s.clk := by
  refine issue_clk _ _ _ _ (fun x w t => ?_) _ _
  dsimp only
  split <;> simp
@[simp] theorem effStore_clk (site : Site) (s : State) : (effStore site s).clk = s.clk := by
  refine issue_clk _ _ _ _ (fun x w t => ?_) _ _
  dsimp only
  split
  · simp
  · split
    · simp
    · split <;> simp
@[simp] theorem clearLines_clk (t a n : Nat) (s : State) : (clearLines t a n s).clk = s.clk := rfl
@[simp] theorem arm_keepsClk (x : Site) (w : Nat) (s : State) : (arm x w s).KeepsClk s := by
  unfold arm
  refine onHandler_keepsClk _ _ _ (fun t h => ?_)
  dsimp only
  split <;> simp
@[simp] theorem effArm_clk (site : Site) (s : State) : (effArm site s).clk = s.clk := by simp [effArm]
@[simp] theorem threadFinish_clk (t status : Nat) (fails : Bool) (s : State) : (finish_ t status fails s).clk = s.clk := by
  unfold finish_
  split <;> simp
@[simp] theorem effDone_clk (site : Site) (s : State) : (effDone site s).clk = s.clk := by
  unfold effDone
  refine issue_clk _ _ _ _ (fun x w t => ?_) _ _
  refine onHandler_keepsClk _ _ _ (fun t h => ?_)
  simp
@[simp] theorem effFail_clk (site : Site) (s : State) : (effFail site s).clk = s.clk := by
  unfold effFail
  refine issue_clk _ _ _ _ (fun x w t => ?_) _ _
  refine onHandler_keepsClk _ _ _ (fun t h => ?_)
  simp
@[simp] theorem effYield_clk (site : Site) (s : State) : (effYield site s).clk = s.clk := by
  unfold effYield
  refine issue_clk _ _ _ _ (fun x w t => ?_) _ _
  dsimp only
  refine onHandler_keepsClk _ _ _ (fun t h => ?_)
  simp
@[simp] theorem effTimer_clk (site : Site) (s : State) : (effTimer site s).clk = s.clk := by
  unfold effTimer
  refine issue_clk _ _ _ _ (fun x w t => ?_) _ _
  dsimp only
  split
  · simp
  · split
    · refine onHandler_keepsClk _ _ _ (fun t h => ?_)
      simp
    · simp

/-! ### Commands and steps -/

theorem unit_clk {ok : Bool} {s t u : State} (h : unit ok s u = .next t) : t.clk = u.clk := by
  rcases unit_cases ok s u with ⟨-, hu⟩ | ⟨-, hu⟩
  · rw [hu] at h
    cases h
    rfl
  · rw [hu] at h
    cases h
/-- A command answers with the clock of its effect, up to the queue. -/
theorem unit_cycles {ok : Bool} {s t u : State} (h : unit ok s u = .next t) (hu : u.clk.cycles = s.clk.cycles) :
    t.clk.cycles = s.clk.cycles := (congrArg Clock.cycles (unit_clk h)).trans hu
/-- No command but those that end or begin the power of S moves the count (R53): all others but
five keep the whole clock. -/
theorem exec_cycles {c : Instr} {s t : State} (h : exec c s = .next t) (hoff : c ≠ .powerOnReset) (htrip : c ≠ .thermalTrip 50)
    (hon : ¬(c = .powerOn ∧ s.boot.pwrgd = false)) : t.clk.cycles = s.clk.cycles := by
  cases c <;> delta exec at h <;> dsimp only at h
  case powerOnReset => exact absurd rfl hoff
  case thermalTrip i =>
    have hi : i ≠ 50 := fun hi => htrip (hi ▸ rfl)
    exact unit_cycles h (congrArg Clock.cycles (effThermalTrip_clk_of_ne hi s))
  case powerOn =>
    have hp : s.boot.pwrgd = true := by simpa using hon
    exact unit_cycles h (by rw [effPowerOn_of_powered hp])
  case bootComplete cols => exact unit_cycles h (effBootComplete_cycles cols s)
  case coreReinitDone bad => exact unit_cycles h (effCoreReinitDone_cycles bad s)
  case followerCheck offs => exact unit_cycles h (effFollowerCheck_cycles offs s)
  case holdoverEnter => exact unit_cycles h (effHoldoverEnter_cycles s)
  case holdoverExit => exact unit_cycles h (effHoldoverExit_cycles s)
  all_goals exact unit_cycles h (congrArg Clock.cycles (by simp))
theorem powerOff_ends (s : State) : (powerOff s).clk.cycles = 0 ∧ (powerOff s).boot.pwrgd = false := ⟨rfl, rfl⟩
/-- The loss of power, by a reset or by the trip of the sensor on S (R567), ends module time. -/
theorem exec_powerLoss {s t : State} (h : exec .powerOnReset s = .next t ∨ exec (.thermalTrip 50) s = .next t) :
    t.clk.cycles = 0 ∧ t.boot.pwrgd = false := by
  have ht : t = (powerOff s).queueOf s := by
    rcases h with h | h
    · cases h
      rfl
    · cases h
      rfl
  rw [ht]
  exact powerOff_ends s
theorem tick_cycles (s : State) : (tick s).clk.cycles = if s.boot.pwrgd then s.clk.cycles + 1 else s.clk.cycles := by
  unfold tick
  split <;> rfl
theorem step_of_empty {s : State} (h : s.pending = []) : step s = .next (tick s) := by
  simp [step, h]
theorem step_of_front {s : State} {c : Instr} {rest : List Instr} (h : s.pending = c :: rest) :
    step s = exec c { s with pending := rest } := by
  simp [step, h]
theorem step_cycles_of_empty {s t : State} (hp : s.pending = []) (h : step s = .next t) :
    t.clk.cycles = if s.boot.pwrgd then s.clk.cycles + 1 else s.clk.cycles := by
  rw [step_of_empty hp] at h
  cases h
  exact tick_cycles s
/-- A step leaves module time or moves it forward, unless its command ends or begins the power of S. -/
theorem step_cycles_le {s t : State} (h : step s = .next t)
    (hfront : ∀ c rest, s.pending = c :: rest → c ≠ .powerOnReset ∧ c ≠ .thermalTrip 50 ∧ ¬(c = .powerOn ∧ s.boot.pwrgd = false)) :
    s.clk.cycles ≤ t.clk.cycles := by
  cases hp : s.pending with
  | nil =>
    rw [step_cycles_of_empty hp h]
    split <;> omega
  | cons c rest =>
    rw [step_of_front hp] at h
    obtain ⟨hoff, htrip, hon⟩ := hfront c rest hp
    exact (exec_cycles h hoff htrip hon).ge
/-- Module time is the count times 6.4, rounded down (R52). -/
theorem timeOf_eq (n : Nat) : timeOf n = n * 64 / 10 % 2 ^ 64 := by
  rw [timeOf, show n * 32 / 5 = n * 64 / 10 by omega]

end Sys2Proof.Machine

namespace Sys2Proof
open Machine

/-- Settles O6: each operation of the model keeps the clock, or its count of cycles
(`exec_cycles`, R53), and an empty queue spends one cycle (log 2), so a step never moves the
count back; the power of S begins it at zero (R538) and its loss ends it (R567). -/
theorem moduleTimeOnlyMovesForward : Obligations.ModuleTimeOnlyMovesForward := by
  unfold Obligations.ModuleTimeOnlyMovesForward
  refine ⟨?starts, ?kept, ?ends, ?cycle, ?forward, ?time⟩
  case starts => exact fun s hs => ⟨_, rfl, effPowerOn_starts hs⟩
  case kept => exact fun c s t h hoff htrip hon => exec_cycles h hoff htrip hon
  case ends => exact fun s t h => exec_powerLoss h
  case cycle => exact fun s t hp h => step_cycles_of_empty hp h
  case forward => exact fun s t h hfront => step_cycles_le h hfront
  case time => exact fun s => timeOf_eq s.clk.cycles

end Sys2Proof
end

section
/-!
ALERT_L and its causes (R568): the bits of MODSTAT that Table 16-6 names, read off a word of
flags, and the level of the pin while S has power.
-/
namespace Sys2Proof.Machine

/-! ### Bits of a word of flags -/

theorem fld_succ (w i len : Nat) : fld w (i + 1) len = fld (w / 2) i len := by
  simp only [fld, Nat.shiftRight_succ_inside]
theorem bit_succ (w i : Nat) : bit w (i + 1) = bit (w / 2) i := by
  simp only [bit, fld_succ]
theorem b2n_lt_two (b : Bool) : b2n b < 2 := by
  cases b <;> decide
@[simp] theorem bit_flag_zero (b : Bool) (w : Nat) : bit (b2n b + 2 * w) 0 = b := by
  have hfld : fld (b2n b + 2 * w) 0 1 = b2n b := by
    simp [fld, Nat.mod_eq_of_lt (b2n_lt_two b)]
  rw [bit, hfld]
  cases b <;> rfl
@[simp] theorem bit_flag_succ (b : Bool) (w i : Nat) : bit (b2n b + 2 * w) (i + 1) = bit w i := by
  have hrest : (b2n b + 2 * w) / 2 = w := by
    have := b2n_lt_two b
    omega
  rw [bit_succ, hrest]

/-! ### MODSTAT (Table 16-6) -/

/-- MODSTAT of a port as its flags, one above the other from bit 0, with the stage above them. -/
theorem modstat_flags (s : State) (port : Nat) :
    modstat s port = b2n s.boot.coreUp + 2 * (b2n s.boot.full + 2 * (b2n s.clk.holdover + 2 * (b2n (throttle s)
      + 2 * (b2n (s.hst.owner == port + 1) + 2 * (b2n (s.hst.owner != 0 && s.hst.owner != port + 1)
      + 2 * (b2n (s.hst.modstat.contains (16 * port + 6)) + 2 * (b2n (s.hst.modstat.contains (16 * port + 7))
      + 2 * (b2n (s.hst.modstat.contains (16 * port + 8)) + 2 * (8 * s.boot.stage))))))))) := by
  unfold modstat
  omega
/-- THROTTLE is the same on both ports. -/
@[simp] theorem bit_modstat_throttle (s : State) (port : Nat) : bit (modstat s port) 3 = throttle s := by
  simp [modstat_flags]
/-- CAPACITY is kept per port. -/
@[simp] theorem bit_modstat_capacity (s : State) (port : Nat) :
    bit (modstat s port) 6 = s.hst.modstat.contains (16 * port + 6) := by
  simp [modstat_flags]
/-- CRITICAL is kept per port. -/
@[simp] theorem bit_modstat_critical (s : State) (port : Nat) :
    bit (modstat s port) 7 = s.hst.modstat.contains (16 * port + 7) := by
  simp [modstat_flags]

/-! ### The level of ALERT_L -/

/-- A cause of ALERT_L that stands in MODSTAT of a port. -/
def ModAlert (s : State) (port : Nat) : Prop :=
  bit (modstat s port) 3 = true ∨ bit (modstat s port) 6 = true ∨ bit (modstat s port) 7 = true
theorem modAlert_iff (s : State) (port : Nat) :
    ModAlert s port ↔ throttle s = true ∨ 16 * port + 6 ∈ s.hst.modstat ∨ 16 * port + 7 ∈ s.hst.modstat := by
  simp [ModAlert]
theorem modAlert_either_port (s : State) :
    (∃ port < 2, ModAlert s port) ↔
      throttle s = true ∨ ∃ i ∈ [6, 7, 22, 23], i ∈ s.hst.modstat := by
  have hports : (∃ port < 2, ModAlert s port) ↔ ModAlert s 0 ∨ ModAlert s 1 := by
    simp only [Nat.exists_lt_succ_right, Nat.not_lt_zero, false_and, exists_false, false_or]
  rw [hports, modAlert_iff, modAlert_iff, ← or_or_distrib_left]
  simp [or_assoc]
theorem alertL_low_iff {s : State} (hpower : s.boot.pwrgd = true) :
    alertL s = false ↔
      (∃ port < 2, ModAlert s port) ∨ s.chv.inputHigh = true ∨ s.chv.inputLow = true := by
  rw [modAlert_either_port, alertL, Bool.not_eq_false']
  simp [hpower, or_assoc]

end Sys2Proof.Machine

namespace Sys2Proof
open Machine

/-- Settles O8: the pin's level is computed from THROTTLE, the CAPACITY and CRITICAL bits kept
per port (log 54) and the limits of the input, and those bits are MODSTAT's bits 3, 6 and 7. -/
theorem alertFollowsItsCauses : Obligations.AlertFollowsItsCauses := by
  unfold Obligations.AlertFollowsItsCauses
  exact fun s hpower => alertL_low_iff hpower

end Sys2Proof
end

section
/-!
EVPOST of a control thread (R585): what the issue of a control thread's word comes to, where the
recorder puts a record that it stores, and what EVPOST answers.
-/
namespace Sys2Proof.Machine

/-! ### The step of a control thread -/

@[simp] theorem sreg_setS_thread_same (h i : Nat) (v : Word) (s : State) :
    sreg (setS (.thread h) i v s) (.thread h) i = v := by
  simp [sreg, setS]
@[simp] theorem setS_thread_evr (h i : Nat) (v : Word) (s : State) : (setS (.thread h) i v s).evr = s.evr := rfl
@[simp] theorem setS_thread_hst (h i : Nat) (v : Word) (s : State) : (setS (.thread h) i v s).hst = s.hst := rfl
@[simp] theorem siteStep_thread_evr (h : Nat) (s : State) : (siteStep (.thread h) s).evr = s.evr := rfl
@[simp] theorem siteStep_thread_hst (h : Nat) (s : State) : (siteStep (.thread h) s).hst = s.hst := rfl
@[simp] theorem siteStep_thread_recDie (h : Nat) (s : State) (die : Nat) :
    (siteStep (.thread h) s).recDie die = s.recDie die := rfl
@[simp] theorem siteStep_thread_recFull (h : Nat) (s : State) (die : Nat) :
    recFull (siteStep (.thread h) s) die = recFull s die := rfl
/-- The step moves the program counter and the turn, and no register. -/
@[simp] theorem sreg_siteStep_thread (h i : Nat) (s : State) :
    sreg (siteStep (.thread h) s) (.thread h) i = sreg s (.thread h) i := by
  have hregs : (siteStep (.thread h) s).thread h = { s.thread h with pc := (s.thread h).pc + 1 } :=
    State.setThread_same s h _
  simp [sreg, siteThread, hregs]
@[simp] theorem memAddrB_siteStep_thread (h w : Nat) (s : State) :
    memAddrB (siteStep (.thread h) s) (.thread h) w = memAddrB s (.thread h) w := by
  simp [memAddrB]
/-- What a control thread may address does not depend on the state (R222, R236). -/
@[simp] theorem memOk_siteStep_thread (h a n align : Nat) (s : State) :
    memOk (siteStep (.thread h) s) (.thread h) a n align = memOk s (.thread h) a n align := rfl
/-- Shadow records are of tiles alone (R517). -/
@[simp] theorem traceItem_thread (h : Nat) (i : Traced) (s : State) : traceItem (.thread h) i s = s := rfl
@[simp] theorem traceResult_thread (h w : Nat) (s : State) : traceResult (.thread h) w s = s := rfl
@[simp] theorem noteEffect_thread (h w : Nat) (s : State) : noteEffect (.thread h) w s = s := by
  simp [noteEffect]
@[simp] theorem noteIssue_thread (h w : Nat) (s t : State) : noteIssue (.thread h) w s t = t := by
  unfold noteIssue
  split <;> simp
/-- A control thread at a word of the row does what the row's body says of the stepped state. -/
theorem issue_thread {opc h w : Nat} {prof : Site → Bool} {used : Nat → Nat} {body : Site → Nat → State → YOut} {s t : State}
    (hword : AtWord s (.thread h) opc used w) (hprof : prof (.thread h) = true)
    (hbody : body (.thread h) w (siteStep (.thread h) s) = .next t) : issue opc prof used body (.thread h) s = t := by
  obtain ⟨-, hready, hfetch, hopc, hused⟩ := hword
  simp [issue, hready, hfetch, hopc, hused, hprof, hbody]

/-! ### A record stored in a ring (R577, R578) -/

theorem ringWrite_at_wpos (die : Nat) (r : Record) (s : State) :
    mfind? (ringSize * die + (s.recDie die).wpos) (ringWrite die r s).evr.rings = some ⟨lapMark (s.recDie die).lap, r⟩ :=
  mfind_mput_same _ _ _
theorem keepRecord_of_stored {s : State} (hfrozen : s.evr.frozen = false) (die : Nat) (r : Record) :
    keepRecord die false r s = ringWrite die r s := by
  simp [keepRecord, hfrozen]
/-- The record that a die generates, under its next sequence number (R576, R578). -/
def newRecord (s : State) (die code sev p0 p1 p2 p3 : Nat) : Record :=
  { sev := sev, die := die, code := code, time := now s % 2 ^ 48, seq := (s.recDie die).nextSeq,
    p0 := p0 % 2 ^ 32, p1 := p1 % 2 ^ 32, p2 := p2 % 2 ^ 32, p3 := p3 % 2 ^ 32 }
/-- A die's recorder with one more record in its queue (R578, R579). -/
def queueRecord (s : State) (die : Nat) : RecDie :=
  { s.recDie die with
    nextSeq := ((s.recDie die).nextSeq + 1) % 65536, busyTo := max (s.recDie die).busyTo (now s) + 20 }

section
variable {s : State} {die : Nat} (hfrozen : s.evr.frozen = false) (hfull : recFull s die = false)
include hfrozen hfull

/-- A generated record is stored unless the recorder is frozen or its queue is full; the flag and the
archive of a critical one stand outside the rings (R579, R581, R583). -/
theorem emit_rings_of_stored (code sev p0 p1 p2 p3 : Nat) :
    (emit die code sev p0 p1 p2 p3 s).evr.rings =
      (ringWrite die (newRecord s die code sev p0 p1 p2 p3) (s.setRecDie die (queueRecord s die))).evr.rings := by
  have hstored := keepRecord_of_stored (s := s.setRecDie die (queueRecord s die)) hfrozen die
  rw [← hstored]
  simp only [emit, hfull]
  split
  · rw [setModBit_evr]
    rfl
  · rfl
/-- It takes the next position of the die's ring. -/
theorem emit_rings_at_wpos (code sev p0 p1 p2 p3 : Nat) :
    ∃ mark, mfind? (ringSize * die + (s.recDie die).wpos) (emit die code sev p0 p1 p2 p3 s).evr.rings =
      some ⟨mark, newRecord s die code sev p0 p1 p2 p3⟩ := by
  have hat := ringWrite_at_wpos die (newRecord s die code sev p0 p1 p2 p3) (s.setRecDie die (queueRecord s die))
  rw [State.setRecDie_same, ← emit_rings_of_stored hfrozen hfull] at hat
  exact ⟨_, hat⟩

end

/-! ### The answer of EVPOST (R585) -/

/-- Control thread h stands on an EVPOST word whose registers are scalar and whose parameters it may read. -/
structure AtPost (s : State) (h w : Nat) : Prop where
  word : AtWord s (.thread h) 0xEB (fun _ => fOpc + fD + fA + fB + fImm) w
  status : wD w < 8
  post : wA w < 8
  base : wB w < 8
  params : memOk s (.thread h) (memAddrB s (.thread h) w) 16 8 = true
/-- The code that it posts (R585). -/
def postCode (s : State) (h w : Nat) : Nat := (sreg s (.thread h) (wA w)).toNat % 65536
/-- The severity that it posts. -/
def postSev (s : State) (h w : Nat) : Nat := fld (sreg s (.thread h) (wA w)).toNat 16 4
/-- The 16 bytes of parameters that it posts with. -/
def postParams (s : State) (h w : Nat) : List Byte :=
  readMem (siteStep (.thread h) s) (.thread h) (memAddrB s (.thread h) w) 16
/-- Status VIOLATION of a post, of which nothing but the thread's own step is left. -/
def postRefused (s : State) (h w : Nat) : State :=
  setS (.thread h) (wD w) (BitVec.ofNat 64 stViolation) (siteStep (.thread h) s)

theorem AtPost.site {s : State} {h w : Nat} (hp : AtPost s h w) : isSite (.thread h) = true := hp.word.1
theorem AtPost.thread_lt {s : State} {h w : Nat} (hp : AtPost s h w) : h < 256 := by
  simpa [isSite] using hp.site
theorem threadDie_of_control {h : Nat} (hh : h < 256) : threadDie h = if h < 128 then 4 else 5 := by
  simp [threadDie, hh]
theorem postRefused_spec (s u : State) (h w : Nat) :
    sreg ((postRefused s h w).queueOf u) (.thread h) (wD w) = BitVec.ofNat 64 stViolation ∧
      ((postRefused s h w).queueOf u).evr = s.evr ∧ ((postRefused s h w).queueOf u).hst = s.hst :=
  ⟨sreg_setS_thread_same _ _ _ _, by simp [postRefused], by simp [postRefused]⟩

section
variable {s : State} {h w : Nat} (hp : AtPost s h w)
include hp

/-- A severity above 3 is refused, whatever the code. -/
theorem evpost_of_high_severity (hsev : 3 < postSev s h w) :
    evpost (postKind (postCode s h w)) (.thread h) s = postRefused s h w := by
  obtain ⟨hword, hd, ha, hb, hmem⟩ := hp
  refine issue_thread hword rfl ?_
  simp only [postSev, postCode] at hsev ⊢
  simp [result, postRefused, okS, hd, ha, hb, hmem, hsev]
/-- At a severity of up to 3 the answer is the post's own, unless the code freezes or thaws. -/
theorem evpost_of_low_severity {st : Nat} {t : State} (hkind : postKind (postCode s h w) = 0) (hsev : postSev s h w ≤ 3)
    (hpost : postBy h (postCode s h w) (postSev s h w) (postParams s h w) (siteStep (.thread h) s) = (st, t)) :
    evpost 0 (.thread h) s = setS (.thread h) (wD w) (BitVec.ofNat 64 st) t := by
  obtain ⟨hword, hd, ha, hb, hmem⟩ := hp
  refine issue_thread hword rfl ?_
  simp only [postSev, postCode, postParams] at hkind hsev hpost ⊢
  simp [result, siteThread, okS, hd, ha, hb, hmem, hkind, hsev, hpost]
theorem evpost_of_low_code (hkind : postKind (postCode s h w) = 0) (hcode : postCode s h w < 0x8000) (hsev : postSev s h w ≤ 3) :
    evpost 0 (.thread h) s = postRefused s h w :=
  evpost_of_low_severity hp hkind hsev (if_pos hcode)
/-- A code below 0x8000 or a severity above 3 is refused (R585). -/
theorem evpost_refuses (hkind : postKind (postCode s h w) = 0) (hbad : postCode s h w < 0x8000 ∨ 3 < postSev s h w) :
    evpost 0 (.thread h) s = postRefused s h w := by
  by_cases hsev : 3 < postSev s h w
  · exact hkind ▸ evpost_of_high_severity hp hsev
  · exact evpost_of_low_code hp hkind (hbad.resolve_right hsev) (Nat.le_of_not_lt hsev)
/-- A code from 0x8000 on, at a severity of up to 3, becomes a record of the thread's core die (R585, R609). -/
theorem evpost_emits (hcode : 0x8000 ≤ postCode s h w) (hsev : postSev s h w ≤ 3) :
    ∃ p0 p1 p2 p3, evpost 0 (.thread h) s = setS (.thread h) (wD w) (BitVec.ofNat 64 stOK)
      (emit (threadDie h) (postCode s h w) (postSev s h w) p0 p1 p2 p3 (siteStep (.thread h) s)) := by
  have hkind : postKind (postCode s h w) = 0 := by
    rw [postKind, if_neg (by omega), if_neg (by omega)]
  exact ⟨_, _, _, _, evpost_of_low_severity hp hkind hsev (if_neg (Nat.not_lt.mpr hcode))⟩
theorem evpost_stores (hcode : 0x8000 ≤ postCode s h w) (hsev : postSev s h w ≤ 3) (hfrozen : s.evr.frozen = false)
    (hfull : recFull s (threadDie h) = false) :
    sreg (evpost 0 (.thread h) s) (.thread h) (wD w) = BitVec.ofNat 64 stOK ∧
      ∃ r, mfind? (ringSize * threadDie h + (s.recDie (threadDie h)).wpos) (evpost 0 (.thread h) s).evr.rings = some r ∧
        r.r.code = postCode s h w ∧ r.r.sev = postSev s h w ∧ r.r.die = threadDie h ∧
        r.r.seq = (s.recDie (threadDie h)).nextSeq := by
  obtain ⟨p0, p1, p2, p3, hpost⟩ := evpost_emits hp hcode hsev
  obtain ⟨mark, hat⟩ := emit_rings_at_wpos (s := siteStep (.thread h) s) (by simpa using hfrozen) (by simpa using hfull)
    (postCode s h w) (postSev s h w) p0 p1 p2 p3
  rw [hpost]
  exact ⟨sreg_setS_thread_same _ _ _ _, _, by simpa using hat, rfl, rfl, rfl, by simp [newRecord]⟩

end

end Sys2Proof.Machine

namespace Sys2Proof
open Machine

/-- Settles O9: the issue of an EVPOST word comes down to the row's body on the stepped state
(`issue_thread`); that body refuses by severity before it looks at the code and refuses a low code of
its own (`evpost_refuses`), and otherwise emits a record of the thread's core die, whose status stands
in sD (log 44) and which the recorder puts at the next position of that die (`emit_rings_at_wpos`). -/
theorem postsBelowTheirRangeAreRefused : Obligations.PostsBelowTheirRangeAreRefused := by
  unfold Obligations.PostsBelowTheirRangeAreRefused
  intro h w s _ hword hd ha hb hmem
  have hp : AtPost s h w := ⟨hword, hd, ha, hb, hmem⟩
  rw [← threadDie_of_control hp.thread_lt]
  refine ⟨?other, ?freeze, ?thaw, ?stored⟩
  case other =>
    intro hfreeze hthaw hbad
    have hkind : postKind (postCode s h w) = 0 := (if_neg hfreeze).trans (if_neg hthaw)
    refine ⟨_, unit_ok hp.site _ _, ?_⟩
    rw [effEvpost, evpost_refuses hp hkind hbad]
    exact postRefused_spec s s h w
  case freeze =>
    intro hcode hsev
    have hkind : postKind (postCode s h w) = 1 := if_pos hcode
    refine ⟨_, unit_ok hp.site _ _, ?_⟩
    rw [effFreeze, ← hkind, evpost_of_high_severity hp hsev]
    exact (postRefused_spec s s h w).imp_right And.left
  case thaw =>
    intro hcode hsev
    have hkind : postKind (postCode s h w) = 2 := by
      rw [show postCode s h w = 0x1102 from hcode]
      rfl
    refine ⟨_, unit_ok hp.site _ _, ?_⟩
    rw [effThaw, ← hkind, evpost_of_high_severity hp hsev]
    exact (postRefused_spec s s h w).imp_right And.left
  case stored =>
    intro hcode hsev hfrozen hfull
    exact ⟨_, unit_ok hp.site _ _, evpost_stores hp hcode hsev hfrozen hfull⟩

end Sys2Proof
end
